-- ==== Sys2Proof/Word.lean ====
section
/-! DEFINITION. The word types of the ZV-80 model: bytes, and sparse tables keyed by a number. -/

namespace Sys2Proof

/-- A byte. -/
abbrev Byte := BitVec 8

/-- A byte string, first byte first (lowest address first). -/
abbrev Bytes := List (BitVec 8)

/-- A sparse table: objects that exist, by number, in ascending order. -/
abbrev Tab (α : Type) := List (Nat × α)

/-- A memory: the bytes that differ from what an unlisted address reads as, in ascending address order. -/
abbrev Mem := List (Nat × BitVec 8)

end Sys2Proof
end

