-- ==== Sys2Proof/Syntax.lean ====
section
/-! DEFINITION. The commands and events of the ZV-80: one constructor of `Instr` for each row of the table of
operations. Every command carries the instant `t` at which it happens, in ns of Cambium time. -/

namespace Sys2Proof

/-- Who reads or writes a register: the PF, a VF, or the BMC over SMBus (00 R6). -/
inductive Requester where
  | pf
  | vf (n : Fin 128)
  | smb
  deriving DecidableEq, Repr

/-- How a PCIe read of host memory fails (08 R259; kinds of 13 Table 13-10). -/
inductive HostFail where
  | unsupportedRequest
  | completerAbort
  | poisonedTlp
  | completionTimeout
  deriving DecidableEq, Repr

/-- The pilot pattern that a correlator matches (04 R107). -/
inductive Pilot where
  | train
  | beacon
  | wake
  deriving DecidableEq, Repr

/-- A HELLO management message (04 Table 4-6). -/
structure Hello where
  chipId : Nat
  port : Nat
  maxGrade : Nat
  targetGrade : Nat
  qualified : Bool
  lowCapable : Bool
  qualifiedMask : Nat
  symbol : Nat
  nonce : Nat
  deriving DecidableEq, Repr

/-- How a management frame arrived (04 R103 to R105): its SEQ, whether its CRC-32 passes, and the spreading factor it was found at. -/
structure Frame where
  seq : Fin 256
  intact : Bool
  sf : Nat
  deriving DecidableEq, Repr

/-- A management frame that a port received. -/
structure PortFrame where
  port : Fin 8
  frame : Frame
  deriving DecidableEq, Repr

/-- A flit that a port received: its 272 bytes, and the lanes whose symbols had a framing word or block in error (04 R100, R120). -/
structure FlitHeard where
  bytes : List (BitVec 8)
  laneErrs : List (Fin 9)
  deriving DecidableEq, Repr

/-- What a pilot correlation tells of a lane beside its pattern (04 R108): the polarity and the symbol timing in ns. -/
structure PilotHeard where
  inverted : Bool
  timing : Nat
  deriving DecidableEq, Repr

/-- A register access (00 R5): an offset, read 32 bits wide or, `wide`, as an aligned 64-bit pair. -/
structure RegRead where
  off : Nat
  wide : Bool
  deriving DecidableEq, Repr

/-- How far the sweep of a partition has come (07 R223). -/
structure SweepPoint where
  part : Fin 128
  upTo : Nat
  deriving DecidableEq, Repr

/-- A BIT_TABLE management message (04 Table 4-6): one entry byte per bin 16 to 495. -/
structure BitTable where
  lane : Fin 9
  tableId : Nat
  grade : Nat
  runningSf : Nat
  swapSymbol : Nat
  totalBits : Nat
  entries : List (BitVec 8)
  deriving DecidableEq, Repr

/-- The answer of a TABLE_ACK (04 Table 4-6). -/
inductive TableResult where
  | ack
  | nakLate
  | nakInvalid
  | nakBusy
  deriving DecidableEq, Repr

/-- What the SPI controller and the memory trainer find at boot (15 R450, R452, R458): the outcome of the physical
steps; the bytes of the flash are the state's. -/
structure BootProbe where
  sfdpValid : Bool
  quadMode : Bool
  spiErrorA : Bool
  spiErrorB : Bool
  stacksFailed : BitVec 6
  heartwoodPasses : Bool
  deriving DecidableEq, Repr

/-- The straps sampled at the release of CMB_POR_N (14 R419). -/
structure Straps where
  testN : Bool
  smbAddr : Fin 8
  pcieSris : Bool
  deriving DecidableEq, Repr

/-- A core's integer registers and trap CSRs as a halt finds them (13 Table 13-5). -/
structure CoreRegs where
  pc : BitVec 32
  x : List (BitVec 32)
  mcause : BitVec 32
  mepc : BitVec 32
  mtval : BitVec 32
  mstatus : BitVec 32
  deriving DecidableEq, Repr

/-- What the exporting chip's Root answers to an import query (06 R174). -/
structure ExportInfo where
  partition : Nat
  offset : Nat
  length : Nat
  rights : Nat
  generation : BitVec 8
  deriving DecidableEq, Repr

/-- One memory error (07 R214 to R216): the device line, or the scratchpad line (08 R253), and whether the code corrects it; `found`
by the pass, or else left for the next access or pass. -/
structure ScrubError where
  line : Nat
  corrected : Bool
  found : Bool
  scratch : Bool
  deriving DecidableEq, Repr

/-- A debug hart: a bough's twig core or the Root core (12 R367). -/
inductive Hart where
  | twig (b : Fin 64)
  | root
  deriving DecidableEq, Repr

/-- The commands and events, one per row of the table of operations. Log entry 138 (DESIGN CHOICE). -/
inductive Instr where
  -- general mailbox commands (02 Table 2-10)
  | getInfo (t : Nat) (ch : Fin 130)
  | getCommands (t : Nat) (ch : Fin 130)
  | ticketStatus (t : Nat) (ch : Fin 130)
  | ticketResult (t : Nat) (ch : Fin 130)
  | timeGet (t : Nat) (ch : Fin 130)
  | echo (t : Nat) (ch : Fin 130)
  -- partitions and memory (02 Table 2-11)
  | partCreate (t : Nat) (ch : Fin 130)
  | partDestroy (t : Nat) (ch : Fin 130)
  | partQuery (t : Nat) (ch : Fin 130)
  | memAlloc (t : Nat) (ch : Fin 130)
  | memFree (t : Nat) (ch : Fin 130)
  | windowExport (t : Nat) (ch : Fin 130)
  | windowImport (t : Nat) (ch : Fin 130)
  | windowRevoke (t : Nat) (ch : Fin 130)
  | lendOffer (t : Nat) (ch : Fin 130)
  | residencyPlan (t : Nat) (ch : Fin 130)
  | memStatus (t : Nat) (ch : Fin 130)
  | windowUnimport (t : Nat) (ch : Fin 130)
  -- queues (02 Table 2-12)
  | queueCreate (t : Nat) (ch : Fin 130)
  | queueDestroy (t : Nat) (ch : Fin 130)
  | queueQuery (t : Nat) (ch : Fin 130)
  -- keys (02 Table 2-13)
  | keyLoad (t : Nat) (ch : Fin 130)
  | keyReplace (t : Nat) (ch : Fin 130)
  | keyDestroy (t : Nat) (ch : Fin 130)
  | keyQuery (t : Nat) (ch : Fin 130)
  | mbxKeySet (t : Nat) (ch : Fin 130)
  -- links and routes (02 Table 2-14)
  | linkTrain (t : Nat) (ch : Fin 130)
  | linkRetrain (t : Nat) (ch : Fin 130)
  | linkDown (t : Nat) (ch : Fin 130)
  | linkStatus (t : Nat) (ch : Fin 130)
  | linkSecuritySet (t : Nat) (ch : Fin 130)
  | linkRekey (t : Nat) (ch : Fin 130)
  | routeSet (t : Nat) (ch : Fin 130)
  | bundleSet (t : Nat) (ch : Fin 130)
  -- collectives (02 Table 2-15)
  | groupCreate (t : Nat) (ch : Fin 130)
  | groupDestroy (t : Nat) (ch : Fin 130)
  | groupQuery (t : Nat) (ch : Fin 130)
  -- token engine (02 Table 2-16)
  | vocabLoad (t : Nat) (ch : Fin 130)
  | grammarLoad (t : Nat) (ch : Fin 130)
  | grammarUnload (t : Nat) (ch : Fin 130)
  | streamOpen (t : Nat) (ch : Fin 130)
  | streamClose (t : Nat) (ch : Fin 130)
  -- grove and twin (02 Table 2-17)
  | groveJoin (t : Nat) (ch : Fin 130)
  | groveLeave (t : Nat) (ch : Fin 130)
  | peerNotify (t : Nat) (ch : Fin 130)
  | twinPair (t : Nat) (ch : Fin 130)
  | mirrorSet (t : Nat) (ch : Fin 130)
  | twinFailover (t : Nat) (ch : Fin 130)
  -- observation (02 Table 2-18)
  | counterConfig (t : Nat) (ch : Fin 130)
  | traceConfig (t : Nat) (ch : Fin 130)
  | cutArm (t : Nat) (ch : Fin 130)
  | cutRelease (t : Nat) (ch : Fin 130)
  | ringRead (t : Nat) (ch : Fin 130)
  | journalConfig (t : Nat) (ch : Fin 130)
  -- faults and resets (02 Table 2-19)
  | resetBough (t : Nat) (ch : Fin 130)
  | resetCrown (t : Nat) (ch : Fin 130)
  | resetDevice (t : Nat) (ch : Fin 130)
  | escalationSet (t : Nat) (ch : Fin 130)
  | errlogRead (t : Nat) (ch : Fin 130)
  | coreSampleRead (t : Nat) (ch : Fin 130)
  | quarantineReplay (t : Nat) (ch : Fin 130)
  | returnToService (t : Nat) (ch : Fin 130)
  -- power (02 Table 2-20)
  | powerLimitSet (t : Nat) (ch : Fin 130)
  | powerStateSet (t : Nat) (ch : Fin 130)
  | thermalQuery (t : Nat) (ch : Fin 130)
  -- firmware and logs (02 Table 2-21)
  | fwStage (t : Nat) (ch : Fin 130)
  | fwActivate (t : Nat) (ch : Fin 130)
  | rollbackAdvance (t : Nat) (ch : Fin 130)
  | refusalLogRead (t : Nat) (ch : Fin 130)
  -- mailbox registers and events (02)
  | go (t : Nat) (ch : Fin 130) (alsoRelease : Bool)
  | release (t : Nat) (ch : Fin 130)
  | evqTail (t : Nat) (ch : Fin 130) (v : BitVec 32)
  | registerWrite (t : Nat) (r : Requester) (off : Nat) (v : BitVec 32)
  | lowWordRead (t : Nat) (r : Requester) (at_ : RegRead)
  | bmcStatusRead (t : Nat)
  | refusalResponse (t : Nat) (ch : Fin 130)
  | longCommandComplete (t : Nat) (ch : Fin 130) (ticket : Nat) (testPasses : Bool)
  | smbusWindowOffset (t : Nat) (v : BitVec 16) (pec : BitVec 8)
  | smbusBlockWrite (t : Nat) (data : List (BitVec 8)) (pec : BitVec 8)
  | smbusBlockRead (t : Nat) (pec : BitVec 8)
  | wake (t : Nat) (pec : BitVec 8)
  | powerStatus (t : Nat) (pec : BitVec 8)
  -- queues and records (08)
  | doorbell (t : Nat) (r : Requester) (n : Fin 128) (q : Fin 16) (v : BitVec 32)
  | nop (t : Nat) (n : Fin 128) (q : Fin 16) (host : List (BitVec 8))
  | matmul (t : Nat) (n : Fin 128) (q : Fin 16) (host : List (BitVec 8))
  | vec (t : Nat) (n : Fin 128) (q : Fin 16) (host : List (BitVec 8))
  | attend (t : Nat) (n : Fin 128) (q : Fin 16) (host : List (BitVec 8))
  | sample (t : Nat) (n : Fin 128) (q : Fin 16) (host : List (BitVec 8))
  | convert (t : Nat) (n : Fin 128) (q : Fin 16) (host : List (BitVec 8))
  | copy (t : Nat) (n : Fin 128) (q : Fin 16) (host data : List (BitVec 8))
  | fill (t : Nat) (n : Fin 128) (q : Fin 16) (host : List (BitVec 8))
  | remoteOp (t : Nat) (n : Fin 128) (q : Fin 16) (host : List (BitVec 8))
  | prefetch (t : Nat) (n : Fin 128) (q : Fin 16) (host : List (BitVec 8))
  | collective (t : Nat) (n : Fin 128) (q : Fin 16) (host : List (BitVec 8))
  | tokenize (t : Nat) (n : Fin 128) (q : Fin 16) (host : List (BitVec 8))
  | step (t : Nat) (n : Fin 128) (q : Fin 16) (host : List (BitVec 8))
  | recordSkip (t : Nat) (n : Fin 128) (q : Fin 16) (host : List (BitVec 8))
  | recordComplete (t : Nat) (n : Fin 128) (q : Fin 16) (number : BitVec 32)
  | hostAccessFail (t : Nat) (n : Fin 128) (q : Fin 16) (kind : HostFail) (host data : List (BitVec 8))
  -- token engine events (10)
  | maskReady (t : Nat) (stream : Nat)
  | runaheadBuild (t : Nat) (stream : Nat)
  -- remote transactions (06)
  | remoteRequest (t : Nat)
  | denialReady (t : Nat)
  | remoteResponse (t : Nat)
  | messageForward (t : Nat)
  | remoteTimeout (t : Nat) (tag : Nat)
  | messageHoldExpire (t : Nat)
  | tagQuarantineExpire (t : Nat) (tag : Nat)
  | readAheadExpire (t : Nat)
  -- link layer (05)
  | flitCompose (t : Nat) (p : Fin 8)
  | flitReceive (t : Nat) (p : Fin 8) (flit : FlitHeard)
  | nakResend (t : Nat) (p : Fin 8)
  | ackTimer (t : Nat) (p : Fin 8)
  | replayTimer (t : Nat) (p : Fin 8)
  | keepaliveNull (t : Nat) (p : Fin 8)
  | linkDownTimeout (t : Nat) (p : Fin 8)
  | landingSpill (t : Nat) (p : Fin 8) (v : Fin 8)
  | flitDeliver (t : Nat) (p : Fin 8) (v : Fin 8)
  | stallTakeEffect (t : Nat) (p : Fin 8) (v : Fin 8)
  | wedgeClear (t : Nat) (p : Fin 8) (v : Fin 8)
  | epochAdvance (t : Nat) (p : Fin 8)
  | rekeyStart (t : Nat) (p : Fin 8)
  | secHello (t : Nat) (p : Fin 8)
  | secProof (t : Nat) (p : Fin 8)
  | secFinish (t : Nat) (p : Fin 8)
  | secAbort (t : Nat) (p : Fin 8)
  | handshakeTimeout (t : Nat) (p : Fin 8)
  | prevKeyZeroise (t : Nat) (p : Fin 8)
  -- lanes and training (04)
  | energyDetect (t : Nat) (p : Fin 8) (lane : Fin 9)
  | laneQualify (t : Nat) (p : Fin 8) (lane : Fin 9) (partner : Fin 9) (pattern : Pilot) (pilot : PilotHeard)
  | falseWake (t : Nat) (p : Fin 8) (lane : Fin 9)
  | hello (t : Nat) (f : PortFrame) (m : Hello)
  | phase (t : Nat) (f : PortFrame) (state grade at_symbol : Nat)
  | bitTable (t : Nat) (f : PortFrame) (m : BitTable) (ackEndSymbol : Nat)
  | tableAck (t : Nat) (f : PortFrame) (lane : Fin 9) (tableId : Nat) (result : TableResult) (swapSymbol : Nat)
  | spareSwap (t : Nat) (f : PortFrame) (position : Fin 8) (leaving : Fin 9)
  | retrain (t : Nat) (f : PortFrame) (lane : Fin 9) (step at_symbol : Nat)
  | lowEnter (t : Nat) (f : PortFrame) (beaconMs : Nat)
  | lowAck (t : Nat) (f : PortFrame) (beaconMs : Nat)
  | down (t : Nat) (f : PortFrame) (reason : Nat)
  | verifyResult (t : Nat) (f : PortFrame) (ownMask peerMask : BitVec 9)
  | trainingTimeout (t : Nat) (p : Fin 8)
  | quietComplete (t : Nat) (p : Fin 8) (noise : List (List Int))
  | probeComplete (t : Nat) (p : Fin 8) (snr : List (List Int))
  | listenPilot (t : Nat) (p : Fin 8)
  | snrWindowEnd (t : Nat) (p : Fin 8) (lane : Fin 9) (snr : List Int)
  | tableSwap (t : Nat) (p : Fin 8) (lane : Fin 9) (symbol : Nat)
  | tableAdopt (t : Nat) (p : Fin 8) (lane : Fin 9) (tableId symbol : Nat)
  | tableSwapLapse (t : Nat) (p : Fin 8) (lane : Fin 9) (symbol : Nat)
  | laneRetire (t : Nat) (p : Fin 8) (lane : Fin 9)
  | spareTakeover (t : Nat) (p : Fin 8) (position : Fin 8)
  | laneRetrainDone (t : Nat) (p : Fin 8) (lane : Fin 9) (passed peerPassed : Bool)
  | laneRetrainRetry (t : Nat) (p : Fin 8) (lane : Fin 9)
  | beaconSend (t : Nat) (p : Fin 8)
  | beaconLoss (t : Nat) (p : Fin 8)
  | linkEnergyWake (t : Nat) (p : Fin 8) (lanes : BitVec 9) (sinceNs : Nat)
  | autoRetrain (t : Nat) (p : Fin 8)
  -- collectives (09)
  | seg (t : Nat)
  | counts (t : Nat)
  | abort (t : Nat)
  | colTimeout (t : Nat) (slot : Fin 256)
  | parkExpire (t : Nat)
  -- grove and twin (11)
  | grvId (t : Nat)
  | grvJoin (t : Nat)
  | grvJoinAck (t : Nat)
  | joinTimeout (t : Nat)
  | grvBeat (t : Nat)
  | grvBeatTimer (t : Nat)
  | grvMemberSilent (t : Nat) (chip : Fin 1024)
  | grvLeave (t : Nat)
  | grvNotify (t : Nat)
  | twinHello (t : Nat)
  | twinProof (t : Nat)
  | pairTimeout (t : Nat)
  | graftBeat (t : Nat)
  | graftBeatTimer (t : Nat)
  | graftBeatLoss (t : Nat)
  | twinProbe (t : Nat)
  | twinProbeAck (t : Nat)
  | probeTimeout (t : Nat)
  | twinYield (t : Nat)
  | twinYieldAck (t : Nat)
  | yieldTimeout (t : Nat)
  | twinStale (t : Nat)
  | twinUnpair (t : Nat)
  | mirrorOpen (t : Nat)
  | mirrorReply (t : Nat)
  | mirrorClose (t : Nat)
  | mirrorWrite (t : Nat)
  | mirrorWriteAnswer (t : Nat)
  | mirrorSyncDone (t : Nat) (region : Nat)
  -- heartbeats, resets, recovery (13)
  | twigBeat (t : Nat) (b : Fin 64) (seq tiles stall : Nat)
  | beatCheck (t : Nat)
  | rootBeat (t : Nat)
  | rootHang (t : Nat)
  | rootRestart (t : Nat)
  | bootTimeout (t : Nat)
  | boughReset (t : Nat) (b : Fin 64) (regs : Option CoreRegs)
  | crownReset (t : Nat)
  | islandStall (t : Nat) (sender receiver : Fin 40)
  | islandStallEscalate (t : Nat) (sender receiver : Fin 40)
  | deviceWarmReset (t : Nat)
  | resetDelayExpire (t : Nat)
  | journalGap (t : Nat)
  -- observation (12)
  | traceDrain (t : Nat) (unit : Fin 82)
  | traceExport (t : Nat)
  | pcSample (t : Nat) (unit : Fin 82) (pc : BitVec 32) (stall : Nat)
  | syncTx (t : Nat) (p : Fin 8)
  | syncRx (t : Nat)
  | freezeArm (t : Nat)
  | freezeNow (t : Nat)
  | thaw (t : Nat)
  | freezeTimeReached (t : Nat) (b : Fin 64)
  | fire (t : Nat)
  | marker (t : Nat)
  | cutTaken (t : Nat)
  | triggerFire (t : Nat) (h : Hart) (regs : CoreRegs)
  | haltRequest (t : Nat) (h : Hart) (regs : CoreRegs)
  | resumeRequest (t : Nat) (h : Hart)
  | debugModuleAccess (t : Nat) (rootModule : Bool) (addr : BitVec 7) (write : Option (BitVec 32))
  | rdbgGo (t : Nat)
  | debugRequest (t : Nat)
  | debugAnswer (t : Nat)
  | rdbgTimeout (t : Nat)
  -- power, clocks and pins (14)
  | powerMeasure (t : Nat) (milliwatts : Nat)
  | brdThrotN (t : Nat) (high : Bool)
  | tempSample (t : Nat) (readings : List Int)
  | tripRecovery (t : Nat)
  | supplyWarn (t : Nat) (monitor : Fin 8) (millivolts : Nat)
  | supplyFault (t : Nat) (monitor : Fin 8) (millivolts : Nat)
  | supplyGlitch (t : Nat) (monitor : Option (Fin 8))
  | clockFault (t : Nat) (absent : Bool) (ppm : Int)
  | xtalFallback (t : Nat) (ppm : Int)
  | pcieRefclkLoss (t : Nat)
  | powerUp (t : Nat) (straps : Straps)
  | railGroupInRange (t : Nat) (group : Fin 3)
  | seqFail (t : Nat) (monitor : Fin 8)
  | perstFall (t : Nat)
  | perstRise (t : Nat)
  | pfFlr (t : Nat)
  | vfFlr (t : Nat) (n : Fin 128)
  | napExit (t : Nat)
  | quietExit (t : Nat)
  -- boot and images (15)
  | bootRom (t : Nat) (probe : BootProbe)
  | bootReady (t : Nat)
  | trialConfirm (t : Nat)
  | activateReset (t : Nat)
  -- memory background events (07)
  | granuleZeroised (t : Nat) (granule : Nat)
  | scrubPass (t : Nat) (errors : List ScrubError)
  | rowRetire (t : Nat) (row : Nat) (repairLeft : Bool)
  | sweepDone (t : Nat) (point : SweepPoint)
  | bankEraseDone (t : Nat) (counter : Fin 64)
  -- further events
  | exportQuery (t : Nat) (chip partition exportId : Nat)
  | exportQueryAnswer (t : Nat) (ch : Fin 130) (answer : Option ExportInfo)
  | mirrorOpenTimeout (t : Nat)
  | coldPowerLoss (t : Nat)
  | pcieWakeRelease (t : Nat)
  | smbusClockLowTimeout (t : Nat) (lowUs : Nat)
  deriving DecidableEq, Repr

end Sys2Proof
end

