-- ==== Sys2Proof/Decode.lean ====
section
/-! DEFINITION. The block has no instruction encoding: the table of operations gives no row bits, so no word spells a
command. -/

namespace Sys2Proof

/-- The command that a word of the table's bits spells: none, since the table gives no row bits.
Log entry 6 (DESIGN CHOICE). -/
def decodeTableWord (_nbits _w : Nat) : Option Instr := none

end Sys2Proof
end

