-- ==== Sys2Proof/Machine/Bytes.lean ====
section
/-! DEFINITION. Byte strings: little-endian and big-endian fields (00 R4), slices, padding, XOR. -/

namespace Sys2Proof.Machine

/-- The `n` bytes of a number, least significant first. -/
def leBytes (n v : Nat) : Bytes := (List.range n).map fun i => BitVec.ofNat 8 (v >>> (8 * i))

/-- The number whose bytes are `b`, least significant first. -/
def ofLe (b : Bytes) : Nat := b.foldr (fun x acc => x.toNat + 256 * acc) 0

/-- The `n` bytes of a number, most significant first. -/
def beBytes (n v : Nat) : Bytes := (leBytes n v).reverse

/-- The number whose bytes are `b`, most significant first. -/
def ofBe (b : Bytes) : Nat := b.foldl (fun acc x => acc * 256 + x.toNat) 0

/-- `n` zero bytes. -/
def zeros (n : Nat) : Bytes := List.replicate n 0

/-- The `len` bytes of `b` from `off`; shorter where `b` ends. -/
def slice (b : Bytes) (off len : Nat) : Bytes := (b.drop off).take len

/-- `b` cut or zero-padded to `n` bytes. -/
def fit (n : Nat) (b : Bytes) : Bytes := b.take n ++ zeros (n - b.length)

/-- The little-endian field of `len` bytes at `off`. -/
def fieldLe (b : Bytes) (off len : Nat) : Nat := ofLe (slice b off len)

/-- The u8 at `off`. -/
def u8At (b : Bytes) (off : Nat) : Nat := fieldLe b off 1

/-- The u16 at `off`. -/
def u16At (b : Bytes) (off : Nat) : Nat := fieldLe b off 2

/-- The u32 at `off`. -/
def u32At (b : Bytes) (off : Nat) : Nat := fieldLe b off 4

/-- The u64 at `off`. -/
def u64At (b : Bytes) (off : Nat) : Nat := fieldLe b off 8

/-- Two byte strings XORed; as long as the shorter. -/
def xorBytes (a b : Bytes) : Bytes := List.zipWith (fun x y => x ^^^ y) a b

/-- Every byte from `off` for `len` is zero (a reserved field, 02 R40). -/
def zeroAt (b : Bytes) (off len : Nat) : Bool := (slice b off len).all (fun x => x = 0)

/-- `b` with the bytes `v` in place of those from `off`; as long as `b`. -/
def patch (b : Bytes) (off : Nat) (v : Bytes) : Bytes :=
  (b.take off ++ v ++ b.drop (off + v.length)).take b.length

/-- The byte string cut into pieces of `n` bytes, the last one as short as it comes. -/
def chunks (n : Nat) : Nat → Bytes → List Bytes
  | 0, _ => []
  | fuel + 1, b => if b.isEmpty then [] else b.take n :: chunks n fuel (b.drop n)

/-- `b` in pieces of `n` bytes. -/
def piecesOf (n : Nat) (b : Bytes) : List Bytes := chunks n b.length b

/-- The ASCII bytes of a text. -/
def ascii (t : String) : Bytes := t.toList.map fun c => BitVec.ofNat 8 c.toNat

/-- Two's complement: the signed value of the low `w` bits of `v`. -/
def signedOf (w v : Nat) : Int :=
  let x := v % 2 ^ w
  if x < 2 ^ (w - 1) then (x : Int) else (x : Int) - ((2 ^ w : Nat) : Int)

/-- Two's complement: the `w` bits that hold `v`. -/
def unsignedOf (w : Nat) (v : Int) : Nat := (v % ((2 ^ w : Nat) : Int)).toNat

/-- A flag as the bit `i` of a register. -/
def bit (i : Nat) (b : Bool) : Nat := if b then 2 ^ i else 0

/-- The 64-bit FNV-1a hash of a byte string (10 R304). -/
def fnv1a (b : Bytes) : Nat :=
  b.foldl (fun h x => ((h ^^^ x.toNat) * 0x100000001B3) % 2 ^ 64) 0xCBF29CE484222325

/-- The quotient rounded up. -/
def ceilDiv (a b : Nat) : Nat := (a + b - 1) / b

/-- A step of the CRC-32 of IEEE 802.3. -/
def crcStep (c : BitVec 32) : BitVec 32 := if c.getLsbD 0 then (c >>> 1) ^^^ 0xEDB88320 else c >>> 1

/-- The CRC-32 of IEEE 802.3. -/
def crc32 (b : Bytes) : Nat :=
  let c := b.foldl (fun (c : BitVec 32) x => (List.range 8).foldl (fun c _ => crcStep c) (c ^^^ x.setWidth 32)) 0xFFFFFFFF
  (~~~c).toNat

/-- The sum of a list. -/
def sumOf (l : List Nat) : Nat := l.foldl (· + ·) 0

end Sys2Proof.Machine
end

