-- ==== Sys2Proof/Machine/Num.lean ====
section
/-! DEFINITION. Numbers and formats (08 R262 to R267): exact values, one rounding, the FP32 operations and the
conversions between formats. -/

namespace Sys2Proof.Machine

/-- A value of a floating format: a NaN, an infinity, or (-1)^neg × m × 2^e. -/
inductive Num where
  | nan (neg : Bool)
  | inf (neg : Bool)
  | fin (neg : Bool) (m : Nat) (e : Int)
  deriving DecidableEq, Repr

/-- The number of bits of a natural number. -/
def bitLen (n : Nat) : Nat := if n = 0 then 0 else Nat.log2 n + 1

/-- `m × 2^e` as an integer multiple of `2^q`, rounded to nearest, ties to even. -/
def roundUnits (m : Nat) (e q : Int) : Nat :=
  if q ≤ e then m * 2 ^ (e - q).toNat
  else
    let d := 2 ^ (q - e).toNat
    let f := m / d
    let r := m % d
    if 2 * r < d then f else if d < 2 * r then f + 1 else if f % 2 = 0 then f else f + 1

/-- A value rounded to `p` significant bits with `emin` the exponent of the least unit: mantissa and exponent. -/
def roundSig (p : Nat) (emin : Int) (m : Nat) (e : Int) : Nat × Int :=
  let q := max ((bitLen m : Int) + e - p) emin
  (roundUnits m e q, q)

/-- An IEEE-like format: exponent bits, fraction bits, bias, and whether it has infinities. -/
structure FloatFmt where
  exp : Nat
  frac : Nat
  bias : Nat
  ieee : Bool
  deriving DecidableEq, Repr

def fmtF32 : FloatFmt := { exp := 8, frac := 23, bias := 127, ieee := true }
def fmtBf16 : FloatFmt := { exp := 8, frac := 7, bias := 127, ieee := true }
def fmtF16 : FloatFmt := { exp := 5, frac := 10, bias := 15, ieee := true }
def fmtE4M3 : FloatFmt := { exp := 4, frac := 3, bias := 7, ieee := false }
def fmtE5M2 : FloatFmt := { exp := 5, frac := 2, bias := 15, ieee := true }

/-- The value of a code of an IEEE-like format; E4M3 has a NaN at S.1111.111 only. -/
def FloatFmt.decode (f : FloatFmt) (c : Nat) : Num :=
  let frac := c % 2 ^ f.frac
  let ex := c / 2 ^ f.frac % 2 ^ f.exp
  let neg := c.testBit (f.exp + f.frac)
  if f.ieee && ex == 2 ^ f.exp - 1 then (if frac = 0 then .inf neg else .nan neg)
  else if !f.ieee && ex == 2 ^ f.exp - 1 && frac == 2 ^ f.frac - 1 then .nan neg
  else if ex = 0 then .fin neg frac (1 - (f.bias : Int) - f.frac)
  else .fin neg (2 ^ f.frac + frac) ((ex : Int) - f.bias - f.frac)

/-- The sign bit of a format. -/
def FloatFmt.sign (f : FloatFmt) (neg : Bool) : Nat := bit (f.exp + f.frac) neg

/-- The code of the quiet NaN with a sign. -/
def FloatFmt.nanCode (f : FloatFmt) (neg : Bool) : Nat :=
  f.sign neg + (if f.ieee then (2 ^ f.exp - 1) * 2 ^ f.frac + 2 ^ (f.frac - 1) else 2 ^ (f.exp + f.frac) - 1)

/-- The code of an infinity; E4M3 saturates to its largest finite value. -/
def FloatFmt.infCode (f : FloatFmt) (neg : Bool) : Nat :=
  f.sign neg + (if f.ieee then (2 ^ f.exp - 1) * 2 ^ f.frac else 2 ^ (f.exp + f.frac) - 2)

/-- The largest biased exponent of finite values and, with it, the largest fraction. -/
def FloatFmt.maxCode (f : FloatFmt) : Nat :=
  if f.ieee then (2 ^ f.exp - 1) * 2 ^ f.frac - 1 else 2 ^ (f.exp + f.frac) - 2

/-- A value converted: its code, and whether the conversion counts as saturated (R267). Log entry 136 (DEDUCED). -/
def FloatFmt.encode (f : FloatFmt) (x : Num) : Nat × Bool :=
  match x with
  | .nan neg => (f.nanCode neg, false)
  | .inf neg => (f.infCode neg, !f.ieee)
  | .fin neg m e =>
    let emin := 1 - (f.bias : Int) - f.frac
    let r := roundSig (f.frac + 1) emin m e
    let mag :=
      if r.1 < 2 ^ f.frac then r.1
      else
        let k := if r.1 = 2 ^ (f.frac + 1) then (2 ^ f.frac, r.2 + 1) else r
        (((k.2 - emin).toNat + 1) * 2 ^ f.frac) + (k.1 - 2 ^ f.frac)
    if mag ≤ f.maxCode then (f.sign neg + mag, false) else (f.infCode neg, true)

/-! ### FP32 operations on codes (R265) -/

/-- The FP32 NaN of every operation. -/
def f32Nan : Nat := 0x7FC00000

/-- The value of an FP32 code. -/
def f32Dec (c : Nat) : Num := fmtF32.decode c

/-- A value rounded to FP32; a NaN is the FP32 NaN. -/
def f32Enc (x : Num) : Nat :=
  match x with
  | .nan _ => f32Nan
  | y => (fmtF32.encode y).1

/-- The exact sum of two values; an exact zero is +0 unless both are -0. -/
def Num.add (a b : Num) : Num :=
  match a, b with
  | .nan n, _ => .nan n
  | _, .nan n => .nan n
  | .inf x, .inf y => if x = y then .inf x else .nan false
  | .inf x, _ => .inf x
  | _, .inf y => .inf y
  | .fin x m e, .fin y n f =>
    let q := min e f
    let u : Int := (if x then -1 else 1) * (m * 2 ^ (e - q).toNat : Nat)
    let v : Int := (if y then -1 else 1) * (n * 2 ^ (f - q).toNat : Nat)
    if u + v = 0 then .fin (m == 0 && n == 0 && x && y) 0 q
    else .fin (decide (u + v < 0)) (u + v).natAbs q

/-- The exact product of two values. -/
def Num.mul (a b : Num) : Num :=
  match a, b with
  | .nan n, _ => .nan n
  | _, .nan n => .nan n
  | .inf x, .inf y => .inf (x != y)
  | .inf x, .fin y m _ => if m = 0 then .nan false else .inf (x != y)
  | .fin x m _, .inf y => if m = 0 then .nan false else .inf (x != y)
  | .fin x m e, .fin y n f => .fin (x != y) (m * n) (e + f)

/-- The negated value. -/
def Num.neg : Num → Num
  | .nan n => .nan n
  | .inf x => .inf (!x)
  | .fin x m e => .fin (!x) m e

/-- A quotient of natural numbers with 64 more bits than its exact part and a sticky bit. -/
def stickyDiv (n d : Nat) : Nat × Int :=
  let k := 64 + bitLen d
  let q := n * 2 ^ k / d
  (2 * q + (if n * 2 ^ k % d = 0 then 0 else 1), -(k : Int) - 1)

/-- The quotient of two values, exact but for a sticky bit below every rounding. -/
def Num.div (a b : Num) : Num :=
  match a, b with
  | .nan n, _ => .nan n
  | _, .nan n => .nan n
  | .inf _, .inf _ => .nan false
  | .inf x, .fin y _ _ => .inf (x != y)
  | .fin x _ e, .inf y => .fin (x != y) 0 e
  | .fin x m e, .fin y n f =>
    if n = 0 then (if m = 0 then .nan false else .inf (x != y))
    else let r := stickyDiv m n; .fin (x != y) r.1 (r.2 + e - f)

def f32Add (a b : Nat) : Nat := f32Enc ((f32Dec a).add (f32Dec b))
def f32Sub (a b : Nat) : Nat := f32Enc ((f32Dec a).add (f32Dec b).neg)
def f32Mul (a b : Nat) : Nat := f32Enc ((f32Dec a).mul (f32Dec b))
def f32Div (a b : Nat) : Nat := f32Enc ((f32Dec a).div (f32Dec b))

/-- One fused multiply-add. -/
def f32Fma (a b c : Nat) : Nat := f32Enc (((f32Dec a).mul (f32Dec b)).add (f32Dec c))

/-- The code is a NaN. -/
def f32IsNan (c : Nat) : Bool :=
  match f32Dec c with
  | .nan _ => true
  | _ => false

/-- The order of the codes' values, +0 above -0: a number that rises with the value. -/
def f32Key (c : Nat) : Int := if c.testBit 31 then -((c % 2 ^ 31 : Nat) : Int) - 1 else (c % 2 ^ 31 : Nat)

/-- The maximum, compared exactly, +0 above -0; a NaN operand gives NaN (Table 8-9). -/
def f32Max (a b : Nat) : Nat :=
  if f32IsNan a || f32IsNan b then f32Nan else if f32Key a < f32Key b then b else a

/-- The minimum, likewise. -/
def f32Min (a b : Nat) : Nat :=
  if f32IsNan a || f32IsNan b then f32Nan else if f32Key b < f32Key a then b else a

/-- `a < b` as values. -/
def f32Lt (a b : Nat) : Bool :=
  match f32Dec a, f32Dec b with
  | .nan _, _ => false
  | _, .nan _ => false
  | .fin _ 0 _, .fin _ 0 _ => false
  | _, _ => decide (f32Key a < f32Key b)

/-- An integer rounded to FP32. -/
def f32OfInt (i : Int) : Nat := f32Enc (.fin (decide (i < 0)) i.natAbs 0)

/-! ### Integers -/

/-- A value rounded to an integer, ties to even, and saturated to `[lo, hi]`; a NaN gives 0 (R267). -/
def toIntSat (lo hi : Int) (x : Num) : Int × Bool :=
  match x with
  | .nan _ => (0, false)
  | .inf neg => (if neg then lo else hi, true)
  | .fin neg m e =>
    let r : Int := (roundUnits m e 0 : Nat)
    let v := if neg then -r else r
    if v < lo then (lo, true) else if hi < v then (hi, true) else (v, false)

/-! ### Formats by code (Table 8-20) -/

/-- The IEEE-like format of a code, FP32 for the others. -/
def floatFmt : Nat → FloatFmt
  | 1 => fmtBf16
  | 2 => fmtF16
  | 3 => fmtE4M3
  | 4 => fmtE5M2
  | _ => fmtF32

/-- The code names an IEEE-like format. -/
def isFloatFmt (f : Nat) : Bool := decide (f ≤ 4)

/-- The code names an MX format. -/
def isMx (f : Nat) : Bool := decide (5 ≤ f ∧ f ≤ 7)

/-- Bits of an element. -/
def fmtBits : Nat → Nat
  | 0 => 32
  | 1 => 16
  | 2 => 16
  | 5 => 6
  | 6 => 4
  | 9 => 4
  | 10 => 32
  | _ => 8

/-- The value of an element without its block's scale. -/
def elemDec (f c : Nat) : Num :=
  if f = 5 then FloatFmt.decode { exp := 3, frac := 2, bias := 3, ieee := false } c |> fun x =>
    match x with
    | .nan neg => .fin neg 7 2
    | y => y
  else if f = 6 then
    FloatFmt.decode { exp := 2, frac := 1, bias := 1, ieee := false } c |> fun x =>
    match x with
    | .nan neg => .fin neg 3 1
    | y => y
  else if f = 7 then let v := signedOf 8 c; .fin (decide (v < 0)) v.natAbs (-6)
  else if f = 8 then let v := signedOf 8 c; .fin (decide (v < 0)) v.natAbs 0
  else if f = 9 then let v := signedOf 4 c; .fin (decide (v < 0)) v.natAbs 0
  else if f = 10 then let v := signedOf 32 c; .fin (decide (v < 0)) v.natAbs 0
  else (floatFmt f).decode c

/-- The value scaled by an E8M0 scale; the scale 0xFF makes a NaN (R263). -/
def mxScale (scale : Nat) (x : Num) : Num :=
  if scale = 0xFF then .nan false
  else match x with
    | .fin neg m e => .fin neg m (e + scale - 127)
    | y => y

/-- The magnitude of an element code of MXFP6 or MXFP4 rounded and saturated. -/
def mxFloatCode (frac maxMag : Nat) (emin : Int) (signBit : Nat) (x : Num) : Nat × Bool :=
  match x with
  | .fin neg m e =>
    let r := roundSig (frac + 1) emin m e
    let mag :=
      if r.1 < 2 ^ frac then r.1
      else
        let k := if r.1 = 2 ^ (frac + 1) then (2 ^ frac, r.2 + 1) else r
        (((k.2 - emin).toNat + 1) * 2 ^ frac) + (k.1 - 2 ^ frac)
    if mag ≤ maxMag then (bit signBit neg + mag, false) else (bit signBit neg + maxMag, true)
  | _ => (0, false)

/-- An element converted under a block's exponent X (R267). -/
def mxElem (f : Nat) (x : Int) (v : Num) : Nat × Bool :=
  let v := match v with
    | .fin neg m e => Num.fin neg m (e - x)
    | y => y
  if f = 5 then mxFloatCode 2 31 (-4) 5 v
  else if f = 6 then mxFloatCode 1 7 (-1) 3 v
  else
    match v with
    | .fin neg m e => let r := toIntSat (-127) 127 (.fin neg m (e + 6)); (unsignedOf 8 r.1, r.2)
    | _ => (0, false)

/-- The exponent of a finite non-zero value: floor of log2 of its magnitude. -/
def numLog2 : Num → Option Int
  | .fin _ m e => if m = 0 then none else some ((Nat.log2 m : Int) + e)
  | _ => none

/-- A block converted to an MX format: its scale, its element codes, the saturated count (R267). -/
def mxBlock (f : Nat) (vs : List Num) : Nat × List Nat × Nat :=
  if vs.any (fun v => match v with | .fin _ _ _ => false | _ => true) then (0xFF, vs.map fun _ => 0, 0)
  else
    match (vs.filterMap numLog2).foldl (fun (a : Option Int) x => some (match a with | none => x | some y => max x y))
        none with
    | none => (0, vs.map fun v => (mxElem f 0 v).1, 0)
    | some mx =>
      let ee : Int := if f = 5 then 4 else if f = 6 then 2 else 0
      let x := max (-127) (min 127 (mx - ee))
      let cs := vs.map (mxElem f x)
      ((x + 127).toNat, cs.map (·.1), (cs.filter (·.2)).length)

/-- A value converted to a format that is not MX: its code and whether it counts as saturated. -/
def elemEnc (f : Nat) (x : Num) : Nat × Bool :=
  if f = 8 then let r := toIntSat (-128) 127 x; (unsignedOf 8 r.1, r.2)
  else if f = 9 then let r := toIntSat (-8) 7 x; (unsignedOf 4 r.1, r.2)
  else if f = 10 then let r := toIntSat (-2147483648) 2147483647 x; (unsignedOf 32 r.1, r.2)
  else (floatFmt f).encode x

/-- An element widened exactly to FP32; a NaN keeps its sign (R267). -/
def elemToF32 (f c : Nat) : Nat :=
  match elemDec f c with
  | .nan neg => fmtF32.nanCode neg
  | y => f32Enc y

/-! ### Packing (R263) -/

/-- The bytes of a row of `n` elements. -/
def rowBytes (f n : Nat) : Nat :=
  if f = 5 then (n + 3) / 4 * 3 else (n * fmtBits f + 7) / 8

/-- The code of element `i` of a packed row. -/
def unpackAt (f : Nat) (row : Bytes) (i : Nat) : Nat :=
  if f = 5 then fieldLe row (i / 4 * 3) 3 / 2 ^ (6 * (i % 4)) % 64
  else if fmtBits f = 4 then u8At row (i / 2) / (if i % 2 = 0 then 1 else 16) % 16
  else fieldLe row (i * (fmtBits f / 8)) (fmtBits f / 8)

/-- A packed row of element codes. -/
def packRow (f : Nat) (cs : List Nat) : Bytes :=
  if f = 5 then
    ((List.range ((cs.length + 3) / 4)).map fun g =>
      leBytes 3 (((List.range 4).map fun j => cs.getD (4 * g + j) 0 * 2 ^ (6 * j)).foldl (· + ·) 0)).flatten
  else if fmtBits f = 4 then
    (List.range ((cs.length + 1) / 2)).map fun i =>
      BitVec.ofNat 8 (cs.getD (2 * i) 0 + 16 * cs.getD (2 * i + 1) 0)
  else (cs.map (leBytes (fmtBits f / 8))).flatten

end Sys2Proof.Machine
end

