-- ==== Sys2Proof/Machine/Real.lean ====
section
/-! DEFINITION. The functions of 08 R265, correctly rounded to FP32: exp, silu, Φ, reciprocal square root, power, sine
and cosine, evaluated in fixed point far beyond FP32's precision. -/

namespace Sys2Proof.Machine

/-- Bits of the fixed point below one. -/
def fxBits : Nat := 640

/-- One in fixed point. -/
def fxOne : Int := (2 ^ fxBits : Nat)

/-- A dyadic value in fixed point with `p` bits, rounded down. -/
def fxOf (p : Nat) (neg : Bool) (m : Nat) (e : Int) : Int :=
  let k := e + p
  let v : Int := if 0 ≤ k then ((m * 2 ^ k.toNat : Nat) : Int) else ((m / 2 ^ (-k).toNat : Nat) : Int)
  if neg then -v else v

/-- A product in fixed point. -/
def fxMul (a b : Int) : Int := a * b / fxOne

/-- A quotient in fixed point. -/
def fxDiv (a b : Int) : Int := a * fxOne / b

/-- The FP32 code of a fixed-point approximation `a / 2^p` of a value: the rounding of both ends of the error interval
when they agree; else the value is taken as the one of 40 significant bits nearest to it, an exact case. -/
def fxRound (a : Int) (p : Nat) : Nat :=
  let r := fun (x : Int) => f32Enc (.fin (decide (x < 0)) x.natAbs (-(p : Int)))
  let lo := r (a - 2 ^ 40)
  let hi := r (a + 2 ^ 40)
  if lo = hi then lo
  else
    let k := roundSig 40 (-100000) a.natAbs (-(p : Int))
    f32Enc (.fin (decide (a < 0)) k.1 k.2)

/-- The sum of the series whose terms follow from each other: `next i t` is term i + 1 from term i. -/
def fxSeries (next : Nat → Int → Int) : Nat → Nat → Int → Int → Int
  | 0, _, _, acc => acc
  | n + 1, i, t, acc => if t = 0 then acc else fxSeries next n (i + 1) (next i t) (acc + t)

/-- atanh(1/k) in fixed point with `p` bits: the sum of 1 / ((2i + 1) k^(2i + 1)). -/
def fxAtanhInv (p k : Nat) : Nat → Nat → Int → Int → Int
  | 0, _, _, acc => acc
  | n + 1, i, t, acc =>
    if t = 0 then acc else fxAtanhInv p k n (i + 1) (t / ((k * k : Nat) : Int)) (acc + t / ((2 * i + 1 : Nat) : Int))

/-- atan(1/k) in fixed point. -/
def fxAtanInv (k : Nat) : Nat → Nat → Int → Int → Int
  | 0, _, _, acc => acc
  | n + 1, i, t, acc =>
    if t = 0 then acc
    else fxAtanInv k n (i + 1) (t / ((k * k : Nat) : Int))
      (if i % 2 = 0 then acc + t / ((2 * i + 1 : Nat) : Int) else acc - t / ((2 * i + 1 : Nat) : Int))

/-- ln 2 = 2 atanh(1/3). -/
def fxLn2 : Int := 2 * fxAtanhInv fxBits 3 1000 0 (fxOne / 3) 0

/-- π with `p` bits, by Machin's formula. -/
def fxPi (p : Nat) : Int :=
  let one : Int := (2 ^ p : Nat)
  4 * (4 * fxAtanInv 5 (p + 8) 0 (one / 5) 0 - fxAtanInv 239 (p + 8) 0 (one / 239) 0)

/-- exp of a fixed-point number: the fixed-point exp of its remainder by ln 2, and the power of two. -/
def fxExp (x : Int) : Int × Int :=
  let k := x / fxLn2
  let r := x - k * fxLn2
  (fxSeries (fun i t => fxMul t r / ((i + 1 : Nat) : Int)) 400 0 fxOne 0, k)

/-- A scaled result as a fixed-point number with more bits: `a × 2^k / 2^fxBits`. -/
def fxScaled (a k : Int) : Int × Nat :=
  if 0 ≤ k then (a * ((2 ^ k.toNat : Nat) : Int), fxBits) else (a, fxBits + (-k).toNat)

/-- exp, correctly rounded. Log entry 136 (DEDUCED). -/
def f32Exp (c : Nat) : Nat :=
  match f32Dec c with
  | .nan _ => f32Nan
  | .inf neg => if neg then 0 else 0x7F800000
  | .fin neg m e =>
    if m = 0 then 0x3F800000
    else
      let x := fxOf fxBits neg m e
      if 100 * fxOne < x then 0x7F800000
      else if x < -(120 * fxOne) then 0
      else
        let r := fxExp x
        let v := fxScaled r.1 r.2
        fxRound v.1 v.2

/-- silu(x) = x / (1 + exp(-x)), correctly rounded. Log entry 136 (DEDUCED). -/
def f32Silu (c : Nat) : Nat :=
  match f32Dec c with
  | .nan _ => f32Nan
  | .inf neg => if neg then 0x80000000 else 0x7F800000
  | .fin neg m e =>
    if m = 0 then c
    else
      let x := fxOf fxBits neg m e
      if 120 * fxOne < x then c
      else if x < -(120 * fxOne) then 0x80000000
      else
        let r := fxExp x
        let ex := if 0 ≤ r.2 then r.1 * ((2 ^ r.2.toNat : Nat) : Int) else r.1 / ((2 ^ (-r.2).toNat : Nat) : Int)
        fxRound (x * ex / (fxOne + ex)) fxBits

/-- The integer square root by bisection on bits. -/
def isqrtLoop (n : Nat) : Nat → Nat → Nat
  | 0, r => r
  | k + 1, r =>
    let c := r + 2 ^ k
    isqrtLoop n k (if c * c ≤ n then c else r)

/-- The floor of the square root. -/
def isqrt (n : Nat) : Nat := isqrtLoop n (bitLen n / 2 + 1) 0

/-- √(2π) in fixed point. -/
def fxSqrt2Pi : Int := (isqrt ((2 * fxPi fxBits).toNat * 2 ^ fxBits) : Nat)

/-- The series of (Φ(x) - 1/2) √(2π): the powers x^(2n+1) (-1)^n / (2^n n!), each over 2n + 1. -/
def fxPhiSeries (x2 : Int) : Nat → Nat → Int → Int → Int
  | 0, _, _, acc => acc
  | n + 1, i, t, acc =>
    if t = 0 then acc
    else fxPhiSeries x2 n (i + 1) (-(fxMul t x2 / ((2 * (i + 1) : Nat) : Int))) (acc + t / ((2 * i + 1 : Nat) : Int))

/-- Φ, the standard normal distribution function, correctly rounded. Log entry 136 (DEDUCED). -/
def f32Phi (c : Nat) : Nat :=
  match f32Dec c with
  | .nan _ => f32Nan
  | .inf neg => if neg then 0 else 0x3F800000
  | .fin neg m e =>
    let x := fxOf fxBits neg m e
    if 16 * fxOne < x then 0x3F800000
    else if x < -(16 * fxOne) then 0
    else fxRound (fxOne / 2 + fxDiv (fxPhiSeries (fxMul x x) 2000 0 x 0) fxSqrt2Pi) fxBits

/-- Reciprocal square root, correctly rounded. Log entry 136 (DEDUCED). -/
def f32Rsqrt (c : Nat) : Nat :=
  match f32Dec c with
  | .nan _ => f32Nan
  | .inf neg => if neg then f32Nan else 0
  | .fin neg m e =>
    if m = 0 then (if neg then 0xFF800000 else 0x7F800000)
    else if neg then f32Nan
    else
      let m := if e % 2 = 0 then m else 2 * m
      let e := if e % 2 = 0 then e else e - 1
      let q := isqrt (2 ^ 400 / m)
      f32Enc (.fin false (2 * q + (if q * q * m = 2 ^ 400 then 0 else 1)) (-201 - e / 2))

/-- ln of m × 2^e, in fixed point: the exponent's share and 2 atanh((y - 1) / (y + 1)) of the mantissa y in [1, 2). -/
def fxLn (m : Nat) (e : Int) : Int :=
  let l := Nat.log2 m
  let y := fxOf fxBits false m (-(l : Int))
  let z := fxDiv (y - fxOne) (y + fxOne)
  let z2 := fxMul z z
  let rec go : Nat → Nat → Int → Int → Int
    | 0, _, _, acc => acc
    | n + 1, i, t, acc => if t = 0 then acc else go n (i + 1) (fxMul t z2) (acc + t / ((2 * i + 1 : Nat) : Int))
  (e + l) * fxLn2 + 2 * go 400 0 z 0

/-- A finite value is an odd integer; and an integer. -/
def isOddInt (m : Nat) (e : Int) : Bool :=
  if 0 ≤ e then decide (e = 0 ∧ m % 2 = 1) || false
  else decide (m % 2 ^ (-e).toNat = 0 ∧ m / 2 ^ (-e).toNat % 2 = 1)
def isInt (m : Nat) (e : Int) : Bool := decide (0 ≤ e) || decide (m % 2 ^ (-e).toNat = 0)

/-- pow of a positive finite base other than 1 by a finite non-zero exponent: the magnitude. -/
def f32PowMag (m : Nat) (e : Int) (yneg : Bool) (ym : Nat) (ye : Int) : Nat :=
  let l := fxLn m e
  let y : Int := (if yneg then -1 else 1) * (ym : Int)
  let p := l * y
  let x := if 0 ≤ ye then p * ((2 ^ (min ye.toNat 200) : Nat) : Int) else p / ((2 ^ (-ye).toNat : Nat) : Int)
  if 100 * fxOne < x then 0x7F800000
  else if x < -(120 * fxOne) then 0
  else
    let r := fxExp x
    let v := fxScaled r.1 r.2
    fxRound v.1 v.2

/-- pow with the special cases of IEEE 754-2019. Log entry 136 (DEDUCED). -/
def f32Pow (a b : Nat) : Nat :=
  match f32Dec a, f32Dec b with
  | _, .fin _ 0 _ => 0x3F800000
  | x, y =>
    if a = 0x3F800000 then 0x3F800000
    else
      match x, y with
      | .nan _, _ => f32Nan
      | _, .nan _ => f32Nan
      | .fin neg 0 _, .inf yneg => if yneg then 0x7F800000 else (let _ := neg; 0)
      | .fin neg 0 _, .fin yneg ym ye =>
        let odd := isOddInt ym ye
        if yneg then (if odd && neg then 0xFF800000 else 0x7F800000)
        else if odd && neg then 0x80000000 else 0
      | .inf neg, .inf yneg => (let _ := neg; if yneg then 0 else 0x7F800000)
      | .inf neg, .fin yneg ym ye =>
        let odd := isOddInt ym ye
        if yneg then (if odd && neg then 0x80000000 else 0)
        else if odd && neg then 0xFF800000 else 0x7F800000
      | .fin neg m e, .inf yneg =>
        let mag := f32Key (f32Enc (.fin false m e))
        let one := f32Key 0x3F800000
        (let _ := neg
         if mag = one then 0x3F800000
         else if (decide (one < mag)) = yneg then 0 else 0x7F800000)
      | .fin neg m e, .fin yneg ym ye =>
        if neg && !isInt ym ye then f32Nan
        else
          let r := if f32Enc (.fin false m e) = 0x3F800000 then 0x3F800000 else f32PowMag m e yneg ym ye
          if neg && isOddInt ym ye then r + 0x80000000 else r

/-- The argument reduced by π/2: the quadrant and the remainder in fixed point. -/
def fxReduce (neg : Bool) (m : Nat) (e : Int) : Int × Int :=
  let p := fxBits + 160
  let half := fxPi p / 2
  let x := fxOf p neg m e
  let k := (x + half / 2) / half
  (k, (x - k * half) / ((2 ^ 160 : Nat) : Int))

/-- sine and cosine of a small fixed-point number. -/
def fxSin (r : Int) : Int :=
  let r2 := fxMul r r
  fxSeries (fun i t => -(fxMul t r2 / (((2 * i + 2) * (2 * i + 3) : Nat) : Int))) 200 0 r 0
def fxCos (r : Int) : Int :=
  let r2 := fxMul r r
  fxSeries (fun i t => -(fxMul t r2 / (((2 * i + 1) * (2 * i + 2) : Nat) : Int))) 200 0 fxOne 0

/-- sin (turns 0) or cos (turns 1) of a finite value, correctly rounded. -/
def f32Circ (turns : Int) (neg : Bool) (m : Nat) (e : Int) : Nat :=
  let r := fxReduce neg m e
  let k := (r.1 + turns) % 4
  let v := if k % 2 = 0 then fxSin r.2 else fxCos r.2
  fxRound (if k < 2 then v else -v) fxBits

/-- sine, correctly rounded. Log entry 136 (DEDUCED). -/
def f32Sin (c : Nat) : Nat :=
  match f32Dec c with
  | .nan _ => f32Nan
  | .inf _ => f32Nan
  | .fin neg m e => if m = 0 then c else f32Circ 0 neg m e

/-- cosine, correctly rounded. Log entry 136 (DEDUCED). -/
def f32Cos (c : Nat) : Nat :=
  match f32Dec c with
  | .nan _ => f32Nan
  | .inf _ => f32Nan
  | .fin neg m e => if m = 0 then 0x3F800000 else f32Circ 1 neg m e

end Sys2Proof.Machine
end

