-- ==== Sys2Proof/Config.lean ====
section
/-! DEFINITION. What the spec leaves open: the free values, constants without a body. -/

namespace Sys2Proof

/-- A byte that nothing constrains: random draws of the device and undefined contents. Free value.
Log entry 5 (DESIGN CHOICE). -/
opaque Config.freeByte : Nat → BitVec 8

/-- A number that nothing constrains: undefined choices and unstated amounts. Free value.
Log entry 5 (DESIGN CHOICE). -/
opaque Config.freeNat : Nat → Nat

/-- Which row of its granule a device line lies in, and which stack serves it: the interleave of HBM is internal. Free value.
Log entries 5 (DESIGN CHOICE), 72 (PRESUMED). -/
opaque Config.freeRow : Nat → Nat

end Sys2Proof
end

