-- ==== Sys2Proof/Machine/Aes.lean ====
section
/-! DEFINITION. AES-256 (FIPS 197) and the modes the device uses: CMAC (SP 800-38B), key wrap with padding
(SP 800-38F KWP), XTS (IEEE 1619) and GCM (SP 800-38D). A block is the number whose 16 bytes, most significant first,
are the block's bytes. -/

namespace Sys2Proof.Machine

/-- The S-box of FIPS 197, the value for x at bits 8x + 7 to 8x. -/
def aesSboxTable : Nat :=
  0x16bb54b00f2d99416842e6bf0d89a18cdf2855cee9871e9b948ed9691198f8e19e1dc186b95735610ef6034866b53e708a8bbd4b1f74dde8c6b4a61c2e2578ba08ae7a65eaf4566ca94ed58d6d37c8e779e4959162acd3c25c2406490a3a32e0db0b5ede14b8ee4688902a22dc4f816073195d643d7ea7c41744975fec130ccdd2f3ff1021dab6bcf5389d928f40a351a89f3c507f02f94585334d43fbaaefd0cf584c4a39becb6a5bb1fc20ed00d153842fe329b3d63b52a05a6e1b1a2c830975b227ebe28012079a059618c323c7041531d871f1e5a534ccf73f362693fdb7c072a49cafa2d4adf04759fa7dc982ca76abd7fe2b670130c56f6bf27b777c63

/-- The inverse S-box of FIPS 197, in the same layout. -/
def aesInvSboxTable : Nat :=
  0x7d0c2155631469e126d677ba7e042b17619953833cbbebc8b0f52aae4d3be0a0ef9cc9939f7ae52d0d4ab519a97f51605fec8027591012b131c7078833a8dd1ff45acd78fec0db9a2079d2c64b3e56fc1bbe18aa0e62b76f89c5291d711af1476edf751ce837f9e28535ade72274ac9673e6b4f0cecff297eadc674f4111913a6b8a130103bdafc1020f3fca8f1e2cd00645b3b80558e4f70ad3bc8c00abd890849d8da75746155edab9edfd5048706c92b6655dcc5ca4d41698688664f6f87225d18b6d49a25b76b224d92866a12e084ec3fa420b954cee3d23c2a632947b54cbe9dec444438e3487ff2f9b8239e37cfbd7f3819ea340bf38a53630d56a0952

/-- SubBytes of one byte. -/
def aesSbox (x : Nat) : Nat := (aesSboxTable >>> (8 * x)) % 256

/-- InvSubBytes of one byte. -/
def aesInvSbox (x : Nat) : Nat := (aesInvSboxTable >>> (8 * x)) % 256

/-- The sixteen bytes of a block, first byte first. -/
def blockBytes (x : Nat) : List Nat := (List.range 16).map fun i => (x >>> (8 * (15 - i))) % 256

/-- The block of sixteen bytes. -/
def blockOf (l : List Nat) : Nat := l.foldl (fun a x => a * 256 + x) 0

/-- Multiplication by x in GF(2^8). -/
def aesXtime (x : Nat) : Nat := if 2 * x < 256 then 2 * x else (2 * x) ^^^ 0x11b

/-- One column of MixColumns. -/
def aesMixColumn : List Nat → List Nat
  | [a, b, c, d] =>
    let m := a ^^^ b ^^^ c ^^^ d
    [a ^^^ m ^^^ aesXtime (a ^^^ b), b ^^^ m ^^^ aesXtime (b ^^^ c),
     c ^^^ m ^^^ aesXtime (c ^^^ d), d ^^^ m ^^^ aesXtime (d ^^^ a)]
  | l => l

/-- One column of InvMixColumns: a correction before MixColumns. -/
def aesInvMixColumn : List Nat → List Nat
  | [a, b, c, d] =>
    let u := aesXtime (aesXtime (a ^^^ c))
    let v := aesXtime (aesXtime (b ^^^ d))
    aesMixColumn [a ^^^ u, b ^^^ v, c ^^^ u, d ^^^ v]
  | l => l

/-- A map over the four columns of a block's bytes. -/
def aesColumns (f : List Nat → List Nat) (l : List Nat) : List Nat :=
  f (l.take 4) ++ f ((l.drop 4).take 4) ++ f ((l.drop 8).take 4) ++ f (l.drop 12)

/-- ShiftRows: the byte of row r and column c comes from column c + r. -/
def aesShiftRows (l : List Nat) : List Nat :=
  (List.range 16).map fun i => l.getD (i % 4 + 4 * ((i / 4 + i % 4) % 4)) 0

/-- InvShiftRows. -/
def aesInvShiftRows (l : List Nat) : List Nat :=
  (List.range 16).map fun i => l.getD (i % 4 + 4 * ((i / 4 + 4 - i % 4) % 4)) 0

/-- SubWord of a word of 32 bits. -/
def aesSubWord (w : Nat) : Nat :=
  aesSbox (w >>> 24) * 2 ^ 24 + aesSbox ((w >>> 16) % 256) * 2 ^ 16 + aesSbox ((w >>> 8) % 256) * 2 ^ 8 + aesSbox (w % 256)

/-- RotWord of a word of 32 bits. -/
def aesRotWord (w : Nat) : Nat := (w * 256) % 2 ^ 32 + w / 2 ^ 24

/-- The key schedule of AES-256: words newest first; `i` is the next word's index. -/
def aesExpand : Nat → Nat → Nat → List Nat → List Nat
  | 0, _, _, ws => ws
  | n + 1, i, rcon, ws =>
    let prev := ws.getD 0 0
    let t :=
      if i % 8 = 0 then aesSubWord (aesRotWord prev) ^^^ (rcon * 2 ^ 24)
      else if i % 8 = 4 then aesSubWord prev
      else prev
    aesExpand n (i + 1) (if i % 8 = 0 then aesXtime rcon else rcon) ((ws.getD 7 0 ^^^ t) :: ws)

/-- The fifteen round keys of AES-256, as blocks. -/
def aesRoundKeys (key : Bytes) : List Nat :=
  let w8 := (piecesOf 4 (fit 32 key)).map ofBe
  let ws := (aesExpand 52 8 1 w8.reverse).reverse
  (List.range 15).map fun r =>
    ((ws.getD (4 * r) 0 * 2 ^ 32 + ws.getD (4 * r + 1) 0) * 2 ^ 32 + ws.getD (4 * r + 2) 0) * 2 ^ 32
      + ws.getD (4 * r + 3) 0

/-- One full round of encryption. -/
def aesRound (blk rk : Nat) : Nat :=
  blockOf (aesColumns aesMixColumn (aesShiftRows ((blockBytes blk).map aesSbox))) ^^^ rk

/-- AES-256 encryption of a block under round keys. -/
def aesEncWith (rks : List Nat) (blk : Nat) : Nat :=
  let b := ((rks.drop 1).take 13).foldl aesRound (blk ^^^ rks.getD 0 0)
  blockOf (aesShiftRows ((blockBytes b).map aesSbox)) ^^^ rks.getD 14 0

/-- One full round of decryption. -/
def aesInvRound (blk rk : Nat) : Nat :=
  let b := blockOf ((aesInvShiftRows (blockBytes blk)).map aesInvSbox) ^^^ rk
  blockOf (aesColumns aesInvMixColumn (blockBytes b))

/-- AES-256 decryption of a block under round keys. -/
def aesDecWith (rks : List Nat) (blk : Nat) : Nat :=
  let b := ((rks.drop 1).take 13).reverse.foldl aesInvRound (blk ^^^ rks.getD 14 0)
  blockOf ((aesInvShiftRows (blockBytes b)).map aesInvSbox) ^^^ rks.getD 0 0

/-- Doubling in GF(2^128), most significant bit first (SP 800-38B). -/
def gfDouble (x : Nat) : Nat := if 2 * x < 2 ^ 128 then 2 * x else (2 * x % 2 ^ 128) ^^^ 0x87

/-- The last block of CMAC: masked by K1 when whole, padded and masked by K2 when not. -/
def cmacLast (rks : List Nat) (last : Bytes) : Nat :=
  let k1 := gfDouble (aesEncWith rks 0)
  if last.length = 16 then ofBe last ^^^ k1
  else ofBe (fit 16 (last ++ [0x80])) ^^^ gfDouble k1

/-- CMAC over the blocks left, from the chaining value. -/
def cmacBlocks (rks : List Nat) : List Bytes → Nat → Nat
  | [], c => aesEncWith rks (c ^^^ cmacLast rks [])
  | [b], c => aesEncWith rks (c ^^^ cmacLast rks b)
  | b :: bs, c => cmacBlocks rks bs (aesEncWith rks (c ^^^ ofBe b))

/-- AES-256-CMAC, the full 16 bytes (02 R50). Log entry 137 (DEDUCED). -/
def cmac (key m : Bytes) : Bytes :=
  beBytes 16 (cmacBlocks (aesRoundKeys key) (piecesOf 16 m) 0)

/-- One step of the key-wrap inverse: the register A, the last semi-block of the list given last first. -/
def kwpUnstep (rks : List Nat) (a : Nat) (t : Nat) (rs : List Nat) : Nat × List Nat :=
  let b := aesDecWith rks ((a ^^^ t) * 2 ^ 64 + rs.getLastD 0)
  (b / 2 ^ 64, (b % 2 ^ 64) :: rs.dropLast)

/-- The key-wrap inverse W^-1: `t` steps from `t` down to 1, rotating the semi-blocks. -/
def kwpUnwrapLoop (rks : List Nat) : Nat → Nat → List Nat → Nat × List Nat
  | 0, a, rs => (a, rs)
  | t + 1, a, rs =>
    let r := kwpUnstep rks a (t + 1) rs
    kwpUnwrapLoop rks t r.1 r.2

/-- The integrity check of KWP: the constant, the length, zero padding. -/
def kwpCheck (a : Nat) (body : Bytes) : Option Bytes :=
  let len := a % 2 ^ 32
  if a / 2 ^ 32 = 0xA65959A6 ∧ len ≤ body.length ∧ body.length < len + 8 ∧ 0 < len ∧
      (body.drop len).all (fun x => x = 0) then some (body.take len) else none

/-- AES-256-KWP unwrap: the material, or none where the integrity check fails. Log entry 137 (DEDUCED). -/
def kwpUnwrap (key w : Bytes) : Option Bytes :=
  let rks := aesRoundKeys key
  if w.length % 8 ≠ 0 ∨ w.length < 16 then none
  else if w.length = 16 then
    let b := aesDecWith rks (ofBe w)
    kwpCheck (b / 2 ^ 64) (beBytes 8 (b % 2 ^ 64))
  else
    let parts := (piecesOf 8 w).map ofBe
    let r := kwpUnwrapLoop rks (6 * (parts.length - 1)) (parts.getD 0 0) (parts.drop 1)
    kwpCheck r.1 (r.2.flatMap (beBytes 8))

/-- The key-wrap function W: `n` steps from `t` upward. -/
def kwpWrapLoop (rks : List Nat) : Nat → Nat → Nat → List Nat → Nat × List Nat
  | 0, _, a, rs => (a, rs)
  | n + 1, t, a, rs =>
    let b := aesEncWith rks (a * 2 ^ 64 + rs.headD 0)
    kwpWrapLoop rks n (t + 1) ((b / 2 ^ 64) ^^^ t) (rs.drop 1 ++ [b % 2 ^ 64])

/-- AES-256-KWP wrap (SP 800-38F). -/
def kwpWrap (key m : Bytes) : Bytes :=
  let rks := aesRoundKeys key
  let body := fit (8 * ((m.length + 7) / 8)) m
  let a := 0xA65959A6 * 2 ^ 32 + m.length
  if body.length = 8 then beBytes 16 (aesEncWith rks (a * 2 ^ 64 + ofBe body))
  else
    let rs := (piecesOf 8 body).map ofBe
    let r := kwpWrapLoop rks (6 * rs.length) 1 a rs
    beBytes 8 r.1 ++ r.2.flatMap (beBytes 8)

/-- Multiplication of an XTS tweak by alpha: the tweak's bytes are little-endian. -/
def xtsDouble (t : Nat) : Nat := if 2 * t < 2 ^ 128 then 2 * t else (2 * t % 2 ^ 128) ^^^ 0x87

/-- The blocks of one XTS data unit under `f`, from the tweak (a little-endian number). -/
def xtsBlocks (f : Nat → Nat) : List Bytes → Nat → Bytes
  | [], _ => []
  | b :: bs, t =>
    let tb := ofBe (leBytes 16 t)
    beBytes 16 (f (ofBe b ^^^ tb) ^^^ tb) ++ xtsBlocks f bs (xtsDouble t)

/-- The first tweak of data unit `unit` under key 2. -/
def xtsTweak (key2 : Bytes) (unit : Nat) : Nat :=
  ofLe (beBytes 16 (aesEncWith (aesRoundKeys key2) (ofBe (leBytes 16 unit))))

/-- AES-XTS-256 encryption of whole blocks: `key` is key 1 then key 2 (07 R219). Log entry 137 (DEDUCED). -/
def xtsEncrypt (key : Bytes) (unit : Nat) (m : Bytes) : Bytes :=
  xtsBlocks (aesEncWith (aesRoundKeys (key.take 32))) (piecesOf 16 m) (xtsTweak (key.drop 32) unit)

/-- AES-XTS-256 decryption of whole blocks. -/
def xtsDecrypt (key : Bytes) (unit : Nat) (c : Bytes) : Bytes :=
  xtsBlocks (aesDecWith (aesRoundKeys (key.take 32))) (piecesOf 16 c) (xtsTweak (key.drop 32) unit)

/-- Multiplication in GF(2^128) of GCM: `n` bits of `x` from the top, `v` shifting right. -/
def ghashMulLoop : Nat → Nat → Nat → Nat → Nat
  | 0, _, _, z => z
  | n + 1, x, v, z =>
    let z := if x.testBit n then z ^^^ v else z
    let v := if v % 2 = 1 then (v >>> 1) ^^^ 0xe1000000000000000000000000000000 else v >>> 1
    ghashMulLoop n x v z

/-- The product of two blocks in GCM's field. -/
def ghashMul (x y : Nat) : Nat := ghashMulLoop 128 x y 0

/-- GHASH of blocks under H. -/
def ghash (h : Nat) (bs : List Bytes) : Nat :=
  bs.foldl (fun y b => ghashMul (y ^^^ ofBe (fit 16 b)) h) 0

/-- The key stream of GCM for `n` blocks from counter `c` under the 12-byte nonce. -/
def gcmStream (rks : List Nat) (nonce : Bytes) : Nat → Nat → Bytes
  | 0, _ => []
  | n + 1, c => beBytes 16 (aesEncWith rks (ofBe (nonce ++ beBytes 4 c))) ++ gcmStream rks nonce n (c + 1)

/-- The 16-byte tag of GCM over the additional data and the ciphertext. -/
def gcmTag (key nonce aad ct : Bytes) : Bytes :=
  let rks := aesRoundKeys key
  let lens := beBytes 8 (8 * aad.length) ++ beBytes 8 (8 * ct.length)
  let s := ghash (aesEncWith rks 0) (piecesOf 16 aad ++ piecesOf 16 ct ++ [lens])
  beBytes 16 (s ^^^ aesEncWith rks (ofBe (nonce ++ beBytes 4 1)))

/-- GCM's counter mode: encryption and decryption are the same. -/
def gcmCrypt (key nonce m : Bytes) : Bytes :=
  xorBytes m (gcmStream (aesRoundKeys key) nonce ((m.length + 15) / 16) 2)

/-- AES-256-GCM seal: the ciphertext and the tag. Log entry 137 (DEDUCED). -/
def gcmSeal (key nonce aad m : Bytes) : Bytes × Bytes :=
  let ct := gcmCrypt key nonce m
  (ct, gcmTag key nonce aad ct)

end Sys2Proof.Machine
end

