-- ==== Sys2Proof/Machine/Tab.lean ====
section
/-! DEFINITION. The containers of the state: sparse tables in ascending key order, arrays of fixed length, and sparse
memories in canonical form. -/

namespace Sys2Proof.Machine

/-- The object with number `k`. -/
def tget {α : Type} (k : Nat) : Tab α → Option α
  | [] => none
  | (k', v) :: t => if k = k' then some v else tget k t

/-- The table with the object `k` set. -/
def tset {α : Type} (k : Nat) (v : α) : Tab α → Tab α
  | [] => [(k, v)]
  | (k', v') :: t => if k = k' then (k, v) :: t else if k < k' then (k, v) :: (k', v') :: t else (k', v') :: tset k v t

/-- The table without the object `k`. -/
def tdel {α : Type} (k : Nat) (t : Tab α) : Tab α := t.filter fun e => e.1 ≠ k

/-- The table with `f` applied to the object `k`, if it exists. -/
def tmod {α : Type} (k : Nat) (f : α → α) (t : Tab α) : Tab α :=
  match tget k t with
  | some v => tset k (f v) t
  | none => t

/-- The object `k` exists. -/
def thas {α : Type} (k : Nat) (t : Tab α) : Bool := (tget k t).isSome

/-- The value with number `k`, or the value of an absent one. -/
def tgetD {α : Type} (k : Nat) (d : α) (t : Tab α) : α := (tget k t).getD d

/-- The lowest number of `lo .. lo + n - 1` that no object has. -/
def tfree {α : Type} (t : Tab α) : Nat → Nat → Option Nat
  | _, 0 => none
  | lo, n + 1 => if thas lo t then tfree t (lo + 1) n else some lo

/-- An element of an array. -/
def vget {α : Type} {n : Nat} (v : Vector α n) (i : Fin n) : α := v[i]

/-- The array with one element set. -/
def vset {α : Type} {n : Nat} (v : Vector α n) (i : Fin n) (x : α) : Vector α n := v.set i.val x i.isLt

/-- The array with `f` applied to one element. -/
def vmod {α : Type} {n : Nat} (v : Vector α n) (i : Fin n) (f : α → α) : Vector α n := vset v i (f (vget v i))

/-- The numbers below `n`. -/
def fins (n : Nat) : List (Fin n) := List.finRange n

/-- A number below `n` from any number, modulo `n`. -/
def finOf (n : Nat) [NeZero n] (i : Nat) : Fin n := Fin.ofNat n i

/-- A byte of a memory whose unlisted bytes read as `d`. -/
def Mem.get (d : BitVec 8) (m : Mem) (a : Nat) : BitVec 8 :=
  match m with
  | [] => d
  | (k, v) :: t => if k = a then v else Mem.get d t a

/-- The entries of the bytes `b` stored from `a`: those that differ from `d`. -/
def Mem.entries (d : BitVec 8) (a : Nat) : Bytes → Mem
  | [] => []
  | x :: b => if x = d then Mem.entries d (a + 1) b else (a, x) :: Mem.entries d (a + 1) b

/-- The memory with the bytes `b` stored from `a`. -/
def Mem.write (d : BitVec 8) (m : Mem) (a : Nat) (b : Bytes) : Mem :=
  m.filter (fun e => e.1 < a) ++ Mem.entries d a b ++ m.filter (fun e => a + b.length ≤ e.1)

/-- The entries as `n` bytes from `a`; the entries are ascending and none lies below `a`. -/
def Mem.expand (d : BitVec 8) : Nat → Nat → Mem → Bytes
  | _, 0, _ => []
  | a, n + 1, [] => d :: Mem.expand d (a + 1) n []
  | a, n + 1, (k, v) :: t =>
    if k = a then v :: Mem.expand d (a + 1) n t else d :: Mem.expand d (a + 1) n ((k, v) :: t)

/-- The `n` bytes from `a`. -/
def Mem.read (d : BitVec 8) (m : Mem) (a n : Nat) : Bytes :=
  Mem.expand d a n (m.filter (fun e => a ≤ e.1 && e.1 < a + n))

/-- The memory with `n` bytes from `a` cleared to what an unlisted byte reads as. -/
def Mem.clear (m : Mem) (a n : Nat) : Mem := m.filter (fun e => e.1 < a || a + n ≤ e.1)

/-- The canonical form: addresses strictly rising, no entry equal to what an unlisted address reads as. -/
def Mem.wf (d : BitVec 8) : Mem → Bool
  | [] => true
  | [(_, v)] => v != d
  | (k, v) :: (k', v') :: t => v != d && decide (k < k') && Mem.wf d ((k', v') :: t)

end Sys2Proof.Machine
end

