-- ==== Sys2Proof/Machine/State.lean ====
section
/-! DEFINITION. The state of the device as plain data, the outcomes a command may have, and the state after reset
(cold power, before the power-up sequence of chapter 14). -/

namespace Sys2Proof.Machine

/-! ### Output -/

/-- What the device sends outward: the model's own log, oldest first.
Log entries 43 (DESIGN CHOICE), 130 (DESIGN CHOICE), 135 (DESIGN CHOICE). -/
inductive Emit where
  /-- MSI-X vector of a function. -/
  | msix (fn : Requester) (vector : Nat)
  /-- SMBALERT_N asserted. -/
  | smbAlert
  /-- The value a register read returns to the requester. -/
  | readData (r : Requester) (off : Nat) (v : Nat)
  /-- The bytes an SMBus read returns. -/
  | smbData (b : Bytes)
  /-- Bytes written to a function's host memory: VF n's, or the PF's for 128. -/
  | hostWrite (n : Nat) (addr : Nat) (b : Bytes)
  /-- A flit on a port: eight slices of 34 bytes, position by position. -/
  | flit (p : Fin 8) (slices : Bytes)
  /-- A management frame on a transmit lane of a port (04 R104). -/
  | mgmt (p : Fin 8) (lane : Fin 9) (frame : Bytes)
  /-- A 64-symbol pilot on every lane of a port. -/
  | pilot (p : Fin 8) (pattern : Pilot)
  /-- Root asks a chip's Root for an export on behalf of a partition (06 R174): chip, own partition, export ID. -/
  | exportQuery (chip partition exportId : Nat)
  /-- Root answers a chip's query for an export: chip, its partition, export ID, the export or a refusal. -/
  | exportAnswer (chip partition exportId : Nat) (answer : Option ExportInfo)
  /-- A PCIe error that the endpoint reports through AER for a function (08 R259). -/
  | aer (n : Nat) (kind : HostFail)
  deriving DecidableEq, Repr

/-! ### Root and the mailboxes (chapter 02) -/

/-- ROOT_MBX_STATUS.STATE (Table 2-4). -/
inductive ChState where
  | idle
  | posted
  | taken
  | done
  deriving DecidableEq, Repr

/-- The object of a command (R43); `fresh` is a new object, the same as no other. -/
inductive Obj where
  | partition (n : Nat)
  | port (p : Nat)
  | key (handle : Nat)
  | group (slot : Nat)
  | grammar (id : Nat)
  | stream (id : Nat)
  | queue (n cls idx : Nat)
  | bough (b : Nat)
  | bundle (b : Nat)
  | peer (chip : Nat)
  | island (i : Nat)
  | routes
  | grove
  | twin
  | crown
  | cut
  | firmware
  | lending
  | device
  | fresh
  deriving DecidableEq, Repr

/-- A blob that passed Table 3-3, with its unwrapped material and its ancestry: key IDs and generations, parent first
(03 R80 stage). -/
structure Staged where
  blob : Bytes
  material : Bytes
  chain : List (Nat × Nat)
  deriving DecidableEq, Repr

/-- A request that Root has taken or will take: its capture instant, the instant its limits run from (R41), the bytes
at t0, the refusal reason if authorisation failed (R56), the key its response is tagged under, and a blob staged by the
authorisation. `ended`: the partition of its object has been destroyed since it was authorised (02 R208 step 3). -/
structure Request where
  t0 : Nat
  since : Nat
  bytes : Bytes
  refusal : Option Nat
  tagKey : Option Bytes
  staged : Option Staged
  ended : Bool
  deriving DecidableEq, Repr

/-- What is left of a long command: an event of the table completes it, or LONG_COMMAND_COMPLETE reports a result
already decided, or performs the rest of KEY_REPLACE, of POWER_STATE_SET, of QUARANTINE_REPLAY, of FW_ACTIVATE or of PART_DESTROY. `plan` is a residency plan that waits for its import: its partition,
table, lender, predicted slowdown, and each tensor's SIZE and tail. Log entry 24 (DESIGN CHOICE). -/
inductive Work where
  | event
  | plan (n table lender slowdown : Nat) (tensors : List (Nat × Nat))
  | planned (status : Nat) (result : Bytes)
  | keyReplace (handle : Nat) (st : Staged)
  | power (target : Nat)
  | replay (bough verdict context reached : Nat)
  | activate (build : Nat)
  | destroy (n : Fin 128)
  deriving DecidableEq, Repr

/-- A ticket (R44): final is none while the command runs; `since` is the instant its limit runs from (R42). -/
structure Ticket where
  num : Nat
  since : Nat
  cmd : Nat
  obj : Obj
  owner : Option Nat
  final : Option Nat
  result : Bytes
  doneAt : Nat
  work : Work
  deriving DecidableEq, Repr

/-- A mailbox channel (Tables 2-2 to 2-5). -/
structure Chan where
  req : Mem
  rsp : Bytes
  st : ChState
  overrun : Bool
  lockHit : Bool
  evqReject : Bool
  doneEn : Bool
  eventEn : Bool
  cur : Option Request
  floor : Nat
  evq : Tab Bytes
  head : Nat
  tail : Nat
  held : List Bytes
  tickets : List Ticket
  nextTicket : Nat
  deriving DecidableEq, Repr

/-- A channel after a device reset. Log entry 9 (DESIGN CHOICE). -/
def Chan.reset : Chan :=
  { req := [], rsp := [], st := .idle, overrun := false, lockHit := false, evqReject := false, doneEn := false,
    eventEn := false, cur := none, floor := 0, evq := [], head := 0, tail := 0, held := [],
    tickets := [], nextTicket := 1 }

/-- Root: channels, refusal log, SMBus window; `downAt` is the instant at which Root last stopped serving. -/
structure Root where
  chans : Vector Chan 130
  alive : Bool
  aliveAt : Nat
  downAt : Nat
  refusals : List (Nat × Bytes)
  refusalNext : Nat
  refusalLost : Nat
  smbOffset : Nat
  smbAlert : Bool
  bootCount : Nat
  resetAt : Option Nat
  deriving DecidableEq, Repr

/-! ### Heartwood (chapter 03) -/

/-- A registered key (R71): its blob, its ancestry (key IDs and generations, parent first), the channel that loaded it,
and the uses counted in volatile storage. -/
structure KeyEntry where
  blob : Bytes
  chain : List (Nat × Nat)
  channel : Nat
  uses : Nat
  deriving DecidableEq, Repr

/-- What a resident slot holds. -/
inductive SlotUse where
  | key (idx : Nat)
  | command (ch : Nat)
  | refusalLog
  deriving DecidableEq, Repr

/-- A resident slot (R73, R90): Heartwood holds the material as two shares, `share` and the XOR of both.
Log entry 163 (DESIGN CHOICE). -/
structure Slot where
  holds : SlotUse
  material : Bytes
  share : Bytes
  pinned : Bool
  deriving DecidableEq, Repr

/-- The two shares of a slot, whose XOR is its material (R90). -/
def Slot.shares (x : Slot) : Bytes × Bytes := (x.share, xorBytes x.material x.share)

/-- A use counter in persistent cells (R84): binding 0 is free; the banks are counts of set cells. -/
structure UseCounter where
  binding : Nat
  high : Nat
  bankA : Nat
  bankB : Nat
  erasing : Bool
  deriving DecidableEq, Repr

/-- Heartwood's fault state (Table 3-9): READY and PROVISION follow from the owner record of channel 0. -/
inductive HwdFault where
  | none
  | tamper
  | failed
  deriving DecidableEq, Repr

/-- Heartwood. `scramble` is the number of this boot's permutation of the 256 slot addresses (R90); `tombs` are the orphaned command-key handles (R83); `orphans` the orphaned handles whose consumers have not
given the key up yet (R82 step 3). -/
structure Hwd where
  fault : HwdFault
  reg : Tab KeyEntry
  uniq : Tab Nat
  slots : List Slot
  scramble : Nat
  gens : Tab Nat
  counters : Vector UseCounter 64
  owner0 : Option Bytes
  owner1 : Option Bytes
  water0 : Nat
  water1 : Nat
  tombs : List Nat
  orphans : List Nat
  reloads : Nat
  blobRefusals : Nat
  deriving DecidableEq, Repr

/-! ### Memory and partitions (chapter 07) -/

/-- Poison codes (R227). -/
inductive Poison where
  | unwritten
  | fault
  deriving DecidableEq, Repr

/-- A seal key pair installed in the memory controller: the XTS material and K_tag. -/
structure SealPair where
  xts : Bytes
  tag : Bytes
  deriving DecidableEq, Repr

/-- A tensor's placement (Table 7-4): SIZE, LOCAL_OFFSET, LENT_ADDRESS, LENT_BYTES. -/
structure Placement where
  size : Nat
  offset : Nat
  lentAddr : Nat
  lent : Nat
  deriving DecidableEq, Repr

/-- The plan of a partition (R236): its local allocation, its import slot, and the placements it wrote. -/
structure Plan where
  offset : Nat
  granules : Nat
  slot : Option Nat
  tensors : List Placement
  deriving DecidableEq, Repr

/-- A partition (Table 7-2); mode 1 OPEN, 2 SEALED, 3 LENDING. `pages` and `tagPages` map offset granules and tag
granules to device granules. -/
structure Partition where
  mode : Nat
  queuesPerClass : Nat
  quota : Nat
  boughMask : Nat
  cmdKey : Nat
  sealKey : Nat
  creationGen : Nat
  pages : Tab Nat
  tagPages : Tab Nat
  pair : Option SealPair
  oldPair : Option SealPair
  sweep : Nat
  poisonHits : Nat
  overhang : Nat
  plan : Option Plan
  deriving DecidableEq, Repr

/-- A tag line in the tag cache (R222): its bytes, and whether they are still to be written back. -/
structure TagLine where
  data : Bytes
  dirty : Bool
  deriving DecidableEq, Repr

/-- The memory controller. `fault` holds the device lines that carry the FAULT poison code; `fresh` the device granules
whose lines carry UNWRITTEN, but for the lines listed (R211, R227); `eccBad` and `eccSoft` the device lines whose next access finds
an uncorrectable error (R215) or one that the code corrects (R214); `tagBad` the tags lost with an uncorrectable tag line and not
rewritten since (R230), each by its device address / 8; `tagCache` the tag caches of the HBM groups by device line (R222). -/
structure MemState where
  bytes : Mem
  fault : List Nat
  fresh : Tab (List Nat)
  eccBad : List Nat
  eccSoft : List Nat
  tagBad : List Nat
  tagCache : Tab TagLine
  parts : Tab Partition
  gens : Vector (BitVec 8) 128
  zeroing : List Nat
  retired : List Nat
  retiredRows : Nat
  degradedRows : Nat
  rowErrors : Tab (List Nat)
  corrected : Nat
  uncorrected : Nat
  scrubPasses : Nat
  lending : Option Nat
  lendKey : Bytes
  journalMib : Nat
  journalNext : Nat
  spillGranules : Nat
  spillKey : Bytes
  deriving DecidableEq, Repr

/-! ### Lanes (chapter 04) -/

/-- The role of a lane (Table 4-13). -/
inductive LaneRole where
  | off
  | data
  | spareReady
  | retrain
  | retired
  | failed
  deriving DecidableEq, Repr

/-- A bit table proposed for a lane: its ID, SF, grade, entries, the symbol of its swap, and whether it was accepted. -/
structure PendingTable where
  id : Nat
  sf : Nat
  grade : Nat
  entries : List (BitVec 8)
  swapSymbol : Nat
  accepted : Bool
  deriving DecidableEq, Repr

/-- A lane's receiver. `noise`, `snr` and `margin` are in 0.25 dB; `untrimmed` is the loading before trimming (R110);
`fresh` until the first live-SNR window after LINKED, a retrain or a spare swap has ended (R114); `swappedAt` the last accepted
proposal; `leaving` while a spare swap of its position is asked for (R122); `degAt` and `degIdx` the begin of degraded
service and the last window in which the threshold was reached (R124); `timing` the symbol timing of its pilot in ns (R102); of a
lane retrain (R119), `exchanged` when the RETRAIN exchange is over, `retabled` when a new table is in force, `relieved` when a
spare swap took its position, `retrainBy` the instant by which the steps complete. -/
structure RxLane where
  role : LaneRole
  position : Nat
  inverted : Bool
  partner : Nat
  qualified : Bool
  qualifiedAt : Nat
  energyAt : Option Nat
  tableId : Nat
  sf : Nat
  table : List (BitVec 8)
  pend : Option PendingTable
  noise : List Int
  snr : List Int
  margin : Int
  errTimes : List Nat
  errs : Nat
  untrimmed : Nat
  fresh : Bool
  swappedAt : Option Nat
  leaving : Bool
  retrainFails : List Nat
  retryAt : Option Nat
  degAt : Option Nat
  degIdx : Nat
  timing : Nat
  exchanged : Bool
  retabled : Bool
  relieved : Bool
  retrainBy : Nat
  deriving DecidableEq, Repr

/-- A lane's transmitter: `copy` is the position whose slices a spare sends as well (R122), `retabled` a table put in force since
its lane retrain began. -/
structure TxLane where
  role : LaneRole
  position : Nat
  tableId : Nat
  sf : Nat
  table : List (BitVec 8)
  pend : Option PendingTable
  lastAccepted : Option Nat
  copy : Option Nat
  retabled : Bool
  deriving DecidableEq, Repr

/-- A LINK_RETRAIN that waits for a lane (R119). -/
structure Retrain where
  lane : Nat
  ticket : Option (Fin 130 × Nat)
  deriving DecidableEq, Repr

/-- The physical layer of a port: `st` is the code of Table 4-8, `last` the target and acquisition SF of the last
LINK_TRAIN (R159), `bootWait` a port with AUTO_TRAIN that waits for its identity key (15 R458), `heard` the SEQs acted on last
(R105), `txSym` and `rxSym` what the symbol counters of the two directions stand ahead of Cambium time (R95), `quietAt` the instant
of the PHASE symbol, `helloAt` that of the last HELLO (R115), `lowDue` a LOW_ENTER that waits for the link layer to drain (R125). -/
structure Phys where
  st : Nat
  since : Nat
  started : Nat
  target : Nat
  acquireSf : Nat
  grade : Nat
  returns : Nat
  ticket : Option (Fin 130 × Nat)
  last : Option (Nat × Nat)
  listening : Bool
  lastPilot : Nat
  nonce : Nat
  helloSent : Bool
  peerHello : Option Hello
  initiator : Bool
  quietSymbol : Option Nat
  ownGrade : Option Nat
  peerGrade : Option Nat
  rx : Vector RxLane 9
  tx : Vector TxLane 9
  nakInvalid : List Nat
  retrain : Option Retrain
  lowMs : Nat
  lowAsked : Bool
  lastBeacon : Nat
  lastBeaconSent : Nat
  trainNs : Nat
  falseWakes : Nat
  beacons : Nat
  autoAt : Option Nat
  bootWait : Bool
  mgmtSeq : Nat
  heard : List Nat
  txSym : Nat
  rxSym : Nat
  quietAt : Option Nat
  helloAt : Nat
  lowDue : Bool
  deriving DecidableEq, Repr

/-! ### Link layer (chapter 05) -/

/-- A message or a part of one waiting for a VC: its bytes, the bytes already sent, the flit type, the partition for the
round robin of 07 R209, the tag of its transaction, and the instant it began to wait. -/
structure TxMsg where
  bytes : Bytes
  sent : Nat
  typ : Nat
  part : Nat
  tag : Option Nat
  since : Nat
  deriving DecidableEq, Repr

/-- A flit in the replay buffer: its number, its 272 bytes, and the transaction or collective message it belongs to. -/
structure SentFlit where
  seq : Nat
  bytes : Bytes
  msg : Option Nat
  deriving DecidableEq, Repr

/-- An accepted flit: in a landing slot with its header and its plaintext payload, or (`ring`) in an entry of the spill ring, whose
256 bytes lie in HBM, encrypted when `sealed_` (R145, R147); `last` ends its message, `suspect` tells of a NAK just before (12 R365). -/
structure LandFlit where
  typ : Nat
  hdr : Bytes
  payload : Bytes
  at_ : Nat
  last : Bool
  ring : Bool
  entry : Nat
  sealed_ : Bool
  suspect : Bool := false
  deriving DecidableEq, Repr

/-- A VC's receiver: the accepted flits in order of acceptance, the bytes its arriving message still lacks (`left`), and
what the consumer has taken of a message. -/
structure VcRx where
  flits : List LandFlit
  left : Nat
  peak : Nat
  accepted : Nat
  spilled : Nat
  dropped : Nat
  wedges : Nat
  wedgeTimes : List Nat
  stall : Bool
  wedged : Bool
  emptyAt : Nat
  asm : Bytes
  ringNext : Nat
  deriving DecidableEq, Repr

/-- A VC's transmitter at a port. -/
structure VcTx where
  queue : List TxMsg
  lastPart : Nat
  stallAt : Option Nat
  stalled : Bool
  wedged : Bool
  deriving DecidableEq, Repr

/-- A direction's session key (R164). -/
structure SessKey where
  key : Bytes
  iv : Bytes
  epoch : Nat
  deriving DecidableEq, Repr

/-- A running handshake (R164): the ephemeral scalar, both SEC_HELLO bodies, Z and TH. -/
structure Handshake where
  epoch : Nat
  scalar : Nat
  own : Bytes
  peer : Option Bytes
  z : Bytes
  th : Bytes
  proofOk : Bool
  finishSent : Bool
  finishGot : Bool
  newTx : Option SessKey
  start : Nat
  deriving DecidableEq, Repr

/-- A CTRL message of which segments have arrived (R163): its code, segments, body length, the next segment, its bytes. -/
structure CtrlAsm where
  code : Nat
  segments : Nat
  length : Nat
  next : Nat
  bytes : Bytes
  deriving DecidableEq, Repr

/-- The link layer's state (Table 5-8). -/
inductive LlState where
  | down
  | securing
  | up
  | low
  deriving DecidableEq, Repr

/-- The link layer of a port. `resend` is the next number of a running replay; `newest` the newest flit acted on (KEY_ID,
or 4 for a flit before the session, and FLIT_COUNT); `timer` the last restart of the replay timer. -/
structure Link where
  st : LlState
  next : Nat
  oldest : Nat
  expected : Nat
  replay : List SentFlit
  resend : Option Nat
  sinceNull : Nat
  nakPending : Bool
  nakDue : Bool
  nakAt : Nat
  ackCount : Nat
  ackFirst : Nat
  needNull : Bool
  timer : Nat
  replays : Nat
  txEpoch : Nat
  txCount : Nat
  newest : Option (Nat × Nat)
  rx : Vector VcRx 8
  tx : Vector VcTx 8
  lastSent : Nat
  lastIntact : Nat
  lastNakSent : Option Nat
  replayed : Nat
  killed : Nat
  tagFail : Nat
  naks : Nat
  lastDown : Nat
  lastDownSent : Bool
  tagFailTimes : List Nat
  mode : Nat
  peerExpect : Nat
  identity : Nat
  txKey : Option SessKey
  rxKey : Option SessKey
  nextRx : Option SessKey
  prevRx : Option SessKey
  zeroiseAt : Option Nat
  epochAt : Nat
  rekeyDue : Bool
  shake : Option Handshake
  rekeyWait : Option (Nat × Fin 130 × Nat)
  peer : Option Nat
  syncSeq : Nat
  lastSync : Nat
  wrrTurn : Nat
  ctrlAsm : Option CtrlAsm
  deriving DecidableEq, Repr

/-- A port (islands 16 to 23). -/
structure Port where
  phys : Phys
  link : Link
  deriving DecidableEq, Repr

/-! ### Transactions (chapter 06) -/

/-- An export (R172). -/
structure Export where
  part : Nat
  gen : BitVec 8
  offset : Nat
  length : Nat
  rights : Nat
  impChip : Nat
  impPart : Nat
  deriving DecidableEq, Repr

/-- An import slot (R174); slots are numbered over the chip. -/
structure Import where
  part : Nat
  chip : Nat
  remote : Nat
  offset : Nat
  length : Nat
  rights : Nat
  gen : BitVec 8
  stale : Bool
  plan : Bool
  inst : Nat
  deriving DecidableEq, Repr

/-- An export asked for and not yet answered (R174): the channel, the ticket of the residency plan that asks (0 for
WINDOW_IMPORT), the importing partition, and the chip, partition and ID of the export. -/
structure PendingImport where
  ch : Fin 130
  ticket : Nat
  part : Nat
  chip : Nat
  remote : Nat
  id : Nat
  deriving DecidableEq, Repr

/-- Who directed a read-ahead (R198): a MOVE record of queue key `q`, a stream, or the plan of a partition. -/
inductive RaOwner where
  | queue (key num : Nat)
  | stream (id : Nat)
  | plan (n : Nat)
  deriving DecidableEq, Repr

/-- What a transaction belongs to: a MOVE record, a chunk of a COPY record, a lent-tail read of a MATH record,
read-ahead. -/
inductive TxnUse where
  | record (n q num : Nat)
  | chunk (n q num index : Nat)
  | tail (n q num index : Nat)
  | readAhead (owner : RaOwner)
  deriving DecidableEq, Repr

/-- A transaction of this chip, from issue to completion (R176 to R196). `sentAt` is the composition of its first
request flit; `port` and `vc` are those of its request, `rspVc` that of its response. -/
structure Txn where
  op : Nat
  flags : Nat
  part : Nat
  gen : BitVec 8
  slot : Nat
  inst : Nat
  addr : Nat
  length : Nat
  tgtGen : BitVec 8
  chunk : Nat
  data : Bytes
  use : TxnUse
  port : Option (Fin 8)
  path : Nat
  vc : Nat
  sentAt : Option Nat
  deriving DecidableEq, Repr

/-- A read-ahead entry (R198). -/
structure ReadAhead where
  owner : RaOwner
  part : Nat
  gen : BitVec 8
  slot : Nat
  inst : Nat
  addr : Nat
  data : Bytes
  at_ : Nat
  deriving DecidableEq, Repr

/-- A request this chip forwarded, while its completion may still pass back: the port it left by, the instant, and its
header (R193). -/
structure Forwarded where
  port : Fin 8
  at_ : Nat
  header : Bytes
  deriving DecidableEq, Repr

/-- A message received whole, in order of acceptance: its port and VC, its flit type, its bytes and the instant its
last flit was accepted; local transactions carry port none (R201). A SYNC is `suspect` by its acceptance (12 R365). -/
structure InMsg where
  port : Option (Fin 8)
  vc : Nat
  typ : Nat
  bytes : Bytes
  at_ : Nat
  suspect : Bool := false
  deriving DecidableEq, Repr

/-- What a write into a synchronous region waits for at the twin (11 R339): the region's ID, the captured lines that must be
answered, and how far the answered initial copy must reach. -/
structure MirrorMark where
  region : Nat
  lines : Nat
  upTo : Nat
  deriving DecidableEq, Repr

/-- A response of this chip as target that is not ready yet: a denial (R197), or one whose lines a synchronous mirror
has not answered (11 R339). -/
structure HeldRsp where
  bytes : Bytes
  acceptedAt : Nat
  denial : Bool
  mirrors : List MirrorMark
  part : Nat
  deriving DecidableEq, Repr

/-- The transaction engine. -/
structure TxnState where
  chip : Option Nat
  exports : Tab Export
  nextExport : Nat
  imports : Tab Import
  nextInst : Nat
  pendingImports : List PendingImport
  txns : Tab Txn
  nextTag : Nat
  quarantine : Tab Nat
  waiting : List Txn
  readAhead : List ReadAhead
  routes : List (BitVec 32)
  routeGen : Nat
  bundles : Vector Nat 4
  bundlePeer : Vector (Option Nat) 4
  fwd : List Forwarded
  peerDown : List Nat
  held : List HeldRsp
  inbox : List InMsg
  issued : Nat
  served : Nat
  forwarded : Nat
  denied : Nat
  lateDropped : Nat
  holdDropped : Nat
  prefetchIssued : Nat
  prefetchUsed : Nat
  synth : Vector Nat 7
  deriving DecidableEq, Repr

/-! ### Crown: boughs, queues, records (chapter 08) -/

/-- CRN_BOUGH_STATE (Table 8-3). -/
inductive BoughState where
  | free
  | active
  | inReset
  | retired
  deriving DecidableEq, Repr

/-- A bough. -/
structure Bough where
  st : BoughState
  owner : Nat
  deriving DecidableEq, Repr

/-- A record in progress: its bytes, the instant it started, its outcome once decided, what completion still waits
for, and what its completion entry carries; `dests` the cache entries an ATTEND record appends to, as (in scratch space, address,
length). -/
structure Running where
  num : Nat
  bytes : Bytes
  start : Nat
  done : Bool
  status : Nat
  synth : Bool
  responder : Nat
  remote : Bool
  result : Bytes
  localFail : Option Nat
  txnsLeft : Nat
  chunkNext : Nat
  chunkFail : Option (Nat × Nat × Nat)
  mirrors : List MirrorMark
  skipped : Bool
  tail : Tab Bytes
  streams : List Nat
  dead : Nat
  dests : List (Bool × Nat × Nat)
  hbm : Nat × Nat
  deriving DecidableEq, Repr

/-- The state of a queue (Table 8-2). -/
inductive QState where
  | idle
  | running
  | held
  | faulted
  deriving DecidableEq, Repr

/-- A queue (R241 to R250): `started` is the number of the next record to start; `recent` holds the number, status word
and SKIPPED of the records completed last, for CHAIN (R247). -/
structure Queue where
  host : Bool
  entries : Nat
  base : Nat
  vector : Nat
  head : BitVec 32
  tail : BitVec 32
  started : BitVec 32
  held : Bool
  faulted : Bool
  dbReject : Bool
  running : List Running
  recent : List (Nat × Nat × Bool)
  checkpointAt : Nat
  deriving DecidableEq, Repr

/-- Crown: boughs, scratchpads, queues; queue key is 16 n + q with q = 4 class + index. `scratchFault` holds the poisoned
lines of the scratchpads, `scratchBad` those whose next access finds an uncorrectable error (bough b's byte o is b × 4 MiB + o). -/
structure Crown where
  boughs : Vector Bough 64
  scratch : Mem
  scratchFault : List Nat
  scratchBad : List Nat
  queues : Tab Queue
  doorbellReject : Nat
  deriving DecidableEq, Repr

/-! ### Collectives (chapter 09) -/

/-- A running operation of a slot (R273 to R289): `src` is the local contribution once it is `ready`; `got` the accepted
messages (from, step, segment, data); `sent` the messages sent (to, step, segment); `written` the destination ranges
finally written, and `made` the ranges of a suffix's contribution whose tiles the boughs have produced (R277), in elements. -/
structure ColOp where
  opseq : Nat
  kind : Nat
  redop : Nat
  fmt : Nat
  count : Nat
  root : Nat
  src : Bytes
  ready : Bool
  dst : Nat
  same : Bool
  counts : Nat
  sendCounts : List Nat
  countsDone : Bool
  part : Nat
  q : Nat
  num : Nat
  fused : Bool
  start : Nat
  got : List (Nat × Nat × Nat × Bytes)
  sent : List (Nat × Nat × Nat)
  written : List (Nat × Nat)
  made : List (Nat × Nat)
  lagMember : Nat
  lagNs : Nat
  timer : Nat
  sat : Nat
  nans : Nat
  localFail : Option Nat
  deriving DecidableEq, Repr

/-- A collective slot (R270, R272): `lastGen` holds the generation last carried by each member, `firstAt` the acceptance of the first
message parked for each OPSEQ to come (R289). -/
structure Group where
  part : Nat
  algorithm : Nat
  id : Nat
  members : List (Nat × Nat)
  self : Nat
  opSeq : Nat
  broken : Option Nat
  laggard : Nat
  laggardNs : Nat
  segsIn : Nat
  lastGen : Tab Nat
  firstAt : Tab Nat
  op : Option ColOp
  deriving DecidableEq, Repr

/-- The collective sequencer; `staging` in bytes. -/
structure Col where
  slots : Tab Group
  parked : List InMsg
  unmatched : Nat
  late : Nat
  parkExpired : Nat
  abortsSent : Nat
  abortsGot : Nat
  staging : Nat
  deriving DecidableEq, Repr

/-! ### Token engine (chapter 10) -/

/-- A loaded image (R296): its vocabulary (itself for a vocabulary), its kind, where it lies, and its header as it was
read last. -/
structure Image where
  part : Nat
  vocab : Nat
  kind : Nat
  offset : Nat
  length : Nat
  hdr : Bytes
  deriving DecidableEq, Repr

/-- A configuration of an automaton: its state and its stack, top first. -/
structure AutoConf where
  state : Nat
  stack : List Nat
  deriving DecidableEq, Repr

/-- A stream (R305 to R316); grammar 0 is none. `unpresented` holds each sampled token with the configuration and the
token count before its advance; `pendingStop` is the stop of the last sampled advance; `mask` is the built mask, bit t
for token t; `built` are the run-ahead masks. -/
structure Stream where
  part : Nat
  vocab : Nat
  grammar : Nat
  runAhead : Bool
  stops : List (Bool × Bytes)
  held : Bytes
  conf : AutoConf
  stopReason : Nat
  stopIndex : Nat
  pendingStop : Option Nat
  unpresented : List (Nat × AutoConf × Nat)
  rng : Nat
  tokens : Nat
  maskAt : Nat
  maskReady : Bool
  mask : Nat
  built : List (AutoConf × Nat)
  deriving DecidableEq, Repr

/-- An entry of the piece cache (10 R303): its vocabulary, the text bytes looked up, and the NORMAL piece found: token and score. -/
structure CachedPiece where
  vocab : Nat
  key : Bytes
  piece : Option (Nat × Int)
  deriving DecidableEq, Repr

/-- The token engine. -/
structure Tke where
  vocabs : Tab Image
  grammars : Tab Image
  nextId : Nat
  streams : Tab Stream
  textBytes : Nat
  pieceMisses : Nat
  masks : Nat
  masksLate : Nat
  maskNsMax : Nat
  raBuilt : Nat
  raUsed : Nat
  raDiscarded : Nat
  prefixHits : Nat
  prefixRefused : Nat
  cache : List CachedPiece
  deriving DecidableEq, Repr

/-! ### Grove and twin (chapter 11) -/

/-- A registry entry's state (Table 11-2). -/
inductive RegState where
  | empty
  | joined
  | silent
  | left
  deriving DecidableEq, Repr

/-- A registry entry of the trunk (R325 to R327): `beat` is the time of the last beat, `heard` of the last beat or
registration, `bundles` the peer chip (0xFFFF for none) and active members of bundles 0 to 3. -/
structure RegEntry where
  st : RegState
  serial : Nat
  routeGen : Nat
  beat : Nat
  heard : Nat
  bundles : List (Nat × Nat)
  deriving DecidableEq, Repr

/-- A running GROVE_JOIN (R318). -/
structure Joining where
  since : Nat
  ticket : Option (Fin 130 × Nat)
  deriving DecidableEq, Repr

/-- The grove: membership, registry, notices. -/
structure Grove where
  trunk : Nat
  registered : Bool
  joining : Option Joining
  reg : Tab RegEntry
  notices : Tab (Nat × Nat)
  ignored : Nat
  relayRefused : Nat
  fwdDropped : Nat
  lastBeat : Nat
  deriving DecidableEq, Repr

/-- SAP_TWN_STATE (Table 11-3). -/
inductive TwinSt where
  | none
  | pairing
  | paired
  | graftDown
  | lost
  | promoted
  deriving DecidableEq, Repr

/-- A region's state (Table 11-3). -/
inductive RegionSt where
  | syncing
  | inSync
  | detached
  | fenced
  | incomplete
  deriving DecidableEq, Repr

/-- A mirror message that waits for its answer: SEQ, the lines it carries, its instant; `copy` marks one of the initial copy
(R335), the others carry captured lines (R336). -/
structure MirrorSent where
  seq : Nat
  lines : Nat
  at_ : Nat
  copy : Bool
  deriving DecidableEq, Repr

/-- A mirrored region (R334 to R339): `copied` is the copy pointer, the bytes of the region that the initial copy has carried;
`captured` and `answered` count captured lines, `late` the lines written above the copy pointer, which the copy carries;
`sent` are the unanswered messages. -/
structure Region where
  id : Nat
  st : RegionSt
  target : Bool
  async : Bool
  part : Nat
  maxLag : Nat
  offset : Nat
  length : Nat
  copied : Nat
  seq : Nat
  captured : Nat
  answered : Nat
  late : Nat
  sent : List MirrorSent
  deriving DecidableEq, Repr

/-- A twin message that waits for an answer. -/
structure TwinWait where
  since : Nat
  nonce : Nat
  ticket : Option (Fin 130 × Nat)
  deriving DecidableEq, Repr

/-- The twin (R331 to R347). `marks` are what the writes of the command being executed wait for, until the record or the response
that they belong to takes them. -/
structure Twin where
  st : TwinSt
  chip : Nat
  pairKey : Nat
  gen : BitVec 8
  ownNonce : Bytes
  peerNonce : Option Bytes
  peerSerial : Nat
  proofSent : Bool
  proofOk : Bool
  kGraft : Option Bytes
  kProbe : Option Bytes
  beatCount : Nat
  lastBeatSent : Nat
  lastBeat : Nat
  pairing : Option TwinWait
  probing : Option TwinWait
  yielding : Option TwinWait
  ackOwed : Bool
  opening : List (Nat × Region × (Fin 130 × Request))
  regions : Tab Region
  nextRegion : Nat
  lastStale : Option Nat
  tagFail : Nat
  failoverAt : Nat
  marks : List MirrorMark
  deriving DecidableEq, Repr

/-! ### Power, clocks, pins (chapter 14) -/

/-- The power state (Table 14-14). -/
inductive PwrState where
  | run
  | quiet
  | nap
  | deep
  | entering
  | leaving
  | hold
  | tripped
  deriving DecidableEq, Repr

/-- Power, clocks, thermal state and pins. `phase` tells which state is entered or left: 1 QUIET, 2 NAP, 3 DEEP, HOLD or the
power-up sequence, 0 cold power before the sequence; `samples` are the power measurements of the last 1 ms with their instants,
`heldReads` the reads toward the power-gated token engine that wait for it (01 R23): requester, offset, 64 bits wide; `episode` the begin
of the throttling episode, `entryFrom` the code of the state that an entry began in, `energyBoot` that lane energy began
the boot that has not reached READY yet, `tempMax` the highest readings since cold power (none yet: the lowest i16). -/
structure Pwr where
  st : PwrState
  phase : Nat
  phaseAt : Nat
  groupsUp : Nat
  enables : Vector Bool 3
  entryFrom : Nat
  wakeReason : Nat
  energyBoot : Bool
  straps : Straps
  xtalFallback : Bool
  brdThrotLow : Bool
  brdHighSince : Nat
  limitMw : Nat
  avgMw : Nat
  samples : List (Nat × Nat)
  heldReads : List (Requester × Nat × Bool)
  crownRate : Nat
  runAheadOff : Bool
  paced : Bool
  causes : Nat
  episode : Option Nat
  clearSince : Option Nat
  lastWarn : Vector (Option Nat) 8
  temps : Vector Int 12
  tempMax : Vector Int 12
  refreshDoubled : Nat
  trips : List Nat
  coolSince : Option Nat
  stuckTripped : Bool
  thermTrip : Bool
  pcieWakeAt : Option Nat
  perstHigh : Bool
  pcieUp : Bool
  sleepAt : Nat
  deriving DecidableEq, Repr

/-! ### Bring-up (chapter 15) -/

/-- Boot and flash state (R450 to R460): `stage` is CMB_BOOT.STAGE, `slotA` and `slotB` the slot results, `staged` the end of
the image bytes written since the last erase (`stagedAny`), `rollback` the ROLLBACK of the running image, `gcsMinor` its GCS minor version (00 R2), `activateAt` the instant
of the reset that follows FW_ACTIVATE, `armedAt` that of the watchdog's arming. -/
structure Boot where
  stage : Nat
  slot : Nat
  trial : Bool
  slotA : Nat
  slotB : Nat
  failedStacks : Nat
  recovery : Nat
  fwBuild : Nat
  gcsMinor : Nat
  readyAt : Nat
  staged : Nat
  stagedAny : Bool
  trialFault : Bool
  activateAt : Option Nat
  rollback : Nat
  armedAt : Option Nat
  deriving DecidableEq, Repr

/-- A port's configuration (15 Table 15-5). -/
structure PortCfg where
  energyThreshold : Int
  autoTrain : Bool
  autoRetrain : Bool
  wakeOnLink : Bool
  targetGrade : Nat
  acquireSf : Nat
  launchPower : Int
  downUs : Nat
  beaconMs : Nat
  retireThreshold : Nat
  retireUs : Nat
  securityMode : Nat
  spillLog2 : Vector Nat 8
  deriving DecidableEq, Repr

/-- The configuration area in force (15 Tables 15-4 and 15-5). -/
structure Cfg where
  ownerKey : Bytes
  certs : List Bytes
  debugEnable : Bool
  requireSealed : Bool
  autoFailover : Bool
  remoteTimeoutUs : Nat
  colTimeoutUs : Nat
  rowErrors : Nat
  rowHours : Nat
  progressMs : Nat
  sampleO : Nat
  sampleL : Nat
  ports : Vector PortCfg 8
  deriving DecidableEq, Repr

/-! ### Islands (chapter 01) -/

/-- A stalled crossing (R24): sender, receiver, the instant its handshake began to wait.
Log entry 133 (DESIGN CHOICE). -/
structure StalledCrossing where
  sender : Nat
  receiver : Nat
  since : Nat
  deriving DecidableEq, Repr

/-! ### Faults, resets, journal (chapter 13) -/

/-- An entry of the Cambium error log (R413). -/
structure ErrEntry where
  index : Nat
  bytes : Bytes
  deriving DecidableEq, Repr

/-- What Root keeps of a bough's beats (R383, R384): `tilesAt` is the last beat at which the tile count had advanced or the
stall code was neither ISSUE nor ENGINE; `sinceReset` the beats since the bough's own reset, up to 3. -/
structure Beats where
  lastBeat : Nat
  tiles : Nat
  tilesAt : Nat
  sinceReset : Nat
  stall : Nat
  deriving DecidableEq, Repr

/-- The watchdog (Table 13-11). -/
inductive Watchdog where
  | unarmed
  | armed
  | expired
  deriving DecidableEq, Repr

/-- The last reset (Table 13-11). -/
structure ResetInfo where
  scope : Nat
  cause : Nat
  bough : Nat
  deriving DecidableEq, Repr

/-- Cambium: error log, watchdog, escalation, and the resets in progress: those of boughs, of Crown, of the device, by cause.
`restartAt` and `restartEnd` are the begin and the end of the last Root restart, `deviceAt` the release of the last device
reset; `quarantine` is the bough of a running replay (13 R410). -/
structure Cmb where
  log : List ErrEntry
  logNext : Nat
  logLost : Nat
  wdt : Watchdog
  rootBeats : Nat
  lastRootBeat : Nat
  restartAt : Option Nat
  restarting : Bool
  restartEnd : Option Nat
  deviceAt : Nat
  crownLimit : Nat
  boughLimit : Nat
  windowS : Nat
  deviceHist : List Nat
  boughHist : Vector (List Nat) 64
  retired : Nat
  outOfService : Bool
  last : ResetInfo
  dumpCount : Nat
  beats : Vector Beats 64
  boughPending : Tab Nat
  crownPending : Option Nat
  devicePending : Option Nat
  inReset : Bool
  quarantine : Option Nat
  deriving DecidableEq, Repr

/-- The flight journal (R405): the region's bytes lie in memory. `hist` lists the CHECKPOINT, RESET and GAP records that the
region still holds, newest first, with their offsets (R410). -/
structure Fjr where
  recording : Bool
  seq : Nat
  next : Nat
  gaps : Nat
  lost : Nat
  lostTime : Nat
  held : Bool
  buffer : List Bytes
  hist : List (Nat × Bytes)
  deriving DecidableEq, Repr

/-! ### Observation (chapter 12) -/

/-- The state of the cut (Table 12-10). -/
inductive CutState where
  | idle
  | armed
  | firing
  | taken
  deriving DecidableEq, Repr

/-- The dormancy cut (R374 to R381): the map has bit c for chip c; the port flags are those of OBS_CUT_PORT;
`chanClosed` is the count of flits a VC had accepted at the peer's MARKER (R378), `firedAt` the instant of FIRING, `lost` the ports whose link went down
during the cut (R380). -/
structure Cut where
  st : CutState
  scope : Nat
  id : Nat
  map : Nat
  onBreak : Bool
  time : Nat
  firedAt : Nat
  origin : Nat
  hops : Nat
  waiting : Nat
  ignored : Nat
  received : Vector Bool 8
  sent : Vector Bool 8
  chanClosed : Vector (Vector (Option Nat) 8) 8
  lost : List Nat
  deriving DecidableEq, Repr

/-- A bough's counters (R352 to R355): the followed record is (partition, queue q, record number); `seen` tells that the counters were
looked at while a record in progress had not been counted whole. -/
structure BoughCtr where
  mode : Nat
  lastMask : Nat
  selects : Vector Nat 16
  counts : Vector Nat 16
  latched : Vector Nat 16
  latchRec : Nat
  latchQ : Nat
  latchSeq : Nat
  followed : Option (Nat × Nat × Nat)
  late : Bool
  frozen : Bool
  seen : Bool
  deriving DecidableEq, Repr

/-- A partition's production counters (Table 12-3); the work of its boughs is counted up to `boughAt`. -/
structure PartCtr where
  math : Nat
  other : Nat
  hbmRd : Nat
  hbmWr : Nat
  remoteOut : Nat
  remoteIn : Nat
  boughNs : Nat
  boughAt : Nat
  failed : Nat
  deriving DecidableEq, Repr

/-- A counter block after PART_CREATE. -/
def PartCtr.zero : PartCtr :=
  { math := 0, other := 0, hbmRd := 0, hbmWr := 0, remoteOut := 0, remoteIn := 0, boughNs := 0, boughAt := 0, failed := 0 }

/-- A debug hart (R367): its registers while it is halted, its dcsr, and its four mcontrol triggers. -/
structure HartState where
  halted : Bool
  resumeAck : Bool
  regs : CoreRegs
  dcsr : Nat
  tselect : Nat
  tdata1 : Vector Nat 4
  tdata2 : Vector Nat 4
  deriving DecidableEq, Repr

/-- A Debug Module's registers (R367; the RISC-V Debug Specification 0.13.2). -/
structure DebugModule where
  active : Bool
  haltreq : Bool
  hartsel : Nat
  data0 : Nat
  progbuf : Vector Nat 8
  cmderr : Nat
  command : Nat
  autoexec : Nat
  deriving DecidableEq, Repr

/-- The remote debug registers (R373). -/
structure RemoteDebug where
  port : Nat
  offset : Nat
  data : Nat
  write : Bool
  done : Bool
  status : Nat
  waiting : Option (Nat × Nat)
  nextTag : Nat
  deriving DecidableEq, Repr

/-- Observation. Growth rings and buffers are by unit, rings newest first, buffers oldest first; a buffer record has
been waiting since the first element of its pair. `segPtr` is the number of records a unit has drained, and
`segUncopied` the drained records that the export ring still lacks: unit, number, bytes. `traceK` is the last k set, `traceKs` the k of each
island, `sampledAt` the instant of each unit's last PC sample. `freezeTime` and `thawTime` are
the instants from which the last freeze and the last thaw hold (R354). -/
structure Obs where
  rings : Tab (List Bytes)
  traceMask : Nat
  traceK : Nat
  traceKs : Tab Nat
  sampledAt : Tab Nat
  bufs : Tab (List (Nat × Bytes))
  lostRecs : Tab Nat
  segPtr : Tab Nat
  segUncopied : List (Nat × Nat × Bytes)
  exportOn : Bool
  exportBase : Nat
  exportSize : Nat
  exportHead : Nat
  exportTail : Nat
  dropped : Nat
  overwritten : Nat
  parts : Tab PartCtr
  boughs : Vector BoughCtr 64
  freezeAt : Nat
  freezeTime : Option Nat
  thawTime : Option Nat
  syncInterval : Nat
  maps : Mem
  cut : Cut
  twigDm : DebugModule
  rootDm : DebugModule
  harts : Tab HartState
  rootHart : HartState
  rdbg : RemoteDebug
  deriving DecidableEq, Repr

/-! ### Fuses and the configuration area -/

/-- The fuses (03, 15). -/
structure Fuses where
  ownerHash : Bytes
  transport : Nat
  serial : Nat
  rollback : Nat
  deriving DecidableEq, Repr

/-! ### The device -/

/-- The state of the device. -/
structure State where
  now : Nat
  free : Nat
  out : List Emit
  latch : List (Requester × Nat × Nat)
  root : Root
  hwd : Hwd
  mm : MemState
  cmb : Cmb
  fjr : Fjr
  obs : Obs
  ports : Vector Port 8
  txn : TxnState
  crn : Crown
  col : Col
  tke : Tke
  grv : Grove
  twn : Twin
  pwr : Pwr
  boot : Boot
  cfg : Cfg
  fuse : Fuses
  flash : Mem
  stalls : List StalledCrossing
  pending : List Instr
  deriving DecidableEq, Repr

/-! ### The state after reset: cold power, before the power-up sequence -/

/-- Root at cold power. Log entry 9 (DESIGN CHOICE). -/
def Root.reset : Root :=
  { chans := Vector.replicate 130 Chan.reset, alive := false, aliveAt := 0, downAt := 0, refusals := [], refusalNext := 0,
    refusalLost := 0, smbOffset := 0, smbAlert := false, bootCount := 0, resetAt := none }

/-- A use counter that is free. -/
def UseCounter.reset : UseCounter := { binding := 0, high := 0, bankA := 0, bankB := 0, erasing := false }

/-- Heartwood at cold power of a new device. -/
def Hwd.reset : Hwd :=
  { fault := .none, reg := [], uniq := [], slots := [], scramble := 0, gens := [], counters := Vector.replicate 64 UseCounter.reset,
    owner0 := none, owner1 := none, water0 := 0, water1 := 0, tombs := [], orphans := [], reloads := 0, blobRefusals := 0 }

/-- The memory controller at cold power. Log entries 9 (DESIGN CHOICE), 139 (DESIGN CHOICE). -/
def MemState.reset : MemState :=
  { bytes := [], fault := [], fresh := [], eccBad := [], eccSoft := [], tagBad := [], tagCache := [], parts := [], gens := Vector.replicate 128 0, zeroing := [],
    retired := [], retiredRows := 0, degradedRows := 0, rowErrors := [], corrected := 0, uncorrected := 0,
    scrubPasses := 0, lending := none, lendKey := [], journalMib := 1024, journalNext := 1024, spillGranules := 512, spillKey := [] }

/-- A lane's receiver with the port DISABLED. -/
def RxLane.reset : RxLane :=
  { role := .off, position := 0, inverted := false, partner := 0xF, qualified := false, qualifiedAt := 0,
    energyAt := none, tableId := 0, sf := 1, table := [], pend := none, noise := [], snr := [], margin := 0,
    errTimes := [], errs := 0, untrimmed := 0, fresh := false, swappedAt := none, leaving := false, retrainFails := [], retryAt := none,
    degAt := none, degIdx := 0, timing := 0, exchanged := false, retabled := false, relieved := false, retrainBy := 0 }

/-- A lane's transmitter with the port DISABLED. -/
def TxLane.reset : TxLane :=
  { role := .off, position := 0, tableId := 0, sf := 1, table := [], pend := none, lastAccepted := none, copy := none,
    retabled := false }

/-- A port's physical layer after reset: DISABLED. Log entry 140 (DESIGN CHOICE). -/
def Phys.reset : Phys :=
  { st := 0, since := 0, started := 0, target := 0, acquireSf := 1, grade := 0, returns := 0, ticket := none, last := none,
    listening := false, lastPilot := 0, nonce := 0, helloSent := false, peerHello := none, initiator := false,
    quietSymbol := none, ownGrade := none, peerGrade := none, rx := Vector.replicate 9 RxLane.reset,
    tx := Vector.replicate 9 TxLane.reset, nakInvalid := [], retrain := none, lowMs := 100, lowAsked := false,
    lastBeacon := 0, lastBeaconSent := 0, trainNs := 0, falseWakes := 0, beacons := 0, autoAt := none, bootWait := false,
    mgmtSeq := 0, heard := [], txSym := 0, rxSym := 0, quietAt := none, helloAt := 0, lowDue := false }

/-- A VC's receiver after reset. -/
def VcRx.reset : VcRx :=
  { flits := [], left := 0, peak := 0, accepted := 0, spilled := 0, dropped := 0, wedges := 0, wedgeTimes := [],
    stall := false, wedged := false, emptyAt := 0, asm := [], ringNext := 0 }

/-- A VC's transmitter after reset. Log entry 52 (DEDUCED). -/
def VcTx.reset : VcTx :=
  { queue := [], lastPart := 255, stallAt := none, stalled := false, wedged := false }

/-- A port's link layer after reset: DOWN, the mode SEALED by default (05 R160). Log entry 140 (DESIGN CHOICE). -/
def Link.reset : Link :=
  { st := .down, next := 0, oldest := 0, expected := 0, replay := [], resend := none, sinceNull := 0,
    nakPending := false, nakDue := false, nakAt := 0, ackCount := 0, ackFirst := 0, needNull := false, timer := 0,
    replays := 0, txEpoch := 0, txCount := 0, newest := none, rx := Vector.replicate 8 VcRx.reset,
    tx := Vector.replicate 8 VcTx.reset, lastSent := 0, lastIntact := 0, lastNakSent := none, replayed := 0, killed := 0,
    tagFail := 0, naks := 0, lastDown := 0, lastDownSent := false, tagFailTimes := [], mode := 2, peerExpect := 0xFFFF,
    identity := 0, txKey := none, rxKey := none, nextRx := none, prevRx := none, zeroiseAt := none, epochAt := 0,
    rekeyDue := false, shake := none, rekeyWait := none, peer := none, syncSeq := 0, lastSync := 0, wrrTurn := 0,
    ctrlAsm := none }

/-- A port after reset. -/
def Port.reset : Port := { phys := Phys.reset, link := Link.reset }

/-- The transaction engine after reset. Log entry 15 (DESIGN CHOICE). -/
def TxnState.reset : TxnState :=
  { chip := none, exports := [], nextExport := 1, imports := [], nextInst := 0, pendingImports := [], txns := [], nextTag := 0,
    quarantine := [], waiting := [], readAhead := [], routes := [], routeGen := 0, bundles := Vector.replicate 4 0,
    bundlePeer := Vector.replicate 4 none, fwd := [], peerDown := [], held := [], inbox := [], issued := 0, served := 0, forwarded := 0, denied := 0, lateDropped := 0,
    holdDropped := 0, prefetchIssued := 0, prefetchUsed := 0, synth := Vector.replicate 7 0 }

/-- Crown after reset: every bough FREE, the scratchpads zero. Log entry 9 (DESIGN CHOICE). -/
def Crown.reset : Crown :=
  { boughs := Vector.replicate 64 { st := .free, owner := 0 }, scratch := [], scratchFault := [], scratchBad := [], queues := [],
    doorbellReject := 0 }

/-- The collective sequencer after reset. -/
def Col.reset : Col :=
  { slots := [], parked := [], unmatched := 0, late := 0, parkExpired := 0, abortsSent := 0, abortsGot := 0,
    staging := 0 }

/-- The token engine after reset. Log entry 15 (DESIGN CHOICE). -/
def Tke.reset : Tke :=
  { vocabs := [], grammars := [], nextId := 1, streams := [], textBytes := 0, pieceMisses := 0, masks := 0,
    masksLate := 0, maskNsMax := 0, raBuilt := 0, raUsed := 0, raDiscarded := 0, prefixHits := 0, prefixRefused := 0, cache := [] }

/-- The grove state after reset: no membership. -/
def Grove.reset : Grove :=
  { trunk := 0, registered := false, joining := none, reg := [], notices := [], ignored := 0, relayRefused := 0,
    fwdDropped := 0, lastBeat := 0 }

/-- The twin after reset: NONE; `gen` is kept by the caller over warm resets (11 R333).
Log entry 15 (DESIGN CHOICE). -/
def Twin.reset : Twin :=
  { st := .none, chip := 0, pairKey := 0, gen := 0, ownNonce := [], peerNonce := none, peerSerial := 0,
    proofSent := false, proofOk := false, kGraft := none, kProbe := none, beatCount := 0, lastBeatSent := 0,
    lastBeat := 0, pairing := none, probing := none, yielding := none, ackOwed := false, opening := [], regions := [], nextRegion := 1,
    lastStale := none, tagFail := 0, failoverAt := 0, marks := [] }

/-- Registers of a core that was never halted. -/
def CoreRegs.zero : CoreRegs :=
  { pc := 0, x := List.replicate 32 0, mcause := 0, mepc := 0, mtval := 0, mstatus := 0 }

/-- A debug hart after reset. Log entry 17 (PRESUMED). -/
def HartState.reset : HartState :=
  { halted := false, resumeAck := false, regs := CoreRegs.zero, dcsr := 0x40000003, tselect := 0,
    tdata1 := Vector.replicate 4 0x20000000, tdata2 := Vector.replicate 4 0 }

/-- A Debug Module after reset. Log entry 17 (PRESUMED). -/
def DebugModule.reset : DebugModule :=
  { active := false, haltreq := false, hartsel := 0, data0 := 0, progbuf := Vector.replicate 8 0, cmderr := 0,
    command := 0, autoexec := 0 }

/-- The cut after reset: IDLE. -/
def Cut.reset : Cut :=
  { st := .idle, scope := 0, id := 0, map := 0, onBreak := false, time := 0, firedAt := 0, origin := 0, hops := 0, waiting := 0,
    ignored := 0, received := Vector.replicate 8 false, sent := Vector.replicate 8 false,
    chanClosed := Vector.replicate 8 (Vector.replicate 8 none), lost := [] }

/-- A bough's counters after cold power. -/
def BoughCtr.reset : BoughCtr :=
  { mode := 0, lastMask := 0, selects := Vector.replicate 16 0, counts := Vector.replicate 16 0,
    latched := Vector.replicate 16 0, latchRec := 0, latchQ := 0, latchSeq := 0, followed := none, late := false,
    frozen := false, seen := false }

/-- Observation after cold power. -/
def Obs.reset : Obs :=
  { rings := [], traceMask := 0, traceK := 12, traceKs := [], sampledAt := [], bufs := [], lostRecs := [], segPtr := [], segUncopied := [],
    exportOn := false, exportBase := 0, exportSize := 0x10000, exportHead := 0, exportTail := 0, dropped := 0,
    overwritten := 0, parts := [], boughs := Vector.replicate 64 BoughCtr.reset, freezeAt := 0, freezeTime := none,
    thawTime := none, syncInterval := 1000, maps := [], cut := Cut.reset,
    twigDm := DebugModule.reset, rootDm := DebugModule.reset, harts := [], rootHart := HartState.reset,
    rdbg := { port := 0, offset := 0, data := 0, write := false, done := false, status := 0, waiting := none,
              nextTag := 0 } }

/-- A bough's beats before its first beat. -/
def Beats.reset : Beats :=
  { lastBeat := 0, tiles := 0, tilesAt := 0, sinceReset := 3, stall := 0 }

/-- Cambium at cold power. Log entries 14 (DESIGN CHOICE), 140 (DESIGN CHOICE). -/
def Cmb.reset : Cmb :=
  { log := [], logNext := 0, logLost := 0, wdt := .unarmed, rootBeats := 0, lastRootBeat := 0, restartAt := none,
    restarting := false, restartEnd := none, deviceAt := 0, crownLimit := 4, boughLimit := 16, windowS := 600,
    deviceHist := [], boughHist := Vector.replicate 64 [], retired := 0, outOfService := false,
    last := { scope := 0, cause := 0, bough := 0 }, dumpCount := 0, beats := Vector.replicate 64 Beats.reset,
    boughPending := [], crownPending := none, devicePending := none, inReset := false, quarantine := none }

/-- The flight journal before its START record. -/
def Fjr.reset : Fjr :=
  { recording := false, seq := 0, next := 0, gaps := 0, lost := 0, lostTime := 0, held := false, buffer := [],
    hist := [] }

/-- Power and pins at cold power.
Log entries 12 (DESIGN CHOICE), 13 (DESIGN CHOICE), 122 (DESIGN CHOICE), 140 (DESIGN CHOICE). -/
def Pwr.reset : Pwr :=
  { st := .leaving, phase := 0, phaseAt := 0, groupsUp := 0, enables := Vector.replicate 3 false,
    entryFrom := 0, wakeReason := 0, energyBoot := false, straps := { testN := true, smbAddr := 0, pcieSris := false },
    xtalFallback := false, brdThrotLow := false, brdHighSince := 0, limitMw := 150000, avgMw := 0, samples := [], heldReads := [],
    crownRate := 16, runAheadOff := false, paced := false, causes := 0, episode := none, clearSince := none,
    lastWarn := Vector.replicate 8 none,
    temps := Vector.replicate 12 0, tempMax := Vector.replicate 12 (-32768), refreshDoubled := 0, trips := [],
    coolSince := none, stuckTripped := false, thermTrip := false, pcieWakeAt := none, perstHigh := false,
    pcieUp := false, sleepAt := 0 }

/-- Boot state at cold power. Log entry 140 (DESIGN CHOICE). -/
def Boot.reset : Boot :=
  { stage := 0, slot := 0, trial := false, slotA := 0, slotB := 0, failedStacks := 0, recovery := 0, fwBuild := 0, gcsMinor := 2,
    readyAt := 0, staged := 0, stagedAny := false, trialFault := false, activateAt := none, rollback := 0,
    armedAt := none }

/-- A port's configuration at its defaults (15 Table 15-5). -/
def PortCfg.default : PortCfg :=
  { energyThreshold := -25, autoTrain := false, autoRetrain := true, wakeOnLink := false, targetGrade := 200,
    acquireSf := 16, launchPower := 0, downUs := 20, beaconMs := 100, retireThreshold := 8, retireUs := 1000,
    securityMode := 2, spillLog2 := Vector.replicate 8 24 }

/-- The configuration area at its defaults (15 Table 15-4). -/
def Cfg.default : Cfg :=
  { ownerKey := [], certs := [], debugEnable := false, requireSealed := false, autoFailover := false,
    remoteTimeoutUs := 2000, colTimeoutUs := 20000, rowErrors := 4, rowHours := 24, progressMs := 100, sampleO := 0,
    sampleL := 0x10000, ports := Vector.replicate 8 PortCfg.default }

/-- The fuses of a device without an owner: DESIGN CHOICE zeros. Log entry 11 (DESIGN CHOICE). -/
def Fuses.blank : Fuses := { ownerHash := zeros 48, transport := 1, serial := 0, rollback := 0 }

/-- The device at cold power: every supply just applied, the power-up sequence not begun (POWER_UP begins it).
Log entries 4 (DESIGN CHOICE), 9 (DESIGN CHOICE), 10 (DESIGN CHOICE), 140 (DESIGN CHOICE). -/
def State.reset : State :=
  { now := 0, free := 0, out := [], latch := [], root := Root.reset, hwd := Hwd.reset, mm := MemState.reset,
    cmb := Cmb.reset, fjr := Fjr.reset, obs := Obs.reset, ports := Vector.replicate 8 Port.reset,
    txn := TxnState.reset, crn := Crown.reset, col := Col.reset, tke := Tke.reset, grv := Grove.reset,
    twn := Twin.reset, pwr := Pwr.reset, boot := Boot.reset, cfg := Cfg.default, fuse := Fuses.blank, flash := [],
    stalls := [], pending := [] }

/-- No command stops with a fault: the block reports every failure as a status, a status bit, an error-log entry or a
reset, all of them next states. -/
inductive Fault where
  deriving DecidableEq, Repr

/-- Why a command has no meaning. -/
inductive Refusal where
  /-- Raised by the dispatch for a command whose meaning is not written; safe: it answers no next state. -/
  | notModelled (mnemonic : String)
  deriving DecidableEq, Repr

end Sys2Proof.Machine
end

