-- ==== Sys2Proof/Machine/Ops.lean ====
section
/-! DEFINITION. Operations shared by every chapter: time, output, free values, status codes, argument layout, the error
log, growth rings and trace, the flight journal, and the events and responses of a mailbox channel. -/

namespace Sys2Proof.Machine

/-- A step that always answers a next state. -/
abbrev Outcome := Host.Outcome State Fault Refusal

/-! ### Time, output, free values -/

/-- The state at the instant `t`: Cambium time never runs backwards.
Log entries 1 (DESIGN CHOICE), 2 (DESIGN CHOICE), 8 (DESIGN CHOICE). -/
def State.at (s : State) (t : Nat) : State := { s with now := max s.now t }

/-- Something sent outward. Log entry 4 (DESIGN CHOICE). -/
def emit (e : Emit) (s : State) : State := { s with out := s.out ++ [e] }

/-- The next free number, and the state that has drawn it. Log entries 4 (DESIGN CHOICE), 5 (DESIGN CHOICE). -/
def drawNat (s : State) : Nat × State := (Config.freeNat s.free, { s with free := s.free + 1 })

/-- `n` free bytes, and the state that has drawn them. Log entries 4 (DESIGN CHOICE), 5 (DESIGN CHOICE). -/
def drawBytes (n : Nat) (s : State) : Bytes × State :=
  ((List.range n).map fun i => Config.freeByte (s.free + i), { s with free := s.free + n })

/-- A 32-bit counter that saturates (12 R351). -/
def sat32 (n : Nat) : Nat := min n 0xFFFFFFFF

/-! ### Status codes (00 Table 0-5) -/

def stOk : Nat := 0x0000
def stAccepted : Nat := 0x0001
def stBadArg : Nat := 0x0100
def stNoResource : Nat := 0x0200
def stNoCapacity : Nat := 0x0201
def stBusy : Nat := 0x0300
def stAccessDenied : Nat := 0x0400
def stPoisoned : Nat := 0x0500
def stIntegrityFail : Nat := 0x0501
def stLinkDown : Nat := 0x0600
def stVcWedged : Nat := 0x0601
def stNoRoute : Nat := 0x0602
def stPeerReset : Nat := 0x0700
def stTimeout : Nat := 0x0800
def stAuthRefused : Nat := 0x0F00

/-- A code whose high byte is 0x00 is success (00 R12). -/
def isSuccess (status : Nat) : Bool := status / 256 == 0

/-! ### Layout of arguments and results (02 R40) -/

/-- The first multiple of `a` at or after `off`. -/
def alignUp (off a : Nat) : Nat := (off + a - 1) / a * a

/-- The fields of an argument block: `(size, alignment)` each; none where the block is short, a skipped byte is not
zero, or a byte beyond the last field is not zero. -/
def parseFields : List (Nat × Nat) → Bytes → Nat → Option (List Bytes)
  | [], b, off => if zeroAt b off (b.length - off) then some [] else none
  | (n, a) :: fs, b, off =>
    let o := alignUp off a
    if o + n ≤ b.length ∧ zeroAt b off (o - off) = true then
      match parseFields fs b (o + n) with
      | some vs => some (slice b o n :: vs)
      | none => none
    else none

/-- The numeric fields of an argument block, each of its own size and alignment. -/
def parseArgs (sizes : List Nat) (b : Bytes) : Option (List Nat) :=
  (parseFields (sizes.map fun n => (n, n)) b 0).map fun vs => vs.map ofLe

/-- Fields laid out one after the other, `(size, alignment, bytes)` each, from the bytes already laid out. -/
def packFields : List (Nat × Nat × Bytes) → Bytes → Bytes
  | [], b => b
  | (n, a, v) :: fs, b => packFields fs (b ++ zeros (alignUp b.length a - b.length) ++ fit n v)

/-- Bytes padded with zeros to a multiple of 4. -/
def pad4 (b : Bytes) : Bytes := fit (alignUp b.length 4) b

/-- Numeric fields, `(size, value)` each, at their natural alignment, padded to a multiple of 4. -/
def packArgs (fs : List (Nat × Nat)) : Bytes :=
  pad4 (packFields (fs.map fun f => (f.1, f.1, leBytes f.1 f.2)) [])

/-! ### The error log (13 R413, R414) -/

/-- Oldest entries dropped until at most `n` remain. -/
def keepLast {α : Type} (n : Nat) (l : List α) : List α := l.drop (l.length - n)

/-- An entry of the Cambium error log. -/
def logErr (code island : Nat) (data : Bytes) (s : State) : State :=
  let c := s.cmb
  let resets := c.inReset || c.restarting || c.crownPending.isSome || c.devicePending.isSome || !c.boughPending.isEmpty
  let flags := bit 0 (s.obs.cut.st == .taken) + bit 1 resets
  let b := leBytes 8 s.now ++ leBytes 4 c.logNext ++ leBytes 2 code ++ leBytes 1 island ++ leBytes 1 flags
    ++ leBytes 4 s.root.bootCount ++ fit 12 data
  let full := decide (2048 ≤ c.log.length)
  { s with cmb := { c with
      log := keepLast 2048 (c.log ++ [{ index := c.logNext, bytes := b }])
      logNext := (c.logNext + 1) % 2 ^ 32
      logLost := if full then sat32 (c.logLost + 1) else c.logLost } }

/-! ### Growth rings and trace buffers (12 R356 to R361) -/

/-- The island of an observed unit (Table 12-1). -/
def unitIsland (u : Nat) : Nat :=
  if u < 64 then u / 4
  else if u = 64 then 30
  else if u < 73 then u - 65 + 16
  else if u < 75 then u - 73 + 36
  else if u < 81 then u - 75 + 24
  else 33

/-- The record types that growth rings take (Table 12-6). -/
def inRing (ty : Nat) : Bool := (2 ≤ ty && ty ≤ 0x0C) || ty == 0x10 || ty == 0x11

/-- The 16 bytes of a trace record (R356). -/
def traceBytes (time ty u aux data : Nat) : Bytes :=
  leBytes 8 time ++ leBytes 1 ty ++ leBytes 1 u ++ leBytes 2 aux ++ leBytes 4 data

/-- A unit writes a record: to its growth ring (R361) and, while trace is enabled for its island, to its buffer
(R358, R359). -/
def traceRec (u ty aux data : Nat) (s : State) : State :=
  let b := traceBytes s.now ty u aux data
  let o := s.obs
  let o := if inRing ty then { o with rings := tset u ((b :: tgetD u [] o.rings).take 256) o.rings } else o
  let o :=
    if o.traceMask.testBit (unitIsland u) then
      let buf := tgetD u [] o.bufs
      if buf.length < 4096 then { o with bufs := tset u (buf ++ [(s.now, b)]) o.bufs }
      else { o with lostRecs := tset u (tgetD u 0 o.lostRecs + 1) o.lostRecs }
    else o
  { s with obs := o }

/-! ### Reserved regions (07 Table 7-1) -/

/-- Bytes of a granule. -/
def granuleBytes : Nat := 0x200000

/-- Granules of the device. -/
def totalGranules : Nat := 73728

/-- The device address of the crash-dump region. -/
def crashBase : Nat := 1024 * granuleBytes

/-- The device address of the journal region. -/
def journalBase : Nat := 1280 * granuleBytes

/-- The bytes of the journal region in force. -/
def journalBytes (s : State) : Nat := s.mm.journalMib * 0x100000

/-- The device address of the trace region. -/
def traceBase (s : State) : Nat := journalBase + journalBytes s

/-- The device address of the spill rings. -/
def spillBase (s : State) : Nat := traceBase s + 512 * granuleBytes

/-- The granules of the reserved regions in force. -/
def reservedGranules (s : State) : Nat := 1024 + 256 + s.mm.journalMib / 2 + 512 + s.mm.spillGranules

/-- Device memory written at a device address, without regard to lines. -/
def rawWrite (a : Nat) (b : Bytes) (s : State) : State :=
  { s with mm := { s.mm with bytes := Mem.write 0 s.mm.bytes a b } }

/-- Device memory read at a device address, without regard to lines. -/
def rawRead (s : State) (a n : Nat) : Bytes := Mem.read 0 s.mm.bytes a n

/-! ### The flight journal (13 R405 to R408) -/

/-- A record's bytes: the header of Table 13-7 and its body padded to a multiple of 16. -/
def journalRecord (time seq ty island : Nat) (body : Bytes) : Bytes :=
  let n := alignUp body.length 16
  leBytes 8 time ++ leBytes 4 seq ++ leBytes 1 ty ++ leBytes 1 island ++ leBytes 2 n ++ fit n body

/-- A record placed in the region: at the next offset, or at the region's beginning where it would run past the end.
Log entry 117 (DEDUCED). -/
def journalPlace (b : Bytes) (s : State) : State :=
  let off := if s.fjr.next + b.length ≤ journalBytes s then s.fjr.next else 0
  let kept := s.fjr.hist.filter fun e => decide (e.1 + e.2.length ≤ off ∨ off + b.length ≤ e.1)
  let hist := if [1, 7, 8].contains (u8At b 12) then (off, b) :: kept else kept
  { rawWrite (journalBase + off) b s with fjr := { s.fjr with next := off + b.length, hist := hist } }

/-- The journal writes a record stamped `time` by an island (R406). A record that finds the buffer full is lost
(R408). -/
def journalAt (time ty island : Nat) (body : Bytes) (s : State) : State :=
  let j := s.fjr
  if !j.recording then s
  else
    let b := journalRecord time j.seq ty island body
    if j.held && decide (0x40000 < (j.buffer.flatten).length + b.length) then
      { s with fjr := { j with lost := j.lost + 1, lostTime := if j.lost = 0 then time else j.lostTime } }
    else
      let s := { s with fjr := { j with seq := (j.seq + 1) % 2 ^ 32 } }
      if j.held then { s with fjr := { s.fjr with buffer := s.fjr.buffer ++ [b] } }
      else journalPlace b s

/-- The journal writes a record stamped now. -/
def journal (ty island : Nat) (body : Bytes) (s : State) : State := journalAt s.now ty island body s

/-! ### Mailbox channels (chapter 02) -/

/-- A channel. -/
def chan (s : State) (ch : Fin 130) : Chan := vget s.root.chans ch

/-- The state with a channel replaced. -/
def setChan (ch : Fin 130) (c : Chan) (s : State) : State :=
  { s with root := { s.root with chans := vset s.root.chans ch c } }

/-- The state with a channel changed. -/
def modChan (ch : Fin 130) (f : Chan → Chan) (s : State) : State := setChan ch (f (chan s ch)) s

/-- The function that maps a channel. -/
def chanRequester (ch : Fin 130) : Requester :=
  if ch.val = 0 then .pf else if ch.val = 1 then .smb else .vf (finOf 128 (ch.val - 2))

/-- The channel of partition `n`. -/
def partChan (n : Fin 128) : Fin 130 := finOf 130 (n.val + 2)

/-- The channel interrupt (R33). Log entry 28 (DESIGN CHOICE). -/
def channelIrq (ch : Fin 130) (s : State) : State :=
  if ch.val = 1 then emit .smbAlert { s with root := { s.root with smbAlert := true } }
  else emit (.msix (chanRequester ch) 0) s

/-- A completion event (Table 2-9). -/
def eventBytes (ticket cmd status time : Nat) : Bytes :=
  leBytes 4 ticket ++ leBytes 2 cmd ++ leBytes 2 status ++ leBytes 8 time

/-- Root writes an event at HEAD, or holds it while the queue is full (R45, R47). -/
def pushEvent (ch : Fin 130) (b : Bytes) (s : State) : State :=
  let c := chan s ch
  if (c.head + 1) % 64 = c.tail ∨ c.held ≠ [] then setChan ch { c with held := c.held ++ [b] } s
  else
    let s := setChan ch { c with evq := tset c.head b c.evq, head := (c.head + 1) % 64 } s
    if c.eventEn then channelIrq ch s else s

/-- A request's command code. -/
def Request.cmd (r : Request) : Nat := u16At r.bytes 0

/-- A request's AUTH flag. -/
def Request.auth (r : Request) : Bool := (u16At r.bytes 2).testBit 0

/-- A request's arguments. -/
def Request.args (r : Request) : Bytes := slice r.bytes 32 (u16At r.bytes 8)

/-- The response to a request (Table 2-7), tagged when the request was accepted with AUTH 1 (R50): a request that its frame or
its code failed was never accepted, and its response carries no tag. Log entry 22 (DEDUCED). -/
def responseBytes (ch : Fin 130) (r : Request) (status ticket now : Nat)
    (result : Bytes) : Bytes :=
  let res := pad4 result
  let flags := bit 0 r.tagKey.isSome + bit 1 (decide (ticket ≠ 0))
  let b := leBytes 2 r.cmd ++ leBytes 2 status ++ slice r.bytes 4 4 ++ leBytes 2 res.length ++ leBytes 2 flags
    ++ leBytes 4 ticket ++ (if r.tagKey.isSome then slice r.bytes 16 8 else zeros 8) ++ leBytes 8 now ++ res
  match r.tagKey with
  | some k => b ++ cmac k (leBytes 2 ch.val ++ leBytes 2 0x8000 ++ b)
  | none => b

/-- A channel reaches DONE with a response (R37): the growth ring's MBX record, the interrupt. -/
def finishChannel (ch : Fin 130) (rsp : Bytes) (cmd status : Nat) (s : State) : State :=
  let c := chan s ch
  let s := setChan ch { c with rsp := rsp, st := .done } s
  let s := traceRec 64 0x0B ch.val (cmd + 0x10000 * (if status = stAuthRefused then 0 else status)) s
  if c.doneEn then channelIrq ch s else s

/-- The response of a command that Root answers itself. -/
def respond (ch : Fin 130) (r : Request) (status ticket : Nat) (result : Bytes)
    (s : State) : State :=
  finishChannel ch (responseBytes ch r status ticket s.now result) r.cmd status s

/-- A ticket of a channel. -/
def findTicket (s : State) (ch : Fin 130) (num : Nat) : Option Ticket :=
  (chan s ch).tickets.find? fun k => k.num = num

/-- A long command ends: its ticket takes the final status and the result, and its event is written (R45). -/
def finishTicket (ch : Fin 130) (num status : Nat) (result : Bytes) (s : State) : State :=
  match findTicket s ch num with
  | some k =>
    if k.final = none then
      let done : Ticket := { k with final := some status, result := if isSuccess status then pad4 result else [],
                                    doneAt := s.now, work := .event }
      let s := modChan ch (fun c => { c with tickets := c.tickets.map fun x => if x.num = num then done else x }) s
      pushEvent ch (eventBytes num k.cmd status s.now) s
    else s
  | none => s

/-- A ticket of a channel, by channel number and ticket number. -/
abbrev TicketRef := Fin 130 × Nat

/-- The ticket that a subsystem waits on ends, if there is one. -/
def finishRef (ref : Option TicketRef) (status : Nat) (result : Bytes) (s : State) : State :=
  match ref with
  | some (ch, num) => finishTicket ch num status result s
  | none => s

end Sys2Proof.Machine
end

