-- ==== Sys2Proof/Machine/Lines.lean ====
section
/-! DEFINITION. Access to a line of partition memory (07 R212, R219 to R230), the capture of written lines for the twin
(11 R336), and the lines of the scratchpads. -/

namespace Sys2Proof.Machine

/-! ### Messages onto a VC -/

/-- A port. -/
def port (s : State) (p : Fin 8) : Port := vget s.ports p

/-- The state with a port replaced. -/
def setPort (p : Fin 8) (x : Port) (s : State) : State := { s with ports := vset s.ports p x }

/-- The state with a port changed. -/
def modPort (p : Fin 8) (f : Port → Port) (s : State) : State := setPort p (f (port s p)) s

/-- The state with a port's link layer changed. -/
def modLink (p : Fin 8) (f : Link → Link) (s : State) : State :=
  modPort p (fun x => { x with link := f x.link }) s

/-- The state with a port's physical layer changed. -/
def modPhys (p : Fin 8) (f : Phys → Phys) (s : State) : State :=
  modPort p (fun x => { x with phys := f x.phys }) s

/-- A message waits for a VC of a port. -/
def queueMsg (p vc : Fin 8) (typ part : Nat) (tag : Option Nat) (b : Bytes) (s : State) : State :=
  modLink p (fun l => { l with tx := vmod l.tx vc fun v =>
    { v with queue := v.queue ++ [{ bytes := b, sent := 0, typ := typ, part := part, tag := tag, since := s.now }] } }) s

/-! ### Landing slots and spill rings (05 R145 to R150) -/

/-- Payload bytes of a flit in a mode (Table 5-4). -/
def flitRoom (mode : Nat) : Nat := if mode = 0 then 240 else 224

/-- Entries of a VC's spill ring (05 R147). -/
def ringSize (s : State) (p v : Fin 8) : Nat := 2 ^ (vget (vget s.cfg.ports p).spillLog2 v) / 256

/-- A VC's receiver and transmitter at a port. -/
def vcRx (s : State) (p v : Fin 8) : VcRx := vget (port s p).link.rx v
def vcTx (s : State) (p v : Fin 8) : VcTx := vget (port s p).link.tx v
def modRx (p v : Fin 8) (f : VcRx → VcRx) (s : State) : State := modLink p (fun l => { l with rx := vmod l.rx v f }) s
def modTx (p v : Fin 8) (f : VcTx → VcTx) (s : State) : State := modLink p (fun l => { l with tx := vmod l.tx v f }) s

/-- Messages parked at the collective sequencer from a port, counted in flits: they stay in VC2's ring (09 R280).
Log entry 60 (DEDUCED). -/
def parkedFlits (s : State) (p v : Fin 8) : Nat :=
  if v = 2 then
    ((s.col.parked.filter fun m => m.port == some p).map fun m =>
      ceilDiv m.bytes.length (flitRoom (port s p).link.mode)).foldl (· + ·) 0
  else 0

/-- Entries in use of a VC's ring, and of its landing slots. Log entry 60 (DEDUCED). -/
def ringFill (s : State) (p v : Fin 8) : Nat := ((vcRx s p v).flits.filter (·.ring)).length + parkedFlits s p v
def slotsUsed (s : State) (p v : Fin 8) : Nat := ((vcRx s p v).flits.filter fun f => !f.ring).length

/-- The stall bit follows the ring's fill (R150); the instant a VC became empty is kept (06 R179). -/
def afterTake (p v : Fin 8) (s : State) : State :=
  let n := ringFill s p v
  let size := ringSize s p v
  modRx p v (fun r => { r with
    stall := if 3 * size / 4 ≤ n then true else if n ≤ size / 4 then false else r.stall
    peak := max r.peak n
    emptyAt := if r.flits.isEmpty && parkedFlits s p v == 0 then s.now else r.emptyAt }) s

/-- The device address of an entry of a VC's ring: the rings of the ports follow each other in the spill reservation (07 Table 7-1).
Log entry 146 (DESIGN CHOICE). -/
def ringEntryAt (s : State) (p v : Fin 8) (i : Nat) : Nat :=
  let before := ((fins 8).map fun q => ((fins 8).map fun w =>
    if q.val * 8 + w.val < p.val * 8 + v.val then 256 * ringSize s q w else 0).foldl (· + ·) 0).foldl (· + ·) 0
  spillBase s + before + 256 * (i % ringSize s p v)

/-- A flit moved into the next entry of its ring: header and payload in HBM, under AES-XTS-256 on a secured port (05 R147).
Log entry 146 (DESIGN CHOICE). -/
def spillFlit (p v : Fin 8) (f : LandFlit) (s : State) : LandFlit × State :=
  let i := (vcRx s p v).ringNext
  let a := ringEntryAt s p v i
  let b := f.hdr ++ fit 240 f.payload
  let enc := (port s p).link.mode != 0
  ({ f with hdr := [], payload := [], ring := true, entry := i, sealed_ := enc },
   modRx p v (fun r => { r with ringNext := (i + 1) % ringSize s p v })
     (rawWrite a (if enc then xtsEncrypt s.mm.spillKey (a / 256) b else b) s))

/-- The payload of a landed flit: from its slot, or LEN bytes of its ring entry. Log entry 146 (DESIGN CHOICE). -/
def landedPayload (s : State) (p v : Fin 8) (f : LandFlit) : Bytes :=
  if f.ring then
    let a := ringEntryAt s p v f.entry
    let raw := rawRead s a 256
    let b := if f.sealed_ then xtsDecrypt s.mm.spillKey (a / 256) raw else raw
    slice b 16 (u8At b 5)
  else f.payload

/-! ### Line state -/

/-- A partition. -/
def part (s : State) (n : Nat) : Option Partition := tget n s.mm.parts

/-- The state with a partition changed. -/
def modPart (n : Nat) (f : Partition → Partition) (s : State) : State :=
  { s with mm := { s.mm with parts := tmod n f s.mm.parts } }

/-- The device address behind a partition offset. -/
def deviceAddr (pt : Partition) (o : Nat) : Option Nat :=
  (tget (o / granuleBytes) pt.pages).map fun g => g * granuleBytes + o % granuleBytes

/-- The device address of a line's tag (R221). -/
def tagAddr (pt : Partition) (o : Nat) : Option Nat :=
  (tget (o / granuleBytes / 8) pt.tagPages).map fun g => g * granuleBytes + 8 * (o / 64) % granuleBytes

/-- The key pair in force for an offset: the new one below the sweep pointer, the old one at or above it (R223).
Log entry 74 (DEDUCED). -/
def linePair (pt : Partition) (o : Nat) : Option SealPair :=
  match pt.oldPair with
  | some old => if o < pt.sweep then pt.pair else some old
  | none => pt.pair

/-- The tag of a line of ciphertext (R220). -/
def lineTag (k : Bytes) (o : Nat) (ct : Bytes) : Bytes := (cmac k (leBytes 8 (o / 64) ++ ct)).take 8

/-- A device line carries a poison code (R227). -/
def linePoison (m : MemState) (dl : Nat) : Option Poison :=
  if m.fault.contains dl then some .fault
  else
    match tget (dl / 32768) m.fresh with
    | some written => if written.contains dl then none else some .unwritten
    | none => none

/-! ### The tag cache (R222, R230) -/

/-- The HBM group that serves a device line: open, for the interleave is internal (chapter 07).
Log entry 72 (PRESUMED). -/
def hbmIsland (dl : Nat) : Nat := 24 + Config.freeRow dl % 6

/-- The row of a device line, of 2,048 to a granule. Log entry 72 (PRESUMED). -/
def rowOfLine (dl : Nat) : Nat := dl / 32768 * 2048 + Config.freeRow dl % 2048

/-- Errors counted against a row, those older than the window forgotten (R217). Log entry 72 (PRESUMED). -/
def countRow (row k : Nat) (s : State) : State :=
  let old := (tgetD row [] s.mm.rowErrors).filter fun x => decide (s.now < x + s.cfg.rowHours * 3600 * 1000000000)
  { s with mm := { s.mm with rowErrors := tset row (old ++ List.replicate k s.now) s.mm.rowErrors } }

/-- A device line's error found and corrected: counted against its row, and the line written back corrected (R214). -/
def correctLine (dl : Nat) (s : State) : State :=
  countRow (rowOfLine dl) 1 { s with mm := { s.mm with corrected := (s.mm.corrected + 1) % 2 ^ 64
                                                       eccSoft := s.mm.eccSoft.filter (· ≠ dl) } }

/-- An uncorrectable error found in a device line (R215, R217): counted, logged with the partition and its line where the line
belongs to one, and its row is due for retirement. -/
def noteBadLine (dl part : Nat) (line : Bytes) (s : State) : State :=
  let s := { s with mm := { s.mm with uncorrected := sat32 (s.mm.uncorrected + 1)
                                      eccBad := s.mm.eccBad.filter (· ≠ dl), eccSoft := s.mm.eccSoft.filter (· ≠ dl) } }
  countRow (rowOfLine dl) s.cfg.rowErrors (logErr 0x0020 (hbmIsland dl) (leBytes 4 dl ++ leBytes 1 part ++ line) s)

/-- A tag line found uncorrectable: the eight tags it holds are lost (R230). -/
def loseTags (dl part : Nat) (s : State) : State :=
  let s := noteBadLine dl part (leBytes 5 0xFFFFFFFFFF) s
  { s with mm := { s.mm with tagBad := ((List.range 8).map fun i => 8 * dl + i) ++ s.mm.tagBad
                             tagCache := tdel dl s.mm.tagCache } }

/-- A tag line leaves the cache: written back where it is dirty. Log entry 147 (DESIGN CHOICE). -/
def evictTag (dl : Nat) (s : State) : State :=
  match tget dl s.mm.tagCache with
  | some l =>
    let s := if l.dirty then rawWrite (64 * dl) l.data s else s
    { s with mm := { s.mm with tagCache := tdel dl s.mm.tagCache } }
  | none => s

/-- The tag lines of a group's cache of 1 MiB. Log entry 147 (DESIGN CHOICE). -/
def groupTags (s : State) (g : Nat) : List Nat := (s.mm.tagCache.map (·.1)).filter fun dl => hbmIsland dl == g

/-- The tag line behind a tag's device address brought into the cache of its group: a miss reads it, in place of a line that nothing
constrains where the cache is full. Log entry 147 (DESIGN CHOICE). -/
def loadTag (part ta : Nat) (s : State) : State :=
  let dl := ta / 64
  if thas dl s.mm.tagCache then s
  else
    let s := if s.mm.eccSoft.contains dl then correctLine dl s else s
    let s := if s.mm.eccBad.contains dl then loseTags dl part s else s
    let s := if s.mm.tagCache.length < 16384 then s
      else
        let full := groupTags s (hbmIsland dl)
        if full.length < 16384 then s
        else let d := drawNat s; evictTag (full.getD (d.1 % full.length) 0) d.2
    { s with mm := { s.mm with tagCache := tset dl { data := rawRead s (64 * dl) 64, dirty := false } s.mm.tagCache } }

/-- The tag at a device address, in the cache or in HBM; none where it was lost. Log entry 147 (DESIGN CHOICE). -/
def tagRead (s : State) (ta : Nat) : Option Bytes :=
  let dl := ta / 64
  if s.mm.tagBad.contains (ta / 8) then none
  else
    match tget dl s.mm.tagCache with
    | some l => some (slice l.data (ta % 64) 8)
    | none => if s.mm.eccBad.contains dl then none else some (rawRead s ta 8)

/-- A tag written, in its line in the cache. Log entry 147 (DESIGN CHOICE). -/
def writeTag (part ta : Nat) (tag : Bytes) (s : State) : State :=
  let s := loadTag part ta s
  { s with mm := { s.mm with tagBad := s.mm.tagBad.filter (· ≠ ta / 8)
                             tagCache := tmod (ta / 64) (fun l => { data := patch l.data (ta % 64) tag, dirty := true }) s.mm.tagCache } }

/-! ### What a line is -/

/-- What a line is before an access (Table 7-3). -/
inductive LineState where
  | good (data : Bytes)
  | tagFails
  | uncorrectable
  | poisoned
  deriving DecidableEq, Repr

/-- The state of the line at a 64-byte-aligned partition offset; none where nothing is allocated or the keys are
withdrawn (R212, R224). Log entry 66 (DESIGN CHOICE). -/
def lineState (s : State) (n o : Nat) : Option LineState :=
  match part s n with
  | none => none
  | some pt =>
    match deviceAddr pt o with
    | none => none
    | some a =>
      let dl := a / 64
      let raw := rawRead s a 64
      let base : Option LineState :=
        if (linePoison s.mm dl).isSome then some .poisoned
        else if s.mm.eccBad.contains dl then some .uncorrectable
        else none
      if pt.mode = 2 then
        match linePair pt o, tagAddr pt o with
        | some k, some ta =>
          match base with
          | some b => some b
          | none =>
            if tagRead s ta = some (lineTag k.tag o raw) then some (.good (xtsDecrypt k.xts (o / 64) raw)) else some .tagFails
        | _, _ => none
      else
        match base with
        | some b => some b
        | none => some (.good (if pt.mode = 3 then xtsDecrypt s.mm.lendKey (o / 64) raw else raw))

/-- A partition's offset as the five bytes of an error-log entry: its line number (13 R414). -/
def partitionLine (o : Nat) : Bytes := leBytes 5 (o / 64)

/-- A line becomes poisoned with the FAULT code, logged with its cause (R227, R228): `who` is the requester's chip and
partition. Log entry 121 (DEDUCED). -/
def faultLine (who : Nat × Nat) (n o cause : Nat) (s : State) : State :=
  match part s n with
  | none => s
  | some pt =>
    match deviceAddr pt o with
    | none => s
    | some a =>
      if (linePoison s.mm (a / 64)).isSome then s
      else
        let m := s.mm
        let s := { s with mm := { m with fault := (a / 64) :: m.fault, eccBad := m.eccBad.filter (· ≠ a / 64),
                                         eccSoft := m.eccSoft.filter (· ≠ a / 64) } }
        logErr 0x0022 (hbmIsland (a / 64)) (leBytes 1 n ++ leBytes 1 cause ++ leBytes 2 who.1 ++ leBytes 1 who.2 ++ partitionLine o) s

/-- The transition of a failing line under an access (Table 7-3, R215, R228), and the status it gives.
Log entry 121 (DEDUCED). -/
def failLine (who : Nat × Nat) (n o : Nat) (st : LineState) (s : State) : Nat × State :=
  match st with
  | .good _ => (stOk, s)
  | .tagFails => (stIntegrityFail, faultLine who n o 1 s)
  | .uncorrectable =>
    let a := ((part s n).bind fun pt => deviceAddr pt o).getD 0
    (stPoisoned, faultLine who n o 2 (noteBadLine (a / 64) n (partitionLine o) s))
  | .poisoned => (stPoisoned, modPart n (fun pt => { pt with poisonHits := sat32 (pt.poisonHits + 1) }) s)

/-- What the reading of a line in a state does beside its answer: a one-symbol error of the line is corrected (R214), and the line's tag
stands in the tag cache (R222). A line that is poisoned or uncorrectable is not read so far. -/
def touchLine (n o : Nat) (st : LineState) (s : State) : State :=
  match st, part s n with
  | .poisoned, _ => s
  | .uncorrectable, _ => s
  | _, none => s
  | _, some pt =>
    let dl := ((deviceAddr pt o).getD 0) / 64
    let s := if s.mm.eccSoft.contains dl then correctLine dl s else s
    match tagAddr pt o with
    | some ta => if pt.mode = 2 then loadTag n ta s else s
    | none => s

/-- A read of a whole line: its status and its bytes (no bytes on failure). -/
def readLine (who : Nat × Nat) (n o : Nat) (s : State) : Nat × Bytes × State :=
  match lineState s n o with
  | none => (stAccessDenied, [], s)
  | some (.good d) => (stOk, d, touchLine n o (.good d) s)
  | some st => let r := failLine who n o st (touchLine n o st s); (r.1, [], r.2)

/-- The bytes of a line stored: encrypted, tagged, poison cleared (Table 7-3). -/
def storeLine (n o : Nat) (d : Bytes) (s : State) : State :=
  match part s n with
  | none => s
  | some pt =>
    match deviceAddr pt o with
    | none => s
    | some a =>
      let m := s.mm
      let dl := a / 64
      let g := dl / 32768
      let fresh := match tget g m.fresh with
        | some w => if w.contains dl then m.fresh else tset g (dl :: w) m.fresh
        | none => m.fresh
      let s := { s with mm := { m with fault := m.fault.filter (· ≠ dl), fresh := fresh,
                                       eccBad := m.eccBad.filter (· ≠ dl), eccSoft := m.eccSoft.filter (· ≠ dl) } }
      if pt.mode = 2 then
        match linePair pt o, tagAddr pt o with
        | some k, some ta =>
          let ct := xtsEncrypt k.xts (o / 64) d
          writeTag n ta (lineTag k.tag o ct) (rawWrite a ct s)
        | _, _ => s
      else if pt.mode = 3 then rawWrite a (xtsEncrypt s.mm.lendKey (o / 64) d) s
      else rawWrite a d s

/-- A region of a partition that covers an offset. -/
def regionAt (s : State) (target : Bool) (n o : Nat) : Option (Nat × Region) :=
  s.twn.regions.find? fun e =>
    e.2.target == target && e.2.part == n && decide (e.2.offset ≤ o ∧ o < e.2.offset + e.2.length)

/-- A write to an offset is denied: by a target region to every requester but the mirror engine (11 R340), or by a
fenced source region (11 R344). -/
def writeFenced (s : State) (mirror : Bool) (n o : Nat) : Bool :=
  (!mirror && (regionAt s true n o).isSome) ||
    (match regionAt s false n o with
     | some e => e.2.st == .fenced
     | none => false)

/-- A line may be written: allocated, with its keys, outside fenced regions. -/
def lineWritable (s : State) (mirror : Bool) (n o : Nat) : Bool :=
  (lineState s n o).isSome && !writeFenced s mirror n o

/-- A write of `d` at byte `off` of a line: a full-line write when it covers the line, a partial write otherwise. -/
def writeLine (who : Nat × Nat) (mirror : Bool) (n o off : Nat) (d : Bytes) (s : State) : Nat × State :=
  if !lineWritable s mirror n o then (stAccessDenied, s)
  else if off = 0 ∧ d.length = 64 then (stOk, storeLine n o d s)
  else
    match lineState s n o with
    | some (.good old) => (stOk, storeLine n o (patch old off d) (touchLine n o (.good old) s))
    | some st => failLine who n o st (touchLine n o st s)
    | none => (stAccessDenied, s)

/-! ### Ranges -/

/-- A range cut at line boundaries: (line offset, first byte within the line, length). -/
def lineCuts (o len : Nat) : List (Nat × Nat × Nat) :=
  if len = 0 then []
  else (List.range ((o + len - 1) / 64 - o / 64 + 1)).map fun i =>
    let l := (o / 64 + i) * 64
    let a := max o l
    let b := min (o + len) (l + 64)
    (l, a - l, b - a)

/-- The first of two statuses that is not OK: the lowest-addressed failing line decides (Table 7-3). -/
def firstFail (a b : Nat) : Nat := if a = stOk then b else a

/-- The lines of a read one after the other. -/
def readCuts (who : Nat × Nat) (n : Nat) : List (Nat × Nat × Nat) → State → Nat × Bytes × State
  | [], s => (stOk, [], s)
  | (l, off, len) :: cs, s =>
    let r := readLine who n l s
    let rest := readCuts who n cs r.2.2
    (firstFail r.1 rest.1, slice r.2.1 off len ++ rest.2.1, rest.2.2)

/-- A read of a range of partition memory: the status of its lowest failing line; no data on failure. -/
def readRange (who : Nat × Nat) (n o len : Nat) (s : State) : Nat × Bytes × State :=
  let r := readCuts who n (lineCuts o len) s
  (r.1, if r.1 = stOk then r.2.1 else [], r.2.2)

/-- The lines of a write one after the other; the lines written. -/
def writeCuts (who : Nat × Nat) (mirror : Bool) (n : Nat) :
    List (Nat × Nat × Nat) → Bytes → State → Nat × List Nat × State
  | [], _, s => (stOk, [], s)
  | (l, off, len) :: cs, d, s =>
    let r := writeLine who mirror n l off (d.take len) s
    let rest := writeCuts who mirror n cs (d.drop len) r.2
    (firstFail r.1 rest.1, if r.1 = stOk then l :: rest.2.1 else rest.2.1, rest.2.2)

/-! ### Capture for the twin (11 R336, R337) -/

/-- The bytes and the poison of a line as a mirror message carries them. -/
def mirrorLine (s : State) (n o : Nat) : Option Bytes :=
  match lineState s n o with
  | some (.good d) => some d
  | _ => none

/-- A mirror message of consecutive lines of one page: the header of R337 and the data of its unpoisoned lines. -/
def mirrorMsg (s : State) (r : Region) (lines : List Nat) : Bytes :=
  let ds := lines.map (mirrorLine s r.part)
  let poison := (ds.zipIdx.map fun x => if x.1.isNone then 2 ^ x.2 else 0).foldl (· + ·) 0
  leBytes 1 0x50 ++ leBytes 1 s.twn.gen.toNat ++ leBytes 2 lines.length ++ leBytes 4 r.id ++ leBytes 8 r.seq
    ++ leBytes 8 (lines.headD 0) ++ leBytes 8 poison ++ (ds.map fun d => d.getD []).flatten

/-- A source region that copies or is in sync. -/
def Region.live (r : Region) : Bool := !r.target && (r.st == .syncing || r.st == .inSync)

/-- A region changed in its slot. -/
def setRegion (k : Nat) (r : Region) (s : State) : State := { s with twn := { s.twn with regions := tset k r s.twn.regions } }

/-- A region's message sent on VC5 over L7: its sequence number advances and its lines wait for the answer; `copy` when it belongs
to the initial copy, whose pointer passes them. -/
def sendMirror (copy : Bool) (k : Nat) (r : Region) (lines : List Nat) (s : State) : State :=
  let s := queueMsg 7 5 1 r.part none (mirrorMsg s r lines) s
  setRegion k { r with
    seq := r.seq + 1
    captured := if copy then r.captured else r.captured + lines.length
    copied := if copy then r.copied + 64 * lines.length else r.copied
    sent := r.sent ++ [{ seq := r.seq, lines := lines.length, at_ := s.now, copy := copy }] } s

/-- How far the answered part of the initial copy reaches, as a relative offset. -/
def Region.carried (r : Region) : Nat :=
  r.copied - 64 * sumOf ((r.sent.filter (·.copy)).map (·.lines))

/-- Lines cut into runs of consecutive lines within one 4 KiB page. -/
def pageRuns : List Nat → List (List Nat)
  | [] => []
  | l :: ls =>
    match pageRuns ls with
    | (h :: t) :: rs => if h = l + 64 ∧ h / 4096 = l / 4096 then (l :: h :: t) :: rs else [l] :: (h :: t) :: rs
    | rs => [l] :: rs

/-- A mark among others: one per region, with the most that its writes wait for. -/
def addMark (m : MirrorMark) (ms : List MirrorMark) : List MirrorMark :=
  match ms.find? fun x => x.region == m.region with
  | some x => { region := m.region, lines := max m.lines x.lines, upTo := max m.upTo x.upTo } :: ms.filter fun y => y.region != m.region
  | none => m :: ms

/-- Two lists of marks as one. -/
def mergeMarks (a b : List MirrorMark) : List MirrorMark := a.foldl (fun ms m => addMark m ms) b

/-- What a synchronous region's new writes wait for, noted. -/
def markRegion (id lines upTo : Nat) (s : State) : State :=
  { s with twn := { s.twn with marks := addMark { region := id, lines := lines, upTo := upTo } s.twn.marks } }

/-- What the writes of this command wait for, taken (R339). -/
def takeMarks (s : State) : List MirrorMark × State := (s.twn.marks, { s with twn := { s.twn with marks := [] } })

/-- One run of written lines in a source region that copies or is in sync (R335): the lines that the initial copy has passed are
captured, those above its pointer are carried later by the copy. A synchronous write waits for both (R339). -/
def captureRun (n : Nat) (run : List Nat) (s : State) : State :=
  match regionAt s false n (run.headD 0) with
  | some (k, r) =>
    if !r.live then s
    else
      let below := run.filter fun o => decide (o < r.offset + r.copied)
      let above := run.filter fun o => decide (r.offset + r.copied ≤ o)
      let s := if above.isEmpty then s else setRegion k { r with late := r.late + above.length } s
      let r := { r with late := r.late + above.length }
      let s := if below.isEmpty then s else sendMirror false k r below s
      if r.async then s
      else markRegion r.id (if below.isEmpty then 0 else r.captured + below.length)
        (above.foldl (fun m o => max m (o + 64 - r.offset)) 0) s
  | none => s

/-- The lines just written captured once, in order. Log entry 96 (DEDUCED). -/
def captureLines (n : Nat) (lines : List Nat) (s : State) : State :=
  if s.twn.regions.isEmpty then s
  else (pageRuns lines).foldl (fun s run => captureRun n run s) s

/-- The region of a mark no longer holds it back: it is DETACHED or gone, or its captured lines are answered and its initial copy
has carried the others; of a FENCED region, whose copy has stopped, only the answers count (R339, R344). -/
def markDone (s : State) (m : MirrorMark) : Bool :=
  match s.twn.regions.find? fun e => !e.2.target && e.2.id == m.region with
  | some (_, r) => r.st == .detached || (decide (m.lines ≤ r.answered) && (r.st == .fenced || decide (m.upTo ≤ r.carried)))
  | none => true

/-- Every mark is done (R339). -/
def mirrorsDone (s : State) (marks : List MirrorMark) : Bool := marks.all (markDone s)

/-- The lag of a region in µs: the age of the oldest captured line not yet answered (R339). Log entry 96 (DEDUCED). -/
def regionLag (s : State) (r : Region) : Nat :=
  match r.sent.find? fun e => !e.copy with
  | some e => (s.now - e.at_) / 1000
  | none => 0

/-- From `s` to `s'` lines were written into an asynchronous region whose lag in `s` is at its bound (R339).
Log entry 96 (DEDUCED). -/
def lagBlocks (s s' : State) : Bool :=
  s'.twn.regions != s.twn.regions && s.twn.regions.any fun e =>
    e.2.async && e.2.live && decide (e.2.maxLag ≤ regionLag s e.2)
      && ((tget e.1 s'.twn.regions).map fun r => decide (e.2.captured + e.2.late < r.captured + r.late)) == some true

/-- What a command does from `s` to `s'`, unless it writes into an asynchronous region at its bound: then it waits, and nothing has
happened yet (R339). Log entry 96 (DEDUCED). -/
def awaitLag (s s' : State) : State := if lagBlocks s s' then s else s'

/-- A write of bytes to a range of partition memory, line by line (R225): the status of the lowest failing line. -/
def writeRange (who : Nat × Nat) (mirror : Bool) (n o : Nat) (d : Bytes) (s : State) : Nat × State :=
  let r := writeCuts who mirror n (lineCuts o d.length) d s
  (r.1, captureLines n r.2.1 r.2.2)

/-- Every line a range touches written poisoned, as inherited poison (R226); a line already poisoned keeps its code. -/
def poisonRange (who : Nat × Nat) (n o len : Nat) (s : State) : State :=
  let ls := (lineCuts o len).map (·.1)
  let ls := ls.filter fun l => lineWritable s false n l
  let s := ls.foldl (fun s l => faultLine who n l 3 s) s
  captureLines n ls s

/-- The whole range lies in allocated memory of the partition. -/
def allocated (s : State) (n o len : Nat) : Bool :=
  match part s n with
  | none => false
  | some pt =>
    len == 0 || (List.range ((o + len - 1) / granuleBytes - o / granuleBytes + 1)).all
      fun i => thas (o / granuleBytes + i) pt.pages

/-! ### Scratchpads (08 R253, R474) -/

/-- A scratchpad line poisoned with a cause (07 R228): the log entry has no partition line.
Log entry 121 (DEDUCED). -/
def faultScratch (who : Nat × Nat) (cause l : Nat) (s : State) : State :=
  if s.crn.scratchFault.contains l then s
  else
    let s := { s with crn := { s.crn with scratchFault := l :: s.crn.scratchFault, scratchBad := s.crn.scratchBad.filter (· ≠ l) } }
    logErr 0x0022 (l / 0x10000 / 4) (leBytes 1 who.2 ++ leBytes 1 cause ++ leBytes 2 who.1 ++ leBytes 1 who.2
      ++ leBytes 5 0xFFFFFFFFFF) s

/-- The lines of a scratchpad access that it finds uncorrectable become poisoned (Table 7-3).
Log entry 148 (DESIGN CHOICE). -/
def findScratch (who : Nat × Nat) (ls : List Nat) (s : State) : State :=
  (ls.filter fun l => s.crn.scratchBad.contains l).foldl (fun s l => faultScratch who 2 l s) s

/-- A read of scratchpad bytes: POISONED where a line is poisoned or uncorrectable. -/
def readScratch (who : Nat × Nat) (a len : Nat) (s : State) : Nat × Bytes × State :=
  let ls := (lineCuts a len).map fun c => c.1 / 64
  let s := findScratch who ls s
  if ls.any (fun l => s.crn.scratchFault.contains l) then (stPoisoned, [], s)
  else (stOk, Mem.read 0 s.crn.scratch a len, s)

/-- Scratchpad bytes written line by line: a partial write of a poisoned line is not merged; a full-line write clears
the poison. -/
def writeScratchCuts (who : Nat × Nat) : List (Nat × Nat × Nat) → Bytes → State → Nat × State
  | [], _, s => (stOk, s)
  | (l, off, len) :: cs, d, s =>
    let full := decide (off = 0 ∧ len = 64)
    let s := if full then s else findScratch who [l / 64] s
    let bad := s.crn.scratchFault.contains (l / 64)
    let st := if bad && !full then stPoisoned else stOk
    let s1 := if bad && !full then s
      else { s with crn := { s.crn with scratch := Mem.write 0 s.crn.scratch (l + off) (d.take len)
                                        scratchFault := s.crn.scratchFault.filter (· ≠ l / 64)
                                        scratchBad := s.crn.scratchBad.filter (· ≠ l / 64) } }
    let rest := writeScratchCuts who cs (d.drop len) s1
    (firstFail st rest.1, rest.2)

/-- Scratchpad bytes written from `a`. -/
def writeScratch (who : Nat × Nat) (a : Nat) (d : Bytes) (s : State) : Nat × State := writeScratchCuts who (lineCuts a d.length) d s

/-- Scratchpad lines poisoned as inherited poison (07 R226). Log entry 121 (DEDUCED). -/
def poisonScratch (who : Nat × Nat) (a len : Nat) (s : State) : State :=
  ((lineCuts a len).map fun c => c.1 / 64).foldl (fun s l => faultScratch who 3 l s) s

end Sys2Proof.Machine
end

