-- ==== Sys2Proof/Machine/Queue.lean ====
section
/-! DEFINITION. Queues and records (chapter 08): locations, the conditions under which a record starts, its checks, its
start and its outcome. -/

namespace Sys2Proof.Machine

/-! ### Locations (R252, R253) -/

/-- A local operand: a partition offset or a scratch address. -/
inductive Loc where
  | part (o : Nat)
  | scratch (a : Nat)
  deriving DecidableEq, Repr

/-- A tagged address (R252); none where its tag or its upper bits are not as the rule gives. -/
def taggedLoc (v : Nat) : Option Loc :=
  if v / 2 ^ 62 = 0 then (if v < 2 ^ 47 then some (.part v) else none)
  else if v / 2 ^ 62 = 1 then (if v % 2 ^ 62 < 2 ^ 32 then some (.scratch (v % 2 ^ 62)) else none)
  else none

/-- A location some bytes further. -/
def Loc.plus : Loc → Nat → Loc
  | .part o, n => .part (o + n)
  | .scratch a, n => .scratch (a + n)

/-- The bytes of a scratchpad. -/
def scratchBytes : Nat := 0x400000

/-- The ACTIVE boughs of a partition in ascending number (R253). -/
def activeBoughs (s : State) (n : Nat) : List Nat :=
  ((fins 64).filter fun b => (vget s.crn.boughs b).st == .active && (vget s.crn.boughs b).owner == n
    && (match part s n with
        | some pt => pt.boughMask.testBit b.val
        | none => false)).map fun b => b.val

/-- The scratchpad addresses behind a scratch range: (address, length) pieces; none beyond the scratch space. -/
def scratchPieces (bs : List Nat) (a len : Nat) : Option (List (Nat × Nat)) :=
  if len = 0 then some []
  else if a + len ≤ bs.length * scratchBytes then
    some ((List.range ((a + len - 1) / scratchBytes - a / scratchBytes + 1)).map fun i =>
      let k := a / scratchBytes + i
      let lo := max a (k * scratchBytes)
      let hi := min (a + len) ((k + 1) * scratchBytes)
      (bs.getD k 0 * scratchBytes + (lo - k * scratchBytes), hi - lo))
  else none

/-- A local range lies in allocated granules or in the scratch space (R246 step 3). -/
def locOk (s : State) (n : Nat) (l : Loc) (len : Nat) : Bool :=
  match l with
  | .part o => decide (o + len ≤ 2 ^ 47) && allocated s n o len
  | .scratch a => (scratchPieces (activeBoughs s n) a len).isSome

/-- The requester of a local engine's access: this chip (0xFFFF unassigned) and the partition. -/
def localWho (s : State) (n : Nat) : Nat × Nat := (s.txn.chip.getD 0xFFFF, n)

/-- A partition's counters changed. -/
def modPartCtr (n : Nat) (f : PartCtr → PartCtr) (s : State) : State :=
  { s with obs := { s.obs with parts := tset n (f (tgetD n PartCtr.zero s.obs.parts)) s.obs.parts } }

/-- Scratch pieces read one after the other. -/
def readPieces (who : Nat × Nat) : List (Nat × Nat) → State → Nat × Bytes × State
  | [], s => (stOk, [], s)
  | (a, len) :: ps, s =>
    let r := readScratch who a len s
    let rest := readPieces who ps r.2.2
    (firstFail r.1 rest.1, r.2.1 ++ rest.2.1, rest.2.2)

/-- A read by an engine of a local range: its status, its bytes, the state. -/
def readLoc (n : Nat) (l : Loc) (len : Nat) (s : State) : Nat × Bytes × State :=
  match l with
  | .part o => readRange (localWho s n) n o len (modPartCtr n (fun c => { c with hbmRd := c.hbmRd + len }) s)
  | .scratch a =>
    match scratchPieces (activeBoughs s n) a len with
    | some ps => let r := readPieces (localWho s n) ps s; (r.1, if r.1 = stOk then r.2.1 else [], r.2.2)
    | none => (stAccessDenied, [], s)

/-- Scratch pieces written one after the other. -/
def writePieces (who : Nat × Nat) : List (Nat × Nat) → Bytes → State → Nat × State
  | [], _, s => (stOk, s)
  | (a, len) :: ps, d, s =>
    let r := writeScratch who a (d.take len) s
    let rest := writePieces who ps (d.drop len) r.2
    (firstFail r.1 rest.1, rest.2)

/-- A write by an engine of a local range. -/
def writeLoc (n : Nat) (l : Loc) (d : Bytes) (s : State) : Nat × State :=
  match l with
  | .part o =>
    writeRange (localWho s n) false n o d (modPartCtr n (fun c => { c with hbmWr := c.hbmWr + d.length }) s)
  | .scratch a =>
    match scratchPieces (activeBoughs s n) a d.length with
    | some ps => writePieces (localWho s n) ps d s
    | none => (stAccessDenied, s)

/-- A local range written poisoned (07 R226). -/
def poisonLoc (n : Nat) (l : Loc) (len : Nat) (s : State) : State :=
  match l with
  | .part o => poisonRange (localWho s n) n o len s
  | .scratch a =>
    ((scratchPieces (activeBoughs s n) a len).getD []).foldl
      (fun s p => poisonScratch (localWho s n) p.1 p.2 s) s

/-- The pieces of a local range, each within one line: (offset in the range, length). -/
def linePieces (l : Loc) (len : Nat) : List (Nat × Nat) :=
  let start := match l with
    | .part o => o
    | .scratch a => a
  (lineCuts start len).map fun c => (c.1 + c.2.1 - start, c.2.2)

/-- The lines of a local range that hold written bytes. -/
def locLines (l : Loc) (len : Nat) : List (Bool × Nat) :=
  match l with
  | .part o => (lineCuts o len).map fun c => (true, c.1)
  | .scratch a => (lineCuts a len).map fun c => (false, c.1)

/-- A range poisoned but for the lines that hold earlier output. -/
def poisonUnwritten (n : Nat) (l : Loc) (len : Nat) (wrote : List (Bool × Nat)) (s : State) : State :=
  (linePieces l len).foldl (fun s p =>
    if (locLines (l.plus p.1) p.2).any fun x => wrote.contains x then s else poisonLoc n (l.plus p.1) p.2 s) s

/-- A range poisoned but for the lines all of whose bytes in it were written: `done` holds the pieces written, (offset, length). -/
def poisonRest (n : Nat) (l : Loc) (len : Nat) (done : List (Nat × Nat)) (s : State) : State :=
  let written (i : Nat) : Bool := done.any fun d => decide (d.1 ≤ i ∧ i < d.1 + d.2)
  (linePieces l len).foldl (fun s p =>
    if (List.range p.2).all fun i => written (p.1 + i) then s else poisonLoc n (l.plus p.1) p.2 s) s

/-- Two local ranges overlap. -/
def locOverlap (a : Loc) (la : Nat) (b : Loc) (lb : Nat) : Bool :=
  match a, b with
  | .part x, .part y => decide (0 < la ∧ 0 < lb ∧ x < y + lb ∧ y < x + la)
  | .scratch x, .scratch y => decide (0 < la ∧ 0 < lb ∧ x < y + lb ∧ y < x + la)
  | _, _ => false

/-! ### Queues -/

/-- A queue's key in the table of queues: partition n, queue q = 4 class + index. -/
def qKey (n q : Nat) : Nat := 16 * n + q

/-- A queue. -/
def queue (s : State) (n q : Nat) : Option Queue := tget (qKey n q) s.crn.queues

/-- The state with a queue changed. -/
def modQueue (n q : Nat) (f : Queue → Queue) (s : State) : State :=
  { s with crn := { s.crn with queues := tmod (qKey n q) f s.crn.queues } }

/-- d(a, b) of R242. -/
def numDist (a b : BitVec 32) : Nat := (b - a).toNat

/-- Records in progress of a queue, by number. -/
def running (s : State) (n q num : Nat) : Option Running :=
  (queue s n q).bind fun x => x.running.find? fun r => r.num == num

/-- The state with a record in progress changed. -/
def modRunning (n q num : Nat) (f : Running → Running) (s : State) : State :=
  modQueue n q (fun x => { x with running := x.running.map fun r => if r.num = num then f r else r }) s

/-- A u64 field of a record. -/
def rec64 (b : Bytes) (off : Nat) : Nat := u64At b off

/-- FLAGS of a record (Table 8-5). -/
def recFlag (b : Bytes) (i : Nat) : Bool := (u8At b 1).testBit i

/-- A transaction of a queue, its read-ahead included (R188, R250). -/
def txnOfQueue (t : Txn) (n q : Nat) : Bool :=
  match t.use with
  | .record a b _ => a == n && b == q
  | .chunk a b _ _ => a == n && b == q
  | .tail a b _ _ => a == n && b == q
  | .readAhead (.queue key _) => key == qKey n q
  | .readAhead _ => false

/-- FLAGS.WAIT holds: the named queue's HEAD has reached WAIT_VALUE (R245). Log entry 76 (DEDUCED). -/
def waitMet (s : State) (n : Nat) (b : Bytes) : Bool :=
  let w := u8At b 2
  match queue s n (w % 16) with
  | some x => decide (numDist (BitVec.ofNat 32 (u32At b 4)) x.head < 2 ^ 31)
  | none => false

/-- The cut holds the data plane: stopping units fetch and start nothing (12 Table 12-8). -/
def cutStopped (s : State) : Bool := s.obs.cut.st == .firing || s.obs.cut.st == .taken

/-- The data plane runs: powered, booted, not stopped by a cut. In QUIET, MOVE and TOKEN queues are served (14 Table
14-8). -/
def planeRuns (s : State) : Bool :=
  (s.pwr.st == .run || s.pwr.st == .quiet || s.pwr.st == .entering) && !cutStopped s && !s.cmb.inReset

/-- The conditions of R245 on a fetched record; a CHAIN record waits for its predecessor to have completed.
Log entry 76 (DEDUCED). -/
def startMet (s : State) (n q : Nat) (x : Queue) (b : Bytes) : Bool :=
  planeRuns s && (q / 4 == 1 || q / 4 == 3 || s.pwr.st == .run) && !x.held && !x.faulted && decide (x.started ≠ x.tail)
    && (if q / 4 = 1 then decide (x.running.length < 16) else x.running.isEmpty)
    && (!recFlag b 1 || x.running.isEmpty)
    && (!(recFlag b 2 && q / 4 == 1) ||
        (!(s.txn.txns.any fun t => txnOfQueue t.2 n q) && !(s.txn.waiting.any fun t => txnOfQueue t n q)))
    && (!recFlag b 3 || waitMet s n b)
    && (!recFlag b 5 || !(x.running.any fun r => r.num + 1 == x.started.toNat ||
                            (r.num == 0xFFFFFFFF && x.started == 0)))

/-- The predecessor of the next record completed with a failure or was skipped (R247). -/
def chainSkips (x : Queue) (b : Bytes) : Option Nat :=
  if recFlag b 5 then
    match x.recent.find? fun r => r.1 == (x.started - 1).toNat with
    | some (_, word, skipped) => if skipped || !isSuccess (word % 0x10000) then some word else none
    | none => none
  else none

/-- The address of record `r` in the ring, and that of its completion entry (R242). -/
def recAddr (x : Queue) (r : BitVec 32) : Nat := x.base + 64 * (r.toNat % x.entries)
def cplAddr (x : Queue) (r : BitVec 32) : Nat := x.base + 64 * x.entries + 64 * (r.toNat % x.entries)

/-- The fetch of the next record: from the ring in partition memory, or the bytes the host gave.
Log entry 79 (DEDUCED). -/
def fetchRec (n : Nat) (x : Queue) (host : Bytes) (s : State) : Nat × Bytes × State :=
  if x.host then (stOk, fit 64 host, s)
  else
    let r := readRange (localWho s n) n (recAddr x x.started) 64 s
    (r.1, fit 64 r.2.1, r.2.2)

/-- The opcode is defined for a class (Table 8-6). -/
def opcodeOk (cls op : Nat) : Bool :=
  op == 0 || (cls == 0 && 0x10 ≤ op && op ≤ 0x14) || (cls == 1 && 0x20 ≤ op && op ≤ 0x23)
    || (cls == 2 && op == 0x30) || (cls == 3 && (op == 0x40 || op == 0x41))

/-- The row under which a record starts: its opcode's; NOP's for an opcode its class does not define. -/
def rowOf (cls : Nat) (b : Bytes) : Nat := if opcodeOk cls (u8At b 0) then u8At b 0 else 0

/-- The header's reserved fields and flags are 0 (R246 step 1, Table 8-5). -/
def headerOk (cls : Nat) (b : Bytes) : Bool :=
  let op := u8At b 0
  !recFlag b 7 && (!recFlag b 2 || cls == 1) && (!recFlag b 4 || op == 0x10) && (!recFlag b 6 || op == 0x20)
    && (if recFlag b 3 then u8At b 2 < 16 else u8At b 2 == 0 && u32At b 4 == 0)
    && u8At b 3 == 0 && (recFlag b 4 || u32At b 12 == 0)

/-- The unit that traces a queue's records (12 Table 12-6): the lead bough, hub 0, or the token engine. -/
def queueUnit (s : State) (n q : Nat) : Nat :=
  if q / 4 = 0 then
    match part s n with
    | some pt => (((List.range 64).find? fun b => pt.boughMask.testBit b).getD 0)
    | none => 0
  else if q / 4 = 3 then 81 else 73

/-- A record's entry when it starts. -/
def Running.fresh (num start : Nat) (b : Bytes) : Running :=
  { num := num, bytes := b, start := start, done := false, status := 0, synth := false, responder := 0,
    remote := false, result := [], localFail := none, txnsLeft := 0, chunkNext := 0, chunkFail := none, mirrors := [],
    skipped := false, tail := [], streams := [], dead := 0, dests := [], hbm := (0, 0) }

/-- What the writes just made wait for at the twin belongs to a record (11 R339). -/
def noteMirrors (n q num : Nat) (s : State) : State :=
  let m := takeMarks s
  modRunning n q num (fun r => { r with mirrors := mergeMarks m.1 r.mirrors }) m.2

/-- A record has ended: its status and its result bytes; what its writes must wait for at the twin. -/
def endRecord (n q num status : Nat) (result : Bytes) (s : State) : State :=
  modRunning n q num (fun r => { r with done := true, status := status, result := result }) (noteMirrors n q num s)

/-- A bough follows the record it takes part in (12 R355). Log entry 99 (DEDUCED). -/
def followRecord (n q num : Nat) (s : State) : State :=
  (activeBoughs s n).foldl (fun s b =>
    let bf := finOf 64 b
    let c := vget s.obs.boughs bf
    if c.mode = 2 ∧ c.followed = none then
      let c := { c with followed := some (n, q, num), late := false, counts := Vector.replicate 16 0 }
      { s with obs := { s.obs with boughs := vset s.obs.boughs bf c } }
    else s) s

/-- The next record of a queue taken up (R245): it is traced and stands in progress. -/
def takeRecord (n q : Nat) (x : Queue) (b : Bytes) (s : State) : State :=
  let num := x.started.toNat
  let s := modQueue n q (fun x => { x with started := x.started + 1,
                                           running := x.running ++ [Running.fresh num s.now b] }) s
  traceRec (queueUnit s n q) 0x02 (q + 16 * n) num s

/-- The next record starts: a MATH record is followed. -/
def beginRecord (n q : Nat) (x : Queue) (b : Bytes) (s : State) : State :=
  let s := takeRecord n q x b s
  if q / 4 = 0 then followRecord n q x.started.toNat s else s

/-- The HBM bytes that the partition's engines moved from `s` to `s'` counted for a record. -/
def tallyHbm (n q num : Nat) (s s' : State) : State :=
  let a := tgetD n PartCtr.zero s.obs.parts
  let b := tgetD n PartCtr.zero s'.obs.parts
  if b.hbmRd = a.hbmRd ∧ b.hbmWr = a.hbmWr then s'
  else modRunning n q num (fun r => { r with hbm := (r.hbm.1 + (b.hbmRd - a.hbmRd), r.hbm.2 + (b.hbmWr - a.hbmWr)) }) s'

/-- What a record's opcode does once it has started: partition, queue, number, record bytes. -/
abbrev RecBody := Nat → Nat → Nat → Bytes → State → State

/-- The start of a record under the row of opcode `op`: the conditions, the fetch, the header's checks, then the
opcode's own checks and work. A record that cannot be read completes with the status of its lines.
Log entry 82 (DEDUCED). -/
def startRecord (op : Nat) (body : RecBody) (t : Nat) (n : Fin 128) (q : Fin 16) (host : Bytes) (s : State) : State :=
  let s := s.at t
  match queue s n q with
  | none => s
  | some x =>
    if x.started = x.tail ∨ x.faulted = true ∨ x.held = true then s
    else
      let f := fetchRec n x host s
      let b := f.2.1
      if !startMet s n q x b || (chainSkips x b).isSome || rowOf (q / 4) b != op then s
      else
        let s0 := s
        let num := x.started.toNat
        let s := beginRecord n q x b f.2.2
        if f.1 ≠ stOk then endRecord n q num f.1 [] s
        else if !opcodeOk (q / 4) (u8At b 0) || !headerOk (q / 4) b then endRecord n q num stBadArg [] s
        else awaitLag s0 (tallyHbm n q num s (body n q num b s))

/-- The checks of R246 steps 1 to 4, given as the record's own answers, then its work. Log entry 82 (DEDUCED). -/
def checkedRecord (reserved ranges operands : Bool) (math : Bool) (work : RecBody) : RecBody :=
  fun n q num b s =>
    if !reserved || !ranges then endRecord n q num stBadArg [] s
    else if !operands then endRecord n q num stAccessDenied [] s
    else if math && (activeBoughs s n).isEmpty then endRecord n q num stNoResource [] s
    else work n q num b s

/-- NOP: bytes 16 to 63 reserved; completes OK when it starts (R254). Log entry 79 (DEDUCED). -/
def nopBody : RecBody := fun n q num b s =>
  checkedRecord (zeroAt b 16 48) true true (decide (q / 4 = 0)) (fun n q num _ s => endRecord n q num stOk [] s)
    n q num b s

/-- NOP. Log entry 79 (DEDUCED). -/
def execNop (t : Nat) (n : Fin 128) (q : Fin 16) (host : List (BitVec 8)) (s : State) : Outcome :=
  .next (startRecord 0 nopBody t n q host s)

/-! ### The bough counters at the end of a record (12 R352 to R355) -/

/-- A bough changed. -/
def modBoughCtr (b : Nat) (f : BoughCtr → BoughCtr) (s : State) : State :=
  { s with obs := { s.obs with boughs := vmod s.obs.boughs (finOf 64 b) f } }

/-- Counter `j` counts now: not OFF, not RECORDS (counted at the end of a record), not frozen, and in mode 2 only for a followed
record or for the twig core's own cycles. Log entry 89 (DESIGN CHOICE). -/
def countsNow (c : BoughCtr) (j : Fin 16) : Bool :=
  let e := vget c.selects j
  e != 0 && e != 17 && !(c.mode == 1 && c.frozen) && (c.mode != 2 || c.followed.isSome || e == 20 || e == 21)

/-- The events whose amounts a record gives: MACS, HBM_RD_BYTES, HBM_WR_BYTES, TILES, POISON_READS, SATURATIONS. -/
def recordEvent (e : Nat) : Bool := [3, 6, 7, 16, 18, 19].contains e

/-- The whole amount of a record's event (Table 12-4), where the record completed well: the MACs, the 64-element tiles and the
SATURATED count of a MATMUL, the HBM bytes it moved; it read no poisoned line. None where the spec does not tell it.
Log entry 89 (DESIGN CHOICE). -/
def eventTotal (r : Running) (e : Nat) : Option Nat :=
  let b := r.bytes
  let cols := u32At b 40
  let matmul := u8At b 0 == 0x10
  if r.done = false ∨ isSuccess r.status = false then none
  else if e = 6 then some r.hbm.1
  else if e = 7 then some r.hbm.2
  else if e = 18 then some 0
  else if u8At b 0 = 0 then some 0
  else if e = 3 then if matmul then some (u16At b 48 * cols * u32At b 44) else none
  else if e = 16 then if matmul then some (u16At b 48 * ((cols + 63) / 64)) else none
  else if e = 19 then if (matmul && !recFlag b 4) || u8At b 0 == 0x11 then some (u32At r.result 0) else none
  else none

/-- A total divided among boughs: how is open, one bough alone has the whole. Log entry 89 (DESIGN CHOICE). -/
def divideTotal (total : Nat) : List Nat → State → List (Nat × Nat) × State
  | [], s => ([], s)
  | [b], s => ([(b, total)], s)
  | b :: bs, s =>
    let d := drawNat s
    let x := d.1 % (total + 1)
    let r := divideTotal (total - x) bs d.2
    ((b, x) :: r.1, r.2)

/-- A counter of a bough grows. -/
def bumpCounter (b : Nat) (j : Fin 16) (d : Nat) (s : State) : State :=
  modBoughCtr b (fun c => { c with counts := vmod c.counts j fun v => (v + d) % 2 ^ 64 }) s

/-- A MATH record of the bough's partition is in progress. -/
def boughBusy (s : State) (b : Nat) : Bool :=
  s.mm.parts.any fun p => (activeBoughs s p.1).contains b
    && (List.range 4).any fun q => ((queue s p.1 q).map fun x => !x.running.isEmpty) == some true

/-- A bough's counters as they stand now: they have grown by amounts that nothing constrains, but a record's events grow only while
a record is in progress. Log entry 89 (DESIGN CHOICE). -/
def growCounters (b : Nat) (s : State) : State :=
  let busy := boughBusy s b
  let s := modBoughCtr b (fun c => { c with seen := c.seen || busy }) s
  (fins 16).foldl (fun s j =>
    let c := vget s.obs.boughs (finOf 64 b)
    if countsNow c j && (busy || !recordEvent (vget c.selects j)) then
      let d := drawNat s
      bumpCounter b j d.1 d.2
    else s) s

/-- What a completed record adds to a counter of a bough: its share of the record's event where it is known and the bough counted the
whole record, else an amount that nothing constrains. Log entry 89 (DESIGN CHOICE). -/
def growAtEnd (b : Nat) (mine : Bool) (share : Nat → Option Nat) (s : State) : State :=
  (fins 16).foldl (fun s j =>
    let c := vget s.obs.boughs (finOf 64 b)
    let e := vget c.selects j
    if !countsNow c j || (c.mode == 2 && !mine && recordEvent e) then s
    else
      match if c.seen || (c.mode == 2 && c.late) then none else share e with
      | some x => bumpCounter b j x s
      | none =>
        let d := drawNat s
        bumpCounter b j d.1 d.2) s

/-- The shares of a completed record's events: for each event with a known total, what each active bough has of it. -/
def eventShares (n : Nat) (r : Running) (s : State) : List (Nat × List (Nat × Nat)) × State :=
  [3, 6, 7, 16, 18, 19].foldl (fun a e =>
    match eventTotal r e with
    | some total =>
      let d := divideTotal total (activeBoughs a.2 n) a.2
      ((e, d.1) :: a.1, d.2)
    | none => a) ([], s)

/-- RECORDS counts a record in which the bough took part. Log entries 77 (DEDUCED), 89 (DESIGN CHOICE). -/
def countRecord (mine : Bool) (c : BoughCtr) : BoughCtr :=
  if (c.mode = 1 ∧ c.frozen = true) ∨ (c.mode = 2 ∧ mine = false) then c
  else
    let bump := fun (a : Vector Nat 16) (j : Fin 16) =>
      if vget c.selects j = 17 then vmod a j fun v => (v + 1) % 2 ^ 64 else a
    { c with counts := (fins 16).foldl bump c.counts }

/-- The earliest-started MATH record of a partition still in progress: its queue and number. -/
def earliestMath (s : State) (n : Nat) : Option (Nat × Nat) :=
  let rs := ((List.range 4).map fun q => match queue s n q with
    | some x => x.running.map fun r => (r.start, q, r.num)
    | none => []).flatten
  (rs.foldl (fun (a : Option (Nat × Nat × Nat)) r => match a with
    | some b => if r.1 < b.1 then some r else a
    | none => some r) none).map fun r => r.2

/-- The bough follows the earliest record still in progress, if there is one (R355). Log entry 99 (DEDUCED). -/
def followNext (n b : Nat) (s : State) : State :=
  match earliestMath s n with
  | some (q, num) =>
    modBoughCtr b (fun c => { c with followed := some (n, q, num), late := true, counts := Vector.replicate 16 0 }) s
  | none => modBoughCtr b (fun c => { c with followed := none, late := false }) s

/-- A MATH record has completed: the boughs that took part count it, and those that follow it latch (R355).
Log entry 99 (DEDUCED). -/
def boughRecordEnd (n q num : Nat) (r : Running) (s : State) : State :=
  let sh := eventShares n r s
  let last := (earliestMath s n).isNone
  (activeBoughs s n).foldl (fun s b =>
    let mine := (vget s.obs.boughs (finOf 64 b)).followed == some (n, q, num)
    let s := growAtEnd b mine (fun e => (tget e sh.1).bind (tget b)) s
    let s := modBoughCtr b (fun c => { countRecord mine c with seen := c.seen && !last }) s
    if mine then
      let latch := fun (c : BoughCtr) =>
        { c with latched := c.counts, latchRec := num, latchQ := q + 16 * n + bit 16 c.late,
                 latchSeq := (c.latchSeq + 1) % 2 ^ 32 }
      followNext n b (modBoughCtr b latch s)
    else s) sh.2

/-- When the earliest MATH record in progress of a partition began: now, if there is none. -/
def mathBegan (s : State) (n : Nat) : Nat :=
  let rs := ((List.range 4).map fun q => match queue s n q with
    | some x => x.running.map fun r => r.start
    | none => []).flatten
  rs.foldl min s.now

/-- The bough-nanoseconds in which a partition's boughs have worked on a record (Table 12-3): every active bough works while a MATH
record is in progress. Log entry 89 (DESIGN CHOICE). -/
def boughNsNow (s : State) (n : Nat) : Nat :=
  let c := tgetD n PartCtr.zero s.obs.parts
  (c.boughNs + (activeBoughs s n).length * (s.now - max (mathBegan s n) c.boughAt)) % 2 ^ 64

/-- The work of a partition's boughs counted up to now. -/
def countBoughNs (n : Nat) (s : State) : State :=
  let x := boughNsNow s n
  modPartCtr n (fun c => { c with boughNs := x, boughAt := s.now }) s

/-! ### Completion (R242, R247, R248) -/

/-- REMOTE_DONE: what a REMOTE_OP or a COPY with a grove end delivered (13 R406). The BYTES_DONE of a REMOTE_OP is open.
Log entry 77 (DEDUCED). -/
def remoteDone (n q : Nat) (r : Running) (word : Nat) (s : State) : State :=
  let b := r.bytes
  let isOp := u8At b 0 == 0x22
  if q / 4 ≠ 1 ∨ r.skipped = true ∨ !(isOp || (u8At b 0 == 0x20 && (u8At b 36 == 2 || u8At b 37 == 2))) then s
  else
    let d := if isSuccess (word % 0x10000) then (r.tail.map (·.2)).flatten else []
    let kind := if d = [] then 0 else if isOp && decide (d.length ≤ 64) then 1 else 2
    let op := if isOp then u8At b 16 else if u8At b 36 = 2 then 0x20 else 0x21
    let f := drawNat s
    let bytesDone := if isOp then f.1 else u32At r.result 0
    journal 0x06 36 (leBytes 1 n ++ leBytes 1 q ++ leBytes 1 op ++ leBytes 1 kind ++ leBytes 4 r.num
      ++ leBytes 4 word ++ leBytes 4 bytesDone ++ leBytes 8 (if kind = 2 then fnv1a d else 0) ++ zeros 8
      ++ (if kind = 1 then fit 64 d else [])) (if isOp then f.2 else s)

/-- The status word of a record (R184, Table 8-4). Log entry 142 (DEDUCED). -/
def recordWord (r : Running) : Nat :=
  r.status + (if r.remote then bit 16 r.synth + r.responder % 1024 * 2 ^ 20 else 0)

/-- A completion entry (Table 8-4). -/
def completionEntry (x : Queue) (r : Running) (word now : Nat) (skipped : Bool) : Bytes :=
  slice r.bytes 0 2 ++ leBytes 1 (bit 0 skipped + bit 7 (decide (r.num / x.entries % 2 = 0))) ++ [0]
    ++ leBytes 4 word ++ slice r.bytes 8 4 ++ leBytes 4 r.num ++ leBytes 8 r.start ++ leBytes 8 now
    ++ fit 16 r.result ++ zeros 16

/-- Raises a queue's MSI-X vector of VF n. -/
def queueIrq (n : Nat) (x : Queue) (s : State) : State :=
  if x.vector = 0xFFFF then s else emit (.msix (.vf (finOf 128 n)) x.vector) s

/-- The journal's CHECKPOINT when HEAD reaches TAIL, at least 1 ms after the queue's previous one (13 R407). -/
def checkpoint (n q : Nat) (force : Bool) (s : State) : State :=
  match queue s n q with
  | none => s
  | some x =>
    if force || (decide (x.head = x.tail) && decide (x.checkpointAt + 1000000 ≤ s.now)) then
      let g := (vget s.mm.gens (finOf 128 n)).toNat
      let s := modQueue n q (fun x => { x with checkpointAt := s.now }) s
      journal 0x01 35 (leBytes 1 n ++ leBytes 1 g ++ leBytes 1 q ++ [0] ++ leBytes 4 x.head.toNat ++ zeros 8) s
    else s

/-- HEAD as far as queue order allows: the first record in progress, or the next to start. -/
def headOf (x : Queue) : BitVec 32 :=
  match x.running with
  | r :: _ => BitVec.ofNat 32 r.num
  | [] => x.started

/-- The completion of a record, in the order of R248. Log entries 77 (DEDUCED), 82 (DEDUCED). -/
def completeRecord (n q : Nat) (r : Running) (word : Nat) (s : State) : State :=
  match queue s n q with
  | none => s
  | some x =>
    let s := countBoughNs n s
    let e := completionEntry x r word s.now r.skipped
    let a := cplAddr x (BitVec.ofNat 32 r.num)
    let s := if x.host then emit (.hostWrite n a e) s else (takeMarks (writeRange (localWho s n) false n a e s).2).2
    let s := modQueue n q (fun x =>
      let x := { x with running := x.running.filter fun y => y.num ≠ r.num,
                        recent := ((r.num, word, r.skipped) :: x.recent).take 32 }
      { x with head := headOf x }) s
    let s := if recFlag r.bytes 0 then queueIrq n x s else s
    let s := traceRec (queueUnit s n q) 0x03 (q + 16 * n + bit 11 r.skipped)
      (word % 0x10000 + 0x10000 * (r.num % 0x10000)) s
    let s := modPartCtr n (fun c =>
      { c with math := c.math + (if q / 4 = 0 then 1 else 0), other := c.other + (if q / 4 = 0 then 0 else 1),
               failed := c.failed + (if isSuccess (word % 0x10000) then 0 else 1) }) s
    let s := if q / 4 = 0 ∧ r.skipped = false then boughRecordEnd n q r.num r s else s
    checkpoint n q false (remoteDone n q r word s)

/-- RECORD_SKIP: a CHAIN record after a failed or skipped predecessor does nothing and completes as skipped (R247).
Log entries 77 (DEDUCED), 79 (DEDUCED). -/
def recordSkip (t : Nat) (n : Fin 128) (q : Fin 16) (host : Bytes) (s : State) : State :=
  let s := s.at t
  match queue s n q with
  | none => s
  | some x =>
    if x.started = x.tail ∨ x.faulted = true ∨ x.held = true then s
    else
      let f := fetchRec n x host s
      match chainSkips x f.2.1 with
      | some word =>
        if f.1 = stOk ∧ startMet s n q x f.2.1 = true then
          let s := takeRecord n q x f.2.1 f.2.2
          completeRecord n q { Running.fresh x.started.toNat s.now f.2.1 with skipped := true } word s
        else s
      | none => s

/-- RECORD_SKIP. -/
def execRecordSkip (t : Nat) (n : Fin 128) (q : Fin 16) (host : List (BitVec 8)) (s : State) : Outcome :=
  .next (recordSkip t n q host s)

/-- A doorbell write (R243): accepted in range, stamped and journalled, or rejected. -/
def doorbell (n : Fin 128) (q : Fin 16) (v : BitVec 32) (s : State) : State :=
  match queue s n q with
  | none => s
  | some x =>
    if v = x.tail then s
    else if 0 < numDist x.tail v ∧ numDist x.head v ≤ x.entries then
      let s := modQueue n q (fun x => { x with tail := v }) s
      journal 0x03 34 (leBytes 1 n ++ leBytes 1 q ++ leBytes 2 0 ++ leBytes 4 v.toNat ++ zeros 8) s
    else modQueue n q (fun x => { x with dbReject := true }) s

end Sys2Proof.Machine
end

