-- ==== Sys2Proof/Machine/Txn.lean ====
section
/-! DEFINITION. Remote transactions (chapter 06): operations, routes, issue, completion, the chunks of a bulk copy,
read-ahead, and the events of the transaction engine. -/

namespace Sys2Proof.Machine

/-! ### Operations (R171, Table 6-2, R181) -/

/-- The fields of a grove address (R171). -/
def addrChip (a : Nat) : Nat := a / 2 ^ 54 % 1024
def addrPart (a : Nat) : Nat := a / 2 ^ 47 % 128
def addrOff (a : Nat) : Nat := a % 2 ^ 47

/-- A grove address. -/
def groveAddr (chip n off : Nat) : Nat := chip * 2 ^ 54 + n * 2 ^ 47 + off

/-- The atomics of Table 6-2. -/
def isAtomic (op : Nat) : Bool := decide (0x10 ≤ op ∧ op ≤ 0x1B)

/-- The operations of Table 6-2. -/
def txnOpOk (op : Nat) : Bool := op == 1 || op == 2 || isAtomic op || op == 0x20 || op == 0x21

/-- The size and alignment rules of Table 6-2. -/
def txnSizeOk (op addr len : Nat) : Bool :=
  if op = 0x1B then len == 16 && addr % 16 == 0
  else if op = 0x19 then len == 4 && addr % 4 == 0
  else if isAtomic op then (len == 4 || len == 8) && addr % len == 0
  else decide (1 ≤ len ∧ addr % 4096 + len ≤ 4096)

/-- Data bytes of a request. -/
def reqDataLen (op len : Nat) : Nat :=
  if op = 0x1A ∨ op = 0x1B then 2 * len else if op = 1 ∨ op = 0x20 then 0 else len

/-- Data bytes of a response with OK. -/
def rspDataLen (op len : Nat) : Nat := if op = 2 ∨ op = 0x21 then 0 else len

/-- The VC of bulk data: VC6 when the copy is marked low priority. -/
def bulkVc (flags : Nat) : Nat := if flags.testBit 1 then 6 else 3

/-- The VC of a request. -/
def reqVc (op flags : Nat) : Nat := if op = 0x21 then bulkVc flags else 0

/-- A response of a request may travel on a VC. -/
def rspOnVc (op flags v : Nat) : Bool := v == 1 || (op == 0x20 && v == bulkVc flags)

/-- The rights a request needs, as the bits of WINDOW_EXPORT (R189 step 4). -/
def needRights (op flags : Nat) : Nat :=
  (if isAtomic op then 4 else if op = 2 ∨ op = 0x21 then 2 else 1) + (if flags.testBit 0 then 8 else 0)

/-- Every bit of `need` is in `have`. -/
def rightsCover (rights need : Nat) : Bool := rights &&& need == need

/-- What an atomic writes, from the old bytes and its operand bytes; none where it writes nothing (R181). -/
def atomicNew (op len : Nat) (operand old : Bytes) : Option Bytes :=
  let a := ofLe old
  let b := ofLe (operand.take len)
  let w := 8 * len
  let pick (c : Bool) : Nat := if c then a else b
  if op = 0x10 then some (leBytes len (a + b))
  else if op = 0x11 then some (leBytes len (a &&& b))
  else if op = 0x12 then some (leBytes len (a ||| b))
  else if op = 0x13 then some (leBytes len (a ^^^ b))
  else if op = 0x14 then some (leBytes len b)
  else if op = 0x15 then some (leBytes len (pick (decide (signedOf w a ≤ signedOf w b))))
  else if op = 0x16 then some (leBytes len (pick (decide (signedOf w b ≤ signedOf w a))))
  else if op = 0x17 then some (leBytes len (min a b))
  else if op = 0x18 then some (leBytes len (max a b))
  else if op = 0x19 then some (leBytes len (f32Add a b))
  else if old = operand.take len then some (slice operand len len)
  else none

/-! ### Messages (Table 6-1) -/

/-- A message header. -/
structure TxnHdr where
  op : Nat
  flags : Nat
  tag : Nat
  srcChip : Nat
  srcPart : Nat
  srcGen : Nat
  addr : Nat
  length : Nat
  tgtGen : Nat
  hops : Nat
  status : Nat
  responder : Nat
  chunk : Nat
  deriving DecidableEq, Repr

/-- The 32 bytes of a header. -/
def TxnHdr.bytes (h : TxnHdr) : Bytes :=
  leBytes 1 h.op ++ leBytes 1 h.flags ++ leBytes 2 h.tag ++ leBytes 2 h.srcChip ++ leBytes 1 h.srcPart
    ++ leBytes 1 h.srcGen ++ leBytes 8 h.addr ++ leBytes 4 h.length ++ leBytes 1 h.tgtGen ++ leBytes 1 h.hops
    ++ leBytes 2 h.status ++ leBytes 2 h.responder ++ leBytes 2 0 ++ leBytes 4 h.chunk

/-- The header of a message. -/
def TxnHdr.of (b : Bytes) : TxnHdr :=
  { op := u8At b 0, flags := u8At b 1, tag := u16At b 2, srcChip := u16At b 4 % 1024, srcPart := u8At b 6,
    srcGen := u8At b 7, addr := u64At b 8, length := u32At b 16, tgtGen := u8At b 20, hops := u8At b 21,
    status := u16At b 22, responder := u16At b 24, chunk := u32At b 28 }

/-- A DATA message whose OP is a transaction's request or response. -/
def isTxnMsg (m : InMsg) : Bool := m.typ == 1 && txnOpOk (u8At m.bytes 0 % 128)

/-- A response carries bit 7. -/
def isResponse (m : InMsg) : Bool := (u8At m.bytes 0).testBit 7

/-- This chip's number, when it has one. -/
def ownChip (s : State) : Nat := s.txn.chip.getD 0xFFFF

/-- The state with the transaction engine changed. -/
def modTxn (f : TxnState → TxnState) (s : State) : State := { s with txn := f s.txn }

/-- The remote timeout T, in ns (R195). -/
def remoteT (s : State) : Nat := s.cfg.remoteTimeoutUs * 1000

/-! ### Routes (R168, R199) -/

/-- A port carries transactions: LINKED, its security session established. A port in LOW or RESUME keeps its session: its
traffic waits while the port wakes (04 R126). Log entry 48 (DEDUCED). -/
def portUsable (s : State) (p : Fin 8) : Bool :=
  let x := port s p
  (x.phys.st == 8 && x.link.st == .up) || ((x.phys.st == 9 || x.phys.st == 10) && x.link.st == .low)

/-- A member of a bundle is active: usable, to the bundle's recorded peer. -/
def memberActive (s : State) (b : Fin 4) (p : Fin 8) : Bool :=
  (vget s.txn.bundles b).testBit p.val && portUsable s p
    && (match vget s.txn.bundlePeer b with
        | some c => (port s p).link.peer == some c
        | none => true)

/-- The ports a path code leads to, ascending. -/
def pathPorts (s : State) (code : Nat) : List (Fin 8) :=
  if code < 8 then (fins 8).filter fun p => p.val == code && portUsable s p
  else if code < 12 then (fins 8).filter fun p => memberActive s (finOf 4 (code - 8)) p
  else []

/-- The route entry that applies to a chip: (PRIMARY, ALTERNATE). -/
def routeOf (s : State) (chip : Nat) : Option (Nat × Nat) :=
  (s.txn.routes.find? fun e => decide (e.toNat % 1024 ≤ chip ∧ chip ≤ e.toNat / 1024 % 1024)).map
    fun e => (e.toNat / 2 ^ 20 % 16, e.toNat / 2 ^ 24 % 16)

/-- The path code in use for a chip. -/
def pathCode (s : State) (chip : Nat) : Option Nat :=
  match routeOf s chip with
  | none => none
  | some (a, b) =>
    if pathPorts s a ≠ [] then some a else if pathPorts s b ≠ [] then some b else none

/-- A path code with its active set, as the hold-back of R187 compares it. -/
def pathKey (s : State) (code : Nat) : Nat :=
  code + 16 * (if code < 8 then 0 else ((pathPorts s code).map fun p => 2 ^ p.val).foldl (· + ·) 0)

/-- The member port of a path for a selector (ADDR bits 46:12, or SEG for collectives). -/
def pathPort (s : State) (code sel : Nat) : Option (Fin 8) :=
  let ps := pathPorts s code
  ps[sel % ps.length]?

/-- The selector of an address. -/
def addrSel (a : Nat) : Nat := addrOff a / 4096

/-- The port a message for a chip leaves by. -/
def routePort (s : State) (chip sel : Nat) : Option (Fin 8) := (pathCode s chip).bind fun c => pathPort s c sel

/-! ### Sending -/

/-- A message of this chip for a chip: to its own inbox, or onto a port; none where there is no route. -/
def sendTo (chip sel vc prt : Nat) (tag : Option Nat) (b : Bytes) (s : State) : Option State :=
  if s.txn.chip = some chip then
    some (modTxn (fun x => { x with inbox := x.inbox ++ [{ port := none, vc := vc, typ := 1, bytes := b, at_ := s.now }] }) s)
  else (routePort s chip sel).map fun p => queueMsg p (finOf 8 vc) 1 prt tag b s

/-- A message counted as dropped after waiting, or for want of a route or of a chip ID. -/
def dropHeld (s : State) : State := modTxn (fun x => { x with holdDropped := sat32 (x.holdDropped + 1) }) s

/-- A response on its way to SRC_CHIP; dropped where no route exists (R193). -/
def sendResponse (h : TxnHdr) (vc : Nat) (data : Bytes) (s : State) : State :=
  match sendTo h.srcChip (addrSel h.addr) vc h.srcPart none (h.bytes ++ data) s with
  | some s => s
  | none => dropHeld s

/-- The response to a request (R177). -/
def responseTo (h : TxnHdr) (status len own : Nat) : TxnHdr :=
  { h with op := h.op + 0x80, length := len, hops := 0, status := status, responder := own }

/-- A synthetic completion counted by its cause (Table 6-4). -/
def countSynth (status : Nat) (s : State) : State :=
  let i : Option (Fin 7) :=
    if status = stBadArg then some 0 else if status = stAccessDenied then some 1
    else if status = stPeerReset then some 2 else if status = stNoRoute then some 3
    else if status = stLinkDown then some 4 else if status = stVcWedged then some 5
    else if status = stTimeout then some 6 else none
  match i with
  | some i => modTxn (fun x => { x with synth := vmod x.synth i fun n => sat32 (n + 1) }) s
  | none => s

/-- A completion that a forwarding chip generates, sent to SRC_CHIP on VC1 (R193). -/
def forwardCompletion (h : TxnHdr) (status : Nat) (s : State) : State :=
  let s := countSynth status s
  sendResponse (responseTo { h with op := h.op % 128 } status 0 (ownChip s)) 1 [] s

/-! ### What a completion does for its record -/

/-- The status word of R184. Log entry 142 (DEDUCED). -/
def statusWord (status : Nat) (synth : Bool) (responder : Nat) : Nat := status + bit 16 synth + responder % 1024 * 2 ^ 20

/-- A record ends with a transaction status word. -/
def endRemote (n q num word : Nat) (result : Bytes) (s : State) : State :=
  modRunning n q num (fun r => { r with done := true, status := word % 2 ^ 16, synth := word.testBit 16,
                                        responder := word / 2 ^ 20, remote := true, result := result })
    (noteMirrors n q num s)

/-- A local operand of a MOVE record by its space code 0 or 1. -/
def moveLoc (space a : Nat) : Loc := if space = 1 then .scratch a else .part a

/-- Chunk `k` of a copy of `len` bytes at the remote address: its offset in the copy and its length (R185). -/
def copyChunk (remote len k : Nat) : Nat × Nat :=
  let first := min len (4096 - remote % 4096)
  if k = 0 then (0, first)
  else
    let off := first + (k - 1) * 4096
    (off, min 4096 (len - off))

/-- The chunks of a copy. -/
def copyChunks (remote len : Nat) : Nat :=
  let first := min len (4096 - remote % 4096)
  1 + (len - first + 4095) / 4096

/-- Fields of a COPY record (Table 8-13). -/
def copySrc (b : Bytes) : Nat := rec64 b 16
def copyDst (b : Bytes) : Nat := rec64 b 24
def copyLen (b : Bytes) : Nat := u32At b 32
def copyPull (b : Bytes) : Bool := u8At b 36 == 2
def copyRemote (b : Bytes) : Nat := if copyPull b then copySrc b else copyDst b
def copyLocal (b : Bytes) : Loc := if copyPull b then moveLoc (u8At b 37) (copyDst b) else moveLoc (u8At b 36) (copySrc b)

/-- A record is a COPY with one grove end. -/
def isBulk (b : Bytes) : Bool := u8At b 0 == 0x20 && (u8At b 36 == 2 || u8At b 37 == 2)

/-- The status of a read that found poison or a failing tag (07 R226). -/
def isPoisonStatus (st : Nat) : Bool := st == stPoisoned || st == stIntegrityFail

/-- A copy pull whose failing chunk was a poisoned read: the destination lines not written are poisoned (07 R226).
Log entry 149 (DEDUCED). -/
def poisonPull (n : Nat) (b : Bytes) (r : Running) (word : Nat) (s : State) : State :=
  if copyPull b && isPoisonStatus (word % 2 ^ 16) then
    poisonRest n (copyLocal b) (copyLen b) (r.tail.map fun e => copyChunk (copyRemote b) (copyLen b) e.1) s
  else s

/-- A bulk copy ends when nothing of it is outstanding and nothing more is to be issued (R186). -/
def finishBulk (n q num : Nat) (s : State) : State :=
  match running s n q num with
  | some r =>
    let b := r.bytes
    if r.done || r.txnsLeft != 0 then s
    else
      match r.chunkFail with
      | some (_, word, off) => endRemote n q num word (leBytes 8 off) (poisonPull n b r word s)
      | none =>
        if r.chunkNext < copyChunks (copyRemote b) (copyLen b) then s
        else
          match r.localFail with
          | some st => endRecord n q num st (leBytes 8 (copyLen b)) s
          | none => endRemote n q num (statusWord stOk false (addrChip (copyRemote b))) (leBytes 8 (copyLen b)) s
  | none => s

/-- A chunk failed: the lowest index decides (R186). Log entry 84 (DEDUCED). -/
def chunkFailed (k word off : Nat) (r : Running) : Running :=
  match r.chunkFail with
  | some (k', _, _) => if k < k' then { r with chunkFail := some (k, word, off) } else r
  | none => { r with chunkFail := some (k, word, off) }

/-- No further chunk of a failed copy is issued: those that wait are forgotten (R186). -/
def cancelChunks (n q num : Nat) (s : State) : State :=
  let mine (t : Txn) : Bool := match t.use with
    | .chunk a b c _ => a == n && b == q && c == num
    | _ => false
  let k := (s.txn.waiting.filter mine).length
  modRunning n q num (fun r => { r with txnsLeft := r.txnsLeft - k })
    (modTxn (fun x => { x with waiting := x.waiting.filter fun t => !mine t }) s)

/-- A chunk ended: `data` are the bytes it moved. -/
def chunkDone (n q num k word : Nat) (data : Bytes) (s : State) : State :=
  match running s n q num with
  | some r =>
    let b := r.bytes
    let c := copyChunk (copyRemote b) (copyLen b) k
    let s := modRunning n q num (fun r => { r with txnsLeft := r.txnsLeft - 1 }) s
    if isSuccess (word % 2 ^ 16) then
      let s := modRunning n q num (fun r => { r with tail := tset k data r.tail }) s
      let w := if copyPull b then writeLoc n ((copyLocal b).plus c.1) data s else (stOk, s)
      let s := if w.1 = stOk then w.2
        else modRunning n q num (fun r => { r with localFail := some (r.localFail.getD w.1) }) w.2
      finishBulk n q num (noteMirrors n q num s)
    else finishBulk n q num (cancelChunks n q num (modRunning n q num (chunkFailed k word c.1) s))
  | none => s

/-- The bytes a REMOTE_OP writes locally, and where: the data of a LOAD, the old value of an atomic (Table 8-15). -/
def remoteOpDst (b : Bytes) : Loc × Nat :=
  let op := u8At b 16
  (moveLoc (u8At b 17) (if op = 1 then rec64 b 32 else rec64 b 40), rspDataLen op (u32At b 20))

/-- The transaction of a REMOTE_OP record ended (Table 8-15, R474); after a poisoned read its destination is poisoned (07 R226).
Log entry 149 (DEDUCED). -/
def remoteOpDone (n q num word : Nat) (data : Bytes) (s : State) : State :=
  match running s n q num with
  | some r =>
    let b := r.bytes
    let op := u8At b 16
    let d := remoteOpDst b
    if isPoisonStatus (word % 2 ^ 16) && op != 2 then endRemote n q num word [] (poisonLoc n d.1 d.2 s)
    else if isSuccess (word % 2 ^ 16) && op != 2 then
      let s := modRunning n q num (fun r => { r with tail := [(0, data)] }) s
      let w := writeLoc n d.1 data s
      if w.1 = stOk then endRemote n q num word [] w.2 else endRecord n q num w.1 [] w.2
    else endRemote n q num word [] s
  | none => s

/-- A read of a lent tail ended: its bytes are kept for the record, or the record keeps the first failure (07 R237). -/
def tailDone (n q num k word : Nat) (data : Bytes) (s : State) : State :=
  modRunning n q num (fun r =>
    let r := { r with txnsLeft := r.txnsLeft - 1 }
    if isSuccess (word % 2 ^ 16) then { r with tail := tset k data r.tail } else chunkFailed k word 0 r) s

/-- A read-ahead load was issued: a PREFETCH record ends when all of its loads are (R260). Log entry 87 (DEDUCED). -/
def raIssued (o : RaOwner) (s : State) : State :=
  match o with
  | .queue key num =>
    let n := key / 16
    let q := key % 16
    match running s n q num with
    | some r =>
      if u8At r.bytes 0 = 0x23 then
        let s := modRunning n q num (fun r => { r with txnsLeft := r.txnsLeft - 1 }) s
        if r.txnsLeft ≤ 1 then endRecord n q num stOk [] s else s
      else s
    | none => s
  | _ => s

/-- The bytes of the read-ahead area. -/
def raAreaBytes : Nat := 0x4000000

/-- A read-ahead entry kept; the oldest entries are evicted when the area is full (R198). Log entry 87 (DEDUCED). -/
def raTrim (room : Nat) : List ReadAhead → List ReadAhead
  | [] => []
  | e :: es => if e.data.length ≤ room then e :: raTrim (room - e.data.length) es else []

/-- The import slot that a transaction was issued through is still there: not removed, nor its number taken again (R175). -/
def throughSlot (s : State) (t : Txn) : Bool :=
  match tget t.slot s.txn.imports with
  | some i => i.inst == t.inst
  | none => false

/-- A transaction whose completion is to be discarded: its use names a queue that no partition has. -/
def Txn.discarded (t : Txn) : Txn := { t with use := .record t.part 4096 0 }

/-- A completion reaches what its transaction belongs to (R184, R198). -/
def settle (t : Txn) (word : Nat) (data : Bytes) (s : State) : State :=
  match t.use with
  | .record n q num => remoteOpDone n q num word data s
  | .chunk n q num k => chunkDone n q num k word (if t.op = 0x21 then t.data else data) s
  | .tail n q num k => tailDone n q num k word data s
  | .readAhead o =>
    if word % 2 ^ 17 = 0 then
      let e : ReadAhead := { owner := o, part := t.part, gen := t.gen, slot := t.slot, inst := t.inst, addr := t.addr, data := data,
                             at_ := s.now }
      if throughSlot s t then modTxn (fun x => { x with readAhead := raTrim raAreaBytes (e :: x.readAhead) }) s else s
    else s

/-! ### Issue (R180, R187, R191, R193, R196, R198, R201) -/

/-- The import slot that governs an address: the lowest-numbered one of the partition that covers it (R174).
Log entry 80 (DEDUCED). -/
def governing (s : State) (n addr : Nat) : Option (Nat × Import) :=
  s.txn.imports.find? fun e =>
    let base := groveAddr e.2.chip e.2.remote e.2.offset
    e.2.part == n && decide (base ≤ addr ∧ addr < base + e.2.length)

/-- The whole range lies in the slot, and the slot grants the rights. Log entry 80 (DEDUCED). -/
def slotGrants (i : Import) (addr len need : Nat) : Bool :=
  decide (addr + len ≤ groveAddr i.chip i.remote i.offset + i.length) && rightsCover i.rights need

/-- The transaction completes at issue (R193). Log entry 80 (DEDUCED). -/
def atIssue (t : Txn) (status : Nat) (s : State) : State :=
  settle t (statusWord status true (ownChip s)) [] (countSynth status s)

/-- A demand LOAD, or a chunk of a copy with the READ_AHEAD hint, may be satisfied from the read-ahead area.
Log entry 87 (DEDUCED). -/
def wantsArea (t : Txn) : Bool := !t.flags.testBit 0 && (t.op == 1 || (t.op == 0x20 && t.flags.testBit 7))

/-- The entry of the read-ahead area that satisfies a load (R198). Log entry 87 (DEDUCED). -/
def areaHit (s : State) (t : Txn) (slot : Nat) : Option ReadAhead :=
  s.txn.readAhead.find? fun e =>
    e.part == t.part && e.gen == t.gen && e.slot == slot && e.inst == t.inst
      && decide (e.addr ≤ t.addr ∧ t.addr + t.length ≤ e.addr + e.data.length)
      && decide (s.now ≤ e.at_ + 100000)

/-- The next free tag from a starting point (R196). Log entry 85 (DEDUCED). -/
def freeTag (x : TxnState) : Nat → Nat → Option Nat
  | _, 0 => none
  | tag, n + 1 => if thas tag x.txns || thas tag x.quarantine then freeTag x ((tag + 1) % 65536) n else some tag

/-- Outstanding read-ahead loads. -/
def raOut (s : State) : Nat := (s.txn.txns.filter fun t => t.2.flags.testBit 0).length

/-- The path a transaction to a chip takes now, if R187 lets it be issued: the path in use, or the entry's other usable
path while transactions are outstanding along it. Log entry 86 (DEDUCED). -/
def issuePath (s : State) (chip : Nat) : Option (Option Nat) :=
  match routeOf s chip, pathCode s chip with
  | some (a, b), some c =>
    let old := (s.txn.txns.filter fun t => addrChip t.2.addr == chip && t.2.port.isSome).map fun t => t.2.path
    if old.all (· == pathKey s c) then some (some c)
    else
      match [a, b].find? fun d => pathPorts s d ≠ [] ∧ old.all (· == pathKey s d) = true with
      | some d => some (some d)
      | none => some none
  | _, _ => none

/-- A transaction leaves with a tag: onto its port, or to this chip's own inbox (R201). Log entry 86 (DEDUCED). -/
def launch (t : Txn) (tag : Nat) (p : Option (Fin 8)) (s : State) : State :=
  let h : TxnHdr := { op := t.op, flags := t.flags % 4, tag := tag, srcChip := ownChip s, srcPart := t.part,
                      srcGen := t.gen.toNat, addr := t.addr, length := t.length, tgtGen := t.tgtGen.toNat, hops := 0,
                      status := 0, responder := 0, chunk := t.chunk }
  let ra := t.flags.testBit 0
  let s := modTxn (fun x => { x with txns := tset tag { t with port := p } x.txns, nextTag := (tag + 1) % 65536,
                                     issued := x.issued + 1,
                                     prefetchIssued := if ra then sat32 (x.prefetchIssued + 1) else x.prefetchIssued }) s
  let b := h.bytes ++ t.data
  let s := match p with
    | some p =>
      let s := modPartCtr t.part (fun c => { c with remoteOut := c.remoteOut + b.length }) s
      queueMsg p (finOf 8 t.vc) 1 t.part (some tag) b s
    | none => modTxn (fun x =>
        { x with inbox := x.inbox ++ [{ port := none, vc := t.vc, typ := 1, bytes := b, at_ := s.now }] }) s
  match t.use with
  | .readAhead o => raIssued o s
  | _ => s

/-- Issue of a transaction: the state that has issued or completed it, or none while it must wait.
Log entry 80 (DEDUCED). -/
def tryIssue (t : Txn) (s : State) : Option State :=
  let t := { t with gen := vget s.mm.gens (finOf 128 t.part), vc := reqVc t.op t.flags }
  let fail (st : Nat) (s : State) : Option State :=
    let s := match t.use with
      | .readAhead o => raIssued o s
      | _ => s
    some (atIssue t st s)
  if !txnSizeOk t.op t.addr t.length then fail stBadArg s
  else
    match s.txn.chip with
    | none => fail stNoRoute s
    | some own =>
      match governing s t.part t.addr with
      | none => fail stAccessDenied s
      | some (k, i) =>
        let dst := addrChip t.addr
        let t := { t with slot := k, inst := i.inst, tgtGen := i.gen }
        if !slotGrants i t.addr t.length (needRights t.op t.flags) then fail stAccessDenied s
        else if i.stale then fail stPeerReset s
        else if s.txn.peerDown.contains dst then fail stLinkDown s
        else
          match if wantsArea t then areaHit s t k else none with
          | some e =>
            let s := modTxn (fun x => { x with prefetchUsed := sat32 (x.prefetchUsed + 1) }) s
            some (settle t (statusWord stOk false dst) (slice e.data (t.addr - e.addr) t.length) s)
          | none =>
            let tag := if 16384 ≤ s.txn.txns.length || (t.flags.testBit 0 && decide (4096 ≤ raOut s)) then none
              else freeTag s.txn s.txn.nextTag 65536
            if dst = own then tag.map fun g => launch t g none s
            else
              match issuePath s dst with
              | none => fail stNoRoute s
              | some none => none
              | some (some c) =>
                match tag, pathPort s c (addrSel t.addr) with
                | some g, some p => some (launch { t with path := pathKey s c } g (some p) s)
                | _, _ => none

/-- A transaction of a source: issued, or waiting behind earlier ones to its chip (R187, R196). -/
def issueTxn (t : Txn) (s : State) : State :=
  let wait (s : State) : State := modTxn (fun x => { x with waiting := x.waiting ++ [t] }) s
  if s.txn.waiting.any fun w => addrChip w.addr == addrChip t.addr && w.flags.testBit 0 == t.flags.testBit 0 then wait s
  else
    match tryIssue t s with
    | some s => s
    | none => wait s

/-- A transaction before its issue. -/
def Txn.make (op flags n addr len chunk : Nat) (data : Bytes) (use : TxnUse) : Txn :=
  { op := op, flags := flags, part := n, gen := 0, slot := 0, inst := 0, addr := addr, length := len, tgtGen := 0, chunk := chunk,
    data := data, use := use, port := none, path := 0, vc := 0, sentAt := none }

/-- The first waiting transaction that can be issued now, none of its kind to its chip waiting before it.
Log entry 86 (DEDUCED). -/
def pumpWaiting (s : State) : List Txn → List Txn → Option State
  | _, [] => none
  | before, t :: rest =>
    let blocked := before.any fun w => addrChip w.addr == addrChip t.addr && w.flags.testBit 0 == t.flags.testBit 0
    match if blocked then none else tryIssue t (modTxn (fun x => { x with waiting := before ++ rest }) s) with
    | some s => some s
    | none => pumpWaiting s (before ++ [t]) rest

/-- The next chunk of a bulk copy issued (R185, R186); with the hint, read-ahead runs one window ahead of it.
Log entry 84 (DEDUCED). -/
def issueChunk (n q num : Nat) (r : Running) (s : State) : State :=
  let b := r.bytes
  let k := r.chunkNext
  let addr := copyRemote b
  let c := copyChunk addr (copyLen b) k
  let hint := copyPull b && (u16At b 38).testBit 0
  let s := modRunning n q num (fun r => { r with chunkNext := k + 1, txnsLeft := r.txnsLeft + 1 }) s
  let ahead := copyChunk addr (copyLen b) (k + 256)
  let s := if hint && decide (k + 256 < copyChunks addr (copyLen b)) then
      issueTxn (Txn.make 1 1 n (addr + ahead.1) ahead.2 0 [] (.readAhead (.queue (qKey n q) num))) s
    else s
  let low := bit 1 (recFlag b 6)
  if copyPull b then
    issueTxn (Txn.make 0x20 (low + bit 7 hint) n (addr + c.1) c.2 k [] (.chunk n q num k)) s
  else
    let d := readLoc n ((copyLocal b).plus c.1) c.2 s
    if d.1 = stOk then issueTxn (Txn.make 0x21 low n (addr + c.1) c.2 k d.2.1 (.chunk n q num k)) d.2.2
    else chunkDone n q num k (statusWord d.1 true (ownChip s)) [] d.2.2

/-- The bulk copy whose next chunk may be issued. Log entry 84 (DEDUCED). -/
def nextBulk (s : State) : Option (Nat × Nat × Running) :=
  s.crn.queues.findSome? fun e =>
    if planeRuns s && !e.2.held then
      (e.2.running.find? fun r => isBulk r.bytes && !r.done && r.chunkFail.isNone && decide (r.txnsLeft < 256)
        && decide (r.chunkNext < copyChunks (copyRemote r.bytes) (copyLen r.bytes)) && r.chunkNext != 0).map
        fun r => (e.1 / 16, e.1 % 16, r)
    else none

/-- Waiting transactions and further chunks issued while any can be. Log entry 86 (DEDUCED). -/
def pumpLoop : Nat → State → State
  | 0, s => s
  | fuel + 1, s =>
    match pumpWaiting s [] s.txn.waiting with
    | some s => pumpLoop fuel s
    | none =>
      match nextBulk s with
      | some (n, q, r) => pumpLoop fuel (issueChunk n q r.num r s)
      | none => s

/-- Issue resumes where something completed. -/
def pump (s : State) : State := pumpLoop 1048576 s

/-! ### Completion (R190 to R196) -/

/-- A transaction leaves the table; its tag is quarantined after a synthetic completion (R196).
Log entry 85 (DEDUCED). -/
def retire (tag : Nat) (synth : Bool) (s : State) : State :=
  modTxn (fun x => { x with txns := tdel tag x.txns,
                            quarantine := if synth then tset tag s.now x.quarantine else x.quarantine }) s

/-- An outstanding transaction completes synthetically, generated by this chip.
Log entries 84 (DEDUCED), 85 (DEDUCED). -/
def synthesise (status tag : Nat) (s : State) : State :=
  match tget tag s.txn.txns with
  | some t => settle t (statusWord status true (ownChip s)) [] (countSynth status (retire tag true s))
  | none => s

/-- Every outstanding transaction that `p` selects completes synthetically. -/
def synthesiseAll (status : Nat) (p : Txn → Bool) (s : State) : State :=
  ((s.txn.txns.filter fun e => p e.2).map (·.1)).foldl (fun s tag => synthesise status tag s) s

/-- An import slot becomes STALE: what is outstanding through it completes with PEER_RESET (R191). -/
def staleSlot (k : Nat) (s : State) : State :=
  let s := modTxn (fun x => { x with imports := tmod k (fun i => { i with stale := true }) x.imports }) s
  synthesiseAll stPeerReset (fun t => t.slot == k && throughSlot s t) s

/-- Read-ahead of an owner cancelled: entries and waiting loads discarded, the data of outstanding loads too (R198). -/
def dropReadAhead (p : RaOwner → Bool) (s : State) : State :=
  modTxn (fun x => { x with readAhead := x.readAhead.filter fun e => !p e.owner,
                            txns := x.txns.map fun e => (e.1, match e.2.use with
                              | .readAhead o => if p o then e.2.discarded else e.2
                              | _ => e.2),
                            waiting := x.waiting.filter fun t =>
                              match t.use with
                              | .readAhead o => !p o
                              | _ => true }) s

/-- The transactions of a partition end without completions: outstanding, waiting and read-ahead (R192). -/
def endTxnsOf (n : Nat) (s : State) : State :=
  modTxn (fun x => { x with
    quarantine := (x.txns.filter fun e => e.2.part == n).foldl (fun q e => tset e.1 s.now q) x.quarantine
    txns := x.txns.filter fun e => e.2.part != n
    waiting := x.waiting.filter fun t => t.part != n
    readAhead := x.readAhead.filter fun e => e.part != n }) s

/-- Exports and imports of a partition end with its generation or with the partition (R173, R174). -/
def endWindowsOf (n : Nat) (s : State) : State :=
  modTxn (fun x => { x with exports := x.exports.filter fun e => e.2.part != n
                            imports := x.imports.filter fun e => e.2.part != n }) s

/-- What a link down completes: transactions sent on the port, and forwarded requests whose completion has not passed
back within T (R158 step 5, R193). -/
def linkDownTxns (p : Fin 8) (s : State) : State :=
  let s := synthesiseAll stLinkDown (fun t => t.port == some p) s
  let gone := s.txn.fwd.filter fun f => f.port == p && decide (s.now ≤ f.at_ + remoteT s)
  let s := modTxn (fun x => { x with fwd := x.fwd.filter fun f => f.port != p }) s
  gone.foldl (fun s f => forwardCompletion (TxnHdr.of f.header) stLinkDown s) s

/-- The partner reported VC `v` of a port wedged (R155). -/
def partnerWedgedTxns (p v : Fin 8) (s : State) : State :=
  synthesiseAll stVcWedged (fun t => t.port == some p && t.vc == v.val) s

/-- VC `v` of a port wedged at this chip's receiver (R155). -/
def ownWedgedTxns (p v : Fin 8) (s : State) : State :=
  synthesiseAll stVcWedged (fun t => t.port == some p && rspOnVc t.op t.flags v.val) s

/-- A response fits its transaction (R190). -/
def responseFits (s : State) (h : TxnHdr) (data : Bytes) (t : Txn) : Bool :=
  let target := h.responder == addrChip t.addr
  let stale := match tget t.slot s.txn.imports with
    | some i => i.stale && i.inst == t.inst
    | none => false
  h.srcPart == t.part && h.srcGen == t.gen.toNat && h.addr == t.addr && !(stale && target && !data.isEmpty)
    && data.length == h.length && h.length == (if h.status = stOk then rspDataLen t.op t.length else 0)

/-- A response arrives at SRC_CHIP: accepted or discarded (R190, R191). -/
def acceptResponse (m : InMsg) (s : State) : State :=
  let h := TxnHdr.of m.bytes
  let data := m.bytes.drop 32
  let late (s : State) : State := modTxn (fun x => { x with lateDropped := sat32 (x.lateDropped + 1) }) s
  match tget h.tag s.txn.txns with
  | none => late s
  | some t =>
    if !responseFits s h data t then late s
    else
      let s := if m.port.isSome then
          modPartCtr t.part (fun c => { c with remoteIn := c.remoteIn + m.bytes.length }) s
        else s
      if h.responder = addrChip t.addr then
        if h.status = stPeerReset ∧ throughSlot s t = true then staleSlot t.slot s
        else settle t (statusWord h.status false h.responder) data (retire h.tag false s)
      else settle t (statusWord h.status true h.responder) data (retire h.tag true s)

/-! ### The target (R182, R183, R189, R197) -/

/-- An export grants a request: it covers every byte, names the requester, and has the rights. -/
def exportGrants (h : TxnHdr) (e : Export) : Bool :=
  let o := addrOff h.addr
  decide (e.offset ≤ o ∧ o + h.length ≤ e.offset + e.length)
    && (e.impChip == 0xFFFF || e.impChip == h.srcChip) && (e.impPart == 0xFF || e.impPart == h.srcPart)
    && rightsCover e.rights (needRights h.op h.flags)

/-- The lines of a request may be touched: allocated, with keys, and not fenced where it writes. -/
def linesServed (s : State) (h : TxnHdr) : Bool :=
  let n := addrPart h.addr
  let o := addrOff h.addr
  let writes := isAtomic h.op || h.op == 2 || h.op == 0x21
  (lineCuts o h.length).all fun c => if writes then lineWritable s false n c.1 else (lineState s n c.1).isSome

/-- The memory access of a served request: status and response data. -/
def serveAccess (h : TxnHdr) (data : Bytes) (s : State) : Nat × Bytes × State :=
  let who := (h.srcChip, h.srcPart)
  let n := addrPart h.addr
  let o := addrOff h.addr
  if h.op = 2 ∨ h.op = 0x21 then
    let w := writeRange who false n o data s
    (w.1, [], w.2)
  else
    let r := readRange who n o h.length s
    if r.1 ≠ stOk then (r.1, [], r.2.2)
    else if isAtomic h.op then
      match atomicNew h.op h.length data r.2.1 with
      | some v => let w := writeRange who false n o v r.2.2; (stOk, r.2.1, w.2)
      | none => (stOk, r.2.1, r.2.2)
    else (stOk, r.2.1, r.2.2)

/-- The VC of a response. -/
def rspVc (h : TxnHdr) (data : Bytes) : Nat := if h.op = 0x20 ∧ data ≠ [] then bulkVc h.flags else 1

/-- A response becomes ready: sent, or held until the synchronous mirror has answered (11 R339). -/
def answerRequest (h : TxnHdr) (status : Nat) (data : Bytes) (marks : List MirrorMark) (s : State) : State :=
  let rh := responseTo h status data.length (ownChip s)
  if mirrorsDone s marks then sendResponse rh (rspVc h data) data s
  else
    modTxn (fun x => { x with held := x.held ++ [{ bytes := rh.bytes ++ data, acceptedAt := s.now, denial := false,
                                                   mirrors := marks, part := addrPart h.addr }] }) s

/-- The checks of R189 in order, and the service. A denial is held for the uniform delay (R197). -/
def serveRequest (m : InMsg) (s : State) : State :=
  let h := TxnHdr.of m.bytes
  let data := m.bytes.drop 32
  let n := addrPart h.addr
  let deny (s : State) : State :=
    let rh := responseTo h stAccessDenied 0 (ownChip s)
    modTxn (fun x => { x with denied := sat32 (x.denied + 1)
                              held := x.held ++ [{ bytes := rh.bytes, acceptedAt := m.at_, denial := true, mirrors := [],
                                                   part := n }] }) s
  if !txnSizeOk h.op h.addr h.length || data.length != reqDataLen h.op h.length || m.vc != reqVc h.op h.flags then
    dropHeld s
  else if (part s n).isNone then deny s
  else if (vget s.mm.gens (finOf 128 n)).toNat ≠ h.tgtGen then answerRequest h stPeerReset [] [] s
  else if !(s.txn.exports.any fun e => e.2.part == n && exportGrants h e.2) || !linesServed s h then deny s
  else
    let r := serveAccess h data s
    let m := takeMarks (modTxn (fun x => { x with served := x.served + 1 }) r.2.2)
    answerRequest h r.1 r.2.1 m.1 m.2

/-- Responses whose mirrors have answered are sent, in order (11 R339). -/
def releaseHeld (s : State) : State :=
  let ready := s.txn.held.filter fun h => !h.denial && mirrorsDone s h.mirrors
  let s := modTxn (fun x => { x with held := x.held.filter fun h => h.denial || !mirrorsDone s h.mirrors }) s
  ready.foldl (fun s h =>
    let rh := TxnHdr.of h.bytes
    let data := h.bytes.drop 32
    sendResponse rh (if rh.op = 0xA0 ∧ data ≠ [] then bulkVc rh.flags else 1) data s) s

/-! ### Taking messages -/

/-- The first message of the inbox that `p` selects, and the state without it. -/
def takeMsg (p : InMsg → Bool) (s : State) : Option (InMsg × State) :=
  match s.txn.inbox.find? p with
  | some m => some (m, modTxn (fun x => { x with inbox := x.inbox.erase m }) s)
  | none => none

/-- The destination chip of a DATA message that is routed: ADDR of a request, SRC_CHIP of a response, DST_CHIP of a
collective message (R200, 09 R280). -/
def msgDest (m : InMsg) : Option Nat :=
  if isTxnMsg m then some (if isResponse m then u16At m.bytes 4 % 1024 else addrChip (u64At m.bytes 8))
  else if m.typ = 1 ∧ 0x40 ≤ u8At m.bytes 0 ∧ u8At m.bytes 0 ≤ 0x42 then some (u16At m.bytes 8 % 1024)
  else none

/-- The selector of a routed DATA message within a bundle. -/
def msgSel (m : InMsg) : Nat := if isTxnMsg m then addrSel (u64At m.bytes 8) else u32At m.bytes 28

/-- Where HOPS lies in a routed DATA message. -/
def hopsAt (m : InMsg) : Nat := if isTxnMsg m then 21 else 3

/-- A message at this chip that names another one. -/
def isTransit (s : State) (m : InMsg) : Bool :=
  m.port.isSome && s.txn.chip.isSome &&
    (match msgDest m with
     | some c => s.txn.chip != some c
     | none => false)

/-- A message's output VC is stalled or wedged: it stays where it is (05 R152). -/
def transitBlocked (s : State) (m : InMsg) : Bool :=
  match msgDest m with
  | some c =>
    match routePort s c (msgSel m) with
    | some p =>
      let v := vget (port s p).link.tx (finOf 8 m.vc)
      v.stalled || v.wedged
    | none => false
  | none => false

/-- REMOTE_REQUEST: the first request for this chip is checked and served; without a chip ID it is discarded.
Log entry 84 (DEDUCED). -/
def remoteRequest (t : Nat) (s : State) : State :=
  let s := s.at t
  if cutStopped s then s
  else
    match takeMsg (fun m => isTxnMsg m && !isResponse m && !isTransit s m) s with
    | some (m, s') => if s.txn.chip.isNone then dropHeld s' else awaitLag s (pump (serveRequest m s'))
    | none => s

/-- DENIAL_READY: the first denial whose delay of 1.00 µs has passed is ready to send; it was ready at 1.05 µs at the latest, and
waits for VC1 since then (R197). -/
def denialReady (t : Nat) (s : State) : State :=
  let s := s.at t
  match s.txn.held.find? fun h => h.denial && decide (h.acceptedAt + 1000 ≤ s.now) with
  | some h =>
    let ready := min s.now (h.acceptedAt + 1050)
    let s' := sendResponse (TxnHdr.of h.bytes) 1 [] (modTxn (fun x => { x with held := x.held.erase h }) { s with now := ready })
    { s' with now := s.now }
  | none => s

/-- REMOTE_RESPONSE: the first response for this chip is accepted or discarded. -/
def remoteResponse (t : Nat) (s : State) : State :=
  let s := s.at t
  if cutStopped s then s
  else
    match takeMsg (fun m => isTxnMsg m && isResponse m && !isTransit s m) s with
    | some (m, s') => if s.txn.chip.isNone then dropHeld s' else awaitLag s (pump (acceptResponse m s'))
    | none => s

/-- REMOTE_TIMEOUT: T has run since the first flit of the request was composed (R195); a taken cut suspends it.
Log entry 85 (DEDUCED). -/
def remoteTimeout (t tag : Nat) (s : State) : State :=
  let s := s.at t
  match tget tag s.txn.txns with
  | some x =>
    match x.sentAt with
    | some t0 => if t0 + remoteT s ≤ s.now ∧ cutStopped s = false then pump (synthesise stTimeout tag s) else s
    | none => s
  | none => s

/-- TAG_QUARANTINE_EXPIRE: after 32 × T a tag may be used again (R196). Log entry 85 (DEDUCED). -/
def tagQuarantineExpire (t tag : Nat) (s : State) : State :=
  let s := s.at t
  match tget tag s.txn.quarantine with
  | some t0 =>
    if t0 + 32 * remoteT s ≤ s.now then pump (modTxn (fun x => { x with quarantine := tdel tag x.quarantine }) s) else s
  | none => s

/-- READ_AHEAD_EXPIRE: entries older than 100 µs are discarded (R198). Log entry 87 (DEDUCED). -/
def readAheadExpire (t : Nat) (s : State) : State :=
  let s := s.at t
  modTxn (fun x => { x with readAhead := x.readAhead.filter fun e => s.now ≤ e.at_ + 100000 }) s

/-! ### Forwarding (R200, 11 R322) -/

/-- The completion of a forwarded request passed back: the request is no longer followed. -/
def forgetForwarded (h : TxnHdr) (s : State) : State :=
  modTxn (fun x => { x with fwd := x.fwd.filter fun f =>
    let g := TxnHdr.of f.header
    !(g.tag == h.tag && g.srcChip == h.srcChip && g.addr == h.addr && g.chunk == h.chunk) }) s

/-- A routed DATA message sent on towards its chip, on the same VC, with HOPS increased. -/
def forwardData (m : InMsg) (dest : Nat) (s : State) : State :=
  let hops := u8At m.bytes (hopsAt m)
  let txn := isTxnMsg m
  let h := TxnHdr.of m.bytes
  let fail (s : State) : State := if txn && !isResponse m then forwardCompletion h stNoRoute s else s
  if 15 ≤ hops then fail s
  else
    match routePort s dest (msgSel m) with
    | none => if txn && isResponse m then dropHeld s else fail s
    | some p =>
      let b := patch m.bytes (hopsAt m) (leBytes 1 (hops + 1))
      let s := queueMsg p (finOf 8 m.vc) 1 (if txn then h.srcPart else u8At m.bytes 6) none b s
      let s := modTxn (fun x => { x with forwarded := x.forwarded + 1 }) s
      if !txn then s
      else if isResponse m then forgetForwarded h s
      else modTxn (fun x => { x with fwd := x.fwd ++ [{ port := p, at_ := s.now, header := m.bytes.take 32 }] }) s

/-- A control message of the grove or the twin: its msg code and the fields of its prefix (11 R322). -/
def ctrlCode (m : InMsg) : Nat := u8At m.bytes 0
def ctrlDst (m : InMsg) : Nat := u16At m.bytes 1 % 1024
def ctrlSrc (m : InMsg) : Nat := u16At m.bytes 3 % 1024
def ctrlHops (m : InMsg) : Nat := u8At m.bytes 5
def ctrlPath (m : InMsg) : Nat := u8At m.bytes 6

/-- The port a ROUTED or AVOID_GRAFT message for a chip leaves by. -/
def ctrlRoute (s : State) (path chip : Nat) : Option (Fin 8) :=
  match routeOf s chip with
  | none => none
  | some (a, b) =>
    if path = 3 then
      let c := if a = 7 then b else a
      if c ≠ 7 ∧ pathPorts s c ≠ [] then pathPort s c 0
      else if b ≠ 7 then pathPort s b 0 else none
    else routePort s chip 0

/-- A grove message discarded and counted (11 R322). Log entry 92 (DEDUCED). -/
def dropGrove (s : State) : State := { s with grv := { s.grv with fwdDropped := sat32 (s.grv.fwdDropped + 1) } }

/-- A grove message this chip must discard: an undefined code. Log entries 54 (DEDUCED), 92 (DEDUCED). -/
def isBadGrove (m : InMsg) : Bool := m.typ == 2 && decide (0x9C ≤ ctrlCode m)

/-- A grove message on its way to another chip. -/
def isGroveTransit (s : State) (m : InMsg) : Bool :=
  m.typ == 2 && decide (0x80 ≤ ctrlCode m ∧ ctrlCode m ≤ 0x9B) && (ctrlPath m == 0 || ctrlPath m == 3)
    && s.txn.chip != some (ctrlDst m)

/-- A grove message forwarded on VC4 with HOPS increased, or discarded. -/
def forwardGrove (m : InMsg) (s : State) : State :=
  if 15 ≤ ctrlHops m then dropGrove s
  else
    match ctrlRoute s (ctrlPath m) (ctrlDst m) with
    | some p => queueMsg p 4 2 0 none (patch m.bytes 5 (leBytes 1 (ctrlHops m + 1))) s
    | none => dropGrove s

/-- MESSAGE_FORWARD: the first message for another chip whose output VC is open. -/
def messageForward (t : Nat) (s : State) : State :=
  let s := s.at t
  match takeMsg (fun m => isBadGrove m || isGroveTransit s m
      || (!cutStopped s && isTransit s m && !transitBlocked s m)) s with
  | some (m, s) =>
    if isBadGrove m then dropGrove s
    else if m.typ = 2 then forwardGrove m s
    else
      match msgDest m with
      | some c => forwardData m c s
      | none => s
  | none => s

/-! ### The rows -/

/-- `REMOTE_REQUEST`: 06 R189; also R1, R177, R181, R182, R183, R187, R201, R214, R215, R219, R220, R225. -/
def execRemoteRequest (t : Nat) (s : State) : Outcome := .next (remoteRequest t s)
/-- `DENIAL_READY`: 06 R197. -/
def execDenialReady (t : Nat) (s : State) : Outcome := .next (denialReady t s)
/-- `REMOTE_RESPONSE`: 06 R190; also R11, R184, R186, R187, R188, R191, R192, R196, R198, R237, R245. -/
def execRemoteResponse (t : Nat) (s : State) : Outcome := .next (remoteResponse t s)
/-- `MESSAGE_FORWARD`: 06 R200; also R11, R152, R193, R199, R322. -/
def execMessageForward (t : Nat) (s : State) : Outcome := .next (messageForward t s)
/-- `REMOTE_TIMEOUT`: 06 R195; also R11, R186, R193, R194. Log entry 2 (DESIGN CHOICE). -/
def execRemoteTimeout (t : Nat) (tag : Nat) (s : State) : Outcome := .next (remoteTimeout t tag s)
/-- `TAG_QUARANTINE_EXPIRE`: 06 R196. -/
def execTagQuarantineExpire (t : Nat) (tag : Nat) (s : State) : Outcome := .next (tagQuarantineExpire t tag s)
/-- `READ_AHEAD_EXPIRE`: 06 R198. -/
def execReadAheadExpire (t : Nat) (s : State) : Outcome := .next (readAheadExpire t s)

end Sys2Proof.Machine
end

