-- ==== Sys2Proof/Machine/MathOps.lean ====
section
/-! DEFINITION. The records of MATH queues (08 Tables 8-7 to 8-12, R255, R256, R262 to R268, R475), but for SAMPLE. An
operand byte that could not be read is absent; an output that depends on it is poisoned (07 R226). -/

namespace Sys2Proof.Machine

/-- Bytes of which some may be absent. -/
abbrev OBytes := List (Option (BitVec 8))

/-- Every byte, if all are present. -/
def allPresent (b : OBytes) : Option Bytes := b.foldr (fun x acc =>
  match x, acc with
  | some v, some t => some (v :: t)
  | _, _ => none) (some [])

/-- An unsigned little-endian field, if all of its bytes are present. -/
def oField (b : OBytes) (off len : Nat) : Option Nat := (allPresent ((b.drop off).take len)).map ofLe

/-- An operand read line by line: its bytes, the statuses of its failing lines. -/
def readOpt (n : Nat) (l : Loc) : List (Nat × Nat) → State → OBytes × List Nat × State
  | [], s => ([], [], s)
  | (off, len) :: ps, s =>
    let r := readLoc n (l.plus off) len s
    let rest := readOpt n l ps r.2.2
    if r.1 = stOk then (r.2.1.map some ++ rest.1, rest.2.1, rest.2.2)
    else (List.replicate len none ++ rest.1, r.1 :: rest.2.1, rest.2.2)

/-- An operand of `len` bytes at a location. Log entry 81 (DEDUCED). -/
def readOperand (n : Nat) (l : Loc) (len : Nat) (s : State) : OBytes × List Nat × State :=
  readOpt n l (linePieces l len) s

/-- A destination written line by line. After a failing read (`failed`) a line that was computed had been written or
not, as the free number says, and every other line is poisoned. The status is that of the first line not merged.
Log entry 81 (DEDUCED). -/
def writeOpt (n : Nat) (l : Loc) (failed : Bool) (choice : Nat) (out : OBytes) : List (Nat × Nat) → State → Nat × State
  | [], s => (stOk, s)
  | (off, len) :: ps, s =>
    let r : Nat × State := match allPresent ((out.drop off).take len) with
      | some d => if !failed || choice.testBit (off / 64) then writeLoc n (l.plus off) d s
        else (stOk, poisonLoc n (l.plus off) len s)
      | none => (stOk, poisonLoc n (l.plus off) len s)
    let rest := writeOpt n l failed choice out ps r.2
    (firstFail r.1 rest.1, rest.2)

/-- An output written to its destination. Log entry 81 (DEDUCED). -/
def writeOutput (n : Nat) (l : Loc) (failed : Bool) (choice : Nat) (out : OBytes) (s : State) : Nat × State :=
  writeOpt n l failed choice out (linePieces l out.length) s

/-- The status word of a record some of whose reads failed: that of one of them, which one is open (07 R226).
Log entry 81 (DEDUCED). -/
def oneOf (fails : List Nat) (choice : Nat) : Nat := fails.getD (choice % fails.length) stOk

/-- A MATH record ends: with one of its failing reads, else with a destination line not merged (R474), else with `ok`; its
result counts are open after a failing read. -/
def endMath (n q num : Nat) (fails : List Nat) (choice wr ok : Nat) (result : Bytes) (s : State) : State :=
  if fails = [] then
    if wr = stOk then endRecord n q num ok result s
    else modRunning n q num (fun r => { r with remote := false }) (endRecord n q num wr result s)
  else
    let f := drawBytes result.length s
    let w := oneOf fails choice
    modRunning n q num (fun r => { r with synth := w.testBit 16, responder := w / 2 ^ 20 })
      (endRecord n q num (w % 2 ^ 16) f.1 f.2)

/-! ### Tensors (R263) -/

/-- A list in groups of `k`. -/
def groupsOf {α : Type} (k : Nat) : Nat → List α → List (List α)
  | 0, _ => []
  | fuel + 1, l => if l.isEmpty then [] else l.take k :: groupsOf k fuel (l.drop k)

/-- Elements that share bytes. -/
def groupElems (f : Nat) : Nat := if f = 5 then 4 else if fmtBits f = 4 then 2 else 1

/-- The element data bytes of rows of `len` elements. -/
def tensorData (f rows len : Nat) : Nat := rows * rowBytes f len

/-- Where the scales of an MX tensor begin. -/
def scaleBase (f rows len : Nat) : Nat := alignUp (tensorData f rows len) 64

/-- The bytes of a tensor, its MX scales included. -/
def tensorBytes (f rows len : Nat) : Nat :=
  if isMx f then scaleBase f rows len + rows * (len / 32) else tensorData f rows len

/-- Element `i` of row `r`. -/
def tensorElem (f rows len : Nat) (b : OBytes) (r i : Nat) : Option Num :=
  let g := groupElems f
  let gb := rowBytes f g
  let rb := rowBytes f len
  let code := (allPresent ((b.drop (r * rb + i / g * gb)).take gb)).map fun x => unpackAt f x (i % g)
  if isMx f then
    match code, oField b (scaleBase f rows len + r * (len / 32) + i / 32) 1 with
    | some c, some e => some (mxScale e (elemDec f c))
    | _, _ => none
  else code.map (elemDec f)

/-- An element as an FP32 code, widened exactly; a NaN keeps its sign. -/
def numToF32 : Num → Nat
  | .nan neg => fmtF32.nanCode neg
  | y => f32Enc y

/-- Element codes packed, absent where a byte's element is. -/
def packOpt (f : Nat) (cs : List (Option Nat)) : OBytes :=
  ((groupsOf (groupElems f) cs.length cs).map fun g =>
    if g.all (·.isSome) then (packRow f (g.map fun c => c.getD 0)).map some
    else List.replicate (rowBytes f g.length) none).flatten

/-- An output element: its code, whether it counts as saturated, whether it is a NaN. -/
structure OutElem where
  code : Nat
  sat : Bool
  nan : Bool
  deriving DecidableEq, Repr

/-- A value as an output element of a format that is not MX. -/
def outElem (f : Nat) (x : Num) : OutElem :=
  let r := elemEnc f x
  { code := r.1, sat := r.2, nan := match x with
      | .nan _ => decide (f ≤ 4)
      | _ => false }

/-- An FP32 code as an output element. -/
def outF32 (f c : Nat) : OutElem := outElem f (f32Dec c)

/-- SATURATED and NANS of Table 8-7. Log entry 81 (DEDUCED). -/
def resultCounts (es : List (Option OutElem)) : Bytes :=
  leBytes 4 (es.filter fun e => match e with
    | some x => x.sat
    | none => false).length
  ++ leBytes 4 (es.filter fun e => match e with
    | some x => x.nan
    | none => false).length

/-- The output bytes of rows of elements of a format that is not MX. -/
def packOut (f : Nat) (es : List (Option OutElem)) : OBytes := packOpt f (es.map fun e => e.map fun x => x.code)

/-- All of a list, if every element is present. -/
def allSome {α : Type} : List (Option α) → Option (List α)
  | [] => some []
  | x :: xs =>
    match x, allSome xs with
    | some v, some t => some (v :: t)
    | _, _ => none

/-- A destination overlaps a source otherwise than exactly (the overlap rule of VEC). -/
def partialOverlap (d : Loc) (dl : Nat) (s : Loc) (sl : Nat) (sameWidth : Bool) : Bool :=
  locOverlap d dl s sl && !(d == s && dl == sl && sameWidth)

/-- A tagged address that may be used as an operand; location 0 where it may not. -/
def locAt (v : Nat) : Loc := (taggedLoc v).getD (.part 0)

/-! ### MATMUL (R255, R264) -/

/-- The fields of MATMUL. -/
structure Matmul where
  a : Nat
  b : Nat
  c : Nat
  n : Nat
  k : Nat
  m : Nat
  fa : Nat
  fb : Nat
  fc : Nat
  accum : Bool
  tensorB : Bool
  tensor : Nat
  alpha : Nat
  deriving DecidableEq, Repr

/-- The fields of a MATMUL record. -/
def Matmul.of (b : Bytes) : Matmul :=
  { a := rec64 b 16, b := rec64 b 24, c := rec64 b 32, n := u32At b 40, k := u32At b 44, m := u16At b 48,
    fa := u8At b 50 % 16, fb := u8At b 50 / 16, fc := u8At b 51 % 16, accum := (u8At b 51).testBit 4,
    tensorB := (u8At b 51).testBit 5, tensor := u16At b 52, alpha := u32At b 56 }

/-- The families of operand formats. -/
def isIntFmt (f : Nat) : Bool := f == 8 || f == 9

/-- The placement B is read from with TENSOR_B, if the plan in force has it. -/
def planTensor (s : State) (n i : Nat) : Option Placement := (part s n).bind fun pt => pt.plan.bind fun p => p.tensors[i]?

/-- The bytes of operands and result. -/
def Matmul.aBytes (x : Matmul) : Nat := tensorBytes x.fa x.m x.k
def Matmul.bBytes (x : Matmul) : Nat := tensorBytes x.fb x.n x.k
def Matmul.cBytes (x : Matmul) : Nat := tensorBytes x.fc x.m x.n

/-- MATMUL's fields are in range, its formats permitted, C apart from A and B (R255, R263). -/
def matmulRanges (s : State) (n : Nat) (b : Bytes) : Bool :=
  let x := Matmul.of b
  let coll := recFlag b 4
  let int := isIntFmt x.fa
  decide (1 ≤ x.n ∧ x.n ≤ 1048576) && decide (1 ≤ x.k ∧ x.k ≤ if int then 65536 else 1048576)
    && decide (1 ≤ x.m)
    && (if int then isIntFmt x.fb && (x.fc == 10 || x.fc == 8)
        else decide (x.fa ≤ 7 ∧ x.fb ≤ 7 ∧ x.fc ≤ 4))
    && (!(isMx x.fa || isMx x.fb) || x.k % 32 == 0)
    && !(x.accum && coll) && !(x.fc == 10 && x.alpha != 0x3F800000)
    && (taggedLoc x.a).isSome && (taggedLoc x.b).isSome && (taggedLoc x.c).isSome
    && !locOverlap (locAt x.c) x.cBytes (locAt x.a) x.aBytes
    && (if x.tensorB then
          x.b == 0 && (match planTensor s n x.tensor with
            | some p => decide (x.bBytes ≤ p.size)
                && !locOverlap (locAt x.c) x.cBytes (.part p.offset) (min x.bBytes (p.size - p.lent))
            | none => false)
        else x.tensor == 0 && !locOverlap (locAt x.c) x.cBytes (locAt x.b) x.bBytes)

/-- MATMUL's reserved bits and bytes; SUFFIX's KIND and REDOP with COLL (R261). -/
def matmulReserved (b : Bytes) : Bool :=
  decide (u8At b 51 < 64) && zeroAt b 54 2 && zeroAt b 60 4

/-- The local part of B. -/
def matmulB (s : State) (n : Nat) (x : Matmul) : Loc × Nat :=
  if x.tensorB then
    match planTensor s n x.tensor with
    | some p => (.part p.offset, min x.bBytes (p.size - p.lent))
    | none => (.part 0, 0)
  else (locAt x.b, x.bBytes)

/-- MATMUL's local operands lie in allocated granules or the scratch space. -/
def matmulOperands (s : State) (n : Nat) (b : Bytes) : Bool :=
  let x := Matmul.of b
  locOk s n (locAt x.a) x.aBytes && locOk s n (locAt x.c) x.cBytes && locOk s n (matmulB s n x).1 (matmulB s n x).2

/-- The reads of the lent tail that a MATMUL needs: (grove address, length), cut at pages (07 R237).
Log entry 81 (DEDUCED). -/
def tailReads (s : State) (n : Nat) (x : Matmul) : List (Nat × Nat) :=
  match if x.tensorB then planTensor s n x.tensor else none with
  | some p =>
    let need := x.bBytes - (p.size - p.lent)
    if need = 0 then []
    else (List.range (copyChunks p.lentAddr need)).map fun k =>
      let c := copyChunk p.lentAddr need k
      (p.lentAddr + c.1, c.2)
  | none => []

/-- The exact sum of the products of a group of values of k. -/
def groupSum : List (Option (Num × Num)) → Option Num
  | [] => some (.fin false 0 0)
  | [p] => p.map fun v => v.1.mul v.2
  | p :: ps =>
    match p, groupSum ps with
    | some v, some t => some ((v.1.mul v.2).add t)
    | _, _ => none

/-- The FP32 accumulation of the groups in ascending k. -/
def dotFloat (ea eb : Nat → Option Num) (k : Nat) : Option Nat :=
  (groupsOf 32 k (List.range k)).foldl (fun acc g =>
    match acc, groupSum (g.map fun i =>
        match ea i, eb i with
        | some x, some y => some (x, y)
        | _, _ => none) with
    | some c, some t => some (f32Add c (f32Enc t))
    | _, _ => none) (some 0)

/-- An integer element's value. -/
def numInt : Num → Int
  | .fin neg m e => (if neg then -1 else 1) * ((m * 2 ^ e.toNat : Nat) : Int)
  | _ => 0

/-- The exact sum of integer products. -/
def dotInt (ea eb : Nat → Option Num) (k : Nat) : Option Int :=
  (List.range k).foldl (fun acc i =>
    match acc, ea i, eb i with
    | some t, some x, some y => some (t + numInt x * numInt y)
    | _, _, _ => none) (some 0)

/-- An output element of MATMUL from its row of A and row of B and the old element of C (R264). -/
def matmulElem (x : Matmul) (ea eb : Nat → Option Num) (old : Option Num) : Option OutElem :=
  if isIntFmt x.fa then
    match dotInt ea eb x.k, if x.accum then old else some (.fin false 0 0) with
    | some t, some c =>
      if x.fc = 10 then some { code := unsignedOf 32 (t + numInt c), sat := false, nan := false }
      else
        let v := f32Mul x.alpha (f32OfInt t)
        some (outF32 x.fc (if x.accum then f32Add v (numToF32 c) else v))
    | _, _ => none
  else
    match dotFloat ea eb x.k, if x.accum then old else some (.fin false 0 0) with
    | some t, some c =>
      let v := f32Mul x.alpha t
      some (outF32 x.fc (if x.accum then f32Add v (numToF32 c) else v))
    | _, _ => none

/-- B's bytes: the local part, then the tail as its reads brought it (absent where one failed). -/
def tailBytes (s : State) (n : Nat) (x : Matmul) (r : Running) : OBytes :=
  ((tailReads s n x).zipIdx.map fun t =>
    match tget t.2 r.tail with
    | some d => d.map some
    | none => List.replicate t.1.2 none).flatten

/-- The output of a MATMUL: its elements row by row, the statuses of its failing reads; with a lent tail, as status words (06 R184). -/
def matmulOutput (n : Nat) (r : Running) (s : State) : List (Option OutElem) × List Nat × State :=
  let x := Matmul.of r.bytes
  let a := readOperand n (locAt x.a) x.aBytes s
  let bl := matmulB s n x
  let b := readOperand n bl.1 bl.2 a.2.2
  let c := if x.accum then readOperand n (locAt x.c) x.cBytes b.2.2 else ([], [], b.2.2)
  let bb := b.1 ++ tailBytes s n x r
  let word := match r.chunkFail with
    | some (_, w, _) => [w]
    | none => []
  let es := ((List.range x.m).map fun i => (List.range x.n).map fun j =>
    matmulElem x (tensorElem x.fa x.m x.k a.1 i) (tensorElem x.fb x.n x.k bb j)
      (if x.accum then tensorElem x.fc x.m x.n c.1 i j else none)).flatten
  let here := (a.2.1 ++ b.2.1 ++ c.2.1).map fun st => if r.remote then statusWord st true (ownChip s) else st
  (es, here ++ word, c.2.2)

/-- A MATMUL without a suffix computes C and ends. -/
def matmulFinish (n q num : Nat) (s : State) : State :=
  match running s n q num with
  | some r =>
    let x := Matmul.of r.bytes
    let o := matmulOutput n r s
    let f := drawNat o.2.2
    let out := ((groupsOf x.n (x.m * x.n) o.1).map (packOut x.fc)).flatten
    let w := writeOutput n (locAt x.c) (!o.2.1.isEmpty) f.1 out f.2
    endMath n q num o.2.1 f.1 w.1 stOk (resultCounts o.1) w.2
  | none => s

/-- The tail that a plan's schedule reads after a tensor's: that of the next tensor in table order with one, round to the first.
Log entry 150 (DESIGN CHOICE). -/
def nextTail (s : State) (n k : Nat) : Option Placement :=
  ((part s n).bind (·.plan)).bind fun p =>
    (p.tensors.drop (k + 1) ++ p.tensors.take k).find? fun x => decide (0 < x.lent)

/-- The read-ahead of a plan into its import slot: the next tail, one PREFETCH LOAD a page (07 R237, 06 R198).
Log entry 150 (DESIGN CHOICE). -/
def readTailAhead (n k : Nat) (s : State) : State :=
  match nextTail s n k with
  | some p => (List.range (copyChunks p.lentAddr p.lent)).foldl (fun s i =>
      let c := copyChunk p.lentAddr p.lent i
      issueTxn (Txn.make 1 1 n (p.lentAddr + c.1) c.2 0 [] (.readAhead (.plan n))) s) s
  | none => s

/-- A MATMUL's tail reads are issued, one LOAD a page, and the plan's next tail is read ahead; a page already read ahead comes from the
read-ahead area. Log entry 150 (DESIGN CHOICE). -/
def matmulTail (n q num : Nat) (x : Matmul) (s : State) : State :=
  let ts := tailReads s n x
  let s := modRunning n q num (fun r => { r with txnsLeft := ts.length, remote := true,
                                                 responder := addrChip (ts.headD (0, 0)).1 }) s
  let s := ts.zipIdx.foldl (fun s t => issueTxn (Txn.make 1 0 n t.1.1 t.1.2 0 [] (.tail n q num t.2)) s) s
  pump (readTailAhead n x.tensor s)

/-! ### VEC (R266) -/

/-- The fields of VEC. -/
structure Vec where
  op : Nat
  fs : Nat
  fd : Nat
  row : Nat
  s1 : Nat
  s2 : Nat
  d : Nat
  count : Nat
  s : Nat
  deriving DecidableEq, Repr

/-- The fields of a VEC record. -/
def Vec.of (b : Bytes) : Vec :=
  { op := u8At b 16, fs := u8At b 17 % 16, fd := u8At b 17 / 16, row := u32At b 20, s1 := rec64 b 24, s2 := rec64 b 32,
    d := rec64 b 40, count := rec64 b 48, s := u32At b 56 }

/-- A row operation of Table 8-9. -/
def Vec.isRow (x : Vec) : Bool := decide (9 ≤ x.op)

/-- The operation uses S2. -/
def Vec.usesS2 (x : Vec) : Bool := decide (x.op ≤ 5) || x.op == 10 || x.op == 12

/-- The bytes of an element of a VEC format. -/
def fmtBytes (f : Nat) : Nat := fmtBits f / 8

/-- The bytes of the sources and the destination; the table of GATHER_ROWS is judged by the rows that are read. -/
def Vec.s1Bytes (x : Vec) : Nat :=
  (if x.op = 9 then 2 * x.count else if x.op = 12 then 0 else x.count) * fmtBytes x.fs
def Vec.s2Bytes (x : Vec) : Nat :=
  if x.op = 12 then x.count / x.row * 4 else if x.op = 10 then x.row * fmtBytes x.fs
  else if x.op ≤ 5 then x.count * fmtBytes x.fs else 0
def Vec.dBytes (x : Vec) : Nat := x.count * fmtBytes x.fd

/-- VEC's fields are in range and its overlaps permitted. -/
def vecRanges (b : Bytes) : Bool :=
  let x := Vec.of b
  let same := fmtBytes x.fs == fmtBytes x.fd && x.op != 9
  decide (x.op ≤ 12) && decide (x.fs ≤ 4 ∧ x.fd ≤ 4) && (x.isRow == decide (0 < x.row))
    && decide (1 ≤ x.count ∧ x.count ≤ 2 ^ 32) && (x.row == 0 || x.count % x.row == 0)
    && (taggedLoc x.s1).isSome && (taggedLoc x.d).isSome
    && (if x.usesS2 then (taggedLoc x.s2).isSome else x.s2 == 0)
    && !partialOverlap (locAt x.d) x.dBytes (locAt x.s1) x.s1Bytes same
    && !partialOverlap (locAt x.d) x.dBytes (locAt x.s2) x.s2Bytes same

/-- VEC's local operands. -/
def vecOperands (s : State) (n : Nat) (b : Bytes) : Bool :=
  let x := Vec.of b
  locOk s n (locAt x.s1) x.s1Bytes && locOk s n (locAt x.s2) x.s2Bytes && locOk s n (locAt x.d) x.dBytes

/-- An element of an operand as FP32. -/
def vecIn (f : Nat) (b : OBytes) (i : Nat) : Option Nat :=
  (oField b (i * fmtBytes f) (fmtBytes f)).map (elemToF32 f)

/-- GELU(x) (R266). -/
def f32Gelu (c : Nat) : Nat :=
  match f32Dec c with
  | .inf true => 0x80000000
  | .inf false => 0x7F800000
  | _ => f32Mul c (f32Phi c)

/-- A sum from +0 in ascending index, each addition rounded. -/
def f32Sum (l : List Nat) : Nat := l.foldl f32Add 0

/-- A maximum that starts at the first element. -/
def f32MaxOf : List Nat → Nat
  | [] => f32Nan
  | x :: xs => xs.foldl f32Max x

/-- An elementwise operation of Table 8-9. -/
def vecElem (op s a b : Nat) : Nat :=
  if op = 0 then f32Add a b
  else if op = 1 then f32Sub a b
  else if op = 2 then f32Mul a b
  else if op = 3 then f32Max a b
  else if op = 4 then f32Min a b
  else if op = 5 then f32Fma s a b
  else if op = 6 then f32Mul s a
  else if op = 7 then f32Exp a
  else f32Gelu a

/-- RMSNORM of a row (R266). -/
def vecRmsnorm (s : Nat) (row w : List Nat) : List Nat :=
  let m := f32Sum (row.map fun x => f32Mul x x)
  let m := f32Enc ((f32Dec m).div (.fin false row.length 0))
  let q := f32Rsqrt (f32Add m s)
  List.zipWith (fun x g => f32Mul (f32Mul x q) g) row w

/-- SOFTMAX of a row (R266). -/
def vecSoftmax (s : Nat) (row : List Nat) : List Nat :=
  let y := row.map (f32Mul s)
  let mu := f32MaxOf y
  let e := y.map fun v => f32Exp (f32Sub v mu)
  let t := f32Sum e
  e.map fun v => f32Div v t

/-- GLU_SILU of a row of 2 × ROW elements. -/
def vecGlu (len : Nat) (row : List Nat) : List Nat :=
  List.zipWith (fun a b => f32Mul (f32Silu a) b) (row.take len) (row.drop len)

/-- A row of an operand, if all of it is present. -/
def vecRow (f : Nat) (b : OBytes) (start len : Nat) : Option (List Nat) :=
  allSome ((List.range len).map fun i => vecIn f b (start + i))

/-- A row result as output elements; absent where the row is. -/
def rowOut (f len : Nat) (r : Option (List Nat)) : List (Option OutElem) :=
  match r with
  | some l => l.map fun c => some (outF32 f c)
  | none => List.replicate len none

/-- The output elements of a VEC operation other than GATHER_ROWS. -/
def vecOutput (x : Vec) (a b : OBytes) : List (Option OutElem) :=
  if x.isRow then
    ((List.range (x.count / x.row)).map fun r =>
      rowOut x.fd x.row
        (if x.op = 9 then (vecRow x.fs a (2 * r * x.row) (2 * x.row)).map (vecGlu x.row)
         else if x.op = 10 then
           match vecRow x.fs a (r * x.row) x.row, vecRow x.fs b 0 x.row with
           | some l, some w => some (vecRmsnorm x.s l w)
           | _, _ => none
         else (vecRow x.fs a (r * x.row) x.row).map (vecSoftmax x.s))).flatten
  else
    (List.range x.count).map fun i =>
      match vecIn x.fs a i, if x.usesS2 then vecIn x.fs b i else some 0 with
      | some u, some v => some (outF32 x.fd (vecElem x.op x.s u v))
      | _, _ => none

/-- A row of the table of GATHER_ROWS read when its number is (R475): absent where the number could not be read;
the status ends the record where the row leads outside the partition, or overlaps the destination. -/
def gatherRows (n : Nat) (x : Vec) (nums : List (Option Nat)) (s : State) :
    List (List (Option OutElem)) × List Nat × Option Nat × State :=
  match nums with
  | [] => ([], [], none, s)
  | none :: ns =>
    let r := gatherRows n x ns s
    (List.replicate x.row none :: r.1, r.2.1, r.2.2.1, r.2.2.2)
  | some i :: ns =>
    let len := x.row * fmtBytes x.fs
    let l := (locAt x.s1).plus (i * len)
    if !locOk s n l len then ([], [], some stAccessDenied, s)
    else if partialOverlap (locAt x.d) x.dBytes l len (fmtBytes x.fs == fmtBytes x.fd) then ([], [], some stBadArg, s)
    else
      let d := readOperand n l len s
      let row := (List.range x.row).map fun j =>
        (oField d.1 (j * fmtBytes x.fs) (fmtBytes x.fs)).map fun c => outElem x.fd (elemDec x.fs c)
      let r := gatherRows n x ns d.2.2
      (row :: r.1, d.2.1 ++ r.2.1, r.2.2.1, r.2.2.2)

/-- VEC's work. -/
def vecWork : RecBody := fun n q num b s =>
  let x := Vec.of b
  let f := drawNat s
  let s2 := readOperand n (locAt x.s2) x.s2Bytes f.2
  if x.op = 12 then
    let nums := (List.range (x.count / x.row)).map fun i => oField s2.1 (4 * i) 4
    let g := gatherRows n x nums s2.2.2
    let fails := s2.2.1 ++ g.2.1
    let es := g.1.flatten
    let w := writeOutput n (locAt x.d) (!fails.isEmpty) f.1 (packOut x.fd es) g.2.2.2
    endMath n q num fails f.1 w.1 (g.2.2.1.getD stOk) (resultCounts es) w.2
  else
    let s1 := readOperand n (locAt x.s1) x.s1Bytes s2.2.2
    let fails := s1.2.1 ++ s2.2.1
    let es := vecOutput x s1.1 s2.1
    let w := writeOutput n (locAt x.d) (!fails.isEmpty) f.1 (packOut x.fd es) s1.2.2
    endMath n q num fails f.1 w.1 stOk (resultCounts es) w.2

/-- VEC. -/
def vecBody : RecBody := fun n q num b s =>
  checkedRecord (zeroAt b 18 2 && zeroAt b 60 4) (vecRanges b) (vecOperands s n b) true vecWork n q num b s

/-! ### CONVERT -/

/-- The fields of CONVERT. -/
structure Convert where
  src : Nat
  dst : Nat
  count : Nat
  fs : Nat
  fd : Nat
  row : Nat
  deriving DecidableEq, Repr

/-- The fields of a CONVERT record. -/
def Convert.of (b : Bytes) : Convert :=
  { src := rec64 b 16, dst := rec64 b 24, count := rec64 b 32, fs := u8At b 40 % 16, fd := u8At b 40 / 16,
    row := u32At b 44 }

/-- Rows of a CONVERT: one row of COUNT elements where no format is MX. -/
def Convert.rows (x : Convert) : Nat := if x.row = 0 then 1 else x.count / x.row
def Convert.len (x : Convert) : Nat := if x.row = 0 then x.count else x.row

/-- The bytes of source and destination. -/
def Convert.srcBytes (x : Convert) : Nat := tensorBytes x.fs x.rows x.len
def Convert.dstBytes (x : Convert) : Nat := tensorBytes x.fd x.rows x.len

/-- CONVERT's fields are in range and its overlap permitted; INT32 is a source only (Table 8-20). -/
def convertRanges (b : Bytes) : Bool :=
  let x := Convert.of b
  let mx := isMx x.fs || isMx x.fd
  decide (x.fs ≤ 10 ∧ x.fd ≤ 9) && decide (1 ≤ x.count ∧ x.count ≤ 2 ^ 32)
    && (if mx then decide (0 < x.row) && x.row % 32 == 0 && x.count % x.row == 0 else x.row == 0)
    && (taggedLoc x.src).isSome && (taggedLoc x.dst).isSome
    && !partialOverlap (locAt x.dst) x.dstBytes (locAt x.src) x.srcBytes (fmtBits x.fs == fmtBits x.fd)

/-- CONVERT's local operands. -/
def convertOperands (s : State) (n : Nat) (b : Bytes) : Bool :=
  let x := Convert.of b
  locOk s n (locAt x.src) x.srcBytes && locOk s n (locAt x.dst) x.dstBytes

/-- A row converted to an MX format: the element codes and the scales of its blocks, and its saturated count. -/
def mxRow (f : Nat) (vs : List (Option Num)) : List (Option Nat) × List (Option Nat) × Nat :=
  let bs := (groupsOf 32 vs.length vs).map fun g => (g.length, (allSome g).map (mxBlock f))
  ((bs.map fun b => match b.2 with
      | some r => r.2.1.map some
      | none => List.replicate b.1 none).flatten,
   bs.map fun b => b.2.map (·.1),
   (bs.map fun b => match b.2 with
      | some r => r.2.2
      | none => 0).foldl (· + ·) 0)

/-- CONVERT's output bytes and result counts; the 32 elements of a block with scale 0xFF are NaN (R262). -/
def convertOutput (x : Convert) (src : OBytes) : OBytes × Bytes :=
  let rows := (List.range x.rows).map fun r => (List.range x.len).map fun i => tensorElem x.fs x.rows x.len src r i
  if isMx x.fd then
    let rs := rows.map (mxRow x.fd)
    let data := (rs.map fun r => packOpt x.fd r.1).flatten
    let pad := List.replicate (scaleBase x.fd x.rows x.len - data.length) (some (0 : BitVec 8))
    (data ++ pad ++ ((rs.map fun r => r.2.1.map fun e => e.map fun v => BitVec.ofNat 8 v).flatten),
     leBytes 4 ((rs.map fun r => r.2.2).foldl (· + ·) 0)
       ++ leBytes 4 (32 * ((rs.map fun r => r.2.1).flatten.filter (· == some 0xFF)).length))
  else
    let es := rows.map fun r => r.map fun v => v.map (outElem x.fd)
    ((es.map (packOut x.fd)).flatten, resultCounts es.flatten)

/-- CONVERT's work. The bytes between an MX tensor's elements and its scales are not written. -/
def convertWork : RecBody := fun n q num b s =>
  let x := Convert.of b
  let f := drawNat s
  let src := readOperand n (locAt x.src) x.srcBytes f.2
  let out := convertOutput x src.1
  let data := out.1.take (tensorData x.fd x.rows x.len)
  let w := writeOutput n (locAt x.dst) (!src.2.1.isEmpty) f.1 data src.2.2
  let base := scaleBase x.fd x.rows x.len
  let w2 := if isMx x.fd then writeOutput n ((locAt x.dst).plus base) (!src.2.1.isEmpty) (f.1 / 2) (out.1.drop base) w.2
    else (stOk, w.2)
  endMath n q num src.2.1 f.1 (firstFail w.1 w2.1) stOk out.2 w2.2

/-- CONVERT. -/
def convertBody : RecBody := fun n q num b s =>
  checkedRecord (zeroAt b 41 3 && zeroAt b 48 16) (convertRanges b) (convertOperands s n b) true convertWork n q num b s

/-! ### ATTEND (R256, R266, R475) -/

/-- The fields of ATTEND. -/
structure Attend where
  qkv : Nat
  kvt : Nat
  o : Nat
  m : Nat
  h : Nat
  kvh : Nat
  d : Nat
  fq : Nat
  fkv : Nat
  append : Bool
  scale : Nat
  theta : Nat
  deriving DecidableEq, Repr

/-- The fields of an ATTEND record. -/
def Attend.of (b : Bytes) : Attend :=
  { qkv := rec64 b 16, kvt := rec64 b 24, o := rec64 b 32, m := u16At b 40, h := u16At b 42, kvh := u16At b 44,
    d := u16At b 46, fq := u8At b 48 % 16, fkv := u8At b 48 / 16, append := (u8At b 49).testBit 0,
    scale := u32At b 52, theta := u32At b 56 }

/-- Bytes of a QKV row, of an O row, and of one position of a cache. -/
def Attend.qkvRow (x : Attend) : Nat := (x.h + 2 * x.kvh) * x.d * fmtBytes x.fq
def Attend.oRow (x : Attend) : Nat := x.h * x.d * fmtBytes x.fq
def Attend.pos (x : Attend) : Nat := x.kvh * x.d * fmtBytes x.fkv

/-- ATTEND's fields are in range. -/
def attendRanges (b : Bytes) : Bool :=
  let x := Attend.of b
  decide (1 ≤ x.m) && decide (1 ≤ x.h ∧ x.h ≤ 1024) && decide (1 ≤ x.kvh ∧ x.kvh ≤ 1024) && x.h % x.kvh == 0
    && decide (2 ≤ x.d ∧ x.d ≤ 256) && x.d % 2 == 0 && decide (x.fq ≤ 4 ∧ x.fkv ≤ 4)
    && (taggedLoc x.qkv).isSome && (taggedLoc x.kvt).isSome && (taggedLoc x.o).isSome

/-- ATTEND's local operands named in its fields. -/
def attendOperands (s : State) (n : Nat) (b : Bytes) : Bool :=
  let x := Attend.of b
  locOk s n (locAt x.qkv) (x.m * x.qkvRow) && locOk s n (locAt x.kvt) (32 * x.m) && locOk s n (locAt x.o) (x.m * x.oRow)

/-- The rotary embedding of a head at position `p` (R266). -/
def rotate (theta d p : Nat) (v : List Nat) : List Nat :=
  ((List.range (d / 2)).map fun i =>
    let e := f32Div (f32OfInt (-((2 * i : Nat) : Int))) (f32OfInt d)
    let f := f32Pow theta e
    let th := f32Enc ((Num.fin false p 0).mul (f32Dec f))
    let c := f32Cos th
    let sn := f32Sin th
    let a := v.getD (2 * i) 0
    let b := v.getD (2 * i + 1) 0
    [f32Sub (f32Mul a c) (f32Mul b sn), f32Add (f32Mul a sn) (f32Mul b c)]).flatten

/-- A dot product from +0 in ascending order, each product rounded. -/
def f32Dot (a b : List Nat) : Nat := f32Sum (List.zipWith f32Mul a b)

/-- One head's output over its positions (R266). -/
def attendHead (scale d : Nat) (qh : List Nat) (ks vs : List (List Nat)) : List Nat :=
  let sc := ks.map fun k => f32Mul scale (f32Dot qh k)
  let mu := f32MaxOf sc
  let ws := sc.map fun v => f32Exp (f32Sub v mu)
  let t := f32Sum ws
  (List.range d).map fun c => f32Div (f32Sum (List.zipWith (fun w v => f32Mul w (v.getD c 0)) ws vs)) t

/-- What is known of a sequence when it is reached. -/
structure AttSeq where
  idx : Nat
  kloc : Loc
  vloc : Loc
  p : Nat
  knew : Option Bytes
  vnew : Option Bytes
  out : OBytes
  empty : Bool
  deriving DecidableEq, Repr

/-- A head's D elements of a QKV row as FP32, rotated where asked. -/
def qkvHead (x : Attend) (row : OBytes) (p h : Nat) (rot : Bool) : Option (List Nat) :=
  (vecRow x.fq row (h * x.d) x.d).map fun v =>
    if rot && x.theta % 2 ^ 31 != 0 then rotate x.theta x.d p v else v

/-- The converted bytes of heads. -/
def headsBytes (f : Nat) (hs : List (Option (List Nat))) : Option Bytes :=
  (allSome hs).map fun l => packRow f (l.flatten.map fun c => (elemEnc f (f32Dec c)).1)

/-- The sequence computed: its new k and v, and its O row; `kc`, `vc` are the cached positions before the new one. -/
def attendSeq (x : Attend) (i : Nat) (kloc vloc : Loc) (p : Nat) (row kc vc : OBytes) : AttSeq :=
  let kn := if x.append then
      headsBytes x.fkv ((List.range x.kvh).map fun h => qkvHead x row p (x.h + h) true) else none
  let vn := if x.append then
      headsBytes x.fkv ((List.range x.kvh).map fun h => qkvHead x row p (x.h + x.kvh + h) false) else none
  let tail (b : Option Bytes) : OBytes := if x.append then
      (match b with
       | some d => d.map some
       | none => List.replicate x.pos none)
    else []
  let ks := kc ++ tail kn
  let vs := vc ++ tail vn
  let len := if x.append then p + 1 else p
  let heads := (List.range x.h).map fun h =>
    let g := h * x.kvh / x.h
    let at_ (b : OBytes) : Option (List (List Nat)) :=
      allSome ((List.range len).map fun t => vecRow x.fkv b ((t * x.kvh + g) * x.d) x.d)
    match qkvHead x row p h true, at_ ks, at_ vs with
    | some qh, some k, some v =>
      if len = 0 then (List.range x.d).map fun _ => some 0
      else (attendHead x.scale x.d qh k v).map fun c => some (elemEnc x.fq (f32Dec c)).1
    | _, _, _ => if len = 0 then (List.range x.d).map fun _ => some 0 else List.replicate x.d none
  { idx := i, kloc := kloc, vloc := vloc, p := p, knew := kn, vnew := vn, out := packOpt x.fq heads.flatten,
    empty := len == 0 }

/-- The sequences in ascending order, each read when it is reached: those processed, whether one had no room, the
statuses of failing reads, and the fault that ends the record (R475). A sequence whose entry cannot be read has an
absent O row and no cache. -/
def attendRead (n : Nat) (x : Attend) :
    List Nat → State → List AttSeq × Bool × List Nat × Option Nat × State
  | [], s => ([], false, [], none, s)
  | i :: is, s =>
    let e := readOperand n ((locAt x.kvt).plus (32 * i)) 32 s
    match allPresent e.1 with
    | none =>
      let r := attendRead n x is e.2.2
      ({ idx := i, kloc := .part 0, vloc := .part 0, p := 0, knew := some [], vnew := some [],
         out := List.replicate x.oRow none, empty := false } :: r.1, r.2.1, e.2.1 ++ r.2.2.1, r.2.2.2.1, r.2.2.2.2)
    | some b =>
      match taggedLoc (u64At b 0), taggedLoc (u64At b 8) with
      | some kl, some vl =>
        let p := u32At b 16
        let cap := u32At b 20
        if !zeroAt b 24 8 then ([], false, [], some stBadArg, e.2.2)
        else if (x.append && decide (cap ≤ p)) || (!x.append && decide (cap < p)) then
          let r := attendRead n x is e.2.2
          (r.1, true, r.2.2.1, r.2.2.2.1, r.2.2.2.2)
        else
          let len := (if x.append then p + 1 else p) * x.pos
          if !locOk s n kl len || !locOk s n vl len then ([], false, [], some stAccessDenied, e.2.2)
          else
            let row := readOperand n ((locAt x.qkv).plus (i * x.qkvRow)) x.qkvRow e.2.2
            let k := readOperand n kl (p * x.pos) row.2.2
            let v := readOperand n vl (p * x.pos) k.2.2
            let r := attendRead n x is v.2.2
            (attendSeq x i kl vl p row.1 k.1 v.1 :: r.1, r.2.1, row.2.1 ++ k.2.1 ++ v.2.1 ++ r.2.2.1, r.2.2.2.1,
             r.2.2.2.2)
      | _, _ => ([], false, [], some stBadArg, e.2.2)

/-- A part of a sequence written, or poisoned where it had not been written when the failing read was found. -/
def attendPart (n : Nat) (l : Loc) (len : Nat) (d : Option Bytes) (s : State) : Nat × State :=
  match d with
  | some b => writeLoc n l b s
  | none => (stOk, poisonLoc n l len s)

/-- A sequence's k, v, LEN and O row written; after a failing read, as far as the free number says. LEN advances only once k and v
are written. -/
def attendWrite (n : Nat) (x : Attend) (failed : Bool) (choice : Nat) (q : AttSeq) (s : State) : Nat × State :=
  let kn := if failed && !choice.testBit (4 * q.idx) then none else q.knew
  let vn := if failed && !choice.testBit (4 * q.idx + 1) then none else q.vnew
  let known := q.knew != some []
  let w := if x.append && known then
      let a := attendPart n (q.kloc.plus (q.p * x.pos)) x.pos kn s
      let b := attendPart n (q.vloc.plus (q.p * x.pos)) x.pos vn a.2
      let c := if kn.isSome && vn.isSome && a.1 == stOk && b.1 == stOk then
          writeLoc n ((locAt x.kvt).plus (32 * q.idx + 16)) (leBytes 4 (q.p + 1)) b.2
        else (stOk, b.2)
      (firstFail a.1 (firstFail b.1 c.1), c.2)
    else (stOk, s)
  let o := writeOutput n ((locAt x.o).plus (q.idx * x.oRow)) failed (choice / 2 ^ (64 * q.idx + 2)) q.out w.2
  (firstFail w.1 o.1, o.2)

/-- What a sequence's append writes: its k, its v and its LEN. -/
def AttSeq.dests (x : Attend) (q : AttSeq) : List (Bool × Nat × Nat) :=
  let flat (l : Loc) (len : Nat) : Bool × Nat × Nat := match l with
    | .part o => (false, o, len)
    | .scratch a => (true, a, len)
  if x.append && q.knew != some [] then
    [flat (q.kloc.plus (q.p * x.pos)) x.pos, flat (q.vloc.plus (q.p * x.pos)) x.pos, flat ((locAt x.kvt).plus (32 * q.idx + 16)) 4]
  else []

/-- ATTEND's work. -/
def attendWork : RecBody := fun n q num b s =>
  let x := Attend.of b
  let f := drawNat s
  let r := attendRead n x (List.range x.m) f.2
  let fails := r.2.2.1
  let s := modRunning n q num (fun y => { y with dests := (r.1.map (AttSeq.dests x)).flatten }) r.2.2.2.2
  let w := r.1.foldl (fun (a : Nat × State) sq =>
    let v := attendWrite n x (!fails.isEmpty) f.1 sq a.2
    (firstFail a.1 v.1, v.2)) (stOk, s)
  let ok := match r.2.2.2.1 with
    | some st => st
    | none => if r.2.1 then stNoCapacity else stOk
  endMath n q num fails f.1 w.1 ok (leBytes 4 (r.1.filter fun sq => sq.empty).length) w.2

/-- ATTEND. -/
def attendBody : RecBody := fun n q num b s =>
  checkedRecord (decide (u8At b 49 ≤ 1) && zeroAt b 50 2 && zeroAt b 60 4) (attendRanges b) (attendOperands s n b) true
    attendWork n q num b s

/-! ### The rows -/

/-- `VEC`: 08 R266; also R226, R246, R265, R267, R268, R475. -/
def execVec (t : Nat) (n : Fin 128) (q : Fin 16) (host : List (BitVec 8)) (s : State) : Outcome :=
  .next (startRecord 0x11 vecBody t n q host s)
/-- `ATTEND`: 08 R256; also R226, R246, R265, R266, R268, R475. -/
def execAttend (t : Nat) (n : Fin 128) (q : Fin 16) (host : List (BitVec 8)) (s : State) : Outcome :=
  .next (startRecord 0x12 attendBody t n q host s)
/-- `CONVERT`: 08 R267; also R246, R268. -/
def execConvert (t : Nat) (n : Fin 128) (q : Fin 16) (host : List (BitVec 8)) (s : State) : Outcome :=
  .next (startRecord 0x14 convertBody t n q host s)

end Sys2Proof.Machine
end

