-- ==== Sys2Proof/Machine/Token.lean ====
section
/-! DEFINITION. The token engine (chapter 10): images and their checks, segmentation, automata and masks, the sampled
and forced advances of streams, detokenization, and the records TOKENIZE, STEP and SAMPLE. -/

namespace Sys2Proof.Machine

/-! ### UTF-8 (R299, R309) -/

/-- The length of a well-formed UTF-8 character from its first byte, and the range of its second byte. -/
def utf8Lead (b : Nat) : Option (Nat × Nat × Nat) :=
  if b < 0x80 then some (1, 0, 0)
  else if 0xC2 ≤ b ∧ b ≤ 0xDF then some (2, 0x80, 0xBF)
  else if b = 0xE0 then some (3, 0xA0, 0xBF)
  else if b = 0xED then some (3, 0x80, 0x9F)
  else if 0xE1 ≤ b ∧ b ≤ 0xEF then some (3, 0x80, 0xBF)
  else if b = 0xF0 then some (4, 0x90, 0xBF)
  else if b = 0xF4 then some (4, 0x80, 0x8F)
  else if 0xF1 ≤ b ∧ b ≤ 0xF3 then some (4, 0x80, 0xBF)
  else none

/-- The bytes after the first, as far as given, are those of a well-formed character. -/
def utf8Cont (lo hi : Nat) : List Nat → Bool
  | [] => true
  | x :: xs => decide (lo ≤ x ∧ x ≤ hi) && xs.all fun y => decide (0x80 ≤ y ∧ y ≤ 0xBF)

/-- The length of the unit at the start of a text: a well-formed character, or one invalid byte (R299). -/
def utf8Unit (b : Bytes) : Nat :=
  match b with
  | [] => 1
  | x :: xs =>
    match utf8Lead x.toNat with
    | some (n, lo, hi) =>
      if n ≤ b.length ∧ utf8Cont lo hi ((xs.take (n - 1)).map (·.toNat)) = true then n else 1
    | none => 1

/-- A text of whole well-formed characters. -/
def utf8Whole : Nat → Bytes → Bool
  | 0, b => b.isEmpty
  | fuel + 1, b =>
    match b with
    | [] => true
    | x :: _ =>
      let n := utf8Unit b
      (decide (1 < n) || decide (x.toNat < 0x80)) && utf8Whole fuel (b.drop n)

/-- A proper prefix of a well-formed character. -/
def utf8Prefix (b : Bytes) : Bool :=
  match b with
  | [] => false
  | x :: xs =>
    match utf8Lead x.toNat with
    | some (n, lo, hi) => decide (b.length < n) && utf8Cont lo hi (xs.map (·.toNat))
    | none => false

/-! ### Vocabulary images (R297, R298) -/

/-- The header's fields (Table 10-1). -/
def vocTokens (h : Bytes) : Nat := u32At h 8
def vocByteBase (h : Bytes) : Nat := u32At h 12
def vocEos (h : Bytes) : Nat := u32At h 16
def vocByteScore (h : Bytes) : Int := signedOf 32 (u32At h 20)
def vocNormal (h : Bytes) : Nat := u32At h 24
def vocPieces (h : Bytes) : Nat := u32At h 32
def vocIndex (h : Bytes) : Nat := u32At h 36
def vocPool (h : Bytes) : Nat := u32At h 40
def vocPoolLen (h : Bytes) : Nat := u32At h 44
def vocPrefixDir (h : Bytes) : Nat := u64At h 48
def vocPrefixCount (h : Bytes) : Nat := u32At h 56

/-- The token that stands for none. -/
def noToken : Nat := 0xFFFFFFFF

/-- A piece-table entry: OFFSET, LENGTH, KIND, SCORE, and whether its reserved bytes are 0. -/
structure Piece where
  offset : Nat
  len : Nat
  kind : Nat
  score : Int
  clean : Bool
  deriving DecidableEq, Repr

/-- A piece-table entry from its 16 bytes. -/
def Piece.of (b : Bytes) : Piece :=
  { offset := u32At b 0, len := u16At b 4, kind := u16At b 6, score := signedOf 32 (u32At b 8), clean := zeroAt b 12 4 }

/-- A piece of a whole image. -/
def imgPiece (img : Bytes) (t : Nat) : Piece := Piece.of (slice img (vocPieces img + 16 * t) 16)

/-- The bytes of a NORMAL piece. -/
def imgPieceBytes (img : Bytes) (t : Nat) : Bytes := let p := imgPiece img t; slice img p.offset p.len

/-- Unsigned byte-wise lexicographic order, a prefix before what it prefixes. -/
def bytesLt : Bytes → Bytes → Bool
  | [], [] => false
  | [], _ :: _ => true
  | _ :: _, [] => false
  | a :: x, b :: y => if a.toNat < b.toNat then true else if b.toNat < a.toNat then false else bytesLt x y

/-- Every adjacent pair of a list is related. -/
def chainOk {α : Type} (r : α → α → Bool) : List α → Bool
  | [] => true
  | [_] => true
  | a :: b :: t => r a b && chainOk r (b :: t)

/-- A piece-table entry is valid for its token (R298). -/
def pieceOk (img : Bytes) (t : Nat) : Bool :=
  let p := imgPiece img t
  let isByte := decide (vocByteBase img ≤ t ∧ t < vocByteBase img + 256)
  p.clean && decide (p.kind ≤ 3) && (isByte == (p.kind == 1))
    && (if p.kind = 0 then
          decide (1 ≤ p.len ∧ p.len ≤ 64) && decide (vocPool img ≤ p.offset ∧ p.offset + p.len ≤ vocPool img + vocPoolLen img)
            && utf8Whole p.len (slice img p.offset p.len)
        else p.len == 0 && p.offset == 0)

/-- The index of an image. -/
def imgIndex (img : Bytes) : List Nat := (List.range (vocNormal img)).map fun i => u32At img (vocIndex img + 4 * i)

/-- A vocabulary image is valid (R298). Its strict order makes the index's pieces, and so all pieces, distinct. -/
def vocabOk (img : Bytes) : Bool :=
  let n := vocTokens img
  let inside (off len : Nat) : Bool := decide (off + len ≤ img.length)
  decide (64 ≤ img.length) && u32At img 0 == 0x31564B54 && u16At img 4 == 1 && zeroAt img 6 2 && zeroAt img 28 4
    && zeroAt img 60 4 && decide (257 ≤ n ∧ n ≤ 262144)
    && vocPieces img % 16 == 0 && vocIndex img % 4 == 0
    && inside (vocPieces img) (16 * n) && inside (vocIndex img) (4 * vocNormal img) && inside (vocPool img) (vocPoolLen img)
    && decide (vocByteBase img + 255 < n) && (List.range n).all (pieceOk img)
    && ((List.range n).filter fun t => (imgPiece img t).kind == 0).length == vocNormal img
    && (imgIndex img).all (fun t => decide (t < n) && (imgPiece img t).kind == 0)
    && chainOk bytesLt ((imgIndex img).map (imgPieceBytes img))
    && (vocEos img == noToken || (decide (vocEos img < n) && (imgPiece img (vocEos img)).kind == 2))
    && vocPrefixDir img % 32 == 0 && decide (vocPrefixCount img ≤ 1048576)

/-! ### Grammar images (R303a, R311) -/

/-- The header's fields (Table 10-3). -/
def grmStates (h : Bytes) : Nat := u32At h 12
def grmRows (h : Bytes) : Nat := u32At h 16
def grmStart (h : Bytes) : Nat := u32At h 20
def grmSymbols (h : Bytes) : Nat := u32At h 24
def grmRowOff (h : Bytes) : Nat := u64At h 32
def grmStateOff (h : Bytes) : Nat := u64At h 40
def grmTransOff (h : Bytes) : Nat := u64At h 48
def grmTopOff (h : Bytes) : Nat := u64At h 56

/-- Words of a mask row, and the stride of rows. -/
def rowWords (n : Nat) : Nat := (n + 31) / 32
def rowStride (n : Nat) : Nat := alignUp (4 * rowWords n) 64

/-- A transition: TOKEN, NEXT, ACTION, SYMBOL. -/
structure Trans where
  token : Nat
  next : Nat
  action : Nat
  symbol : Nat
  deriving DecidableEq, Repr

/-- A transition from its bytes: 8 of a DFA, 12 of a PDA. -/
def Trans.of (kind : Nat) (b : Bytes) : Trans :=
  { token := u32At b 0, next := u32At b 4, action := if kind = 0 then 0 else u16At b 8,
    symbol := if kind = 0 then 0 else u16At b 10 }

/-- The bytes of a transition. -/
def transSize (kind : Nat) : Nat := if kind = 0 then 8 else 12

/-- The entry that applies to a configuration (R312 step 2): its rows, its transitions, its DEFAULT. -/
structure AutoEntry where
  rows : List Nat
  first : Nat
  count : Nat
  default : Option Trans
  deriving DecidableEq, Repr

/-- A DFA state entry: whether it accepts, and its entry. -/
def dfaEntry (b : Bytes) : Bool × AutoEntry :=
  (( u32At b 0).testBit 31,
   { rows := [u32At b 0 % 2 ^ 24], first := u32At b 4, count := u32At b 8,
     default := if u32At b 12 = noToken then none else some { token := 0, next := u32At b 12, action := 0, symbol := 0 } })

/-- A PDA top entry: its TOP, and its entry. -/
def pdaTop (b : Bytes) : Nat × AutoEntry :=
  (u16At b 0,
   { rows := ((List.range 4).map fun i => u32At b (4 + 4 * i)).filter (· ≠ noToken), first := u32At b 20,
     count := u32At b 24,
     default := let d := Trans.of 1 (slice b 28 12); if d.next = noToken then none else some d })

/-- The OR of rows of a whole image, as a number whose bit t stands for token t. -/
def imgMask (img : Bytes) (n : Nat) (rows : List Nat) : Nat :=
  (rows.map fun r => fieldLe img (grmRowOff img + r * rowStride n) (4 * rowWords n)).foldl (fun a b => a ||| b) 0

/-- The bits set below `n`. -/
def popCount (n m : Nat) : Nat := ((List.range n).filter fun t => m.testBit t).length

/-- The transitions of an entry of a whole image. -/
def imgTrans (kind : Nat) (img : Bytes) (e : AutoEntry) : List Trans :=
  (List.range e.count).map fun i =>
    Trans.of kind (slice img (grmTransOff img + transSize kind * (e.first + i)) (transSize kind))

/-- A transition's targets are in range (R311), and its SYMBOL is 0 when it does not push (Table 10-4).
Log entry 141 (DEDUCED). -/
def transOk (kind : Nat) (img : Bytes) (t : Trans) : Bool :=
  decide (t.next < grmStates img) && decide (t.action ≤ 3)
    && (if kind = 0 then true
        else if t.action = 1 ∨ t.action = 3 then decide (t.symbol < grmSymbols img)
        else t.symbol == 0)

/-- An entry of an image is valid (R311). -/
def entryOk (kind : Nat) (img : Bytes) (n eos : Nat) (e : AutoEntry) : Bool :=
  let ts := imgTrans kind img e
  let m := imgMask img n e.rows
  let eosBit := if eos ≠ noToken ∧ m.testBit eos = true then 1 else 0
  e.rows.all (fun r => decide (r < grmRows img))
    && decide (grmTransOff img + transSize kind * (e.first + e.count) ≤ img.length)
    && ts.all (fun t => transOk kind img t && decide (t.token < n) && t.token != eos && m.testBit t.token)
    && chainOk (fun a b => decide (a.token < b.token)) ts
    && (match e.default with
        | some d => transOk kind img d
        | none => popCount n m - eosBit == e.count)

/-- The top entries of a PDA state of a whole image. -/
def imgTops (img : Bytes) (st : Bytes) : List (Nat × AutoEntry) :=
  (List.range (u32At st 8)).map fun i => pdaTop (slice img (grmTopOff img + 48 * (u32At st 4 + i)) 48)

/-- TOP in the order of R311: ascending, 0xFFFE at most once and last. -/
def topKey (t : Nat) : Nat := if t = 0xFFFE then 0x10000 else t

/-- The TOP, the reserved bytes and the ROWS of a top entry are as Table 10-4 gives them. Log entry 141 (DEDUCED). -/
def topClean (img : Bytes) (st : Bytes) (i : Nat) : Bool :=
  let b := slice img (grmTopOff img + 48 * (u32At st 4 + i)) 48
  decide (u16At b 0 < grmSymbols img ∨ 0xFFFE ≤ u16At b 0) && zeroAt b 2 2 && zeroAt b 40 8 && u32At b 4 != noToken
    && u32At b 28 == 0

/-- A state of a grammar image is valid. -/
def stateOk (kind : Nat) (img : Bytes) (n eos i : Nat) : Bool :=
  let b := slice img (grmStateOff img + 16 * i) 16
  if kind = 0 then u32At b 0 / 2 ^ 24 % 128 == 0 && entryOk 0 img n eos (dfaEntry b).2
  else
    decide (u32At b 0 ≤ 1) && u32At b 12 == 0
      && decide (grmTopOff img + 48 * (u32At b 4 + u32At b 8) ≤ img.length)
      && (imgTops img b).all (fun t => entryOk 1 img n eos t.2)
      && (List.range (u32At b 8)).all (topClean img b)
      && chainOk (fun x y => x.1 != 0xFFFE && decide (topKey x.1 ≤ topKey y.1)) (imgTops img b)

/-- A grammar image is valid for its vocabulary (R311). -/
def grammarOk (kind : Nat) (img voc : Bytes) : Bool :=
  let n := vocTokens voc
  decide (64 ≤ img.length) && u32At img 0 == 0x31474B54 && u16At img 4 == 1 && u8At img 6 == kind && zeroAt img 7 1
    && zeroAt img 28 4 && u32At img 8 == n && decide (1 ≤ grmStates img ∧ grmStates img ≤ 16777216)
    && decide (1 ≤ grmRows img ∧ grmRows img ≤ 65536) && decide (grmStart img < grmStates img)
    && (if kind = 1 then decide (1 ≤ grmSymbols img ∧ grmSymbols img ≤ 65534)
        else grmSymbols img == 0 && grmTopOff img == 0)
    && decide (grmRowOff img + rowStride n * (grmRows img - 1) + 4 * rowWords n ≤ img.length)
    && decide (grmStateOff img + 16 * grmStates img ≤ img.length)
    && (List.range (grmRows img)).all (fun r => imgMask img n [r] / 2 ^ n == 0)
    && (List.range (grmStates img)).all (stateOk kind img n (vocEos voc))

/-! ### Reading loaded tables in place (R295) -/

/-- The state with the token engine changed. -/
def modTke (f : Tke → Tke) (s : State) : State := { s with tke := f s.tke }

/-- A read of a loaded table: a failing read is a table fault. -/
def readTable (g : Image) (off len : Nat) (s : State) : Nat × Bytes × State :=
  readRange (localWho s g.part) g.part (g.offset + off) len
    (modPartCtr g.part (fun c => { c with hbmRd := c.hbmRd + len }) s)

/-- A loaded image with its header read in place (R295). -/
def readHdr (g : Image) (s : State) : Nat × Image × State :=
  let r := readTable g 0 64 s
  (r.1, { g with hdr := fit 64 r.2.1 }, r.2.2)

/-- The headers of a grammar and its vocabulary read in place. -/
def readHdrs (g v : Image) (s : State) : Nat × Image × Image × State :=
  let a := readHdr g s
  let b := readHdr v a.2.2
  (firstFail a.1 b.1, a.2.1, b.2.1, b.2.2)

/-- A token's piece-table entry and, for a NORMAL token, its bytes. -/
def readPiece (v : Image) (t : Nat) (s : State) : Nat × Piece × Bytes × State :=
  let e := readTable v (vocPieces v.hdr + 16 * t) 16 s
  let p := Piece.of e.2.1
  if e.1 ≠ stOk then (e.1, p, [], e.2.2)
  else if p.kind = 0 then
    let b := readTable v p.offset p.len e.2.2
    (b.1, p, b.2.1, b.2.2)
  else (stOk, p, [], e.2.2)

/-- The entry of a configuration: whether the configuration accepts, and its entry (R312). -/
def confEntry (g : Image) (c : AutoConf) (s : State) : Nat × Bool × Option AutoEntry × State :=
  let r := readTable g (grmStateOff g.hdr + 16 * c.state) 16 s
  if r.1 ≠ stOk then (r.1, false, none, r.2.2)
  else if g.kind = 0 then
    let e := dfaEntry r.2.1
    (stOk, e.1, some e.2, r.2.2)
  else
    let k := u32At r.2.1 8
    let t := readTable g (grmTopOff g.hdr + 48 * u32At r.2.1 4) (48 * k) r.2.2
    if t.1 ≠ stOk then (t.1, false, none, t.2.2)
    else
      let tops := (List.range k).map fun i => pdaTop (slice t.2.1 (48 * i) 48)
      let top := c.stack.headD 0xFFFF
      let e := match tops.find? fun x => x.1 == top with
        | some x => some x.2
        | none => (tops.find? fun x => x.1 == 0xFFFE).map (·.2)
      (stOk, (u32At r.2.1 0).testBit 0 && c.stack.isEmpty, e, t.2.2)

/-- The OR of an entry's rows read in place. -/
def readRows (g : Image) (n : Nat) : List Nat → State → Nat × Nat × State
  | [], s => (stOk, 0, s)
  | r :: rs, s =>
    let d := readTable g (grmRowOff g.hdr + r * rowStride n) (4 * rowWords n) s
    if d.1 ≠ stOk then (d.1, 0, d.2.2)
    else
      let rest := readRows g n rs d.2.2
      (rest.1, ofLe d.2.1 ||| rest.2.1, rest.2.2)

/-- The mask of a configuration (R312 steps 2 to 4). -/
def confMask (g v : Image) (c : AutoConf) (s : State) : Nat × Nat × State :=
  let t := readHdrs g v s
  let g := t.2.1
  let v := t.2.2.1
  let n := vocTokens v.hdr
  let e := confEntry g c t.2.2.2
  if t.1 ≠ stOk then (t.1, 0, t.2.2.2)
  else if e.1 ≠ stOk then (e.1, 0, e.2.2.2)
  else
    match e.2.2.1 with
    | none => (stOk, 0, e.2.2.2)
    | some x =>
      let r := readRows g n x.rows e.2.2.2
      let eos := vocEos v.hdr
      let m := r.2.1 % 2 ^ n
      let m := if eos = noToken then m
        else if e.2.1 then m ||| 2 ^ eos
        else if m.testBit eos then m - 2 ^ eos else m
      (r.1, m, r.2.2)

/-! ### Streams -/

/-- A stream. -/
def strm (s : State) (id : Nat) : Option Stream := tget id s.tke.streams

/-- The state with a stream changed. -/
def modStrm (id : Nat) (f : Stream → Stream) (s : State) : State :=
  modTke (fun k => { k with streams := tmod id f k.streams }) s

/-- A vocabulary, a grammar. -/
def vocabOf (s : State) (id : Nat) : Option Image := tget id s.tke.vocabs
def grammarOf (s : State) (id : Nat) : Option Image := tget id s.tke.grammars

/-- A stream is stopped, or its last sampled advance stopped it. -/
def Stream.halted (x : Stream) : Bool := x.stopReason != 0 || x.pendingStop.isSome

/-- The run-ahead masks of a stream discarded. -/
def dropBuilt (id : Nat) (s : State) : State :=
  let k := match strm s id with
    | some x => x.built.length
    | none => 0
  modStrm id (fun x => { x with built := [] })
    (modTke (fun t => { t with raDiscarded := sat32 (t.raDiscarded + k) }) s)

/-- A stream stops with a reason; its mask is empty (R312 step 1). -/
def stopStream (id reason index : Nat) (s : State) : State :=
  modStrm id (fun x => { x with stopReason := reason, stopIndex := index, pendingStop := none, mask := 0,
                                maskReady := true }) (dropBuilt id s)

/-- A sampled advance stops its stream: reported by the entry that presents its token (R310). -/
def pendStop (id reason : Nat) (s : State) : State :=
  modStrm id (fun x => { x with pendingStop := some reason, mask := 0, maskReady := true }) (dropBuilt id s)

/-- A configuration is reached: its mask is current where run-ahead built it, else it is to be built (R315, R316).
Log entry 90 (DEDUCED). -/
def reachConf (id : Nat) (s : State) : State :=
  match strm s id with
  | some x =>
    match x.built.find? fun b => b.1 == x.conf with
    | some b =>
      let s := modTke (fun t => { t with raUsed := sat32 (t.raUsed + 1),
                                         raDiscarded := sat32 (t.raDiscarded + (x.built.length - 1)) }) s
      modStrm id (fun x => { x with maskAt := s.now, maskReady := true, mask := b.2, built := [] }) s
    | none => modStrm id (fun x => { x with maskAt := s.now, maskReady := false, mask := 0 }) (dropBuilt id s)
  | none => s

/-- What an advance leads to (R313): the next configuration, the reason of a stop, or a table fault with its line's status. -/
inductive Advance where
  | conf (c : AutoConf)
  | stop (reason : Nat)
  | fault (status : Nat)
  deriving DecidableEq, Repr

/-- A transition applied to a configuration. -/
def applyTrans (c : AutoConf) (t : Trans) : Advance :=
  if t.action = 1 then
    if 256 ≤ c.stack.length then .stop 5 else .conf { state := t.next, stack := t.symbol :: c.stack }
  else if t.action = 2 ∨ t.action = 3 then
    match c.stack with
    | [] => .stop 4
    | _ :: rest => .conf { state := t.next, stack := if t.action = 3 then t.symbol :: rest else rest }
  else .conf { state := t.next, stack := c.stack }

/-- The transitions of an entry read in place. -/
def readTrans (g : Image) (e : AutoEntry) (s : State) : Nat × List Trans × State :=
  let k := transSize g.kind
  let r := readTable g (grmTransOff g.hdr + k * e.first) (k * e.count) s
  (r.1, (List.range e.count).map fun i => Trans.of g.kind (slice r.2.1 (k * i) k), r.2.2)

/-- The advance of a configuration by a token (R313). -/
def advanceConf (g v : Image) (c : AutoConf) (t : Nat) (s : State) : Advance × State :=
  let h := readHdrs g v s
  let g := h.2.1
  let v := h.2.2.1
  let n := vocTokens v.hdr
  let e := confEntry g c h.2.2.2
  if h.1 ≠ stOk then (.fault h.1, h.2.2.2)
  else if e.1 ≠ stOk then (.fault e.1, e.2.2.2)
  else if t = vocEos v.hdr ∧ t ≠ noToken then (.stop (if e.2.1 then 2 else 4), e.2.2.2)
  else
    match e.2.2.1 with
    | none => (.stop 4, e.2.2.2)
    | some x =>
      let r := readRows g n x.rows e.2.2.2
      if r.1 ≠ stOk then (.fault r.1, r.2.2)
      else if n ≤ t ∨ r.2.1.testBit t = false then (.stop 4, r.2.2)
      else
        let ts := readTrans g x r.2.2
        if ts.1 ≠ stOk then (.fault ts.1, ts.2.2)
        else
          match ts.2.1.find? fun y => y.token == t with
          | some y => (applyTrans c y, ts.2.2)
          | none =>
            match x.default with
            | some d => (applyTrans c d, ts.2.2)
            | none => (.stop 4, ts.2.2)

/-- The images of a constrained stream. -/
def strmTables (s : State) (x : Stream) : Option (Image × Image) :=
  match grammarOf s x.grammar, vocabOf s x.vocab with
  | some g, some v => some (g, v)
  | _, _ => none

/-- A sampled advance by a token that SAMPLE wrote (R314); a table fault stops the stream. -/
def sampledAdvance (id t : Nat) (s : State) : State :=
  match strm s id with
  | none => s
  | some x =>
    match strmTables s x with
    | none => s
    | some (g, v) =>
      let a := advanceConf g v x.conf t s
      let s := modStrm id (fun y => { y with unpresented := y.unpresented ++ [(t, x.conf, x.tokens)] }) a.2
      match a.1 with
      | .fault _ => stopStream id 8 0 s
      | .stop r => pendStop id r s
      | .conf c => reachConf id (modStrm id (fun y => { y with conf := c, tokens := y.tokens + 1 }) s)

/-- A forced advance by a presented token: the status of a table fault, which ends the record (R307). -/
def forcedAdvance (id t : Nat) (s : State) : Nat × State :=
  match strm s id with
  | none => (stOk, s)
  | some x =>
    match strmTables s x with
    | none => (stOk, s)
    | some (g, v) =>
      let a := advanceConf g v x.conf t s
      match a.1 with
      | .fault st => (st, a.2)
      | .stop r => (stOk, stopStream id r 0 a.2)
      | .conf c => (stOk, reachConf id (modStrm id (fun y => { y with conf := c, tokens := y.tokens + 1 }) a.2))

/-- A presented token resolved against the queue of unpresented tokens (R314): the status of a table fault. -/
def resolveToken (id t : Nat) (s : State) : Nat × State :=
  match strm s id with
  | none => (stOk, s)
  | some x =>
    match x.unpresented with
    | [] => forcedAdvance id t s
    | (h, c, k) :: rest =>
      if h = t then
        let s := modStrm id (fun y => { y with unpresented := rest }) s
        match rest, x.pendingStop with
        | [], some r => (stOk, stopStream id r 0 s)
        | _, _ => (stOk, s)
      else if rest = [] then
        let s := modStrm id (fun y => { y with unpresented := [], conf := c, tokens := k, pendingStop := none }) s
        forcedAdvance id t (reachConf id (dropBuilt id s))
      else (stOk, stopStream id 6 0 s)

/-! ### Masks (R315, R316) -/

/-- A stream whose mask is being built in step. -/
def buildsMask (x : Stream) : Bool := x.grammar != 0 && !x.maskReady

/-- The streams whose masks the eight units build: those whose configurations were reached first.
Log entry 90 (DEDUCED). -/
def inBuild (s : State) (id : Nat) : Bool :=
  match strm s id with
  | some x =>
    buildsMask x && decide ((s.tke.streams.filter fun y => buildsMask y.2
      && (decide (y.2.maskAt < x.maskAt) || (y.2.maskAt == x.maskAt && decide (y.1 < id)))).length < 8)
  | none => false

/-- The deadline of an in-step mask (Table 10-5). -/
def maskDeadline (g : Image) : Nat := if g.kind = 0 then 40000 else 120000

/-- A stream's in-step mask is built; a table fault stops the stream. Log entry 90 (DEDUCED). -/
def buildMask (id : Nat) (s : State) : State :=
  match strm s id with
  | none => s
  | some x =>
    match strmTables s x with
    | none => s
    | some (g, v) =>
      let m := confMask g v x.conf s
      let late := decide (x.maskAt + maskDeadline g < s.now)
      let s := modTke (fun t => { t with masks := sat32 (t.masks + 1),
                                         masksLate := if late then sat32 (t.masksLate + 1) else t.masksLate,
                                         maskNsMax := max t.maskNsMax (sat32 (s.now - x.maskAt)) }) m.2.2
      if m.1 = stOk then modStrm id (fun y => { y with mask := m.2.1, maskReady := true }) s
      else stopStream id 8 0 s

/-- The distinct successor configurations of a stream, DEFAULT first, then its transitions in list order: at most 8. -/
def successors (g : Image) (c : AutoConf) (s : State) : List AutoConf × State :=
  let h := readHdr g s
  let g := h.2.1
  let e := if h.1 = stOk then confEntry g c h.2.2 else (h.1, false, none, h.2.2)
  match e.2.2.1 with
  | none => ([], e.2.2.2)
  | some x =>
    let ts := readTrans g x e.2.2.2
    let all := (match x.default with
      | some d => [d]
      | none => []) ++ (if ts.1 = stOk then ts.2.1 else [])
    let cs := all.filterMap fun t => match applyTrans c t with
      | .conf d => some d
      | _ => none
    (cs.eraseDups.take 8, ts.2.2)

/-- RUNAHEAD_BUILD: an idle mask unit builds the masks of a run-ahead stream's successors (R316); a table fault drops
that build. Log entry 90 (DEDUCED). -/
def runaheadBuild (t id : Nat) (s : State) : State :=
  let s := s.at t
  match strm s id with
  | none => s
  | some x =>
    if !x.runAhead || !x.maskReady || x.halted || s.pwr.runAheadOff || !planeRuns s
        || (s.tke.streams.any fun y => buildsMask y.2) then s
    else
      match strmTables s x with
      | none => s
      | some (g, v) =>
        let cs := successors g x.conf s
        cs.1.foldl (fun s c =>
          if x.built.any fun b => b.1 == c then s
          else
            let m := confMask g v c s
            if m.1 = stOk then
              modStrm id (fun y => { y with built := y.built ++ [(c, m.2.1)] })
                (modTke (fun t => { t with raBuilt := sat32 (t.raBuilt + 1) }) m.2.2)
            else m.2.2) cs.2

/-! ### SAMPLE (R257, R306, R314) -/

/-- The fields of SAMPLE. -/
structure Sample where
  logits : Nat
  streams : Nat
  out : Nat
  v : Nat
  m : Nat
  fl : Nat
  temp : Nat
  topK : Nat
  topP : Nat
  deriving DecidableEq, Repr

/-- The fields of a SAMPLE record. -/
def Sample.of (b : Bytes) : Sample :=
  { logits := rec64 b 16, streams := rec64 b 24, out := rec64 b 32, v := u32At b 40, m := u16At b 44, fl := u8At b 46,
    temp := u32At b 48, topK := u32At b 52, topP := u32At b 56 }

/-- Bytes of a row of logits. -/
def Sample.row (x : Sample) : Nat := x.v * fmtBytes x.fl

/-- SAMPLE's fields are in range. -/
def sampleRanges (b : Bytes) : Bool :=
  let x := Sample.of b
  decide (1 ≤ x.v ∧ x.v ≤ 262144) && decide (1 ≤ x.m ∧ x.m ≤ 256) && decide (x.fl ≤ 1)
    && !f32IsNan x.temp && !f32Lt x.temp 0
    && f32Lt 0 x.topP && !f32Lt 0x3F800000 x.topP && !f32IsNan x.topP
    && (taggedLoc x.logits).isSome && (taggedLoc x.streams).isSome && (taggedLoc x.out).isSome

/-- SAMPLE's local operands. -/
def sampleOperands (s : State) (n : Nat) (b : Bytes) : Bool :=
  let x := Sample.of b
  locOk s n (locAt x.logits) (x.m * x.row) && locOk s n (locAt x.streams) (2 * x.m) && locOk s n (locAt x.out) (4 * x.m)

/-- The SplitMix64 step: state and output. -/
def splitMix (st : Nat) : Nat × Nat :=
  let m := 2 ^ 64
  let st := (st + 0x9E3779B97F4A7C15) % m
  let z := ((st ^^^ (st >>> 30)) * 0xBF58476D1CE4E5B9) % m
  let z := ((z ^^^ (z >>> 27)) * 0x94D049BB133111EB) % m
  (st, z ^^^ (z >>> 31))

/-- The value order of finite FP32 codes, the two zeros equal. -/
def f32Rank (c : Nat) : Int := if c % 2 ^ 31 = 0 then 0 else if c.testBit 31 then -((c % 2 ^ 31 : Nat) : Int) else (c : Int)

/-- A finite FP32 code. -/
def f32Finite (c : Nat) : Bool := decide (c / 2 ^ 23 % 256 ≠ 255)

/-- A token inserted in descending order of y, lower token ID first on equal y. -/
def insertTok (t : Nat × Nat) : List (Nat × Nat) → List (Nat × Nat)
  | [] => [t]
  | u :: us =>
    if f32Rank u.2 < f32Rank t.2 ∨ (f32Rank u.2 = f32Rank t.2 ∧ t.1 < u.1) then t :: u :: us
    else u :: insertTok t us

/-- The order of R257: tokens with finite y, by descending y. -/
def sampleOrder (x : Sample) (mask : Option Nat) (logits : List Nat) : List (Nat × Nat) :=
  let ys := logits.zipIdx.filterMap fun l =>
    let ok := match mask with
      | some m => m.testBit l.2
      | none => true
    let y := if x.temp % 2 ^ 31 = 0 then l.1 else f32Div l.1 x.temp
    if ok && f32Finite y then some (l.2, y) else none
  ys.foldr insertTok []

/-- Cumulative sums from the first element, each addition rounded. -/
def cumSums : Option Nat → List Nat → List Nat
  | _, [] => []
  | none, e :: es => e :: cumSums (some e) es
  | some a, e :: es => f32Add a e :: cumSums (some (f32Add a e)) es

/-- The token chosen from a non-empty order with TEMP above 0, given the generator's output (R257). -/
def sampleDraw (x : Sample) (order : List (Nat × Nat)) (rnd : Nat) : Nat :=
  let keep := if x.topK = 0 ∨ order.length ≤ x.topK then order else order.take x.topK
  let y0 := (keep.headD (0, 0)).2
  let c := cumSums none (keep.map fun k => f32Exp (f32Sub k.2 y0))
  let last := c.getLastD 0
  let c := c.map fun v => f32Div v last
  let j := c.findIdx fun v => !f32Lt v x.topP
  let j := min j (keep.length - 1)
  let u := f32Enc (.fin false (rnd >>> 40) (-24))
  let t := f32Mul u (c.getD j 0)
  let k := (c.take (j + 1)).findIdx fun v => f32Lt t v
  (keep.getD (min k j) (0, 0)).1

/-- One sequence sampled for its stream: the token written, whether it is DEAD, the state. -/
def sampleOne (x : Sample) (id : Nat) (logits : List Nat) (s : State) : Nat × Bool × State :=
  match strm s id with
  | none => (noToken, true, s)
  | some st =>
    let con := decide (st.grammar ≠ 0)
    if con && decide (16 ≤ st.unpresented.length) then
      (noToken, true, if st.halted then s else stopStream id 6 0 s)
    else
      let order := sampleOrder x (if con then some st.mask else none) logits
      match order with
      | [] => (noToken, true, s)
      | (t0, _) :: _ =>
        let d := splitMix st.rng
        let greedy := decide (x.temp % 2 ^ 31 = 0)
        let t := if greedy then t0 else sampleDraw x order d.2
        let s := if greedy then s else modStrm id (fun y => { y with rng := d.1 }) s
        (t, false, if con then sampledAdvance id t s else s)

/-- The masks that a sequence waits for is ready. -/
def sampleReady (s : State) (id : Nat) : Bool :=
  match strm s id with
  | some x => x.grammar == 0 || x.maskReady
  | none => true

/-- A SAMPLE record ends. -/
def sampleEnd (n q num : Nat) (s : State) : State :=
  match running s n q num with
  | some r => endRecord n q num (r.localFail.getD stOk) (leBytes 4 r.dead) s
  | none => s

/-- The record fails at a sequence whose logits cannot be read: OUT lines not yet written are poisoned. -/
def sampleFail (n q num i status : Nat) (s : State) : State :=
  match running s n q num with
  | some r =>
    let x := Sample.of r.bytes
    let out := locAt x.out
    let start := match out with
      | .part o => o
      | .scratch a => a
    let done := if i = 0 then 0 else alignUp (start + 4 * i) 64 - start
    let s := if done < 4 * x.m then poisonLoc n (out.plus done) (4 * x.m - done) s else s
    let f := drawBytes 4 s
    endRecord n q num status f.1 f.2
  | none => s

/-- Sequences sampled in ascending order from `i` until one waits for its mask; `limit` is the sequence before which a
failing read is found, if one is. -/
def sampleLoop (n q num : Nat) (x : Sample) (ids : List Nat) (limit : Option Nat) : Nat → Nat → State → State
  | 0, _, s => s
  | fuel + 1, i, s =>
    if limit = some i then
      let bad := ((List.range x.m).filter fun k => decide (i ≤ k)
        && !((readOperand n ((locAt x.logits).plus (k * x.row)) x.row s).2.1.isEmpty)).headD i
      let r := readOperand n ((locAt x.logits).plus (bad * x.row)) x.row s
      sampleFail n q num i (r.2.1.headD stPoisoned) r.2.2
    else if x.m ≤ i then sampleEnd n q num s
    else if !sampleReady s (ids.getD i 0) then modRunning n q num (fun r => { r with chunkNext := i }) s
    else
      let l := readOperand n ((locAt x.logits).plus (i * x.row)) x.row s
      let ys := (List.range x.v).map fun k => (vecIn x.fl l.1 k).getD f32Nan
      let r := sampleOne x (ids.getD i 0) ys l.2.2
      let w := writeLoc n ((locAt x.out).plus (4 * i)) (leBytes 4 r.1) r.2.2
      let s := modRunning n q num (fun y => { y with
        chunkNext := i + 1, dead := y.dead + (if r.2.1 then 1 else 0)
        localFail := if w.1 = stOk then y.localFail else some (y.localFail.getD w.1) }) (noteMirrors n q num w.2)
      sampleLoop n q num x ids limit fuel (i + 1) s

/-- A SAMPLE record goes on with its next sequence. Where a row of logits cannot be read, how many sequences before it
were sampled when that was found is open. -/
def sampleRun (n q num : Nat) (s : State) : State :=
  match running s n q num with
  | some r =>
    let x := Sample.of r.bytes
    if r.done then s
    else
      let bad := (List.range x.m).find? fun k => decide (r.chunkNext ≤ k)
        && !((readOperand n ((locAt x.logits).plus (k * x.row)) x.row s).2.1.isEmpty)
      match bad with
      | some k =>
        let f := drawNat s
        sampleLoop n q num x r.streams (some (r.chunkNext + f.1 % (k - r.chunkNext + 1))) (x.m + 1) r.chunkNext f.2
      | none => sampleLoop n q num x r.streams none (x.m + 1) r.chunkNext s
  | none => s

/-- Every SAMPLE record in progress goes on. -/
def sampleAll (s : State) : State :=
  s.crn.queues.foldl (fun s e =>
    e.2.running.foldl (fun s r =>
      if u8At r.bytes 0 = 0x13 ∧ e.1 % 16 < 4 then sampleRun (e.1 / 16) (e.1 % 16) r.num s else s) s) s

/-- SAMPLE's work: its stream IDs are read and must all be open for the partition. -/
def sampleWork : RecBody := fun n q num b s =>
  let x := Sample.of b
  let r := readOperand n (locAt x.streams) (2 * x.m) s
  match allPresent r.1 with
  | none => sampleFail n q num 0 (r.2.1.headD stPoisoned) r.2.2
  | some d =>
    let ids := (List.range x.m).map fun i => u16At d (2 * i)
    if ids.all fun i => (match strm r.2.2 i with
        | some st => st.part == n
        | none => false) then
      sampleRun n q num (modRunning n q num (fun y => { y with streams := ids }) r.2.2)
    else endRecord n q num stBadArg [] r.2.2

/-- SAMPLE. -/
def sampleBody : RecBody := fun n q num b s =>
  checkedRecord (zeroAt b 47 1 && zeroAt b 60 4) (sampleRanges b) (sampleOperands s n b) true sampleWork n q num b s

/-- MASK_READY: an in-step mask build ends (R315); SAMPLE records that waited go on. -/
def maskReady (t id : Nat) (s : State) : State :=
  let s := s.at t
  if inBuild s id && planeRuns s then sampleAll (buildMask id s) else s

/-! ### TOKENIZE (R299 to R302) -/

/-- A best path to a node: score, count, and the edge that ends it: start, and the token of a piece edge. -/
structure PathEnd where
  score : Int
  count : Nat
  start : Nat
  piece : Option Nat
  deriving DecidableEq, Repr

/-- The preference of R301. -/
def pathBetter (a b : PathEnd) : Bool :=
  if a.score ≠ b.score then decide (b.score < a.score)
  else if a.count ≠ b.count then decide (a.count < b.count)
  else if a.start ≠ b.start then decide (a.start < b.start)
  else a.piece.isSome && b.piece.isNone

/-- The units of a text: start and length. -/
def textUnits : Nat → Nat → Bytes → List (Nat × Nat)
  | 0, _, _ => []
  | fuel + 1, p, b => if b.isEmpty then [] else let n := utf8Unit b; (p, n) :: textUnits fuel (p + n) (b.drop n)

/-- A better path to a node kept. -/
def keepPath (e : Nat) (c : PathEnd) (t : Tab PathEnd) : Tab PathEnd :=
  match tget e t with
  | some o => if pathBetter c o then tset e c t else t
  | none => tset e c t

/-- The edges from a node: its unit's byte edge, and the piece edges found there: token, length, score (R300). -/
def edgesFrom (edges : List (Nat × Nat × Int)) (byteScore : Int) (u : Nat × Nat) (t : Tab PathEnd) : Tab PathEnd :=
  let here := (tget u.1 t).getD { score := 0, count := 0, start := 0, piece := none }
  let t := keepPath (u.1 + u.2) { score := here.score + byteScore * (u.2 : Int), count := here.count + u.2, start := u.1,
                                  piece := none } t
  edges.foldl (fun t p => keepPath (u.1 + p.2.1)
    { score := here.score + p.2.2, count := here.count + 1, start := u.1, piece := some p.1 } t) t

/-- The chosen path traced back from a node: tokens with their byte lengths, in text order. -/
def tracePath (t : Tab PathEnd) (byteBase : Nat) (text : Bytes) : Nat → Nat → List (Nat × Nat) → List (Nat × Nat)
  | 0, _, acc => acc
  | fuel + 1, p, acc =>
    if p = 0 then acc
    else
      match tget p t with
      | none => acc
      | some e =>
        match e.piece with
        | some k => tracePath t byteBase text fuel e.start ((k, p - e.start) :: acc)
        | none =>
          let bs := (slice text e.start (p - e.start)).map fun x => (byteBase + x.toNat, 1)
          tracePath t byteBase text fuel e.start (bs ++ acc)

/-- The segmentation of a text from its units with their piece edges (R299 to R301): tokens with their byte lengths. -/
def segment (units : List ((Nat × Nat) × List (Nat × Nat × Int))) (byteBase : Nat) (byteScore : Int) (text : Bytes) :
    List (Nat × Nat) :=
  let t := units.foldl (fun t u => edgesFrom u.2 byteScore u.1 t) []
  tracePath t byteBase text (text.length + 1) text.length []

/-! ### The piece cache (R303) -/

/-- The entries of the piece cache: 4 MiB of 64 B. Log entry 88 (DESIGN CHOICE). -/
def cacheEntries : Nat := 65536

/-- One binary search of the sorted index, read in place: the NORMAL piece with given bytes between two places of the index. -/
def searchPiece (v : Image) (key : Bytes) : Nat → Nat → Nat → State → Nat × Option (Nat × Int) × State
  | 0, _, _, s => (stOk, none, s)
  | fuel + 1, lo, hi, s =>
    if hi ≤ lo then (stOk, none, s)
    else
      let mid := (lo + hi) / 2
      let ix := readTable v (vocIndex v.hdr + 4 * mid) 4 s
      if ix.1 ≠ stOk then (ix.1, none, ix.2.2)
      else
        let t := u32At ix.2.1 0
        let p := readPiece v t ix.2.2
        if p.1 ≠ stOk then (p.1, none, p.2.2.2)
        else if p.2.2.1 = key then (stOk, some (t, p.2.1.score), p.2.2.2)
        else if bytesLt key p.2.2.1 then searchPiece v key fuel lo mid p.2.2.2
        else searchPiece v key fuel (mid + 1) hi p.2.2.2

/-- The NORMAL piece with given bytes, from the cache or by a search; a full cache gives up an entry that nothing constrains.
Log entry 88 (DESIGN CHOICE). -/
def lookPiece (id : Nat) (v : Image) (key : Bytes) (s : State) : Nat × Option (Nat × Int) × State :=
  match s.tke.cache.find? fun c => c.vocab == id && c.key == key with
  | some c => (stOk, c.piece, s)
  | none =>
    let r := searchPiece v key 19 0 (vocNormal v.hdr) (modTke (fun k => { k with pieceMisses := sat32 (k.pieceMisses + 1) }) s)
    if r.1 ≠ stOk then r
    else
      let s := if r.2.2.tke.cache.length < cacheEntries then r.2.2
        else
          let d := drawNat r.2.2
          modTke (fun k => { k with cache := k.cache.eraseIdx (d.1 % cacheEntries) }) d.2
      (stOk, r.2.1, modTke (fun k => { k with cache := { vocab := id, key := key, piece := r.2.1 } :: k.cache }) s)

/-- The piece edges from a node: a piece of 1 to 64 bytes that ends at a node. -/
def pieceEdges (id : Nat) (v : Image) (text : Bytes) (start : Nat) : List Nat → State → Nat × List (Nat × Nat × Int) × State
  | [], s => (stOk, [], s)
  | e :: es, s =>
    let r := lookPiece id v (slice text start (e - start)) s
    if r.1 ≠ stOk then (r.1, [], r.2.2)
    else
      let rest := pieceEdges id v text start es r.2.2
      let here := match r.2.1 with
        | some p => [(p.1, e - start, p.2)]
        | none => []
      (rest.1, here ++ rest.2.1, rest.2.2)

/-- The units of a text with the piece edges from each, in text order; a table fault ends the search. -/
def textEdges (id : Nat) (v : Image) (text : Bytes) :
    List (Nat × Nat) → State → Nat × List ((Nat × Nat) × List (Nat × Nat × Int)) × State
  | [], s => (stOk, [], s)
  | u :: us, s =>
    let ends := ((u :: us).map fun x => x.1 + x.2).takeWhile fun e => decide (e ≤ u.1 + 64)
    let r := pieceEdges id v text u.1 ends s
    if r.1 ≠ stOk then (r.1, [], r.2.2)
    else
      let rest := textEdges id v text us r.2.2
      (rest.1, (u, r.2.1) :: rest.2.1, rest.2.2)

/-- The fields of TOKENIZE. -/
structure Tokenize where
  vocab : Nat
  max : Nat
  text : Nat
  len : Nat
  out : Nat
  deriving DecidableEq, Repr

/-- The fields of a TOKENIZE record. -/
def Tokenize.of (b : Bytes) : Tokenize :=
  { vocab := u32At b 16, max := u32At b 20, text := rec64 b 24, len := u32At b 32, out := rec64 b 40 }

/-- A TOKEN record whose read failed: its destination is poisoned, its result open. -/
def tokenFail (n q num status : Nat) (out : Loc) (len : Nat) (s : State) : State :=
  let f := drawBytes 8 (poisonLoc n out len s)
  endRecord n q num status f.1 f.2

/-- The directory entry of the longest listed prefix of the tokens (R304). -/
def prefixEntry (dir : Bytes) (count : Nat) (toks : List Nat) : Option Bytes :=
  let ks := ((List.range (toks.length / 256)).map fun i => 256 * (i + 1)).reverse
  ks.findSome? fun k =>
    let h := fnv1a ((toks.take k).map (leBytes 4)).flatten
    (List.range count).findSome? fun i =>
      let e := slice dir (32 * i) 32
      if u64At e 0 = h ∧ u32At e 8 = k then some e else none

/-- The read-ahead of the KV cache of the longest listed prefix (R304). Log entry 88 (DESIGN CHOICE). -/
def prefixReadAhead (n q num : Nat) (v : Image) (toks : List Nat) (s : State) : State :=
  let dirAt := vocPrefixDir v.hdr
  let cnt := vocPrefixCount v.hdr
  if dirAt = 0 ∨ toks.length < 256 then s
  else
    let d := readRange (localWho s n) n dirAt (32 * cnt) s
    if d.1 ≠ stOk then d.2.2
    else
      match prefixEntry d.2.1 cnt toks with
      | none => d.2.2
      | some e =>
        let s := modTke (fun t => { t with prefixHits := sat32 (t.prefixHits + 1) }) d.2.2
        let addr := u64At e 16
        let len := u32At e 12
        let granted := match governing s n addr with
          | some (_, i) => slotGrants i addr len (needRights 1 1)
          | none => false
        if granted then
          pump ((List.range (len / 4096)).foldl (fun s i =>
            issueTxn (Txn.make 1 1 n (addr + 4096 * i) 4096 0 [] (.readAhead (.queue (qKey n q) num))) s) s)
        else modTke (fun t => { t with prefixRefused := sat32 (t.prefixRefused + 1) }) s

/-- TOKENIZE's work (R302). -/
def tokenizeWork : RecBody := fun n q num b s =>
  let x := Tokenize.of b
  match vocabOf s x.vocab with
  | none => endRecord n q num stBadArg [] s
  | some v =>
    let out := locAt x.out
    if x.len = 0 then endRecord n q num stOk (zeros 8) s
    else
      let t := readLoc n (locAt x.text) x.len s
      let s := modTke (fun k => { k with textBytes := k.textBytes + x.len }) t.2.2
      let h := readHdr v s
      let v := h.2.1
      if t.1 ≠ stOk then tokenFail n q num t.1 out (4 * x.max) s
      else if h.1 ≠ stOk then tokenFail n q num h.1 out (4 * x.max) h.2.2
      else
        let es := textEdges x.vocab v t.2.1 (textUnits t.2.1.length 0 t.2.1) h.2.2
        if es.1 ≠ stOk then tokenFail n q num es.1 out (4 * x.max) es.2.2
        else
          let toks := segment es.2.1 (vocByteBase v.hdr) (vocByteScore v.hdr) t.2.1
          let kept := toks.take x.max
          let w := writeLoc n out ((kept.map fun k => leBytes 4 k.1).flatten) es.2.2
          let st := if w.1 ≠ stOk then w.1 else if kept.length < toks.length then stNoCapacity else stOk
          let used := (kept.map (·.2)).foldl (· + ·) 0
          let s := endRecord n q num st (leBytes 4 kept.length ++ leBytes 4 used) w.2
          prefixReadAhead n q num v (kept.map (·.1)) s

/-- TOKENIZE's fields are in range, its vocabulary the partition's, OUT apart from TEXT. -/
def tokenizeRanges (s : State) (n : Nat) (b : Bytes) : Bool :=
  let x := Tokenize.of b
  decide (x.len ≤ 2 ^ 30) && (taggedLoc x.text).isSome && (taggedLoc x.out).isSome
    && (match vocabOf s x.vocab with
        | some v => v.part == n
        | none => false)
    && !locOverlap (locAt x.text) x.len (locAt x.out) (4 * x.max)

/-- TOKENIZE. -/
def tokenizeBody : RecBody := fun n q num b s =>
  let x := Tokenize.of b
  checkedRecord (zeroAt b 36 4 && zeroAt b 48 16) (tokenizeRanges s n b)
    (locOk s n (locAt x.text) x.len && locOk s n (locAt x.out) (4 * x.max)) false tokenizeWork n q num b s

/-! ### STEP (R307 to R310) -/

/-- The stop strings that end at a position of P: (length, index). -/
def stopsAt (stops : List (Bool × Bytes)) (p : Bytes) (e : Nat) : List (Nat × Nat) :=
  stops.zipIdx.filterMap fun x =>
    let l := x.1.2.length
    if l ≤ e ∧ slice p (e - l) l = x.1.2 then some (l, x.2) else none

/-- The longest stop string, the lowest index on equal length. -/
def bestStop : List (Nat × Nat) → Option (Nat × Nat)
  | [] => none
  | x :: xs =>
    match bestStop xs with
    | some y => if y.1 ≤ x.1 then some x else some y
    | none => some x

/-- The first match among the new bytes: (end, length, index) (R309 step 1). -/
def stopMatch (stops : List (Bool × Bytes)) (held : Nat) (p : Bytes) : Option (Nat × Nat × Nat) :=
  (List.range (p.length - held)).findSome? fun i =>
    (bestStop (stopsAt stops p (held + 1 + i))).map fun m => (held + 1 + i, m.1, m.2)

/-- The bytes held back: the longest suffix that may still become a stop string or a character (R309 step 3). -/
def heldLen (stops : List (Bool × Bytes)) (p : Bytes) : Nat :=
  (((List.range p.length).map fun i => i + 1).filter fun k =>
    let suf := p.drop (p.length - k)
    utf8Prefix suf || stops.any fun x => decide (k < x.2.length) && x.2.take k == suf).foldl max 0

/-- Detokenization of an entry: the bytes written (R309). -/
def detok (id : Nat) (tb : Bytes) (s : State) : Bytes × State :=
  match strm s id with
  | none => ([], s)
  | some x =>
    let p := x.held ++ tb
    match stopMatch x.stops x.held.length p with
    | some (e, l, i) =>
      let incl := ((x.stops[i]?).map (·.1)).getD false
      let s := modStrm id (fun y => { y with held := [] }) s
      (p.take (if incl then e else e - l), if x.stopReason = 0 then stopStream id 1 i s else s)
    | none =>
      let h := if x.stopReason = 2 ∨ x.stopReason = 3 then 0 else heldLen x.stops p
      (p.take (p.length - h), modStrm id (fun y => { y with held := p.drop (p.length - h) }) s)

/-- A STEP entry: a status of a table fault, and the bytes written (R308, R310, R314). -/
def stepEntry (id t : Nat) (s : State) : Nat × Bytes × State :=
  match strm s id with
  | none => (stOk, [], s)
  | some x =>
    if x.stopReason ≠ 0 then (stOk, [], s)
    else
      match vocabOf s x.vocab with
      | none => (stOk, [], s)
      | some v =>
        let h := if t = noToken then (stOk, v, s) else readHdr v s
        let v := h.2.1
        let s := h.2.2
        if t = noToken then let d := detok id [] (stopStream id 3 0 s); (stOk, d.1, d.2)
        else if h.1 ≠ stOk then (h.1, [], s)
        else if vocTokens v.hdr ≤ t then let d := detok id [] (stopStream id 7 0 s); (stOk, d.1, d.2)
        else
          let p := readPiece v t s
          if p.1 ≠ stOk then (p.1, [], p.2.2.2)
          else
            let s := p.2.2.2
            if p.2.1.kind = 3 then let d := detok id [] (stopStream id 7 0 s); (stOk, d.1, d.2)
            else
              let tb := if p.2.1.kind = 0 then p.2.2.1
                else if p.2.1.kind = 1 then [BitVec.ofNat 8 (t - vocByteBase v.hdr)] else []
              let a := if x.grammar ≠ 0 then resolveToken id t s
                else if t = vocEos v.hdr then (stOk, stopStream id 2 0 s) else (stOk, s)
              if a.1 ≠ stOk then (a.1, [], a.2)
              else let d := detok id tb a.2; (stOk, d.1, d.2)

/-- The mask for a stream's next token permits nothing. -/
def maskEmpty (s : State) (x : Stream) : Bool :=
  if x.grammar = 0 then false
  else if x.halted then true
  else if x.maskReady then x.mask == 0
  else
    match strmTables s x with
    | some (g, v) => (confMask g v x.conf s).2.1 == 0
    | none => true

/-- The stop-state word (Table 10-2). -/
def stopWord (s : State) (id : Nat) : Nat :=
  match strm s id with
  | some x => x.stopReason + x.stopIndex * 2 ^ 8 + x.held.length * 2 ^ 16 + bit 24 (maskEmpty s x)
  | none => 0

/-- The fields of STEP. -/
structure StepRec where
  count : Nat
  inp : Nat
  text : Nat
  cap : Nat
  out : Nat
  deriving DecidableEq, Repr

/-- The fields of a STEP record. -/
def StepRec.of (b : Bytes) : StepRec :=
  { count := u16At b 16, inp := rec64 b 24, text := rec64 b 32, cap := u32At b 40, out := rec64 b 48 }

/-- The entries of a STEP record in order: (failing status, first status of a line not merged, the state). -/
def stepLoop (n : Nat) (x : StepRec) : List (Nat × Nat × Nat) → List (Bool × Nat) → Nat → State → Nat × Nat × State
  | [], _, wr, s => (stOk, wr, s)
  | (i, id, t) :: es, wrote, wr, s =>
    let e := stepEntry id t s
    let tl := (locAt x.text).plus (i * x.cap)
    let ol := (locAt x.out).plus (8 * i)
    if e.1 ≠ stOk then
      let s := poisonUnwritten n tl ((x.count - i) * x.cap) wrote e.2.2
      (e.1, wr, poisonUnwritten n ol (8 * (x.count - i)) wrote s)
    else
      let w1 := if e.2.1 = [] then (stOk, e.2.2) else writeLoc n tl e.2.1 e.2.2
      let w2 := writeLoc n ol (leBytes 4 e.2.1.length ++ leBytes 4 (stopWord w1.2 id)) w1.2
      let wrote := wrote ++ locLines tl e.2.1.length ++ locLines ol 8
      stepLoop n x es wrote (firstFail wr (firstFail w1.1 w2.1)) w2.2

/-- STEP's work. -/
def stepWork : RecBody := fun n q num b s =>
  let x := StepRec.of b
  let r := readLoc n (locAt x.inp) (8 * x.count) s
  if r.1 ≠ stOk then
    let s := poisonLoc n (locAt x.text) (x.count * x.cap) r.2.2
    endRecord n q num r.1 [] (poisonLoc n (locAt x.out) (8 * x.count) s)
  else
    let es := (List.range x.count).map fun i => (i, u16At r.2.1 (8 * i), u32At r.2.1 (8 * i + 4))
    let good := (List.range x.count).all (fun i => zeroAt r.2.1 (8 * i + 2) 2)
      && es.all fun e => match strm r.2.2 e.2.1 with
        | some st => st.part == n
        | none => false
    if !good then endRecord n q num stBadArg [] r.2.2
    else
      let s := modRunning n q num (fun y => { y with streams := es.map fun e => e.2.1 }) r.2.2
      let f := stepLoop n x es [] stOk s
      sampleAll (endRecord n q num (firstFail f.1 f.2.1) [] f.2.2)

/-- STEP. -/
def stepBody : RecBody := fun n q num b s =>
  let x := StepRec.of b
  checkedRecord (zeroAt b 18 6 && zeroAt b 44 4 && zeroAt b 56 8)
    (decide (1 ≤ x.count ∧ x.count ≤ 256) && decide (256 ≤ x.cap ∧ x.cap ≤ 65536) && (taggedLoc x.inp).isSome
      && (taggedLoc x.text).isSome && (taggedLoc x.out).isSome)
    (locOk s n (locAt x.inp) (8 * x.count) && locOk s n (locAt x.text) (x.count * x.cap)
      && locOk s n (locAt x.out) (8 * x.count)) false stepWork n q num b s

/-! ### The rows -/

/-- `SAMPLE`: 08 R257; also R246, R265, R268, R306, R313, R314, R316. -/
def execSample (t : Nat) (n : Fin 128) (q : Fin 16) (host : List (BitVec 8)) (s : State) : Outcome :=
  .next (startRecord 0x13 sampleBody t n q host s)
/-- `TOKENIZE`: 10 R302; also R198, R240, R246, R295, R299, R300, R301, R303, R304. -/
def execTokenize (t : Nat) (n : Fin 128) (q : Fin 16) (host : List (BitVec 8)) (s : State) : Outcome :=
  .next (startRecord 0x40 tokenizeBody t n q host s)
/-- `STEP`: 10 R307; also R246, R306, R308, R309, R310, R313, R314, R316, R474. -/
def execStep (t : Nat) (n : Fin 128) (q : Fin 16) (host : List (BitVec 8)) (s : State) : Outcome :=
  .next (startRecord 0x41 stepBody t n q host s)
/-- `MASK_READY`: 10 R315; also R295, R312. -/
def execMaskReady (t : Nat) (stream : Nat) (s : State) : Outcome := .next (maskReady t stream s)
/-- `RUNAHEAD_BUILD`: 10 R316; also R312. -/
def execRunaheadBuild (t : Nat) (stream : Nat) (s : State) : Outcome := .next (runaheadBuild t stream s)

end Sys2Proof.Machine
end

