-- ==== Sys2Proof/Machine/Collective.lean ====
section
/-! DEFINITION. Fused collectives (chapter 09): what a member sends, expects and writes under each kind and algorithm,
the progress of an operation, breaking and aborting, the COLLECTIVE record and the suffix of MATMUL. -/

namespace Sys2Proof.Machine

/-! ### Geometry (R273, R281 to R284) -/

/-- The state with the collective sequencer changed. -/
def modCol (f : Col → Col) (s : State) : State := { s with col := f s.col }

/-- The parked messages changed: what leaves or enters VC2's ring moves its stall bit (R280, 05 R150). -/
def setParked (f : List InMsg → List InMsg) (s : State) : State :=
  let t := modCol (fun c => { c with parked := f c.parked }) s
  (fins 8).foldl (fun t p => if parkedFlits s p 2 = parkedFlits t p 2 then t else afterTake p 2 t) t

/-- A message parked for an operation to come (R280). -/
def park (m : InMsg) (s : State) : State := setParked (· ++ [m]) s

/-- A slot. -/
def slotOf (s : State) (k : Nat) : Option Group := tget k s.col.slots

/-- The state with a slot changed. -/
def modSlot (k : Nat) (f : Group → Group) (s : State) : State := modCol (fun c => { c with slots := tmod k f c.slots }) s

/-- The state with the operation of a slot changed. -/
def modOp (k : Nat) (f : ColOp → ColOp) (s : State) : State := modSlot k (fun g => { g with op := g.op.map f }) s

/-- Members of a group. -/
def Group.size (g : Group) : Nat := g.members.length

/-- Elements of a segment, and bytes of an element. -/
def ColOp.es (o : ColOp) : Nat := fmtBytes o.fmt
def ColOp.seg (o : ColOp) : Nat := 3072 / o.es

/-- Segments of a block of `len` elements. -/
def ColOp.segs (o : ColOp) (len : Nat) : List Nat := List.range (ceilDiv len o.seg)

/-- The first element and the length of segment `k` of a block. -/
def ColOp.segRange (o : ColOp) (len k : Nat) : Nat × Nat := (k * o.seg, min o.seg (len - k * o.seg))

/-- q of R281. -/
def ColOp.q' (o : ColOp) (size : Nat) : Nat := o.seg * ceilDiv o.count (size * o.seg)

/-- P of R281: the segments a block or chunk number is multiplied by. -/
def ColOp.pitch (g : Group) (o : ColOp) : Nat :=
  if o.kind = 0 then o.q' g.size / o.seg else ceilDiv o.count o.seg

/-- The elements of chunk or block `c` of the vector: first element and length. -/
def ColOp.chunk (g : Group) (o : ColOp) (c : Nat) : Nat × Nat :=
  if o.kind = 0 then
    let q := o.q' g.size
    (c * q, min ((c + 1) * q) o.count - c * q)
  else (c * o.count, o.count)

/-- The bytes of elements of a byte string. -/
def ColOp.elems (o : ColOp) (b : Bytes) (off len : Nat) : Bytes := slice b (off * o.es) (len * o.es)

/-- Two members apart round the ring. -/
def ringBack (size i k : Nat) : Nat := (i + 2 * size - k % size) % size

/-- The parent of a member, its children, and whether `j` lies in the subtree of `m` (R283). -/
def treeParent (i : Nat) : Nat := (i - 1) / 8
/-- The children of a member in the tree (R283). -/
def treeChildren (size i : Nat) : List Nat := (List.range 8).filterMap fun k =>
  let c := 8 * i + 1 + k
  if c < size then some c else none
/-- Whether a member lies in the subtree of `m`, within the depth given (R283). -/
def inSubtree (m : Nat) : Nat → Nat → Bool
  | 0, j => j == m
  | fuel + 1, j => j == m || (decide (0 < j) && inSubtree m fuel (treeParent j))

/-- An accepted message. -/
def ColOp.have (o : ColOp) (src step seg : Nat) : Option Bytes :=
  (o.got.find? fun x => x.1 == src && x.2.1 == step && x.2.2.1 == seg).map fun x => x.2.2.2

/-- The local contribution's elements, once it is ready; of a suffix, once its tiles are produced. -/
def ColOp.own (o : ColOp) (off len : Nat) : Option Bytes :=
  if o.ready && (!o.fused || o.made.contains (off, len)) then some (o.elems o.src off len) else none

/-! ### Combining (R285) -/

/-- r ⊕ x on element codes; whether it counts as saturated. -/
def combine (redop fmt r x : Nat) : Nat × Bool :=
  let f := floatFmt fmt
  let a := f.decode r
  let b := f.decode x
  if redop = 0 then
    match a.add b with
    | .nan _ => (f.nanCode false, false)
    | .inf n => (f.infCode n, !f.ieee)
    | y => f.encode y
  else
    match a, b with
    | .nan _, _ => (f.nanCode false, false)
    | _, .nan _ => (f.nanCode false, false)
    | _, _ =>
      let w := f.exp + f.frac
      let key (c : Nat) : Int := if c.testBit w then -((c % 2 ^ w : Nat) : Int) - 1 else (c % 2 ^ w : Nat)
      if redop = 1 then (if key r < key x then x else r, false) else (if key x < key r then x else r, false)

/-- A value and how many of its elements were saturated in making it. -/
abbrev ColVal := Bytes × Nat

/-- Two segments combined element by element. -/
def combineSeg (o : ColOp) (r x : ColVal) : ColVal :=
  let es := (List.range (r.1.length / o.es)).map fun i =>
    combine o.redop o.fmt (fieldLe r.1 (i * o.es) o.es) (fieldLe x.1 (i * o.es) o.es)
  ((es.map fun e => leBytes o.es e.1).flatten, r.2 + x.2 + (es.filter (·.2)).length)

/-- Values combined in the listed order, if all are present (R286). -/
def combineAll (o : ColOp) : List (Option Bytes) → Option ColVal
  | [] => none
  | x :: xs => xs.foldl (fun acc y =>
      match acc, y with
      | some a, some b => some (combineSeg o a (b, 0))
      | _, _ => none) (x.map fun b => (b, 0))

/-! ### What a member sends, writes and expects -/

/-- A message to be sent: member, step, segment, its value once present. -/
structure ColSend where
  dest : Nat
  step : Nat
  seg : Nat
  data : Option ColVal
  deriving DecidableEq, Repr

/-- A destination range: first element, length, its value once present. -/
structure ColWrite where
  off : Nat
  len : Nat
  data : Option ColVal
  deriving DecidableEq, Repr

/-- Received bytes as a value. -/
def plain (b : Option Bytes) : Option ColVal := b.map fun x => (x, 0)

/-- A value that was counted where it was first used. -/
def counted (v : Option ColVal) : Option ColVal := v.map fun x => (x.1, 0)

/-- The segments of chunk `c`: segment number, first element of the vector, length. -/
def chunkSegs (g : Group) (o : ColOp) (c : Nat) : List (Nat × Nat × Nat) :=
  let b := o.chunk g c
  (o.segs b.2).map fun k =>
    let r := o.segRange b.2 k
    (c * ColOp.pitch g o + k, b.1 + r.1, r.2)

/-- The segments of a whole vector of COUNT elements. -/
def wholeSegs (o : ColOp) : List (Nat × Nat × Nat) :=
  (o.segs o.count).map fun k => let r := o.segRange o.count k; (k, r.1, r.2)

/-- The final value of a segment of the member's own chunk under the ring. -/
def ringFinal (g : Group) (o : ColOp) (x : Nat × Nat × Nat) : Option ColVal :=
  combineAll o [o.have (ringBack g.size g.self 1) (g.size - 2) x.1, o.own x.2.1 x.2.2]

/-- Sends of the ring (R282). -/
def ringSends (g : Group) (o : ColOp) : List ColSend :=
  let n := g.size
  let i := g.self
  let succ := (i + 1) % n
  let pred := ringBack n i 1
  if o.kind = 3 then
    if succ = o.root then []
    else (wholeSegs o).map fun x =>
      { dest := succ, step := 0, seg := x.1,
        data := plain (if i = o.root then o.own x.2.1 x.2.2 else o.have pred 0 x.1) }
  else
    let reduce := if o.kind = 2 then []
      else ((List.range (n - 1)).map fun s =>
        (chunkSegs g o (ringBack n i (s + 1))).map fun x =>
          { dest := succ, step := s, seg := x.1,
            data := if s = 0 then plain (o.own x.2.1 x.2.2)
              else combineAll o [o.have pred (s - 1) x.1, o.own x.2.1 x.2.2] : ColSend }).flatten
    let gather := if o.kind = 1 then []
      else ((List.range (n - 1)).map fun j =>
        (chunkSegs g o (ringBack n i j)).map fun x =>
          { dest := succ, step := n - 1 + j, seg := x.1,
            data := if j = 0 then
                (if o.kind = 2 then plain (o.own (x.2.1 - i * o.count) x.2.2) else counted (ringFinal g o x))
              else plain (o.have pred (n - 2 + j) x.1) : ColSend }).flatten
    reduce ++ gather

/-- Writes of the ring. -/
def ringWrites (g : Group) (o : ColOp) : List ColWrite :=
  let n := g.size
  let i := g.self
  let pred := ringBack n i 1
  if o.kind = 3 then
    (wholeSegs o).map fun x =>
      { off := x.2.1, len := x.2.2,
        data := plain (if i = o.root then o.own x.2.1 x.2.2 else o.have pred 0 x.1) }
  else
    let self := (chunkSegs g o i).map fun x =>
      { off := if o.kind = 1 then x.2.1 - i * o.count else x.2.1, len := x.2.2,
        data := if o.kind = 2 then plain (o.own (x.2.1 - i * o.count) x.2.2) else ringFinal g o x : ColWrite }
    let others := if o.kind = 1 then []
      else ((List.range (n - 1)).map fun j =>
        (chunkSegs g o (ringBack n i (j + 1))).map fun x =>
          { off := x.2.1, len := x.2.2, data := plain (o.have pred (n - 1 + j) x.1) : ColWrite }).flatten
    self ++ others

/-- Segments the ring expects: (from, step, segment, length). -/
def ringExpects (g : Group) (o : ColOp) : List (Nat × Nat × Nat × Nat) :=
  let n := g.size
  let i := g.self
  let pred := ringBack n i 1
  if o.kind = 3 then if i = o.root then [] else (wholeSegs o).map fun x => (pred, 0, x.1, x.2.2)
  else
    let reduce := if o.kind = 2 then []
      else ((List.range (n - 1)).map fun s =>
        (chunkSegs g o (ringBack n i (s + 2))).map fun x => (pred, s, x.1, x.2.2)).flatten
    let gather := if o.kind = 1 then []
      else ((List.range (n - 1)).map fun j =>
        (chunkSegs g o (ringBack n i (j + 1))).map fun x => (pred, n - 1 + j, x.1, x.2.2)).flatten
    reduce ++ gather

/-- The segments of the whole reduction under the tree: those of all blocks for reduce-scatter. -/
def treeSegs (g : Group) (o : ColOp) : List (Nat × Nat × Nat) :=
  if o.kind = 1 then ((List.range g.size).map fun c => chunkSegs g o c).flatten else wholeSegs o

/-- The block a segment of reduce-scatter or all-gather belongs to. -/
def segBlock (g : Group) (o : ColOp) (seg : Nat) : Nat := seg / ColOp.pitch g o

/-- R(i) of R286: own contribution, then each child's subtree result. -/
def treeUp (g : Group) (o : ColOp) (x : Nat × Nat × Nat) : Option ColVal :=
  combineAll o (o.own x.2.1 x.2.2 :: (treeChildren g.size g.self).map fun c => o.have c 0 x.1)

/-- The value that goes down the tree at a member. -/
def treeFinal (g : Group) (o : ColOp) (x : Nat × Nat × Nat) : Option ColVal :=
  if g.self = 0 then treeUp g o x else plain (o.have (treeParent g.self) 1 x.1)

/-- A broadcast segment at a member of the tree, as it sends it down. -/
def treeCast (g : Group) (o : ColOp) (x : Nat × Nat × Nat) : Option ColVal :=
  plain (if g.self = 0 then (if o.root = 0 then o.own x.2.1 x.2.2 else o.have o.root 0 x.1)
    else o.have (treeParent g.self) 1 x.1)

/-- A block of all-gather as a member has it: its own, from a child's subtree, or from its parent. -/
def treeBlock (g : Group) (o : ColOp) (c : Nat) (x : Nat × Nat × Nat) : Option ColVal :=
  if c = g.self then plain (o.own (x.2.1 - c * o.count) x.2.2)
  else
    match (treeChildren g.size g.self).find? fun k => inSubtree k 8 c with
    | some k => plain (o.have k 0 x.1)
    | none => plain (o.have (treeParent g.self) 1 x.1)

/-- Sends of the tree (R283). -/
def treeSends (g : Group) (o : ColOp) : List ColSend :=
  let n := g.size
  let i := g.self
  let kids := treeChildren n i
  let up : List ColSend :=
    if o.kind ≤ 1 then
      if i = 0 then [] else (treeSegs g o).map fun x => { dest := treeParent i, step := 0, seg := x.1, data := treeUp g o x }
    else if o.kind = 2 then
      if i = 0 then []
      else (((List.range n).filter fun c => inSubtree i 8 c).map fun c =>
        (chunkSegs g o c).map fun x => { dest := treeParent i, step := 0, seg := x.1, data := treeBlock g o c x : ColSend }).flatten
    else if i = o.root ∧ i ≠ 0 then
      (wholeSegs o).map fun x => { dest := 0, step := 0, seg := x.1, data := plain (o.own x.2.1 x.2.2) }
    else []
  let down : List ColSend :=
    (kids.map fun k =>
      if o.kind = 0 then (wholeSegs o).map fun x => { dest := k, step := 1, seg := x.1, data := counted (treeFinal g o x) : ColSend }
      else if o.kind = 1 then
        ((treeSegs g o).filter fun x => inSubtree k 8 (segBlock g o x.1)).map fun x =>
          { dest := k, step := 1, seg := x.1, data := treeFinal g o x : ColSend }
      else if o.kind = 2 then
        (((List.range n).filter fun c => !inSubtree k 8 c).map fun c =>
          (chunkSegs g o c).map fun x => { dest := k, step := 1, seg := x.1, data := treeBlock g o c x : ColSend }).flatten
      else (wholeSegs o).map fun x => { dest := k, step := 1, seg := x.1, data := treeCast g o x : ColSend }).flatten
  up ++ down

/-- Writes of the tree. -/
def treeWrites (g : Group) (o : ColOp) : List ColWrite :=
  let i := g.self
  if o.kind = 0 then (wholeSegs o).map fun x => { off := x.2.1, len := x.2.2, data := treeFinal g o x }
  else if o.kind = 1 then
    (chunkSegs g o i).map fun x => { off := x.2.1 - i * o.count, len := x.2.2, data := treeFinal g o x }
  else if o.kind = 2 then
    ((List.range g.size).map fun c => (chunkSegs g o c).map fun x =>
      { off := x.2.1, len := x.2.2, data := treeBlock g o c x : ColWrite }).flatten
  else
    (wholeSegs o).map fun x =>
      { off := x.2.1, len := x.2.2, data := if i = o.root then plain (o.own x.2.1 x.2.2) else treeCast g o x }

/-- Segments the tree expects. -/
def treeExpects (g : Group) (o : ColOp) : List (Nat × Nat × Nat × Nat) :=
  let n := g.size
  let i := g.self
  let kids := treeChildren n i
  let key (m step : Nat) (x : Nat × Nat × Nat) : Nat × Nat × Nat × Nat := (m, step, x.1, x.2.2)
  if o.kind = 0 then
    (kids.map fun k => (wholeSegs o).map (key k 0)).flatten
      ++ (if i = 0 then [] else (wholeSegs o).map (key (treeParent i) 1))
  else if o.kind = 1 then
    (kids.map fun k => (treeSegs g o).map (key k 0)).flatten
      ++ (if i = 0 then []
          else ((treeSegs g o).filter fun x => inSubtree i 8 (segBlock g o x.1)).map (key (treeParent i) 1))
  else if o.kind = 2 then
    (kids.map fun k => (((List.range n).filter fun c => inSubtree k 8 c).map fun c =>
        (chunkSegs g o c).map (key k 0)).flatten).flatten
      ++ (if i = 0 then []
          else (((List.range n).filter fun c => !inSubtree i 8 c).map fun c =>
            (chunkSegs g o c).map (key (treeParent i) 1)).flatten)
  else if i = 0 then (if o.root = 0 then [] else (wholeSegs o).map (key o.root 0))
  else (wholeSegs o).map (key (treeParent i) 1)

/-- The count received from a member of an all-to-all-v: its own send count for the member itself (R284). -/
def recvCount (g : Group) (o : ColOp) (j : Nat) : Option Nat :=
  if j = g.self then (if o.ready then some (o.sendCounts.getD j 0) else none) else (o.have j 0 0).map ofLe

/-- All the receive counts, once they have arrived. -/
def recvCounts (g : Group) (o : ColOp) : Option (List Nat) := allSome ((List.range g.size).map (recvCount g o))

/-- The sum of the elements of a list before an index. -/
def sumBefore (l : List Nat) (j : Nat) : Nat := (l.take j).foldl (· + ·) 0

/-- The other members in the order i + 1, i + 2, … -/
def othersFrom (g : Group) : List Nat := (List.range (g.size - 1)).map fun k => (g.self + 1 + k) % g.size

/-- Sends of all-to-all-v: the counts, then the blocks (R284). -/
def a2aSends (g : Group) (o : ColOp) : List ColSend :=
  if !o.ready then []
  else
    ((othersFrom g).map fun j =>
      { dest := j, step := 0, seg := 0, data := some (leBytes 4 (o.sendCounts.getD j 0), 0) : ColSend })
    ++ ((othersFrom g).map fun j =>
      let len := o.sendCounts.getD j 0
      let base := sumBefore o.sendCounts j
      (o.segs len).map fun k =>
        let r := o.segRange len k
        { dest := j, step := 1, seg := k, data := plain (o.own (base + r.1) r.2) : ColSend }).flatten

/-- Writes of all-to-all-v, once every count has arrived. -/
def a2aWrites (g : Group) (o : ColOp) : List ColWrite :=
  match recvCounts g o with
  | none => []
  | some rc =>
    ((List.range g.size).map fun j =>
      let len := rc.getD j 0
      let base := sumBefore rc j
      (o.segs len).map fun k =>
        let r := o.segRange len k
        { off := base + r.1, len := r.2,
          data := if j = g.self then plain (o.own (sumBefore o.sendCounts j + r.1) r.2) else plain (o.have j 1 k) :
          ColWrite }).flatten

/-- Segments all-to-all-v expects: a block's, once its count has arrived. -/
def a2aExpects (g : Group) (o : ColOp) : List (Nat × Nat × Nat × Nat) :=
  ((othersFrom g).map fun j =>
    match o.have j 0 0 with
    | some b => (o.segs (ofLe b)).map fun k => (j, 1, k, (o.segRange (ofLe b) k).2)
    | none => []).flatten

/-- Sends, writes and expected segments of an operation. -/
def colSends (g : Group) (o : ColOp) : List ColSend :=
  if o.kind = 4 then a2aSends g o else if g.algorithm = 0 then ringSends g o else treeSends g o
/-- What the operation writes at DST, by algorithm and kind. -/
def colWrites (g : Group) (o : ColOp) : List ColWrite :=
  if o.kind = 3 ∧ g.self = o.root ∧ o.same = true then []
  else if o.kind = 4 then a2aWrites g o else if g.algorithm = 0 then ringWrites g o else treeWrites g o
/-- The segments the operation waits for: source, step, segment, elements. -/
def colExpects (g : Group) (o : ColOp) : List (Nat × Nat × Nat × Nat) :=
  if o.kind = 4 then a2aExpects g o else if g.algorithm = 0 then ringExpects g o else treeExpects g o

/-! ### The tiles of a suffix (R277) -/

/-- The segments of a suffix's contribution in the order in which the boughs produce their tiles: (segment, first element, length).
Under the ring the chunks in the order the member sends them, its own last; under the tree ascending. -/
def madeOrder (g : Group) (o : ColOp) : List (Nat × Nat × Nat) :=
  if g.algorithm = 0 then ((List.range g.size).map fun j => chunkSegs g o (ringBack g.size g.self (j + 1))).flatten
  else treeSegs g o

/-- A produced segment has left staging: it went into the member's partial, sent or written. -/
def tileSpent (g : Group) (o : ColOp) (x : Nat × Nat × Nat) : Bool :=
  let base := if o.kind = 1 then g.self * o.count else 0
  o.written.contains (x.2.1 - base, x.2.2) && decide (base ≤ x.2.1)
    || o.sent.any fun e => e.2.2 == x.1 && (if g.algorithm = 0 then decide (e.2.1 < g.size - 1) else e.2.1 == 0 || g.self == 0)

/-- The staging bytes of a suffix. -/
def opStaged (g : Group) (o : ColOp) : Nat :=
  if o.fused then
    (((madeOrder g o).filter fun x => o.made.contains x.2 && !tileSpent g o x).map fun x => x.2.2 * o.es).foldl (· + ·) 0
  else 0

/-- The staging bytes in use counted anew. Log entry 151 (DESIGN CHOICE). -/
def restage (s : State) : State :=
  let bytes (g : Group) : Nat := (g.op.map (opStaged g)).getD 0
  modCol (fun c => { c with staging := (c.slots.map fun e => bytes e.2).foldl (· + ·) 0 }) s

/-- The next segments whose tiles find room in staging. Log entry 151 (DESIGN CHOICE). -/
def fitting (es : Nat) : Nat → List (Nat × Nat × Nat) → List (Nat × Nat)
  | _, [] => []
  | room, x :: xs => if x.2.2 * es ≤ room then x.2 :: fitting es (room - x.2.2 * es) xs else []

/-- The boughs produce tiles until staging is full: 4 MiB a record, 16 MiB in all; then they pause (R277).
Log entry 151 (DESIGN CHOICE). -/
def makeTiles (k : Nat) (s : State) : State :=
  match slotOf s k with
  | some g =>
    match g.op with
    | some o =>
      if o.fused && o.ready then
        let s := restage s
        let room := min (0x400000 - opStaged g o) (0x1000000 - s.col.staging)
        let new := fitting o.es room ((madeOrder g o).filter fun x => !o.made.contains x.2)
        restage (modOp k (fun o => { o with made := o.made ++ new }) s)
      else s
    | none => s
  | none => s

/-- A message of the running operation must wait in VC2's ring: a block before its sender's count (R284), a partial before the local
tile it is combined with (R277). Log entry 151 (DESIGN CHOICE). -/
def colBlocked (g : Group) (o : ColOp) (m : InMsg) : Bool :=
  let b := m.bytes
  let step := u16At b 12
  u8At b 0 == 0x40 && u8At b 1 == o.kind + 8 * o.redop && u8At b 2 == o.fmt &&
    (if o.kind = 4 then (o.have (u16At b 10) 0 0).isNone
     else o.fused && (if g.algorithm = 0 then decide (step < g.size - 1) else step == 0)
       && (madeOrder g o).any fun x => x.1 == u32At b 28 && !o.made.contains x.2)

/-! ### Messages (R279, R280) -/

/-- The tag under which the flits of a slot's operation are followed; above every transaction tag. -/
def colTag (slot opseq : Nat) : Nat := 65536 + slot + 256 * opseq

/-- The slot and OPSEQ behind a tag. -/
def colTagOf (tag : Nat) : Option (Nat × Nat) :=
  if 65536 ≤ tag then some ((tag - 65536) % 256, (tag - 65536) / 256) else none

/-- A collective message to a member (Table 9-3). -/
def colMsg (s : State) (g : Group) (mode fmt opseq lagM lagNs op dest step seg : Nat) (data : Bytes) : Bytes :=
  leBytes 1 op ++ leBytes 1 mode ++ leBytes 1 fmt ++ leBytes 1 0 ++ leBytes 2 (ownChip s) ++ leBytes 1 g.part
    ++ leBytes 1 (vget s.mm.gens (finOf 128 g.part)).toNat ++ leBytes 2 ((g.members.getD dest (0, 0)).1)
    ++ leBytes 2 g.self ++ leBytes 2 step ++ leBytes 2 data.length ++ leBytes 8 g.id ++ leBytes 4 opseq ++ leBytes 4 seg
    ++ leBytes 2 lagM ++ leBytes 2 0 ++ leBytes 4 lagNs ++ zeros 8 ++ data

/-- A message onto its port on VC2; none where no route is usable. -/
def colQueue (slot opseq chip seg prt : Nat) (b : Bytes) (s : State) : Option State :=
  (routePort s chip seg).map fun p => queueMsg p 2 1 prt (some (colTag slot opseq)) b s

/-- MODE of an operation. -/
def ColOp.mode (o : ColOp) : Nat := o.kind + 8 * o.redop

/-! ### Completion and failure (R278, R287 to R292) -/

/-- Messages of an operation that are not yet composed whole, or not yet acknowledged. -/
def colUnsent (s : State) (tag : Nat) : Bool :=
  (fins 8).any fun p => ((vget (port s p).link.tx 2).queue.any fun m => m.tag == some tag)
def colUnacked (s : State) (tag : Nat) : Bool :=
  (fins 8).any fun p => (port s p).link.replay.any fun f => f.msg == some tag

/-- The RESULT bytes of a collective (R278). -/
def colResult (g : Group) (o : ColOp) : Bytes :=
  if o.fused then leBytes 4 o.sat ++ leBytes 4 o.nans ++ leBytes 4 o.opseq ++ leBytes 2 o.lagMember
  else leBytes 4 o.opseq ++ leBytes 2 o.lagMember ++ leBytes 2 0 ++ leBytes 4 o.sat
    ++ leBytes 4 (if o.kind = 4 then ((recvCounts g o).getD []).foldl (· + ·) 0 else 0)

/-- The record of an operation ends. -/
def colEndRecord (g : Group) (o : ColOp) (status : Nat) (synth : Bool) (responder : Nat) (s : State) : State :=
  let s := endRecord o.part o.q o.num status (colResult g o) s
  modRunning o.part o.q o.num (fun r => { r with remote := o.localFail.isNone || synth, synth := synth,
                                                 responder := responder }) s

/-- The elements of DST. -/
def ColOp.dstElems (g : Group) (o : ColOp) : Nat := if o.kind = 2 then g.size * o.count else o.count

/-- The destination lines not yet finally written are poisoned (R292). -/
def colPoison (g : Group) (o : ColOp) (s : State) : State :=
  if o.kind = 3 ∧ g.self = o.root ∧ o.same = true then s
  else
    let l := locAt o.dst
    poisonRest o.part l (ColOp.dstElems g o * o.es) (o.written.map fun w => (w.1 * o.es, w.2 * o.es)) s

/-- Messages of an operation not yet begun are no longer composed (R291 step 2). -/
def colStopSending (tag : Nat) (s : State) : State :=
  (fins 8).foldl (fun s p => modLink p (fun l => { l with tx := vmod l.tx 2 fun v =>
    { v with queue := v.queue.filter fun m => m.tag != some tag || m.sent != 0 } }) s) s

/-- The parked messages of an operation discarded. -/
def dropParked (gid opseq : Nat) (s : State) : State :=
  setParked (·.filter fun m => !(u64At m.bytes 16 == gid && u32At m.bytes 24 == opseq)) s

/-- The slot's operation has ended: the laggard record takes the largest lateness seen (R289), and its staging is free. -/
def colRelease (k : Nat) (o : ColOp) (s : State) : State :=
  restage (modSlot k (fun g => { g with op := none, laggard := o.lagMember, laggardNs := o.lagNs }) s)

/-- The running operation of a slot ends with a failure. -/
def colFailOp (k : Nat) (g : Group) (o : ColOp) (status responder : Nat) (s : State) : State :=
  let s := colStopSending (colTag k o.opseq) s
  let s := if status = stPoisoned ∨ status = stIntegrityFail then colPoison g o s else s
  let s := colRelease k o s
  colEndRecord g { o with localFail := none } status true responder s

/-- This member breaks a group (R290, R291). -/
def breakGroup (k status : Nat) (s : State) : State :=
  match slotOf s k with
  | none => s
  | some g =>
    if g.broken.isSome then s
    else
      let s := modSlot k (fun g => { g with broken := some status }) s
      let s := modCol (fun c => { c with abortsSent := sat32 (c.abortsSent + 1) }) s
      let opseq := match g.op with
        | some o => o.opseq
        | none => g.opSeq
      let s := match g.op with
        | some o => colStopSending (colTag k o.opseq) s
        | none => s
      let data := leBytes 2 status ++ leBytes 2 g.self
      let mode := (g.op.map ColOp.mode).getD 0
      let fmt := (g.op.map (·.fmt)).getD 0
      let lagM := (g.op.map (·.lagMember)).getD 0xFFFF
      let lagN := (g.op.map (·.lagNs)).getD 0
      let s := (othersFrom g).foldl (fun s j =>
        let b := colMsg s g mode fmt opseq lagM lagN 0x42 j 0xFFFF 0 data
        match routePort s (g.members.getD j (0, 0)).1 0 with
        | some p => queueMsg p 2 1 g.part none b s
        | none => s) s
      match g.op with
      | some o => colFailOp k g o status (ownChip s) s
      | none => s

/-- Every slot of a partition breaks (R272). -/
def breakSlotsOf (n status : Nat) (s : State) : State :=
  ((s.col.slots.filter fun e => e.2.part == n).map (·.1)).foldl (fun s k => breakGroup k status s) s

/-- Slots with a running operation that `p` selects break. -/
def breakRunning (p : Group → Bool) (status : Nat) (s : State) : State :=
  ((s.col.slots.filter fun e => e.2.op.isSome && p e.2).map (·.1)).foldl (fun s k => breakGroup k status s) s

/-- A link down discarded messages of running operations (R290). -/
def colLinkLost (p : Fin 8) (s : State) : State :=
  let l := (port s p).link
  let lost (tag : Nat) : Bool :=
    ((vget l.tx 2).queue.any fun m => m.tag == some tag) || l.replay.any fun f => f.msg == some tag
  ((s.col.slots.filter fun e => match e.2.op with
      | some o => lost (colTag e.1 o.opseq)
      | none => false).map (·.1)).foldl (fun s k => breakGroup k stLinkDown s) s

/-- The members the running operation sends to or awaits messages from. Log entry 165 (DEDUCED). -/
def colPeers (g : Group) : List Nat :=
  match g.op with
  | some o => if o.kind = 4 then othersFrom g else (colSends g o).map (·.dest) ++ (colExpects g o).map (·.1)
  | none => []

/-- A port is on the path to a member with which the running operation exchanges messages. Log entry 165 (DEDUCED). -/
def colUsesPort (s : State) (g : Group) (p : Fin 8) : Bool :=
  ((colPeers g).eraseDups).any fun j => match pathCode s (g.members.getD j (0, 0)).1 with
    | some c => (pathPorts s c).contains p
    | none => false

/-- VC2 of a port wedged, here or at the partner (R290). -/
def colWedged (p : Fin 8) (s : State) : State := breakRunning (fun g => colUsesPort s g p) stVcWedged s

/-! ### Progress -/

/-- A message that can be sent is sent. -/
def colSendOne (k : Nat) (x : ColSend) (s : State) : State :=
  match slotOf s k with
  | none => s
  | some g =>
    match g.op, x.data with
    | some o, some v =>
      if o.sent.contains (x.dest, x.step, x.seg) then s
      else
        let op := if o.kind = 4 ∧ x.step = 0 then 0x41 else 0x40
        let b := colMsg s g o.mode o.fmt o.opseq o.lagMember o.lagNs op x.dest x.step x.seg v.1
        match colQueue k o.opseq (g.members.getD x.dest (0, 0)).1 x.seg g.part b s with
        | some s => modOp k (fun o => { o with sent := (x.dest, x.step, x.seg) :: o.sent, sat := o.sat + v.2 }) s
        | none => breakGroup k stNoRoute s
    | _, _ => s

/-- The NaN elements of a value. -/
def nanCount (fmt : Nat) (b : Bytes) : Nat :=
  let es := fmtBytes fmt
  ((List.range (b.length / es)).filter fun i => match (floatFmt fmt).decode (fieldLe b (i * es) es) with
    | .nan _ => true
    | _ => false).length

/-- A destination range whose value is final is written. -/
def colWriteOne (k : Nat) (x : ColWrite) (s : State) : State :=
  match slotOf s k with
  | none => s
  | some g =>
    match g.op, x.data with
    | some o, some v =>
      if o.written.contains (x.off, x.len) then s
      else
        let w := writeLoc o.part ((locAt o.dst).plus (x.off * o.es)) v.1 s
        modOp k (fun o => { o with
          written := (x.off, x.len) :: o.written, sat := o.sat + v.2
          nans := o.nans + (if o.fused then nanCount o.fmt v.1 else 0)
          localFail := if w.1 = stOk then o.localFail else some (o.localFail.getD w.1) }) (noteMirrors o.part o.q o.num w.2)
    | _, _ => s

/-- The receive counts of an all-to-all-v are written when all have arrived; too many break the group (R284). -/
def colCounts (k : Nat) (s : State) : State :=
  match slotOf s k with
  | none => s
  | some g =>
    match g.op with
    | none => s
    | some o =>
      match if o.kind = 4 ∧ o.countsDone = false then recvCounts g o else none with
      | none => s
      | some rc =>
        let w := writeLoc o.part ((locAt o.counts).plus (4 * g.size)) ((rc.map (leBytes 4)).flatten) s
        let s := modOp k (fun o => { o with
          countsDone := true, localFail := if w.1 = stOk then o.localFail else some (o.localFail.getD w.1) })
          (noteMirrors o.part o.q o.num w.2)
        if o.count < rc.foldl (· + ·) 0 then breakGroup k stNoCapacity s else s

/-- The operation of a slot goes on: counts, writes, sends. -/
def colProgress (k : Nat) (s : State) : State :=
  let s := colCounts k s
  let s := match slotOf s k with
    | some g =>
      (match g.op with
       | some o => (colWrites g o).foldl (fun s x => colWriteOne k x s) s
       | none => s)
    | none => s
  match slotOf s k with
  | some g =>
    match g.op with
    | some o => (colSends g o).foldl (fun s x => colSendOne k x s) s
    | none => s
  | none => s

/-- An operation has written its whole result and every message it had to send is acknowledged (R287). -/
def colFinished (s : State) (k : Nat) (g : Group) (o : ColOp) : Bool :=
  o.ready && (o.kind != 4 || o.countsDone)
    && (colWrites g o).all (fun x => o.written.contains (x.off, x.len))
    && (colSends g o).all (fun x => o.sent.contains (x.dest, x.step, x.seg))
    && !colUnsent s (colTag k o.opseq) && !colUnacked s (colTag k o.opseq)

/-- The operation of a slot completes, if it is finished: the laggard record, and its record. -/
def colComplete (k : Nat) (s : State) : State :=
  match slotOf s k with
  | none => s
  | some g =>
    match g.op with
    | none => s
    | some o =>
      if !colFinished s k g o then s
      else
        let s := colRelease k o s
        colEndRecord g o (o.localFail.getD stOk) false (if o.localFail.isSome then 0 else ownChip s) s

/-! ### Acceptance (R280, R288 to R291) -/

/-- A message discarded as unmatched, or as late. -/
def colUnmatched (s : State) : State := modCol (fun c => { c with unmatched := sat32 (c.unmatched + 1) }) s
def colLate (s : State) : State := modCol (fun c => { c with late := sat32 (c.late + 1) }) s

/-- The slot that holds a GROUP_ID. -/
def slotById (s : State) (gid : Nat) : Option (Nat × Group) := s.col.slots.find? fun e => e.2.id == gid

/-- A message's lateness is taken up: the largest, the lower member on equal lateness (R289). -/
def colLag (m ns : Nat) (o : ColOp) : ColOp :=
  if m = 0xFFFF then o
  else if o.lagNs < ns ∨ (o.lagNs = ns ∧ m < o.lagMember) then { o with lagMember := m, lagNs := ns } else o

/-- A member's generation as this slot has seen it; a change breaks the group (R290). -/
def genChanged (g : Group) (frm gen : Nat) : Bool :=
  match tget frm g.lastGen with
  | some x => x != gen
  | none => false

/-- A message of the running operation: accepted, or a disagreement that breaks the group. -/
def colTake (k : Nat) (g : Group) (o : ColOp) (m : InMsg) (s : State) : State :=
  let b := m.bytes
  let frm := u16At b 10
  let step := u16At b 12
  let seg := u32At b 28
  let len := u16At b 14
  let data := b.drop 48
  if genChanged g frm (u8At b 7) then breakGroup k stPeerReset s
  else
    let s := modSlot k (fun g => { g with lastGen := tset frm (u8At b 7) g.lastGen }) s
    if u8At b 1 ≠ o.mode ∨ u8At b 2 ≠ o.fmt ∨ data.length ≠ len then breakGroup k stBadArg s
    else if u8At b 0 = 0x41 then
      if o.kind ≠ 4 ∨ step ≠ 0 ∨ len ≠ 4 ∨ (o.have frm 0 0).isSome = true then breakGroup k stBadArg s
      else
        modOp k (fun o => { colLag (u16At b 32) (u32At b 36) o with got := (frm, 0, 0, data) :: o.got, timer := s.now }) s
    else if (colExpects g o).contains (frm, step, seg, len / o.es) && len % o.es == 0
        && (o.have frm step seg).isNone then
      let s := modSlot k (fun g => { g with segsIn := sat32 (g.segsIn + 1) }) s
      modOp k (fun o => { colLag (u16At b 32) (u32At b 36) o with got := (frm, step, seg, data) :: o.got,
                                                                  timer := s.now }) s
    else breakGroup k stBadArg s

/-- The parked messages of the running operation taken, each once nothing holds it back. -/
def takeParked (k : Nat) : Nat → State → State
  | 0, s => s
  | fuel + 1, s =>
    match slotOf s k with
    | some g =>
      match g.op with
      | some o =>
        let mine (m : InMsg) : Bool := u64At m.bytes 16 == g.id && u32At m.bytes 24 == o.opseq && !colBlocked g o m
        match s.col.parked.find? mine with
        | some m => takeParked k fuel (colTake k g o m (setParked (·.erase m) s))
        | none => s
      | none => s
    | none => s

/-- The segments a slot's suffix has produced. -/
def madeCount (k : Nat) (s : State) : Nat := (((slotOf s k).bind (·.op)).map fun o => o.made.length).getD 0

/-- The operation of a slot goes on as far as it can: parked messages, tiles, counts, writes, sends. -/
def colAdvance (k : Nat) : Nat → State → State
  | 0, s => s
  | fuel + 1, s =>
    let t := colProgress k (makeTiles k (takeParked k (s.col.parked.length + 1) s))
    if madeCount k s < madeCount k t then colAdvance k fuel t else restage t

/-- The operation of a slot goes on. -/
def colGo (k : Nat) (s : State) : State :=
  let n := (((slotOf s k).bind fun g => g.op.map fun o => if o.fused then (madeOrder g o).length else 0)).getD 0
  colAdvance k (n + 1) s

/-- A message parked for an operation to come; the first one's acceptance is kept (R289). -/
def parkFor (k opseq : Nat) (m : InMsg) (s : State) : State :=
  park m (modSlot k (fun g => if thas opseq g.firstAt then g else { g with firstAt := tset opseq m.at_ g.firstAt }) s)

/-- A SEG or COUNTS message for this chip (R280). -/
def colReceive (m : InMsg) (s : State) : State :=
  let b := m.bytes
  match slotById s (u64At b 16) with
  | none => colUnmatched s
  | some (k, g) =>
    if g.broken.isSome ∨ g.size ≤ u16At b 10 ∨ b.length < 48 then colUnmatched s
    else
      let x := u32At b 24
      let cur := match g.op with
        | some o => o.opseq
        | none => g.opSeq
      let d := (x + 2 ^ 32 - cur) % 2 ^ 32
      if 2 ^ 31 ≤ d then colLate s
      else
        match g.op with
        | some o =>
          if d = 0 then if colBlocked g o m then park m s else colGo k (colTake k g o m s)
          else parkFor k x m s
        | none => parkFor k x m s

/-- A collective message of an OP for this chip. -/
def isColMsg (s : State) (op : Nat) (m : InMsg) : Bool :=
  m.typ == 1 && u8At m.bytes 0 == op && m.vc == 2 && !isTransit s m

/-- SEG. -/
def seg (t : Nat) (s : State) : State :=
  let s := s.at t
  if cutStopped s then s
  else
    match takeMsg (isColMsg s 0x40) s with
    | some (m, s') => awaitLag s (colReceive m s')
    | none => s

/-- COUNTS. -/
def countsMsg (t : Nat) (s : State) : State :=
  let s := s.at t
  if cutStopped s then s
  else
    match takeMsg (isColMsg s 0x41) s with
    | some (m, s') => awaitLag s (colReceive m s')
    | none => s

/-- An accepted ABORT (R291). -/
def colAbort (m : InMsg) (s : State) : State :=
  let b := m.bytes
  match slotById s (u64At b 16) with
  | none => colUnmatched s
  | some (k, g) =>
    if g.broken.isSome then colUnmatched s
    else
      let status := u16At b 48
      let s := modCol (fun c => { c with abortsGot := sat32 (c.abortsGot + 1) }) s
      let s := modSlot k (fun g => { g with broken := some status }) s
      match g.op with
      | some o => colFailOp k g o status (u16At b 4 % 1024) s
      | none => s

/-- ABORT. -/
def abortMsg (t : Nat) (s : State) : State :=
  let s := s.at t
  if cutStopped s then s
  else
    match takeMsg (isColMsg s 0x42) s with
    | some (m, s) => colAbort m s
    | none => s

/-- COL_TIMEOUT in ns. -/
def colT (s : State) : Nat := s.cfg.colTimeoutUs * 1000

/-- COL_TIMEOUT: the timer of a running operation expires (R288). -/
def colTimeout (t : Nat) (k : Fin 256) (s : State) : State :=
  let s := s.at t
  match slotOf s k.val with
  | some g =>
    match g.op with
    | some o =>
      let waits := (colExpects g o).any (fun x => (o.have x.1 x.2.1 x.2.2.1).isNone)
        || (o.kind == 4 && (recvCounts g o).isNone)
      let allSent := !(colUnsent s (colTag k.val o.opseq))
      if o.ready && waits && allSent && !colFinished s k.val g o && !cutStopped s && decide (o.timer + colT s ≤ s.now) then
        breakGroup k.val stTimeout s
      else s
    | none => s
  | none => s

/-- PARK_EXPIRE: parked messages older than COL_TIMEOUT are discarded (R280). -/
def parkExpire (t : Nat) (s : State) : State :=
  let s := s.at t
  if cutStopped s then s
  else
    let old (m : InMsg) : Bool := decide (m.at_ + colT s ≤ s.now)
    setParked (·.filter fun m => !old m)
      (modCol (fun c => { c with parkExpired := sat32 (c.parkExpired + (c.parked.filter old).length) }) s)

/-! ### Posting (R273 to R278) -/

/-- The slot that a record names, if it uses one. -/
def recordSlot (b : Bytes) : Option Nat :=
  if u8At b 0 = 0x30 then some (u16At b 16) else if u8At b 0 = 0x10 ∧ recFlag b 4 = true then some (u16At b 12) else none

/-- No other operation runs on the record's slot (R275). -/
def slotFree (s : State) (b : Bytes) : Bool :=
  match recordSlot b with
  | some k => (match slotOf s k with
    | some g => g.op.isNone
    | none => true)
  | none => true

/-- The operation takes the slot with its lateness (R275, R289). -/
def colEnter (k : Nat) (g : Group) (o : ColOp) (s : State) : State :=
  let late := min (s.now - tgetD g.opSeq s.now g.firstAt) 0xFFFFFFFF
  let o := { o with opseq := g.opSeq, start := s.now, timer := s.now,
                    lagMember := if late = 0 then 0xFFFF else g.self, lagNs := late }
  modSlot k (fun g => { g with op := some o, opSeq := (g.opSeq + 1) % 2 ^ 32, firstAt := tdel g.opSeq g.firstAt }) s

/-- The operation takes the slot and goes on as far as it can. Log entry 91 (DEDUCED). -/
def colBegin (k : Nat) (g : Group) (o : ColOp) (s : State) : State := colGo k (colEnter k g o s)

/-- A record whose slot is BROKEN completes with the breaking status (R275). -/
def endBroken (n q num status : Nat) (s : State) : State :=
  endRemote n q num (statusWord status true (ownChip s)) [] s

/-- The fields of COLLECTIVE. Log entry 91 (DEDUCED). -/
structure Collective where
  slot : Nat
  kind : Nat
  redop : Nat
  fmt : Nat
  root : Nat
  src : Nat
  dst : Nat
  count : Nat
  counts : Nat
  deriving DecidableEq, Repr

/-- The fields of a COLLECTIVE record. -/
def Collective.of (b : Bytes) : Collective :=
  { slot := u16At b 16, kind := u8At b 18, redop := u8At b 19, fmt := u8At b 20, root := u16At b 22, src := rec64 b 24,
    dst := rec64 b 32, count := rec64 b 40, counts := rec64 b 48 }

/-- SRC's and DST's elements (Table 9-2), `sends` the send counts of all-to-all-v. -/
def Collective.srcElems (x : Collective) (size : Nat) (sends : List Nat) : Nat :=
  if x.kind = 1 then size * x.count else if x.kind = 4 then sends.foldl (· + ·) 0 else x.count
def Collective.dstElems (x : Collective) (size : Nat) : Nat := if x.kind = 2 then size * x.count else x.count

/-- COLLECTIVE's own fields are in range (R274). -/
def collectiveFields (x : Collective) (g : Group) : Bool :=
  decide (x.kind ≤ 4) && decide (x.redop ≤ 2) && (x.redop == 0 || decide (x.kind ≤ 1)) && decide (x.fmt ≤ 4)
    && (if x.kind = 3 then decide (x.root < g.size) else x.root == 0) && x.count != 0
    && (x.counts == 0 || x.kind == 4) && (taggedLoc x.dst).isSome && (taggedLoc x.counts).isSome
    && ((taggedLoc x.src).isSome || (x.kind == 3 && g.self != x.root))

/-- The member reads SRC: every one but those of a broadcast other than ROOT. -/
def usesSrc (x : Collective) (g : Group) : Bool := x.kind != 3 || g.self == x.root

/-- The sizes are at most 64 GiB and DST does not partly overlap SRC (R274). Log entry 168 (DEDUCED). -/
def collectiveSizes (x : Collective) (g : Group) (sends : List Nat) : Bool :=
  let es := fmtBytes x.fmt
  let sb := x.srcElems g.size sends * es
  let db := x.dstElems g.size * es
  let lim := 64 * 2 ^ 30
  decide (db ≤ lim) && (!usesSrc x g || (decide (sb ≤ lim)
    && (!locOverlap (locAt x.dst) db (locAt x.src) sb
        || (x.dst == x.src && db == sb && (x.kind == 0 || x.kind == 3)))))

/-- The operation of a COLLECTIVE record before it takes its slot. -/
def Collective.op (x : Collective) (n q num : Nat) (sends : List Nat) : ColOp :=
  { opseq := 0, kind := x.kind, redop := x.redop, fmt := x.fmt, count := x.count, root := x.root, src := [], ready := true,
    dst := x.dst, same := x.dst == x.src, counts := x.counts, sendCounts := sends, countsDone := false, part := n, q := q,
    num := num, fused := false, start := 0, got := [], sent := [], written := [], made := [], lagMember := 0xFFFF, lagNs := 0,
    timer := 0, sat := 0, nans := 0, localFail := none }

/-- COLLECTIVE's work once its checks have passed. Log entry 91 (DEDUCED). -/
def collectiveStart (k : Nat) (g : Group) (x : Collective) (sends : List Nat) : RecBody := fun n q num _ s =>
  match g.broken with
  | some st => endBroken n q num st s
  | none =>
    let d := if usesSrc x g then readLoc n (locAt x.src) (x.srcElems g.size sends * fmtBytes x.fmt) s else (stOk, [], s)
    let o := { Collective.op x n q num sends with src := d.2.1 }
    if d.1 = stOk then colBegin k g o d.2.2
    else
      let s := colEnter k g o d.2.2
      breakGroup k d.1 (takeParked k (s.col.parked.length + 1) s)

/-- COLLECTIVE. -/
def collectiveBody : RecBody := fun n q num b s =>
  let x := Collective.of b
  if !zeroAt b 21 1 || !zeroAt b 56 8 then endRecord n q num stBadArg [] s
  else
    match slotOf s x.slot with
    | none => endRecord n q num stBadArg [] s
    | some g =>
      if g.part ≠ n ∨ collectiveFields x g = false then endRecord n q num stBadArg [] s
      else
        let go (sends : List Nat) (s : State) : State :=
          if !collectiveSizes x g sends then endRecord n q num stBadArg [] s
          else
            let es := fmtBytes x.fmt
            let ok := locOk s n (locAt x.dst) (x.dstElems g.size * es)
              && (!usesSrc x g || locOk s n (locAt x.src) (x.srcElems g.size sends * es))
            if !ok then endRecord n q num stAccessDenied [] s
            else if decide (x.kind ≤ 1) && (activeBoughs s n).isEmpty then endRecord n q num stNoResource [] s
            else collectiveStart x.slot g x sends n q num b s
        if x.kind = 4 then
          if 64 * 2 ^ 30 < x.dstElems g.size * fmtBytes x.fmt then endRecord n q num stBadArg [] s
          else if !locOk s n (locAt x.counts) (8 * g.size) then endRecord n q num stAccessDenied [] s
          else
            match g.broken with
            | some st => endBroken n q num st s
            | none =>
              let c := readLoc n (locAt x.counts) (4 * g.size) s
              if c.1 = stOk then go ((List.range g.size).map fun j => u32At c.2.1 (4 * j)) c.2.2
              else breakGroup x.slot c.1 (colEnter x.slot g (Collective.op x n q num []) c.2.2)
        else go [] s

/-! ### MATMUL and its suffix (R261, R276) -/

/-- The suffix of a MATMUL is in range: KIND 0 or 1, a REDOP, a VEC format, a whole number of blocks. -/
def suffixOk (b : Bytes) (g : Group) : Bool :=
  let x := Matmul.of b
  decide (u8At b 14 ≤ 1) && decide (u8At b 15 ≤ 2) && !isIntFmt x.fa && decide (x.fc ≤ 4)
    && (u8At b 14 == 0 || x.m * x.n % g.size == 0)

/-- The contribution of a MATMUL with a suffix is computed, and its collective goes on; a failing read breaks the
group. -/
def suffixFeed (k n q num : Nat) (s : State) : State :=
  match running s n q num with
  | none => s
  | some r =>
    let m := matmulOutput n r s
    match m.2.1 with
    | [] =>
      let x := Matmul.of r.bytes
      let src := (m.1.map fun e => leBytes (fmtBytes x.fc) ((e.map (·.code)).getD 0)).flatten
      let sat := (m.1.filter fun e => (e.map (·.sat)).getD false).length
      let s := modOp k (fun o => { o with src := src, ready := true, sat := o.sat + sat, timer := m.2.2.now }) m.2.2
      colGo k s
    | st :: _ => breakGroup k (st % 2 ^ 16) m.2.2

/-- A MATMUL with a suffix starts: its operation takes the slot, and its contribution follows. -/
def suffixWork (k : Nat) (g : Group) : RecBody := fun n q num b s =>
  match g.broken with
  | some st => endBroken n q num st s
  | none =>
    let x := Matmul.of b
    let kind := u8At b 14
    let count := if kind = 0 then x.m * x.n else x.m * x.n / g.size
    let dst := if kind = 0 then x.c else x.c + g.self * count * fmtBytes x.fc
    let o : ColOp := { opseq := 0, kind := kind, redop := u8At b 15, fmt := x.fc, count := count, root := 0, src := [],
                       ready := false, dst := dst, same := false, counts := 0, sendCounts := [], countsDone := false,
                       part := n, q := q, num := num, fused := true, start := 0, got := [], sent := [], written := [], made := [],
                       lagMember := 0xFFFF, lagNs := 0, timer := 0, sat := 0, nans := 0, localFail := none }
    let s := colBegin k g o s
    if (tailReads s n x).isEmpty then suffixFeed k n q num s else matmulTail n q num x s

/-- MATMUL's work without a suffix: at once, or once its lent tail has arrived. -/
def matmulWork : RecBody := fun n q num b s =>
  let x := Matmul.of b
  if (tailReads s n x).isEmpty then matmulFinish n q num s else matmulTail n q num x s

/-- MATMUL. -/
def matmulBody : RecBody := fun n q num b s =>
  if !recFlag b 4 then
    checkedRecord (matmulReserved b) (matmulRanges s n b) (matmulOperands s n b) true matmulWork n q num b s
  else
    let k := u16At b 12
    match slotOf s k with
    | none => endRecord n q num stBadArg [] s
    | some g =>
      checkedRecord (matmulReserved b) (matmulRanges s n b && g.part == n && suffixOk b g) (matmulOperands s n b) true
        (suffixWork k g) n q num b s

/-- A record that waits while its slot is in use. Log entry 91 (DEDUCED). -/
def startOnSlot (op : Nat) (body : RecBody) (t : Nat) (n : Fin 128) (q : Fin 16) (host : Bytes) (s : State) : State :=
  match queue (s.at t) n q with
  | none => s.at t
  | some x => if slotFree (s.at t) (fetchRec n x host (s.at t)).2.1 then startRecord op body t n q host s else s.at t

/-! ### RECORD_COMPLETE (08 R248) -/

/-- What is left of a record in progress is done where it can be: the MATMUL whose lent tail has arrived, the
collective whose messages are acknowledged, the SAMPLE whose masks are ready. -/
def settleRecord (n q num : Nat) (s : State) : State :=
  match running s n q num with
  | none => s
  | some r =>
    if r.done then s
    else
      match recordSlot r.bytes with
      | some k =>
        (match (slotOf s k).bind (·.op) with
         | some o =>
           let s := if o.fused && !o.ready && r.txnsLeft == 0 then suffixFeed k n q num s else s
           colComplete k s
         | none => s)
      | none =>
        if u8At r.bytes 0 = 0x10 ∧ r.txnsLeft = 0 ∧ q / 4 = 0 then matmulFinish n q num s
        else if u8At r.bytes 0 = 0x13 ∧ q / 4 = 0 then sampleRun n q num s
        else s

/-- A MATH record waits for a bough whose twig core is halted (12 R369). -/
def boughHalted (s : State) (n q : Nat) : Bool :=
  q / 4 == 0 && (activeBoughs s n).any fun b => ((tget b s.obs.harts).map (·.halted)) == some true

/-- RECORD_COMPLETE: a record that has ended, and whose writes the synchronous mirrors have answered, completes
(R248, 11 R339). -/
def recordComplete (t : Nat) (n : Fin 128) (q : Fin 16) (num : BitVec 32) (s : State) : State :=
  let s := s.at t
  match queue s n q with
  | none => s
  | some x =>
    if x.held || !planeRuns s || boughHalted s n q then s
    else
      let s' := tallyHbm n q num.toNat s (settleRecord n q num.toNat s)
      match running s' n q num.toNat with
      | some r => awaitLag s (if r.done && mirrorsDone s' r.mirrors then completeRecord n q r (recordWord r) s' else s')
      | none => s'

/-! ### The rows -/

/-- `MATMUL`: 08 R255; also R17, R18, R198, R212, R214, R225, R226, R237, R240, R246, R253, R261. -/
def execMatmul (t : Nat) (n : Fin 128) (q : Fin 16) (host : List (BitVec 8)) (s : State) : Outcome :=
  .next (startOnSlot 0x10 matmulBody t n q host s)
/-- `COLLECTIVE`: 09 R275; also R18, R240, R246, R273, R274, R280, R282, R283, R284, R289, R474. -/
def execCollective (t : Nat) (n : Fin 128) (q : Fin 16) (host : List (BitVec 8)) (s : State) : Outcome :=
  .next (startOnSlot 0x30 collectiveBody t n q host s)
/-- `RECORD_COMPLETE`: 08 R248; also R242, R245, R249, R278, R289, R355, R361, R406, R407.
Log entry 2 (DESIGN CHOICE). -/
def execRecordComplete (t : Nat) (n : Fin 128) (q : Fin 16) (number : BitVec 32) (s : State) : Outcome :=
  .next (recordComplete t n q number s)
/-- `SEG`: 09 R280; also R17, R18, R277, R282, R283, R284, R285, R286, R287, R289, R290, R291. -/
def execSeg (t : Nat) (s : State) : Outcome := .next (seg t s)
/-- `COUNTS`: 09 R284; also R290. -/
def execCounts (t : Nat) (s : State) : Outcome := .next (countsMsg t s)
/-- `ABORT`: 09 R291; also R292. -/
def execAbort (t : Nat) (s : State) : Outcome := .next (abortMsg t s)
/-- `COL_TIMEOUT`: 09 R288; also R290, R292. -/
def execColTimeout (t : Nat) (slot : Fin 256) (s : State) : Outcome := .next (colTimeout t slot s)
/-- `PARK_EXPIRE`: 09 R280. -/
def execParkExpire (t : Nat) (s : State) : Outcome := .next (parkExpire t s)

end Sys2Proof.Machine
end

