-- ==== Sys2Proof/Machine/Grove.lean ====
section
/-! DEFINITION. Generation changes (07 R207), grove control messages, membership, the trunk registry and peer notices
(chapter 11, R318 to R330). -/

namespace Sys2Proof.Machine

/-! ### Generation change (07 R207) -/

/-- The records of a partition that waited for transactions when its generation changed end with PEER_RESET. -/
def endWaiting (n : Nat) (s : State) : State :=
  (s.crn.queues.filter fun e => e.1 / 16 == n).foldl (fun s e =>
    e.2.running.foldl (fun s r =>
      if !r.done && (r.txnsLeft != 0 || (u8At r.bytes 0 == 0x22 && e.1 % 16 / 4 == 1)) then
        endRecord n (e.1 % 16) r.num stPeerReset [] s
      else s) s) s

/-- A partition's generation changes: exports revoked, import slots removed, transactions ended, collectives broken. -/
def genChange (n : Nat) (s : State) : State :=
  let s := { s with mm := { s.mm with gens := vmod s.mm.gens (finOf 128 n) fun g => g + 1 } }
  let s := endTxnsOf n (endWindowsOf n s)
  endWaiting n (breakSlotsOf n stPeerReset s)

/-! ### Grove control messages (R322, R323) -/

/-- The state with the grove changed. -/
def modGrv (f : Grove → Grove) (s : State) : State := { s with grv := f s.grv }

/-- A message: its code, the prefix, its fields. -/
def ctrlMsg (code dst src path : Nat) (fields : Bytes) : Bytes :=
  leBytes 1 code ++ leBytes 2 dst ++ leBytes 2 src ++ [0] ++ leBytes 1 path ++ leBytes 2 0 ++ fields

/-- A message on a port's VC4. -/
def sendPort (p : Fin 8) (code dst path : Nat) (fields : Bytes) (s : State) : State :=
  queueMsg p 4 2 0 none (ctrlMsg code dst (ownChip s) path fields) s

/-- A ROUTED or AVOID_GRAFT message for a chip: to this chip itself, by its route, or discarded. -/
def sendRouted (code dst path : Nat) (fields : Bytes) (s : State) : State :=
  let b := ctrlMsg code dst (ownChip s) path fields
  if s.txn.chip = some dst then
    modTxn (fun x => { x with inbox := x.inbox ++ [{ port := none, vc := 4, typ := 2, bytes := b, at_ := s.now }] }) s
  else
    match ctrlRoute s path dst with
    | some p => queueMsg p 4 2 0 none b s
    | none => dropGrove s

/-- The fields of a message after its prefix. -/
def ctrlFields (m : InMsg) : Bytes := m.bytes.drop 9

/-- The message has its PATH, its length and a prefix without reserved bits. Log entry 92 (DEDUCED). -/
def ctrlOk (m : InMsg) (path len : Nat) : Bool :=
  ctrlPath m == path && (ctrlFields m).length == len && zeroAt m.bytes 7 2 && u16At m.bytes 1 < 1024
    && u16At m.bytes 3 < 1024

/-- The first message of a code for this chip, taken and acted on; a malformed one is discarded and counted.
Log entry 54 (DEDUCED). -/
def onCtrl (code path len t : Nat) (act : InMsg → Bytes → State → State) (s : State) : State :=
  let s := s.at t
  match takeMsg (fun m => m.typ == 2 && ctrlCode m == code && !isGroveTransit s m) s with
  | none => s
  | some (m, s) => if ctrlOk m path len then act m (ctrlFields m) s else dropGrove s

/-! ### Peer chips and bundles (R319, R168) -/

/-- A bundle takes the first chip that a member reports as its peer. Log entry 63 (DEDUCED). -/
def bundlePeers (p : Fin 8) (c : Nat) (s : State) : State :=
  (fins 4).foldl (fun s b =>
    if (vget s.txn.bundles b).testBit p.val ∧ vget s.txn.bundlePeer b = none then
      modTxn (fun x => { x with bundlePeer := vset x.bundlePeer b (some c) }) s
    else s) s

/-- The peer chip of a port recorded (R319). Log entry 63 (DEDUCED). -/
def recordPeer (p : Fin 8) (c : Nat) (s : State) : State :=
  pump (bundlePeers p c (modLink p (fun l => { l with peer := some c }) s))

/-- GRV_ID sent on a port whose link layer is UP (R319), padded to a multiple of 4 bytes (02 R40). -/
def announceOn (p : Fin 8) (s : State) : State :=
  match s.txn.chip with
  | some c => if (port s p).link.st = .up then sendPort p 0x80 0 1 (leBytes 4 c) s else s
  | none => s

/-- GRV_ID sent on every port. -/
def announce (s : State) : State := (fins 8).foldl (fun s p => announceOn p s) s

/-- GRV_ID: the chip ID, then the padding of its fields to a multiple of 4 bytes (02 R40). Log entry 93 (DEDUCED). -/
def grvId (t : Nat) (s : State) : State :=
  onCtrl 0x80 1 4 t (fun m f s =>
    match m.port with
    | some p => if u16At f 0 < 1024 then recordPeer p (u16At f 0) s else dropGrove s
    | none => dropGrove s) s

/-! ### Membership (R318, R320) -/

/-- This chip is the trunk. -/
def isTrunk (s : State) : Bool := s.txn.chip == some s.grv.trunk

/-- The bundles as GRV_BEAT reports them: peer chip and active members. Log entry 63 (DEDUCED). -/
def bundleReport (s : State) : List (Nat × Nat) :=
  (fins 4).map fun b =>
    match vget s.txn.bundlePeer b with
    | some c => if vget s.txn.bundles b = 0 then (0xFFFF, 0) else (c, (pathPorts s (8 + b.val)).length)
    | none => (0xFFFF, 0)

/-- GRV_JOIN sent to the trunk. -/
def sendJoin (s : State) : State :=
  sendRouted 0x81 s.grv.trunk 0 (leBytes 8 s.fuse.serial ++ leBytes 4 s.txn.routeGen) s

/-- A registry entry entered as JOINED. -/
def enterMember (c serial rg : Nat) (bundles : Option (List (Nat × Nat))) (s : State) : State :=
  let old := tget c s.grv.reg
  let e : RegEntry :=
    { st := .joined, serial := serial, routeGen := rg, heard := s.now,
      beat := if bundles.isSome then s.now else (old.map (·.beat)).getD 0,
      bundles := bundles.getD ((old.map (·.bundles)).getD (List.replicate 4 (0xFFFF, 0))) }
  modGrv (fun g => { g with reg := tset c e g.reg }) s

/-- The chip ID unassigned (R320 step 4; R201 applies). Log entry 93 (DEDUCED). -/
def unassign (s : State) : State :=
  modGrv (fun g => { g with trunk := 0, registered := false, joining := none }) (modTxn (fun x => { x with chip := none }) s)

/-- GRV_JOIN at the trunk (R326). -/
def grvJoin (t : Nat) (s : State) : State :=
  onCtrl 0x81 0 12 t (fun m f s =>
    if !isTrunk s then s
    else
      let c := ctrlSrc m
      let dup : Bool := match tget c s.grv.reg with
        | some e => (e.st == .joined || e.st == .silent) && e.serial != u64At f 0
        | none => false
      let s := if dup then s else enterMember c (u64At f 0) (u32At f 8) none s
      sendRouted 0x82 c 0 (leBytes 2 (if dup then stBadArg else stOk) ++ zeros 2 ++ leBytes 4 s.txn.routeGen) s) s

/-- GRV_JOIN_ACK at the joining chip (R318). Log entry 92 (DEDUCED). -/
def grvJoinAck (t : Nat) (s : State) : State :=
  onCtrl 0x82 0 8 t (fun m f s =>
    if ctrlSrc m ≠ s.grv.trunk ∨ s.grv.registered = true then s
    else
      let ok := isSuccess (u16At f 0)
      match s.grv.joining with
      | some j =>
        let s := modGrv (fun g => { g with joining := none }) s
        if ok then finishRef j.ticket stOk [] (modGrv (fun g => { g with registered := true }) s)
        else finishRef j.ticket stBadArg [] (unassign s)
      | none => if ok then modGrv (fun g => { g with registered := true }) s else s) s

/-- JOIN_TIMEOUT: no ack within 4 ms (R318). -/
def joinTimeout (t : Nat) (s : State) : State :=
  let s := s.at t
  match s.grv.joining with
  | some j =>
    if j.since + 4000000 ≤ s.now then finishRef j.ticket stTimeout [] (modGrv (fun g => { g with joining := none }) s)
    else s
  | none => s

/-- GRV_BEAT at the trunk (R325, R326). Log entry 92 (DEDUCED). -/
def grvBeat (t : Nat) (s : State) : State :=
  onCtrl 0x83 0 28 t (fun m f s =>
    if !isTrunk s then s
    else
      let c := ctrlSrc m
      let serial := u64At f 0
      let foreign : Bool := match tget c s.grv.reg with
        | some e => e.serial != serial
        | none => false
      if foreign then s
      else enterMember c serial (u32At f 8)
        (some ((List.range 4).map fun b => (u16At f (12 + 4 * b), u8At f (14 + 4 * b)))) s) s

/-- GRV_BEAT_TIMER: a member beats every 10 ms, repeating an unacknowledged GRV_JOIN (R318, R325). -/
def grvBeatTimer (t : Nat) (s : State) : State :=
  let s := s.at t
  if s.txn.chip.isNone ∨ s.now < s.grv.lastBeat + 10000000 then s
  else
    let s := modGrv (fun g => { g with lastBeat := s.now }) s
    let s := if s.grv.registered then s else sendJoin s
    sendRouted 0x83 s.grv.trunk 0
      (leBytes 8 s.fuse.serial ++ leBytes 4 s.txn.routeGen
        ++ ((bundleReport s).map fun x => leBytes 2 x.1 ++ leBytes 1 x.2 ++ [0]).flatten) s

/-- GRV_MEMBER_SILENT: no beat for 30 ms (R325, R326). -/
def grvMemberSilent (t : Nat) (c : Fin 1024) (s : State) : State :=
  let s := s.at t
  match tget c.val s.grv.reg with
  | some e =>
    if isTrunk s ∧ e.st = .joined ∧ e.heard + 30000000 ≤ s.now then
      logErr 0x0030 30 (leBytes 2 c.val) (modGrv (fun g => { g with reg := tset c.val { e with st := .silent } g.reg }) s)
    else s
  | none => s

/-- GRV_LEAVE at the trunk (R325). Log entry 93 (DEDUCED). -/
def grvLeave (t : Nat) (s : State) : State :=
  onCtrl 0x84 0 8 t (fun m f s =>
    match tget (ctrlSrc m) s.grv.reg with
    | some e =>
      if isTrunk s ∧ e.serial = u64At f 0 then
        modGrv (fun g => { g with reg := tset (ctrlSrc m) { e with st := .left } g.reg }) s
      else s
    | none => s) s

/-! ### Peer notices (R329, R330) -/

/-- A group has a member on a chip. -/
def groupNames (c : Nat) (g : Group) : Bool := g.members.any fun m => m.1 == c

/-- The effects of a DOWN notice (06 Table 6-3, 09 Table 9-4). -/
def downEffects (c : Nat) (s : State) : State :=
  let s := modTxn (fun x => { x with peerDown := if x.peerDown.contains c then x.peerDown else c :: x.peerDown }) s
  pump (breakRunning (groupNames c) stLinkDown (synthesiseAll stLinkDown (fun t => addrChip t.addr == c) s))

/-- A notice applied or ignored (R329): state 0 UP, 1 DOWN, 2 RESET. -/
def applyNotice (c st g : Nat) (s : State) : State :=
  let fresh : Bool := match tget c s.grv.notices with
    | some (_, last) => let d := (g + 256 - last % 256) % 256; decide (1 ≤ d ∧ d ≤ 127)
    | none => true
  if !fresh then modGrv (fun x => { x with ignored := sat32 (x.ignored + 1) }) s
  else
    let s := modGrv (fun x => { x with notices := tset c (st, g) x.notices }) s
    if st = 0 then modTxn (fun x => { x with peerDown := x.peerDown.filter (· ≠ c) }) s
    else if st = 1 then downEffects c s
    else
      let slots := (s.txn.imports.filter fun e => e.2.chip == c).map (·.1)
      pump (breakRunning (groupNames c) stPeerReset (slots.foldl (fun s k => staleSlot k s) s))

/-- GRV_NOTIFY relayed by the trunk over a secured port (R324, R330). Log entry 92 (DEDUCED). -/
def grvNotify (t : Nat) (s : State) : State :=
  onCtrl 0x85 0 4 t (fun m f s =>
    let secured : Bool := match m.port with
      | some p => (port s p).link.mode != 0
      | none => false
    let c := u16At f 0
    if s.txn.chip.isNone || isTrunk s || ctrlSrc m != s.grv.trunk || !secured then
      modGrv (fun g => { g with relayRefused := sat32 (g.relayRefused + 1) }) s
    else if 1023 < c ∨ 2 < u8At f 2 ∨ s.txn.chip = some c then dropGrove s
    else applyNotice c (u8At f 2) (u8At f 3) s) s

/-- The relays of a notice posted on the trunk, in ascending chip ID (R330). Log entry 92 (DEDUCED). -/
def relayNotice (c st g : Nat) (s : State) : State :=
  if !isTrunk s then s
  else (s.grv.reg.filter fun e => (e.2.st == .joined || e.2.st == .silent) && e.1 != c && s.txn.chip != some e.1).foldl
    (fun s e => sendRouted 0x85 e.1 0 (leBytes 2 c ++ leBytes 1 st ++ leBytes 1 g) s) s

/-! ### The rows -/

/-- `GRV_ID`: 11 R319. -/
def execGrvId (t : Nat) (s : State) : Outcome := .next (grvId t s)
/-- `GRV_JOIN`: 11 R326; also R324. -/
def execGrvJoin (t : Nat) (s : State) : Outcome := .next (grvJoin t s)
/-- `GRV_JOIN_ACK`: 11 R318. -/
def execGrvJoinAck (t : Nat) (s : State) : Outcome := .next (grvJoinAck t s)
/-- `JOIN_TIMEOUT`: 11 R318. -/
def execJoinTimeout (t : Nat) (s : State) : Outcome := .next (joinTimeout t s)
/-- `GRV_BEAT`: 11 R325; also R324, R326, R327. -/
def execGrvBeat (t : Nat) (s : State) : Outcome := .next (grvBeat t s)
/-- `GRV_BEAT_TIMER`: 11 R325; also R318. -/
def execGrvBeatTimer (t : Nat) (s : State) : Outcome := .next (grvBeatTimer t s)
/-- `GRV_MEMBER_SILENT`: 11 R326; also R325. -/
def execGrvMemberSilent (t : Nat) (chip : Fin 1024) (s : State) : Outcome := .next (grvMemberSilent t chip s)
/-- `GRV_LEAVE`: 11 R325; also R324. -/
def execGrvLeave (t : Nat) (s : State) : Outcome := .next (grvLeave t s)
/-- `GRV_NOTIFY`: 11 R330; also R324, R329. -/
def execGrvNotify (t : Nat) (s : State) : Outcome := .next (grvNotify t s)

end Sys2Proof.Machine
end

