-- ==== Sys2Proof/Machine/Stop.lean ====
section
/-! DEFINITION. How queues stop (08 R250): the destinations of records in progress become undefined, outstanding transactions run
on for nothing, and the queue is gone. -/

namespace Sys2Proof.Machine

/-- The destinations of the cache entries that an ATTEND record appends to. -/
def attendDests (r : Running) : List (Loc × Nat) :=
  r.dests.map fun d => (if d.1 then .scratch d.2.1 else .part d.2.1, d.2.2)

/-- The operation that a record runs on a slot. -/
def slotOp (s : State) (n q num : Nat) : Option (Nat × Group × ColOp) :=
  s.col.slots.findSome? fun e => match e.2.op with
    | some o => if o.part = n ∧ o.q = q ∧ o.num = num then some (e.1, e.2, o) else none
    | none => none

/-- The local ranges that a record in progress writes. -/
def recordDests (n q : Nat) (r : Running) (s : State) : List (Loc × Nat) :=
  let b := r.bytes
  let op := u8At b 0
  match slotOp s n q r.num with
  | some (_, g, o) => [(locAt o.dst, ColOp.dstElems g o * o.es)]
  | none =>
    if op = 0x10 then let x := Matmul.of b; [(locAt x.c, x.cBytes)]
    else if op = 0x11 then let x := Vec.of b; [(locAt x.d, x.dBytes)]
    else if op = 0x12 then let x := Attend.of b; (locAt x.o, x.m * x.oRow) :: attendDests r
    else if op = 0x13 then let x := Sample.of b; [(locAt x.out, 4 * x.m)]
    else if op = 0x14 then let x := Convert.of b; [(locAt x.dst, x.dstBytes)]
    else if op = 0x20 then
      if u8At b 37 ≤ 1 then [(moveLoc (u8At b 37) (copyDst b), copyLen b)] else []
    else if op = 0x21 then [(moveLoc (u8At b 24) (rec64 b 16), u32At b 32)]
    else if op = 0x22 then
      let k := u8At b 16
      if k = 1 then [(moveLoc (u8At b 17) (rec64 b 32), u32At b 20)]
      else if isAtomic k then [(moveLoc (u8At b 17) (rec64 b 40), u32At b 20)] else []
    else if op = 0x40 then let x := Tokenize.of b; [(locAt x.out, 4 * x.max)]
    else if op = 0x41 then let x := StepRec.of b; [(locAt x.text, x.count * x.cap), (locAt x.out, 8 * x.count)]
    else []

/-- A range takes bytes that nothing constrains. -/
def undefine (n : Nat) (l : Loc) (len : Nat) (s : State) : State :=
  if locOk s n l len then
    let f := drawBytes len s
    match l with
    | .part o => (takeMarks (writeRange (localWho s n) false n o f.1 f.2).2).2
    | .scratch a => (writePieces (localWho s n) ((scratchPieces (activeBoughs s n) a len).getD []) f.1 f.2).2
  else s

/-- The destinations of a queue's records in progress become undefined. Log entry 75 (DEDUCED). -/
def undefineDests (n q : Nat) (s : State) : State :=
  match queue s n q with
  | none => s
  | some x => x.running.foldl (fun s r =>
      (recordDests n q r s).foldl (fun s d => undefine n d.1 d.2 s) s) s

/-- The operations of a queue's records leave their slots. Log entry 75 (DEDUCED). -/
def stopOps (n q : Nat) (s : State) : State :=
  (s.col.slots.filter fun e => match e.2.op with
    | some o => o.part == n && o.q == q
    | none => false).foldl (fun s e =>
      let tag := colTag e.1 ((e.2.op.map (·.opseq)).getD 0)
      let s := dropParked e.2.id ((e.2.op.map (·.opseq)).getD 0) (colStopSending tag s)
      restage (modSlot e.1 (fun g => { g with op := none }) s)) s

/-- The queue's outstanding transactions run to completions that are discarded; those not yet issued are not issued.
Log entry 75 (DEDUCED). -/
def discardTxns (n q : Nat) (s : State) : State :=
  modTxn (fun x => { x with
    txns := x.txns.map fun e => (e.1, if txnOfQueue e.2 n q then e.2.discarded else e.2)
    waiting := x.waiting.filter fun t => !txnOfQueue t n q
    readAhead := x.readAhead.filter fun e => match e.owner with
      | .queue key _ => key != qKey n q
      | _ => true }) s

/-- A queue stops (R250). Log entry 75 (DEDUCED). -/
def stopQueue (n q : Nat) (s : State) : State :=
  let s := discardTxns n q (stopOps n q (undefineDests n q (countBoughNs n s)))
  let s := { s with crn := { s.crn with queues := tdel (qKey n q) s.crn.queues } }
  let s := (fins 64).foldl (fun s b =>
    match (vget s.obs.boughs b).followed with
    | some (m, k, _) => if m = n ∧ k = q then followNext n b.val s else s
    | none => s) s
  pump s

/-- Every queue of a partition stops. Log entry 75 (DEDUCED). -/
def stopQueues (n : Nat) (s : State) : State := (List.range 16).foldl (fun s q => stopQueue n q s) s

end Sys2Proof.Machine
end

