-- ==== Sys2Proof/Machine/Sha.lean ====
section
/-! DEFINITION. SHA-384 as FIPS 180-4 defines it, HMAC and HKDF over it (00 R4: fields of an external standard
follow that standard). -/

namespace Sys2Proof.Machine

/-- The greatest number below `r + 2 ^ n` and not below `r` whose `k`-th power is at most `x`, bit by bit. -/
def rootFrom (k x : Nat) : Nat → Nat → Nat
  | 0, r => r
  | n + 1, r => rootFrom k x n (if (r + 2 ^ n) ^ k ≤ x then r + 2 ^ n else r)

/-- The first 64 bits of the fractional part of the `k`-th root of `p`, for a root below 32. -/
def rootFraction (k p : Nat) : Nat := rootFrom k (p * 2 ^ (64 * k)) 69 0 % 2 ^ 64

/-- The primes below 410: the first eighty, told by the divisors up to 20. -/
def primes80 : List Nat :=
  (List.range 410).filter fun n => 2 ≤ n && (List.range 19).all fun d => n == d + 2 || n % (d + 2) != 0

/-- The constants K: the fractions of the cube roots of the first eighty primes (FIPS 180-4 4.2.3). -/
def shaConstants : List Nat := primes80.map (rootFraction 3)

/-- The initial hash value of SHA-384: the fractions of the square roots of the ninth to the sixteenth prime
(FIPS 180-4 5.3.4). -/
def sha384Init : List Nat := ((primes80.drop 8).take 8).map (rootFraction 2)

/-- A word of 64 bits rotated right. -/
def ror64 (x n : Nat) : Nat := (x >>> n) ||| ((x <<< (64 - n)) % 2 ^ 64)

/-- The next word of the message schedule, from the sixteen before it, newest first. -/
def shaNextW (ws : List Nat) : Nat :=
  let w2 := ws.getD 1 0
  let w7 := ws.getD 6 0
  let w15 := ws.getD 14 0
  let w16 := ws.getD 15 0
  let s1 := ror64 w2 19 ^^^ ror64 w2 61 ^^^ (w2 >>> 6)
  let s0 := ror64 w15 1 ^^^ ror64 w15 8 ^^^ (w15 >>> 7)
  (s1 + w7 + s0 + w16) % 2 ^ 64

/-- `n` more words of the message schedule, newest first. -/
def shaExpand : Nat → List Nat → List Nat
  | 0, ws => ws
  | n + 1, ws => shaExpand n (shaNextW ws :: ws)

/-- The eight working variables of SHA-512. -/
structure ShaRegs where
  a : Nat
  b : Nat
  c : Nat
  d : Nat
  e : Nat
  f : Nat
  g : Nat
  h : Nat
  deriving DecidableEq, Repr

/-- One round with its constant and its schedule word. -/
def shaRound (r : ShaRegs) (kw : Nat × Nat) : ShaRegs :=
  let s1 := ror64 r.e 14 ^^^ ror64 r.e 18 ^^^ ror64 r.e 41
  let ch := (r.e &&& r.f) ^^^ ((2 ^ 64 - 1 - r.e) &&& r.g)
  let t1 := r.h + s1 + ch + kw.1 + kw.2
  let s0 := ror64 r.a 28 ^^^ ror64 r.a 34 ^^^ ror64 r.a 39
  let maj := (r.a &&& r.b) ^^^ (r.a &&& r.c) ^^^ (r.b &&& r.c)
  { a := (t1 + s0 + maj) % 2 ^ 64, b := r.a, c := r.b, d := r.c,
    e := (r.d + t1) % 2 ^ 64, f := r.e, g := r.f, h := r.g }

/-- The hash value after one block of 128 bytes. -/
def shaBlock (hv : List Nat) (blk : Bytes) : List Nat :=
  let w16 := (piecesOf 8 blk).map ofBe
  let ws := (shaExpand 64 w16.reverse).reverse
  let g := fun i => hv.getD i 0
  let r := (List.zip shaConstants ws).foldl shaRound
    { a := g 0, b := g 1, c := g 2, d := g 3, e := g 4, f := g 5, g := g 6, h := g 7 }
  List.zipWith (fun x y => (x + y) % 2 ^ 64) hv [r.a, r.b, r.c, r.d, r.e, r.f, r.g, r.h]

/-- The message padded to whole blocks (FIPS 180-4 5.1.2). -/
def shaPad (m : Bytes) : Bytes :=
  m ++ [0x80] ++ zeros ((239 - m.length % 128) % 128) ++ beBytes 16 (8 * m.length)

/-- SHA-384, 48 bytes. Log entry 137 (DEDUCED). -/
def sha384 (m : Bytes) : Bytes :=
  (((piecesOf 128 (shaPad m)).foldl shaBlock sha384Init).flatMap (beBytes 8)).take 48

/-- HMAC-SHA-384 (FIPS 198-1), block of 128 bytes. -/
def hmac384 (key m : Bytes) : Bytes :=
  let k := fit 128 (if key.length > 128 then sha384 key else key)
  sha384 (k.map (fun x => x ^^^ 0x5c) ++ sha384 (k.map (fun x => x ^^^ 0x36) ++ m))

/-- The blocks T(i) of HKDF-Expand (RFC 5869), in order. -/
def hkdfBlocks (prk info : Bytes) : Nat → Nat → Bytes → Bytes
  | 0, _, _ => []
  | n + 1, i, prev =>
    let t := hmac384 prk (prev ++ info ++ [BitVec.ofNat 8 i])
    t ++ hkdfBlocks prk info n (i + 1) t

/-- HKDF-SHA-384 (RFC 5869): `len` bytes from the input key `ikm`, the salt and the info. Log entry 137 (DEDUCED). -/
def hkdf384 (ikm salt info : Bytes) (len : Nat) : Bytes :=
  (hkdfBlocks (hmac384 salt ikm) info ((len + 47) / 48) 1 []).take len

end Sys2Proof.Machine
end

