-- ==== Sys2Proof/Machine/P384.lean ====
section
/-! DEFINITION. The curve P-384 (SP 800-186), ECDH's x-coordinate and ECDSA with SHA-384 (FIPS 186-5), as 00 R470 and
03 R67, R68 use them. A point is none (the point at infinity) or its affine coordinates. -/

namespace Sys2Proof.Machine

/-- The field prime of P-384. -/
def p384P : Nat := 2 ^ 384 - 2 ^ 128 - 2 ^ 96 + 2 ^ 32 - 1

/-- The coefficient b of P-384. -/
def p384B : Nat := 0xb3312fa7e23ee7e4988e056be3f82d19181d9c6efe8141120314088f5013875ac656398d8a2ed19d2a85c8edd3ec2aef

/-- The order n of the base point. -/
def p384N : Nat := 0xffffffffffffffffffffffffffffffffffffffffffffffffc7634d81f4372ddf581a0db248b0a77aecec196accc52973

/-- The base point. -/
def p384G : Nat × Nat :=
  (0xaa87ca22be8b05378eb1c71ef320ad746e1d3b628ba79b9859f741e082542a385502f25dbf55296c3a545e3872760ab7,
   0x3617de4a96262c6f5d9e98bf9292dc29f8f41dbd289a147ce9da3113b5f0b8c00a60b1ce1d7e819d7a431d7c90ea0e5f)

/-- `b ^ e mod m`, one bit of `e` for each unit of fuel. -/
def powModLoop (m : Nat) : Nat → Nat → Nat → Nat → Nat
  | 0, _, _, acc => acc
  | fuel + 1, b, e, acc =>
    powModLoop m fuel (b * b % m) (e / 2) (if e % 2 = 1 then acc * b % m else acc)

/-- `b ^ e mod m` for exponents of at most 384 bits. -/
def powMod (m b e : Nat) : Nat := powModLoop m 384 (b % m) e 1

/-- The inverse modulo a prime. -/
def invMod (m a : Nat) : Nat := powMod m a (m - 2)

/-- Subtraction modulo `m` of reduced numbers. -/
def subMod (m a b : Nat) : Nat := (a + (m - b % m)) % m

/-- A point in Jacobian coordinates; Z = 0 is infinity. -/
structure JPoint where
  x : Nat
  y : Nat
  z : Nat
  deriving DecidableEq, Repr

/-- The point at infinity. -/
def jInf : JPoint := { x := 1, y := 1, z := 0 }

/-- Doubling, with a = -3. -/
def jDouble (q : JPoint) : JPoint :=
  let p := p384P
  if q.z = 0 ∨ q.y = 0 then jInf else
  let z2 := q.z * q.z % p
  let m := 3 * (subMod p q.x z2 * ((q.x + z2) % p)) % p
  let y2 := q.y * q.y % p
  let s := 4 * (q.x * y2) % p
  let x3 := subMod p (m * m) (2 * s)
  { x := x3
    y := subMod p (m * subMod p s x3) (8 * (y2 * y2))
    z := 2 * (q.y * q.z) % p }

/-- Addition. -/
def jAdd (a b : JPoint) : JPoint :=
  let p := p384P
  if a.z = 0 then b else if b.z = 0 then a else
  let za2 := a.z * a.z % p
  let zb2 := b.z * b.z % p
  let u1 := a.x * zb2 % p
  let u2 := b.x * za2 % p
  let s1 := a.y * (b.z * zb2 % p) % p
  let s2 := b.y * (a.z * za2 % p) % p
  if u1 = u2 then (if s1 = s2 then jDouble a else jInf) else
  let h := subMod p u2 u1
  let r := subMod p s2 s1
  let h2 := h * h % p
  let h3 := h * h2 % p
  let v := u1 * h2 % p
  let x3 := subMod p (subMod p (r * r) h3) (2 * v)
  { x := x3
    y := subMod p (r * subMod p v x3) (s1 * h3)
    z := h * (a.z * b.z % p) % p }

/-- `k` times a point: the low `n` bits of `k`, most significant first. -/
def jMulLoop (q : JPoint) (k : Nat) : Nat → JPoint → JPoint
  | 0, acc => acc
  | n + 1, acc =>
    let d := jDouble acc
    jMulLoop q k n (if k.testBit n then jAdd d q else d)

/-- The affine point of a Jacobian one; none at infinity. -/
def jAffine (q : JPoint) : Option (Nat × Nat) :=
  if q.z = 0 then none
  else
    let zi := invMod p384P q.z
    let zi2 := zi * zi % p384P
    some (q.x * zi2 % p384P, q.y * (zi2 * zi % p384P) % p384P)

/-- An affine point as a Jacobian one. -/
def jOf (q : Nat × Nat) : JPoint := { x := q.1, y := q.2, z := 1 }

/-- Scalar multiplication. -/
def p384Mul (k : Nat) (q : Nat × Nat) : Option (Nat × Nat) := jAffine (jMulLoop (jOf q) k 384 jInf)

/-- The point lies on the curve, with coordinates in range. -/
def p384OnCurve (q : Nat × Nat) : Bool :=
  q.1 < p384P && q.2 < p384P &&
    q.2 * q.2 % p384P == ((q.1 * q.1 % p384P) * q.1 + (p384P - 3) * q.1 + p384B) % p384P

/-- A point in SEC 1 uncompressed form: 97 bytes on the curve. -/
def pointOfBytes (b : Bytes) : Option (Nat × Nat) :=
  let q := (ofBe (slice b 1 48), ofBe (slice b 49 48))
  if b.length = 97 ∧ u8At b 0 = 4 ∧ p384OnCurve q = true then some q else none

/-- The 97 bytes of a point. -/
def pointBytes (q : Nat × Nat) : Bytes := [4] ++ beBytes 48 q.1 ++ beBytes 48 q.2

/-- The public point of a private scalar. -/
def p384Public (k : Nat) : Nat × Nat := (p384Mul k p384G).getD (0, 0)

/-- The x-coordinate of ECDH, 48 bytes (03 R68). Log entry 137 (DEDUCED). -/
def ecdhX (k : Nat) (q : Nat × Nat) : Bytes := beBytes 48 ((p384Mul k q).getD (0, 0)).1

/-- A scalar of a key: in [1, n - 1]. -/
def p384ScalarOk (k : Nat) : Bool := decide (1 ≤ k ∧ k < p384N)

/-- The integer e of ECDSA: the SHA-384 of the message, hashed once (00 R470). -/
def ecdsaE (m : Bytes) : Nat := ofBe (sha384 m)

/-- ECDSA P-384 verification of r ‖ s over the SHA-384 of `m` (00 R470). Log entry 137 (DEDUCED). -/
def ecdsaVerify (q : Nat × Nat) (m sig : Bytes) : Bool :=
  let r := ofBe (sig.take 48)
  let s := ofBe (sig.drop 48)
  if sig.length = 96 ∧ p384OnCurve q = true ∧ p384ScalarOk r = true ∧ p384ScalarOk s = true then
    let w := invMod p384N s
    let u1 := ecdsaE m * w % p384N
    let u2 := r * w % p384N
    match jAffine (jAdd (jMulLoop (jOf p384G) u1 384 jInf) (jMulLoop (jOf q) u2 384 jInf)) with
    | some (x, _) => x % p384N == r
    | none => false
  else false

/-- ECDSA P-384 signature r ‖ s by the scalar `d` with the per-signature secret `k`. -/
def ecdsaSign (d k : Nat) (m : Bytes) : Bytes :=
  let r := ((p384Mul k p384G).getD (0, 0)).1 % p384N
  let s := invMod p384N k * (ecdsaE m + r * d) % p384N
  beBytes 48 r ++ beBytes 48 s

end Sys2Proof.Machine
end

