-- ==== Sys2Proof/Machine/Hwd.lean ====
section
/-! DEFINITION. Heartwood (chapter 03): blobs, the registry and the resident slots, use counters, derived keys, and the
orphaning of keys. What the consumers of an orphaned key do is written with the consumers. -/

namespace Sys2Proof.Machine

/-- The state with Heartwood changed. -/
def modHwd (f : Hwd → Hwd) (s : State) : State := { s with hwd := f s.hwd }

/-- Heartwood is in TAMPER or FAILED: every key operation fails (R91). -/
def hwdDead (s : State) : Bool := s.hwd.fault != .none

/-- The device is in PROVISION: the owner record of channel 0 is empty (R75). -/
def inProvision (s : State) : Bool := s.hwd.owner0.isNone

/-! ### Blobs (Tables 3-1, 3-2) -/

def blobKind (b : Bytes) : Nat := u16At b 6
def blobId (b : Bytes) : Nat := u16At b 8
def blobGen (b : Bytes) : Nat := u16At b 10
def blobParent (b : Bytes) : Nat := u16At b 12
def blobParentGen (b : Bytes) : Nat := u16At b 14
def blobFirst (b : Bytes) : Nat := u16At b 16
def blobLast (b : Bytes) : Nat := u16At b 18
def blobUsage (b : Bytes) : Nat := u32At b 20
def blobExpires (b : Bytes) : Bool := (u16At b 24).testBit 0
def blobCounted (b : Bytes) : Bool := (u16At b 24).testBit 1
def blobPin (b : Bytes) : Bool := (u16At b 24).testBit 2
def blobWrapped (b : Bytes) : Nat := u16At b 26
def blobBoot (b : Bytes) : Nat := u32At b 28
def blobLimit (b : Bytes) : Nat := u32At b 32
def blobSerial (b : Bytes) : Nat := u64At b 36
def blobRoot (b : Bytes) : Bool := blobParent b == 0

/-- Where the wrapped material begins (R67). -/
def blobBody (b : Bytes) : Nat := if blobRoot b then 164 else 64

/-- Material length of a kind (Table 3-1). -/
def kindLen (k : Nat) : Nat := if k = 3 then 64 else if k = 4 then 48 else 32

/-- Permitted usages of a kind (Table 3-1, R64). -/
def kindUsages (k : Nat) : Nat := if k = 1 then 0x11 else if k = 2 then 2 else if k = 3 then 4 else 8

/-- Usage bits of R64. -/
def useWrap : Nat := 0
def useCmac : Nat := 1
def useSeal : Nat := 2
def useLink : Nat := 3
def usePair : Nat := 4

/-- The commands that carry a blob. -/
inductive BlobUse where
  | load
  | replace
  | owner
  deriving DecidableEq, Repr

/-- Check 1 of Table 3-3. -/
def blobForm (u : BlobUse) (b : Bytes) : Bool :=
  let k := blobKind b
  decide (64 ≤ b.length ∧ b.length = blobBody b + blobWrapped b) && u32At b 0 == 0x31425748 && u16At b 4 == 1
    && zeroAt b 44 20 && (!blobRoot b || zeroAt b 161 3) && decide (1 ≤ k ∧ k ≤ 4) && decide (u16At b 24 < 8)
    && blobWrapped b == kindLen k + 8 && blobUsage b != 0 && (blobUsage b &&& kindUsages k) == blobUsage b
    && (!blobRoot b || blobParentGen b == 0) && (k == 1 || (blobFirst b == 0 && blobLast b == 0))
    && (blobExpires b || blobBoot b == 0)
    && (if blobCounted b then decide (1 ≤ blobLimit b ∧ blobLimit b ≤ 6000000) else blobLimit b == 0)
    && (u != .owner || (k == 1 && blobRoot b && (blobUsage b).testBit useWrap && !blobExpires b && !blobCounted b))

/-- The wrapping key under a parent's material, or under the root (R68). -/
def blobKek (s : State) (b : Bytes) (parent : Option Bytes) : Option Bytes :=
  let h := sha384 (b.take 64)
  if blobRoot b then
    (pointOfBytes (slice b 64 97)).map fun q =>
      hkdf384 (ecdhX s.fuse.transport q) (slice b 64 97) (ascii "HWD-XPORT" ++ h) 32
  else parent.map fun k => hkdf384 k (zeros 48) (ascii "HWD-WRAP" ++ h) 32

/-- Check 8: the material is valid. -/
def materialOk (kind : Nat) (m : Bytes) : Bool :=
  m.length == kindLen kind
    && (if kind = 4 then p384ScalarOk (ofBe m) else if kind = 3 then m.take 32 != m.drop 32 else true)

/-- Checks 7 and 8: the unwrapped material. -/
def blobUnwrap (s : State) (b : Bytes) (parent : Option Bytes) : Option Bytes :=
  match (blobKek s b parent).bind fun kek => kwpUnwrap kek (b.drop (blobBody b)) with
  | some m => if materialOk (blobKind b) m then some m else none
  | none => none

/-! ### Registry and slots (R71 to R73) -/

def KeyEntry.kind (e : KeyEntry) : Nat := blobKind e.blob
def KeyEntry.keyId (e : KeyEntry) : Nat := blobId e.blob
def KeyEntry.gen (e : KeyEntry) : Nat := blobGen e.blob
def KeyEntry.counted (e : KeyEntry) : Bool := blobCounted e.blob
def KeyEntry.pinned (e : KeyEntry) : Bool := blobRoot e.blob || blobPin e.blob

/-- The key may be used for a usage bit (R64). -/
def KeyEntry.may (e : KeyEntry) (bit : Nat) : Bool := (blobUsage e.blob).testBit bit

/-- The stored generation of a key ID. -/
def storedGen (s : State) (kid : Nat) : Nat := tgetD kid 0 s.hwd.gens

/-- The handle of a registry index. -/
def handleOf (s : State) (idx : Nat) : Nat := idx + 4096 * tgetD idx 0 s.hwd.uniq

/-- The registry index a handle names (R71). -/
def keyIndex (s : State) (h : Nat) : Option Nat :=
  let idx := h % 4096
  if idx ≠ 0 ∧ h = handleOf s idx ∧ thas idx s.hwd.reg = true then some idx else none

/-- The entry a handle names. -/
def keyEntry (s : State) (h : Nat) : Option KeyEntry := (keyIndex s h).bind fun i => tget i s.hwd.reg

/-- The lowest registered entry of a key ID at its stored generation; the owner branch of channel 1 is the parent of no key
(R76). -/
def entryById (s : State) (kid : Nat) : Option (Nat × KeyEntry) :=
  s.hwd.reg.find? fun e => e.1 != 2 && e.2.keyId == kid && e.2.gen == storedGen s kid

/-- Slots in use and pinned slots. -/
def pinnedSlots (s : State) : Nat := (s.hwd.slots.filter (·.pinned)).length

/-- A slot taken, the most recently used first, under fresh shares (R90); the least recently used unpinned slot is evicted when
all 256 are occupied (R73). Log entry 163 (DESIGN CHOICE). -/
def takeSlot (use : SlotUse) (m : Bytes) (pin : Bool) (s : State) : State :=
  let d := drawBytes m.length s
  modHwd (fun h =>
    let l := h.slots.filter fun x => x.holds != use
    let l := if 256 ≤ l.length then
        match l.reverse.find? fun x => !x.pinned with
        | some v => l.erase v
        | none => l
      else l
    { h with slots := { holds := use, material := m, share := d.1, pinned := pin } :: l }) d.2

/-- What a slot holds. -/
def slotMaterial (s : State) (use : SlotUse) : Option Bytes :=
  (s.hwd.slots.find? fun x => x.holds == use).map (·.material)

/-- A pinned slot after an operation: its shares are drawn anew (R90). Log entry 163 (DESIGN CHOICE). -/
def reshare (use : SlotUse) (s : State) : State :=
  match slotMaterial s use with
  | some m => takeSlot use m true s
  | none => s

/-- A slot given up. -/
def dropSlot (use : SlotUse) (s : State) : State :=
  modHwd (fun h => { h with slots := h.slots.filter fun x => x.holds != use }) s

/-! ### Orphaning (R82) -/

/-- An entry whose own or an ancestor's generation no longer matches. Log entry 36 (DEDUCED). -/
def isStale (s : State) (e : KeyEntry) : Bool :=
  storedGen s e.keyId != e.gen || e.chain.any fun a => storedGen s a.1 != a.2

/-- An entry is a command key: an owner branch, or the command key of a partition. -/
def isCommandKey (s : State) (idx : Nat) : Bool :=
  idx == 1 || idx == 2 || s.mm.parts.any fun p => p.2.cmdKey == handleOf s idx

/-- An entry orphaned: removed from the registry, its slot zeroised; a command key leaves a tombstone (R83). -/
def orphanEntry (idx : Nat) (s : State) : State :=
  let h := handleOf s idx
  let s := dropSlot (.key idx) s
  let s := if idx = 1 ∨ idx = 2 then dropSlot (.command (idx - 1)) s else s
  modHwd (fun x => { x with reg := tdel idx x.reg, orphans := h :: x.orphans,
                            tombs := if isCommandKey s idx then h :: x.tombs else x.tombs }) s

/-- A key orphaned with every registered descendant (R82 step 2). -/
def orphanTree (idx : Nat) (s : State) : State :=
  match tget idx s.hwd.reg with
  | none => s
  | some e =>
    let below := (s.hwd.reg.filter fun x => x.2.chain.contains (e.keyId, e.gen)).map (·.1)
    below.foldl (fun s i => orphanEntry i s) (orphanEntry idx s)

/-- Every entry that became stale orphaned. -/
def orphanStale (s : State) : State :=
  ((s.hwd.reg.filter fun e => isStale s e.2).map (·.1)).foldl (fun s i => orphanEntry i s) s

/-- A stored generation written, and what it orphans. -/
def writeGen (kid g : Nat) (s : State) : State :=
  orphanStale (modHwd (fun h => { h with gens := tset kid g h.gens }) s)

/-! ### Material on demand (R72) -/

/-- The material of a registered key, unwrapped again with its missing ancestors where it is not resident; the key and its
descendants are orphaned where a check fails. -/
def matLoop : Nat → Nat → State → Option Bytes × State
  | 0, _, s => (none, s)
  | fuel + 1, idx, s =>
    match tget idx s.hwd.reg with
    | none => (none, s)
    | some e =>
      match slotMaterial s (.key idx) with
      | some m => (some m, takeSlot (.key idx) m e.pinned s)
      | none =>
        let up : Option Bytes × State := match e.chain.head? with
          | none => (none, s)
          | some a =>
            match entryById s a.1 with
            | some (j, _) => matLoop fuel j s
            | none => (none, s)
        let s := modHwd (fun h => { h with reloads := h.reloads + 1 }) up.2
        let ok := !isStale s e && (!blobExpires e.blob || blobBoot e.blob == s.root.bootCount)
        match if ok then blobUnwrap s e.blob up.1 else none with
        | some m => (some m, takeSlot (.key idx) m e.pinned s)
        | none => (none, orphanTree idx s)

/-- The material of a registered key; none in TAMPER or FAILED. Log entry 156 (DEDUCED). -/
def material (idx : Nat) (s : State) : Option Bytes × State :=
  if hwdDead s then (none, s) else matLoop 6 idx s

/-! ### Use counters (R84 to R87) -/

/-- The counter bound to a key ID. Log entry 158 (DESIGN CHOICE). -/
def counterOf (s : State) (kid : Nat) : Option (Fin 64) :=
  (fins 64).find? fun i => (vget s.hwd.counters i).binding == kid && kid != 0

/-- V of R84. -/
def UseCounter.value (c : UseCounter) : Nat := 64 * c.high + if c.high % 2 = 0 then c.bankA else c.bankB

/-- Steps 2 and 3 of R86. An erase of the inactive bank that is still under way completes first. -/
def UseCounter.bump (c : UseCounter) : UseCounter :=
  let even := c.high % 2 == 0
  if (if even then c.bankA else c.bankB) < 64 then
    if even then { c with bankA := c.bankA + 1 } else { c with bankB := c.bankB + 1 }
  else if even then { c with bankB := 1, high := c.high + 1, erasing := true }
  else { c with bankA := 1, high := c.high + 1, erasing := true }

/-- A counter bound to a key ID when none is. Log entry 158 (DESIGN CHOICE). -/
def bindCounter (kid : Nat) (s : State) : State :=
  match counterOf s kid, (fins 64).find? fun i => (vget s.hwd.counters i).binding == 0 with
  | none, some i => modHwd (fun h => { h with counters := vset h.counters i { UseCounter.reset with binding := kid } }) s
  | _, _ => s

/-- A counter released: banks erased, H := 0, free (R84). -/
def releaseCounter (kid : Nat) (s : State) : State :=
  match counterOf s kid with
  | some i => modHwd (fun h => { h with counters := vset h.counters i UseCounter.reset }) s
  | none => s

/-- One use of a key is refused: its counter has reached USE_LIMIT (R86 step 1). -/
def useRefused (s : State) (e : KeyEntry) : Bool :=
  e.counted &&
    (match counterOf s e.keyId with
     | some i => decide (blobLimit e.blob ≤ (vget s.hwd.counters i).value)
     | none => true)

/-- One use counted (R86 steps 1 to 3, R87): false when it is refused. Log entry 37 (DEDUCED). -/
def countUse (idx : Nat) (s : State) : Bool × State :=
  match tget idx s.hwd.reg with
  | none => (false, s)
  | some e =>
    if useRefused s e then (false, s)
    else
      let s := match e.counted, counterOf s e.keyId with
        | true, some i => modHwd (fun h => { h with counters := vmod h.counters i UseCounter.bump }) s
        | _, _ => s
      (true, modHwd (fun h => { h with reg := tset idx { e with uses := e.uses + 1 } h.reg }) s)

/-! ### Rights (R76, R78) -/

/-- The partition that a channel serves. -/
def chanPart (s : State) (ch : Nat) : Option Partition := if ch < 2 then none else tget (ch - 2) s.mm.parts

/-- A channel may load under a branch's key ID. -/
def mayLoadUnder (s : State) (ch kid : Nat) : Bool :=
  ch == 0 ||
    (match (chanPart s ch).bind fun p => keyEntry s p.cmdKey with
     | some e => (e.chain.head?.map (·.1)) == some kid
     | none => false)
    || s.hwd.reg.any fun e => e.2.channel == ch && e.2.keyId == kid && e.2.kind == 1

/-- A channel may query a handle. -/
def mayQuery (s : State) (ch h : Nat) : Bool :=
  match keyEntry s h with
  | none => false
  | some e =>
    ch == 0 || e.channel == ch ||
      (match chanPart s ch with
       | some p => p.cmdKey == h || p.sealKey == h
       | none => false)

/-- A channel may replace or destroy a handle. -/
def mayModify (s : State) (ch h : Nat) : Bool :=
  match keyEntry s h with
  | none => false
  | some e => ch == 0 || e.channel == ch

/-- A handle that channel 0 names for a usage. -/
def keyServes (s : State) (h bit : Nat) : Bool :=
  match keyEntry s h with
  | some e => e.may bit
  | none => false

/-- The material of a handle for a counted use of a usage; none where it is refused. -/
def useKey (h bit : Nat) (s : State) : Option Bytes × State :=
  match keyIndex s h with
  | none => (none, s)
  | some i =>
    if !keyServes s h bit then (none, s)
    else
      match material i s with
      | (some m, s) => let u := countUse i s; (if u.1 then some m else none, u.2)
      | r => r

/-! ### Load checks (Table 3-3) -/

/-- The branch that a blob names as its parent, registered with WRAP; never the owner branch of channel 1 (R76). -/
def blobParentEntry (s : State) (b : Bytes) : Option (Nat × KeyEntry) :=
  if blobRoot b then none
  else s.hwd.reg.find? fun e =>
    e.1 != 2 && e.2.keyId == blobParent b && e.2.gen == storedGen s (blobParent b) && e.2.kind == 1 && e.2.may useWrap

/-- The range and depth rules of R65 (check 4), given the parent where it is known. -/
def rangeOk (b : Bytes) (parent : Option KeyEntry) : Bool :=
  let lo := match parent with
    | some e => blobFirst e.blob
    | none => 1
  let hi := match parent with
    | some e => blobLast e.blob
    | none => 4095
  let k := blobId b
  decide (1 ≤ k ∧ k ≤ 4095 ∧ lo ≤ k ∧ k ≤ hi)
    && (blobKind b != 1 || decide (1 ≤ blobFirst b ∧ blobFirst b ≤ blobLast b ∧ lo ≤ blobFirst b ∧ blobLast b ≤ hi
          ∧ ¬(blobFirst b ≤ k ∧ k ≤ blobLast b)))
    && decide ((parent.map fun e => e.chain.length + 1).getD 0 + 1 ≤ 4)

/-- The generation rule of check 5. -/
def genRule (u : BlobUse) (stored g : Nat) : Bool :=
  g != 0xFFFF && (match u with
    | .load => g == stored
    | .replace => g == stored + 1
    | .owner => decide (stored ≤ g))

/-- The SERIAL rule (R69): SERIAL 0 only under a parent. -/
def serialOk (s : State) (b : Bytes) : Bool :=
  if blobSerial b = 0 then !blobRoot b else blobSerial b == s.fuse.serial

/-- Checks 1 to 6: the refusal reason, or 0. -/
def blobEarly (s : State) (ch : Nat) (u : BlobUse) (b : Bytes) : Nat :=
  let stalePar := !blobRoot b && storedGen s (blobParent b) != blobParentGen b
  let parent := (blobParentEntry s b).map (·.2)
  if !blobForm u b then 5
  else if !serialOk s b then 5
  else if !(if blobRoot b then ch == 0 else stalePar || (mayLoadUnder s ch (blobParent b) && parent.isSome)) then 1
  else if !rangeOk b parent then 5
  else if stalePar || !genRule u (storedGen s (blobId b)) (blobGen b) then 8
  else if blobExpires b && blobBoot b != s.root.bootCount then 8
  else 0

/-- A blob refused: counted, with its reason. Log entry 157 (DESIGN CHOICE). -/
def blobRefused (reason : Nat) (s : State) : Nat × Option Staged × State :=
  (reason, none, modHwd (fun h => { h with blobRefusals := sat32 (h.blobRefusals + 1) }) s)

/-- The checks of Table 3-3: the reason of a refusal, or 0 with the staged material. A parent whose own unwrap on demand fails
(R72) refuses the blob as check 7 does. Log entries 156 (DEDUCED), 157 (DESIGN CHOICE). -/
def checkBlob (ch : Nat) (u : BlobUse) (b : Bytes) (s : State) : Nat × Option Staged × State :=
  let r := blobEarly s ch u b
  if r ≠ 0 then blobRefused r s
  else
    let finish (pm : Option Bytes) (chain : List (Nat × Nat)) (s : State) : Nat × Option Staged × State :=
      match blobUnwrap s b pm with
      | some m => (0, some { blob := b, material := m, chain := chain }, s)
      | none => blobRefused 5 s
    match blobParentEntry s b with
    | none => finish none [] s
    | some (i, e) =>
      match material i s with
      | (none, s) => blobRefused 5 s
      | (some m, s) =>
        let c := countUse i s
        if !c.1 then blobRefused 10 s else finish (some m) ((e.keyId, e.gen) :: e.chain) c.2

/-! ### Registering (R71, R74, R79) -/

/-- A staged key registered at an index. Log entry 155 (DESIGN CHOICE). -/
def registerKey (idx ch : Nat) (st : Staged) (s : State) : State :=
  let s := modHwd (fun h => { h with reg := tset idx { blob := st.blob, chain := st.chain, channel := ch, uses := 0 } h.reg }) s
  let s := if blobCounted st.blob then bindCounter (blobId st.blob) s else s
  takeSlot (.key idx) st.material (blobRoot st.blob || blobPin st.blob) s

/-- The next uniquifier of an index (R71). Log entry 38 (DEDUCED). -/
def nextUniq (s : State) (idx : Nat) : Nat := tgetD idx 0 s.hwd.uniq % 0xFFFFF + 1

/-- A staged key may still be registered: Heartwood works, and neither its own nor an ancestor's generation has changed since
(R82, R91). Log entry 164 (DEDUCED). -/
def stagedLive (s : State) (st : Staged) : Bool :=
  !hwdDead s && storedGen s (blobId st.blob) == blobGen st.blob && st.chain.all fun a => storedGen s a.1 == a.2

/-- A load that pins a slot, or needs a counter, has room (R73, R84). -/
def loadFits (s : State) (b : Bytes) (alreadyPinned : Bool) : Bool :=
  (!(blobRoot b || blobPin b) || alreadyPinned || decide (pinnedSlots s < 64))
    && (!blobCounted b || (counterOf s (blobId b)).isSome || s.hwd.counters.toList.any fun c => c.binding == 0)

/-- The command key of channel 0 or 1 (R74). -/
def deriveCmd (s : State) (ch : Nat) (branch : Bytes) : Bytes :=
  hkdf384 branch (zeros 48) (ascii "HWD-MBX" ++ leBytes 1 ch ++ leBytes 8 s.fuse.serial) 32

/-- The refusal-log key derived (R77). -/
def deriveLog (s : State) : State :=
  if hwdDead s then dropSlot .refusalLog s
  else
    let ikm := (slotMaterial s (.key 1)).getD (zeros 32)
    takeSlot .refusalLog (hkdf384 ikm (zeros 48) (ascii "HWD-RLOG" ++ leBytes 8 s.fuse.serial) 32) true s

/-- The owner branch of a channel registered, and its derived keys (R74 steps 2 and 3, R77). -/
def bindOwner (ch : Nat) (st : Staged) (s : State) : State :=
  let s := registerKey (ch + 1) ch st s
  let s := takeSlot (.command ch) (deriveCmd s ch st.material) true s
  if ch = 0 then deriveLog s else s

/-- An owner record written. -/
def setOwner (ch : Nat) (b : Option Bytes) (s : State) : State :=
  modHwd (fun h => if ch = 0 then { h with owner0 := b } else { h with owner1 := b }) s

/-- An owner record reloaded at a reset: checks 5 to 8; a record that fails is cleared (R75). -/
def reloadOwner (ch : Nat) (s : State) : State :=
  match if ch = 0 then s.hwd.owner0 else s.hwd.owner1 with
  | none => s
  | some b =>
    let m := if blobGen b == storedGen s (blobId b) && blobGen b != 0xFFFF then blobUnwrap s b none else none
    match m with
    | some m => bindOwner ch { blob := b, material := m, chain := [] } s
    | none => setOwner ch none s

/-- The permutations of 256 slot addresses. -/
def slotOrders : Nat := (List.range 256).foldl (fun n i => n * (i + 1)) 1

/-- Heartwood at a device reset: a new slot permutation (R90), slots and registry emptied, unfinished erases completed, the owner records reloaded
(R75, R86, R88). `failed` is a failed self-test of the engines (R91). -/
def hwdReset (failed : Bool) (s : State) : State :=
  let settle (c : UseCounter) : UseCounter :=
    if !c.erasing then c
    else if c.high % 2 = 0 then { c with bankB := 0, erasing := false } else { c with bankA := 0, erasing := false }
  let d := drawNat s
  let s := modHwd (fun h => { h with fault := if failed then .failed else .none, reg := [], slots := [], tombs := [],
                                     orphans := [], reloads := 0, blobRefusals := 0, scramble := d.1 % slotOrders,
                                     counters := h.counters.map settle }) d.2
  if failed then s
  else deriveLog (reloadOwner 1 (reloadOwner 0 s))

/-! ### Channel keys (R49, R50, R56, R83) -/

/-- The command-key handle of a channel: 1 and 2 for the owner branches, the partition's for the others; 0 is none. -/
def cmdHandle (s : State) (ch : Nat) : Nat :=
  if ch < 2 then ch + 1 else ((chanPart s ch).map (·.cmdKey)).getD 0

/-- A channel's command key for the verification of a request tag, counted (R87): the reason of a refusal, or 0 with the
key. -/
def requestKey (ch : Nat) (s : State) : Nat × Bytes × State :=
  let h := cmdHandle s ch
  if hwdDead s then (4, [], s)
  else if ch < 2 then
    match slotMaterial s (.command ch) with
    | some k => (0, k, reshare (.command ch) s)
    | none => (if s.hwd.tombs.contains h then 8 else 4, [], s)
  else
    match keyIndex s h with
    | none => (if h ≠ 0 ∧ s.hwd.tombs.contains h = true then 8 else 4, [], s)
    | some i =>
      match material i s with
      | (none, s) => (8, [], s)
      | (some m, s) =>
        let u := countUse i s
        if u.1 then (0, m, u.2) else (10, [], s)

/-- The watermark of a channel raised for an accepted counter (R52). -/
def raiseWater (ch counter : Nat) (s : State) : State :=
  let w := min ((counter + 65535) / 65536 * 65536) (2 ^ 64 - 1)
  if ch = 0 then modHwd (fun h => if h.water0 < counter then { h with water0 := w } else h) s
  else if ch = 1 then modHwd (fun h => if h.water1 < counter then { h with water1 := w } else h) s
  else s

/-- A refusal record sealed under K_log, or unsealed while there is none (R55, R56). -/
def sealRefusal (s : State) (index lost : Nat) (plain : Bytes) : Bytes :=
  let head := leBytes 8 index ++ leBytes 4 s.root.bootCount ++ leBytes 4 lost
  match slotMaterial s .refusalLog with
  | some k => let r := gcmSeal k (head.take 12) head plain; head ++ r.1 ++ r.2
  | none => head ++ zeros 48

/-- The public point of the device root (R94). -/
def transportPub (s : State) : Bytes := pointBytes (p384Public s.fuse.transport)

/-- BANK_ERASE_DONE: the inactive bank's background erase has finished (R86 step 5). -/
def bankEraseDone (t : Nat) (c : Fin 64) (s : State) : State :=
  let s := s.at t
  modHwd (fun h => { h with counters := vmod h.counters c fun x =>
    if !x.erasing then x
    else if x.high % 2 = 0 then { x with bankB := 0, erasing := false } else { x with bankA := 0, erasing := false } }) s

/-- `BANK_ERASE_DONE`: 03 R86. -/
def execBankEraseDone (t : Nat) (counter : Fin 64) (s : State) : Outcome := .next (bankEraseDone t counter s)

end Sys2Proof.Machine
end

