-- ==== Sys2Proof/Machine/Twin.lean ====
section
/-! DEFINITION. Twins (chapter 11, R331 to R347): pairing and graft sessions, mirrored regions, heartbeats, loss, failover
and stale twins. -/

namespace Sys2Proof.Machine

/-- The state with the twin changed. -/
def modTwn (f : Twin → Twin) (s : State) : State := { s with twn := f s.twn }

/-- Every region that `p` selects changed. -/
def modRegions (p : Region → Bool) (f : Region → Region) (s : State) : State :=
  modTwn (fun w => { w with regions := w.regions.map fun e => if p e.2 then (e.1, f e.2) else e }) s

/-- SAP_TWN_STATE codes (Table 11-3). -/
def TwinSt.code : TwinSt → Nat
  | .none => 0
  | .pairing => 1
  | .paired => 2
  | .graftDown => 3
  | .lost => 4
  | .promoted => 5

/-- A generation is later than another (R333). -/
def genLater (g g' : BitVec 8) : Bool := decide (1 ≤ (g' - g).toNat ∧ (g' - g).toNat ≤ 127)

/-! ### Keys of a session (R332) -/

/-- This chip has the lower chip ID of the pair. -/
def twinLow (s : State) : Bool := decide (ownChip s < s.twn.chip)

/-- S_lo ‖ S_hi. -/
def twinSerials (s : State) : Bytes :=
  let a := leBytes 8 s.fuse.serial
  let b := leBytes 8 s.twn.peerSerial
  if twinLow s then a ++ b else b ++ a

/-- N_lo ‖ N_hi. -/
def twinNonces (s : State) : Bytes :=
  let b := s.twn.peerNonce.getD []
  if twinLow s then s.twn.ownNonce ++ b else b ++ s.twn.ownNonce

/-- The proof of a role: 0 for the lower chip ID. -/
def twinProofOf (s : State) (branch : Bytes) (role : Nat) : Bytes :=
  hkdf384 branch (twinNonces s) (ascii "TWN-PROOF" ++ leBytes 1 role ++ twinSerials s) 32

/-- K_graft and K_probe. Log entry 37 (DEDUCED). -/
def graftKey (s : State) (branch : Bytes) : Bytes :=
  hkdf384 branch (twinNonces s) (ascii "TWN-GRAFT" ++ twinSerials s) 32
/-- K_probe, which needs no nonces. Log entry 37 (DEDUCED). -/
def probeKey (s : State) (branch : Bytes) : Bytes :=
  hkdf384 branch (zeros 48) (ascii "TWN-PROBE" ++ twinSerials s) 32

/-- K_probe derived again when the pair branch of the twin is reloaded (R332). -/
def reprobe (h : Nat) (branch : Bytes) (s : State) : State :=
  if s.twn.pairKey = h ∧ s.twn.kProbe.isSome = true then modTwn (fun w => { w with kProbe := some (probeKey s branch) }) s
  else s

/-- The pair branch's material. -/
def pairBranch (s : State) : Option Bytes × State :=
  match keyIndex s s.twn.pairKey with
  | some i => material i s
  | none => (none, s)

/-! ### Sending -/

/-- The tag of a message body: over every byte before it, HOPS taken as 0. Log entry 94 (DEDUCED). -/
def twinTag (key body : Bytes) : Bytes := cmac key (patch body 4 [0])

/-- A message with its tag: the body without its code byte is tagged. -/
def tagged (key b : Bytes) : Bytes := b ++ twinTag key (b.drop 1)

/-- A message on the graft. -/
def sendGraft (b : Bytes) (s : State) : State := queueMsg 7 4 2 0 none b s

/-- A tagged message on the graft, while there is a session. -/
def sendTagged (code : Nat) (fields : Bytes) (s : State) : State :=
  match s.twn.kGraft with
  | some k => sendGraft (tagged k (ctrlMsg code s.twn.chip (ownChip s) 2 fields)) s
  | none => s

/-- A message under K_probe for the twin. -/
def sendProbeKind (code path : Nat) (fields : Bytes) (s : State) : State :=
  match s.twn.kProbe with
  | some k =>
    let b := tagged k (ctrlMsg code s.twn.chip (ownChip s) path fields)
    match ctrlRoute s path s.twn.chip with
    | some p => queueMsg p 4 2 0 none b s
    | none => dropGrove s
  | none => s

/-- TWIN_STALE to the twin (R344, R345). Log entry 97 (DEDUCED). -/
def sendStale (s : State) : State := sendProbeKind 0x9A 0 (leBytes 1 s.twn.gen.toNat ++ zeros 3) s

/-- TWIN_STALE as an answer, at most once per 10 ms (R345). -/
def answerStale (s : State) : State :=
  let due := match s.twn.lastStale with
    | some t0 => decide (t0 + 10000000 ≤ s.now)
    | none => true
  if due then sendStale (modTwn (fun w => { w with lastStale := some s.now }) s) else s

/-- The graft carries messages: L7 LINKED with its session up. -/
def graftUp (s : State) : Bool := portUsable s 7

/-! ### Regions -/

/-- Where the lines of a synchronous region wait, what was waiting resumes (R339). Log entry 95 (DEDUCED). -/
def mirrorResume (s : State) : State := pump (releaseHeld s)

/-- A source region marked DETACHED (R338, R341); a FENCED one stays FENCED until removed (R344). What it waited for is over.
Log entry 95 (DEDUCED). -/
def Region.detach (r : Region) : Region :=
  { r with st := if r.st = .fenced then .fenced else .detached, sent := [], answered := r.captured }

/-- Every source region that still sends or waits is marked DETACHED (R341). -/
def detachAll (s : State) : State := modRegions (fun r => r.live || (!r.target && r.st == .fenced)) Region.detach s

/-- The messages of an initial copy that are under way at one time. Log entry 167 (DESIGN CHOICE). -/
def copyWindow : Nat := 16

/-- The next page of a region carried by its initial copy, whose pointer passes it (R335). Log entry 95 (DEDUCED). -/
def copyPage (k : Nat) (s : State) : State :=
  match tget k s.twn.regions with
  | some r =>
    if r.live && decide (r.copied < r.length) then
      sendMirror true k r ((List.range (min 64 ((r.length - r.copied) / 64))).map fun i => r.offset + r.copied + 64 * i) s
    else s
  | none => s

/-- The initial copy of a region goes on in ascending offset, as far as its window allows (R335).
Log entry 95 (DEDUCED). -/
def copyRegion (k : Nat) (s : State) : State :=
  match tget k s.twn.regions with
  | some r => (List.range (copyWindow - (r.sent.filter (·.copy)).length)).foldl (fun s _ => copyPage k s) s
  | none => s

/-- A DETACHED region starts again from SYNCING (R339, R346). Log entry 95 (DEDUCED). -/
def restartRegion (k : Nat) (s : State) : State :=
  match tget k s.twn.regions with
  | some r =>
    let r := { r with st := .syncing, seq := 0, copied := 0, sent := [] }
    let s := modTwn (fun w => { w with regions := tset k r w.regions }) s
    if r.target then s else copyRegion k s
  | none => s

/-- Regions removed on both sides: MIRROR_CLOSE while the graft is up (R334, R340). -/
def dropRegions (p : Region → Bool) (s : State) : State :=
  let gone := s.twn.regions.filter fun e => p e.2
  let s := modTwn (fun w => { w with regions := w.regions.filter fun e => !p e.2 }) s
  let s := if graftUp s then
      gone.foldl (fun s e => sendTagged 0x95 (leBytes 4 e.2.id ++ zeros 4) s) s
    else s
  mirrorResume s

/-! ### Sessions (R331, R332) -/

/-- TWIN_HELLO of the session under way. Log entry 94 (DEDUCED). -/
def sendHello (pair : Bool) (s : State) : State :=
  match keyEntry s s.twn.pairKey with
  | some e =>
    sendGraft (ctrlMsg 0x90 s.twn.chip (ownChip s) 2
      (leBytes 8 s.fuse.serial ++ leBytes 2 e.keyId ++ leBytes 2 e.gen ++ leBytes 1 s.twn.gen.toNat
        ++ leBytes 1 (bit 0 pair) ++ zeros 2 ++ s.twn.ownNonce)) s
  | none => s

/-- A session starts: a fresh nonce, no session keys (R332). -/
def startSession (s : State) : State :=
  let n := drawBytes 32 s
  let s := modTwn (fun w => { w with ownNonce := n.1, peerNonce := none, proofSent := false, proofOk := false,
                                     kGraft := none }) n.2
  sendHello (s.twn.st == .pairing) s

/-- L7 reached a new security epoch in both directions: K_graft is zeroised, and a pairing runs its session anew (R332). -/
def twinEpoch (s : State) : State :=
  let s := modTwn (fun w => { w with kGraft := none }) s
  if s.twn.st = .none ∨ s.twn.st = .promoted then s else startSession s

/-- The pairing ends (R331): TWIN_UNPAIR where wanted and the graft is up, regions gone, state NONE. -/
def endPairing (tell : Bool) (s : State) : State :=
  let s := if tell && graftUp s then sendTagged 0x9B (zeros 4) s else s
  let s := modTwn (fun w => { w with st := .none, regions := [], kGraft := none, kProbe := none, probing := none,
                                     ackOwed := false, peerNonce := none, proofSent := false, proofOk := false }) s
  mirrorResume s

/-- A session failed: TWIN_PAIR ends with ACCESS_DENIED; a later session ends the pairing (R331, R332). -/
def sessionFails (s : State) : State :=
  if s.twn.st = .pairing then
    let ref := s.twn.pairing.bind (·.ticket)
    finishRef ref stAccessDenied [] (modTwn (fun w => { w with st := .none, pairing := none }) s)
  else endPairing true (logErr 0x0031 30 (leBytes 2 s.twn.chip) s)

/-- Both proofs verified: the state is PAIRED, DETACHED source regions start again (R346), and a target that no message
ever reached is removed (Corners). -/
def sessionDone (branch : Bytes) (s : State) : State :=
  let broke := s.twn.st == .graftDown || s.twn.st == .lost
  let ref := s.twn.pairing.bind (·.ticket)
  let s := modTwn (fun w => { w with st := .paired, kGraft := some (graftKey s branch), kProbe := some (probeKey s branch),
                                     pairing := none, probing := none, lastBeat := s.now, lastBeatSent := s.now,
                                     regions := if broke then w.regions.filter fun e =>
                                         !(e.2.target && e.2.st == .syncing && e.2.seq == 0)
                                       else w.regions }) s
  let ks := (s.twn.regions.filter fun e =>
    e.2.st == .detached || (broke && e.2.target && (e.2.st == .syncing || e.2.st == .inSync))).map (·.1)
  finishRef ref stOk [] (ks.foldl (fun s k => restartRegion k s) s)

/-- TWIN_HELLO received (R332, R333): checked against the pair branch; the later generation adopted; this side's proof
sent. The first hello of a session is answered with this side's own, in case it was sent before the twin could take it.
Log entry 94 (DEDUCED). -/
def twinHello (t : Nat) (s : State) : State :=
  onCtrl 0x90 2 48 t (fun m f s =>
    let pairing := s.twn.st == .pairing
    if m.port ≠ some 7 ∨ ctrlSrc m ≠ s.twn.chip ∨ (s.twn.st = .none ∨ s.twn.st = .promoted) then s
    else if pairing && !(u8At f 13).testBit 0 then s
    else
      let first := s.twn.peerNonce.isNone
      let g := BitVec.ofNat 8 (u8At f 12)
      let s := modTwn (fun w => { w with peerNonce := some (f.drop 16), peerSerial := u64At f 0,
                                         gen := if genLater w.gen g then g else w.gen }) s
      let s := if first && s.twn.ownNonce != [] then sendHello pairing s else s
      let e := keyEntry s s.twn.pairKey
      let b := pairBranch s
      match b.1, e with
      | some k, some e =>
        let s := b.2
        if e.keyId ≠ u16At f 8 ∨ e.gen ≠ u16At f 10 then sessionFails s
        else
          let role := if twinLow s then 0 else 1
          let s := if first then
              sendGraft (ctrlMsg 0x91 s.twn.chip (ownChip s) 2 (twinProofOf s k role)) s
            else s
          modTwn (fun w => { w with proofSent := true }) s
      | _, _ => sessionFails b.2) s

/-- TWIN_PROOF received: verified, and the session completed (R332). -/
def twinProof (t : Nat) (s : State) : State :=
  onCtrl 0x91 2 32 t (fun m f s =>
    if m.port ≠ some 7 ∨ ctrlSrc m ≠ s.twn.chip ∨ s.twn.proofSent = false ∨ s.twn.proofOk = true then s
    else
      let b := pairBranch s
      match b.1 with
      | some k =>
        if f = twinProofOf b.2 k (if twinLow b.2 then 1 else 0) then
          sessionDone k (modTwn (fun w => { w with proofOk := true }) b.2)
        else sessionFails b.2
      | none => sessionFails b.2) s

/-- PAIR_TIMEOUT: no hello within 8 ms (R331). -/
def pairTimeout (t : Nat) (s : State) : State :=
  let s := s.at t
  match s.twn.pairing with
  | some w =>
    if w.since + 8000000 ≤ s.now then
      finishRef w.ticket stTimeout [] (modTwn (fun x =>
        { x with pairing := none, st := if x.st = .pairing then .none else x.st }) s)
    else s
  | none => s

/-! ### Loss and failover (R341 to R344) -/

/-- The twin declared lost: source regions DETACHED, the twin probed. -/
def declareLost (s : State) : State :=
  if s.twn.st ≠ .paired then s
  else
    let s := detachAll s
    let n := drawBytes 16 s
    let s := modTwn (fun w => { w with st := .graftDown, ackOwed := false,
                                       probing := some { since := s.now, nonce := ofLe n.1, ticket := none } }) n.2
    mirrorResume (sendProbeKind 0x98 3 (leBytes 1 s.twn.gen.toNat ++ zeros 3 ++ n.1) s)

/-- L7 went down: K_graft is zeroised and a paired twin is declared lost (R332, R341). -/
def twinLinkDown (s : State) : State := declareLost (modTwn (fun w => { w with kGraft := none }) s)

/-- The failover of R343. Log entry 97 (DEDUCED). -/
def failover (s : State) : State :=
  let s := modTwn (fun w => { w with gen := w.gen + 1 }) s
  let promoted := s.twn.regions.filter fun e => e.2.target && e.2.st == .inSync
  let s := modTwn (fun w => { w with regions := w.regions.filter fun e => !(e.2.target && e.2.st == .inSync) }) s
  let s := modRegions (fun r => r.target) (fun r => { r with st := .incomplete }) s
  let s := detachAll s
  let ns := (promoted.map fun e => e.2.part).eraseDups
  let s := ns.foldl (fun s n => genChange n s) s
  let s := downEffects s.twn.chip s
  let s := logErr 0x0034 30 (leBytes 2 s.twn.chip ++ leBytes 1 s.twn.gen.toNat) s
  mirrorResume (modTwn (fun w => { w with st := .promoted, probing := none, failoverAt := s.now }) s)

/-- TWIN_FAILOVER that waits ends. -/
def finishYield (status : Nat) (result : Bytes) (s : State) : State :=
  match s.twn.yielding with
  | some w => finishRef w.ticket status result (modTwn (fun x => { x with yielding := none }) s)
  | none => s

/-! ### Tagged messages -/

/-- A tagged GRAFT message for this chip: from L7 and the twin, with a valid tag; `act` takes its fields without the tag.
Others are discarded; a failing tag is counted (R323). -/
def onTagged (code len t : Nat) (act : Bytes → State → State) (s : State) : State :=
  onCtrl code 2 (len + 16) t (fun m f s =>
    if m.port ≠ some 7 ∨ ctrlSrc m ≠ s.twn.chip ∨ s.twn.st = .none then s
    else
      let body := m.bytes.drop 1
      match s.twn.kGraft with
      | some k =>
        if twinTag k (body.take (8 + len)) = f.drop len then act (f.take len) s
        else modTwn (fun w => { w with tagFail := sat32 (w.tagFail + 1) }) s
      | none => modTwn (fun w => { w with tagFail := sat32 (w.tagFail + 1) }) s) s

/-- A message under K_probe, from the twin. -/
def onProbe (code path len t : Nat) (act : Bytes → State → State) (s : State) : State :=
  onCtrl code path (len + 16) t (fun m f s =>
    if ctrlSrc m ≠ s.twn.chip then s
    else
      match s.twn.kProbe with
      | some k =>
        if twinTag k ((m.bytes.drop 1).take (8 + len)) = f.drop len then act (f.take len) s
        else modTwn (fun w => { w with tagFail := sat32 (w.tagFail + 1) }) s
      | none => modTwn (fun w => { w with tagFail := sat32 (w.tagFail + 1) }) s) s

/-- The generation a message carries: an earlier one is answered with TWIN_STALE, a later one declares the twin lost
(R341, R345). Log entry 97 (DEDUCED). -/
def withGen (g : Nat) (act : State → State) (s : State) : State :=
  let g := BitVec.ofNat 8 g
  if g = s.twn.gen then act s
  else if genLater s.twn.gen g then declareLost s
  else answerStale s

/-- GRAFT_BEAT received. -/
def graftBeat (t : Nat) (s : State) : State :=
  onTagged 0x92 16 t (fun f s => withGen (u8At f 0) (fun s => modTwn (fun w => { w with lastBeat := s.now }) s) s) s

/-- GRAFT_BEAT_TIMER: a beat every 100 µs while PAIRED. -/
def graftBeatTimer (t : Nat) (s : State) : State :=
  let s := s.at t
  if s.twn.st = .paired ∧ s.twn.lastBeatSent + 100000 ≤ s.now ∧ s.twn.kGraft.isSome = true then
    let w := s.twn
    let f := leBytes 1 w.gen.toNat ++ leBytes 1 w.st.code ++ zeros 2 ++ leBytes 4 w.beatCount ++ leBytes 8 s.now
    modTwn (fun w => { w with beatCount := (w.beatCount + 1) % 2 ^ 32, lastBeatSent := s.now }) (sendTagged 0x92 f s)
  else s

/-- GRAFT_BEAT_LOSS: 300 µs without a valid beat. -/
def graftBeatLoss (t : Nat) (s : State) : State :=
  let s := s.at t
  if s.twn.st = .paired ∧ s.twn.lastBeat + 300000 ≤ s.now then declareLost s else s

/-- TWIN_PROBE answered at once (R341). -/
def twinProbe (t : Nat) (s : State) : State :=
  onProbe 0x98 3 20 t (fun f s =>
    let g := BitVec.ofNat 8 (u8At f 0)
    if g ≠ s.twn.gen ∧ genLater s.twn.gen g = false then answerStale s
    else
      let s := sendProbeKind 0x99 0 (leBytes 1 s.twn.gen.toNat ++ zeros 3 ++ f.drop 4) s
      if genLater s.twn.gen g then declareLost s else s) s

/-- TWIN_PROBE_ACK: the state is GRAFT_DOWN (R341); one of an earlier generation is discarded (R345). -/
def twinProbeAck (t : Nat) (s : State) : State :=
  onProbe 0x99 0 20 t (fun f s =>
    let g := BitVec.ofNat 8 (u8At f 0)
    if g ≠ s.twn.gen ∧ genLater s.twn.gen g = false then answerStale s
    else
      match s.twn.probing with
      | some w =>
        if w.nonce = ofLe (f.drop 4) then
          logErr 0x0032 30 (leBytes 2 s.twn.chip) (modTwn (fun x => { x with probing := none, st := .graftDown }) s)
        else s
      | none => s) s

/-- PROBE_TIMEOUT: no ack within 500 µs: LOST; in AUTO the failover follows (R341, R342). -/
def probeTimeout (t : Nat) (s : State) : State :=
  let s := s.at t
  match s.twn.probing with
  | some w =>
    if w.since + 500000 ≤ s.now then
      let s := logErr 0x0033 30 (leBytes 2 s.twn.chip) (modTwn (fun x => { x with probing := none, st := .lost }) s)
      if s.cfg.autoFailover then failover s else s
    else s
  | none => s

/-- A yielding twin whose mirror messages are all answered acknowledges and returns to NONE (R344). -/
def tryYieldAck (s : State) : State :=
  if s.twn.ackOwed && s.twn.regions.all (fun e => e.2.target || e.2.sent.isEmpty) then
    let s := sendTagged 0x97 (leBytes 1 s.twn.gen.toNat ++ zeros 3) s
    modTwn (fun w => { w with ackOwed := false, st := .none }) s
  else s

/-- TWIN_YIELD received (R344). -/
def twinYield (t : Nat) (s : State) : State :=
  onTagged 0x96 4 t (fun f s => withGen (u8At f 0) (fun s =>
    if s.twn.st ≠ .paired then s
    else if s.twn.yielding.isSome && twinLow s then s
    else
      let s := finishYield stBusy [] s
      let s := modRegions (fun r => !r.target) (fun r => { r with st := .fenced }) s
      mirrorResume (tryYieldAck (modTwn (fun w => { w with ackOwed := true }) s))) s) s

/-- TWIN_YIELD_ACK received: the failover, and TWIN_FAILOVER completes (R344). -/
def twinYieldAck (t : Nat) (s : State) : State :=
  onTagged 0x97 4 t (fun f s => withGen (u8At f 0) (fun s =>
    if s.twn.yielding.isNone then s
    else
      let s := failover s
      finishYield stOk (leBytes 1 s.twn.gen.toNat) s) s) s

/-- YIELD_TIMEOUT: no ack within 500 µs (R344). -/
def yieldTimeout (t : Nat) (s : State) : State :=
  let s := s.at t
  match s.twn.yielding with
  | some w => if w.since + 500000 ≤ s.now then finishYield stTimeout [] s else s
  | none => s

/-- TWIN_STALE with a later generation; one with an earlier generation is answered with TWIN_STALE (R345). -/
def twinStale (t : Nat) (s : State) : State :=
  onProbe 0x9A 0 4 t (fun f s =>
    let g := BitVec.ofNat 8 (u8At f 0)
    if g = s.twn.gen then s
    else if genLater s.twn.gen g then
      let s := modTwn (fun w => { w with regions := w.regions.filter fun e => e.2.target }) s
      let s := modRegions (fun _ => true) (fun r => { r with st := .incomplete }) s
      mirrorResume (modTwn (fun w => { w with st := .none, probing := none, kGraft := none, ackOwed := false }) s)
    else answerStale s) s

/-- TWIN_UNPAIR received (R331). -/
def twinUnpair (t : Nat) (s : State) : State := onTagged 0x9B 4 t (fun _ s => endPairing false s) s

/-! ### Mirrored regions -/

/-- The status a twin answers a MIRROR_OPEN with (R334). Log entry 97 (DEDUCED). -/
def openStatus (s : State) (n mode offset length : Nat) : Nat :=
  match part s n with
  | none => stBadArg
  | some pt =>
    if pt.mode != mode + 1 || !allocated s n offset length || length == 0 then stBadArg
    else if s.twn.regions.any fun e =>
        e.2.part == n && decide (offset < e.2.offset + e.2.length ∧ e.2.offset < offset + length) then stBusy
    else if 64 ≤ (s.twn.regions.filter fun e => e.2.target).length then stNoResource
    else stOk

/-- A region before its first line. -/
def Region.make (id n lag offset length : Nat) (target async : Bool) : Region :=
  { id := id, st := .syncing, target := target, async := async, part := n, maxLag := lag, offset := offset,
    length := length, copied := 0, seq := 0, captured := 0, answered := 0, late := 0, sent := [] }

/-- A region placed in the lowest free slot. Log entry 15 (DESIGN CHOICE). -/
def addRegion (r : Region) (s : State) : Option (Nat × State) :=
  (tfree s.twn.regions 0 128).map fun k => (k, modTwn (fun w => { w with regions := tset k r w.regions }) s)

/-- MIRROR_OPEN received (R334): its mode is that of the partition; a bound on the lag tells an asynchronous region.
Log entry 97 (DEDUCED). -/
def mirrorOpen (t : Nat) (s : State) : State :=
  onTagged 0x93 24 t (fun f s =>
    let id := u32At f 0
    let n := u8At f 4
    let st := openStatus s n (u8At f 5) (u64At f 8) (u64At f 16)
    let s := if st = stOk then
        match addRegion (Region.make id n (u16At f 6) (u64At f 8) (u64At f 16) true (u16At f 6 != 0)) s with
        | some (_, s) => s
        | none => s
      else s
    sendTagged 0x94 (leBytes 4 id ++ leBytes 2 st ++ zeros 2) s) s

/-- The MIRROR_SET that waits for a region's reply ends with a status. -/
def finishOpening (e : Nat × Region × (Fin 130 × Request)) (status : Nat) (s : State) : State :=
  let s := modTwn (fun w => { w with opening := w.opening.erase e }) s
  let q := e.2.2
  if (chan s q.1).cur = some q.2 then
    respond q.1 q.2 status 0 (if status = stOk then leBytes 4 e.2.1.id else []) s
  else s

/-- MIRROR_REPLY received (R334): MIRROR_SET answers; on OK the region is SYNCING and its copy begins (R335). -/
def mirrorReply (t : Nat) (s : State) : State :=
  onTagged 0x94 8 t (fun f s =>
    match s.twn.opening.find? fun e => e.2.1.id == u32At f 0 with
    | none => s
    | some e =>
      let st := u16At f 4
      if !isSuccess st then finishOpening e st s
      else
        match addRegion e.2.1 s with
        | some (k, s) => finishOpening e stOk (copyRegion k s)
        | none => finishOpening e stNoResource s) s

/-- MIRROR_OPEN_TIMEOUT: no reply within the limit of a simple command: MIRROR_SET fails with TIMEOUT. -/
def mirrorOpenTimeout (t : Nat) (s : State) : State :=
  let s := s.at t
  match s.twn.opening.find? fun e => decide (e.1 + 2000000 ≤ s.now) with
  | some e => finishOpening e stTimeout s
  | none => s

/-- MIRROR_CLOSE received: the region is removed on this side too, source or target (R334). -/
def mirrorClose (t : Nat) (s : State) : State :=
  onTagged 0x95 8 t (fun f s =>
    mirrorResume (tryYieldAck (modTwn (fun w => { w with regions := w.regions.filter fun e => e.2.id != u32At f 0 }) s))) s

/-- A mirror message or its answer (R337). -/
def isMirror (op : Nat) (m : InMsg) : Bool := m.typ == 1 && u8At m.bytes 0 == op && m.port == some 7

/-- The lines of a message applied to the target: full-line writes, poisoned lines poisoned (R338).
Log entry 95 (DEDUCED). -/
def applyMirror (n : Nat) : List (Nat × Bool) → Bytes → State → State
  | [], _, s => s
  | (o, true) :: ls, d, s => applyMirror n ls d (faultLine (localWho s n) n o 3 s)
  | (o, false) :: ls, d, s => applyMirror n ls (d.drop 64) (writeRange (localWho s n) true n o (d.take 64) s).2

/-- The target's copy pointer after lines from an offset. Log entry 95 (DEDUCED). -/
def Region.advance (r : Region) (off lines : Nat) : Region :=
  if off = r.offset + r.copied then { r with copied := r.copied + 64 * lines } else r

/-- MIRROR_WRITE received: checked, applied and answered (R338). Log entry 97 (DEDUCED). -/
def mirrorWrite (t : Nat) (s : State) : State :=
  let s := s.at t
  if cutStopped s then s
  else
    match takeMsg (isMirror 0x50) s with
    | none => s
    | some (m, s) =>
      let b := m.bytes
      let n := u16At b 2
      let id := u32At b 4
      let off := u64At b 16
      let poison := u64At b 24
      let lines := (List.range n).map fun i => (off + 64 * i, poison.testBit i)
      let whole := decide (1 ≤ n ∧ n ≤ 64) && m.vc == 5 && off % 64 == 0 && decide (off % 4096 + 64 * n ≤ 4096)
        && b.length == 32 + 64 * (lines.filter fun l => !l.2).length
      if !whole then dropHeld s
      else
        let g := BitVec.ofNat 8 (u8At b 1)
        let hit := s.twn.regions.find? fun e => e.2.target && e.2.id == id
        let st := if g ≠ s.twn.gen then stPeerReset
          else match hit with
            | none => stAccessDenied
            | some (_, r) =>
              if !(r.st == .syncing || r.st == .inSync) || !decide (r.offset ≤ off ∧ off + 64 * n ≤ r.offset + r.length)
              then stAccessDenied
              else if r.seq ≠ u64At b 8 then stBadArg else stOk
        let s := match hit with
          | none => s
          | some (k, r) =>
            if st = stOk then applyMirror r.part lines (b.drop 32) (setRegion k ({ r with seq := r.seq + 1 }.advance off n) s)
            else setRegion k { r with st := .detached } s
        let s := if st = stOk then s else logErr 0x0035 30 (leBytes 4 id ++ leBytes 2 st) s
        let a := leBytes 1 0xD0 ++ leBytes 1 s.twn.gen.toNat ++ leBytes 2 st ++ leBytes 4 id ++ slice b 8 8 ++ zeros 16
        withGen (u8At b 1) (fun s => s) (queueMsg 7 1 1 0 none a s)

/-- The answer to the oldest message of a source region (R338): its lines are answered and the initial copy goes on, or the region is
DETACHED. -/
def mirrorAnswered (k : Nat) (r : Region) (e : MirrorSent) (rest : List MirrorSent) (st : Nat) (s : State) : State :=
  let s := if isSuccess st then
      copyRegion k (setRegion k { r with sent := rest, answered := if e.copy then r.answered else r.answered + e.lines } s)
    else logErr 0x0035 30 (leBytes 4 r.id ++ leBytes 2 st) (setRegion k r.detach s)
  mirrorResume (tryYieldAck s)

/-- MIRROR_WRITE_ANSWER: the waiting writes complete, or the region is DETACHED (R338, R339); the generation it carries counts as
every twin message's (R345). -/
def mirrorWriteAnswer (t : Nat) (s : State) : State :=
  let s := s.at t
  if cutStopped s then s
  else
    match takeMsg (isMirror 0xD0) s with
    | none => s
    | some (m, s) =>
      let b := m.bytes
      withGen (u8At b 1) (fun s =>
        match s.twn.regions.find? fun e => !e.2.target && e.2.id == u32At b 4 with
        | none => s
        | some (k, r) =>
          match r.sent with
          | e :: rest => if e.seq ≠ u64At b 8 then s else mirrorAnswered k r e rest (u16At b 2) s
          | [] => s) s

/-- MIRROR_SYNC_DONE: the initial copy of the region in a slot has ended (R335): the copy pointer has reached the end, at the source
with every message of the copy answered. -/
def mirrorSyncDone (t k : Nat) (s : State) : State :=
  let s := s.at t
  match tget k s.twn.regions with
  | some r =>
    if r.st = .syncing ∧ r.carried = r.length then setRegion k { r with st := .inSync } s else s
  | none => s

/-! ### The rows -/

/-- `PAIR_TIMEOUT`: 11 R331. -/
def execPairTimeout (t : Nat) (s : State) : Outcome := .next (pairTimeout t s)
/-- `GRAFT_BEAT`: 11 R341; also R323, R345. -/
def execGraftBeat (t : Nat) (s : State) : Outcome := .next (graftBeat t s)
/-- `GRAFT_BEAT_TIMER`: 11 R341. -/
def execGraftBeatTimer (t : Nat) (s : State) : Outcome := .next (graftBeatTimer t s)
/-- `GRAFT_BEAT_LOSS`: 11 R341; also R339. -/
def execGraftBeatLoss (t : Nat) (s : State) : Outcome := .next (graftBeatLoss t s)
/-- `TWIN_PROBE`: 11 R341; also R323. -/
def execTwinProbe (t : Nat) (s : State) : Outcome := .next (twinProbe t s)
/-- `TWIN_PROBE_ACK`: 11 R341. -/
def execTwinProbeAck (t : Nat) (s : State) : Outcome := .next (twinProbeAck t s)
/-- `PROBE_TIMEOUT`: 11 R341; also R342, R343. -/
def execProbeTimeout (t : Nat) (s : State) : Outcome := .next (probeTimeout t s)
/-- `TWIN_YIELD`: 11 R344. -/
def execTwinYield (t : Nat) (s : State) : Outcome := .next (twinYield t s)
/-- `TWIN_YIELD_ACK`: 11 R344; also R343. -/
def execTwinYieldAck (t : Nat) (s : State) : Outcome := .next (twinYieldAck t s)
/-- `YIELD_TIMEOUT`: 11 R344. -/
def execYieldTimeout (t : Nat) (s : State) : Outcome := .next (yieldTimeout t s)
/-- `TWIN_STALE`: 11 R345. -/
def execTwinStale (t : Nat) (s : State) : Outcome := .next (twinStale t s)
/-- `TWIN_UNPAIR`: 11 R331. -/
def execTwinUnpair (t : Nat) (s : State) : Outcome := .next (twinUnpair t s)
/-- `MIRROR_OPEN`: 11 R334; also R323. -/
def execMirrorOpen (t : Nat) (s : State) : Outcome := .next (mirrorOpen t s)
/-- `MIRROR_REPLY`: 11 R334; also R323, R335. -/
def execMirrorReply (t : Nat) (s : State) : Outcome := .next (mirrorReply t s)
/-- `MIRROR_OPEN_TIMEOUT`: 11 R334. -/
def execMirrorOpenTimeout (t : Nat) (s : State) : Outcome := .next (mirrorOpenTimeout t s)
/-- `MIRROR_CLOSE`: 11 R334. -/
def execMirrorClose (t : Nat) (s : State) : Outcome := .next (mirrorClose t s)
/-- `MIRROR_WRITE`: 11 R338; also R345. -/
def execMirrorWrite (t : Nat) (s : State) : Outcome := .next (mirrorWrite t s)
/-- `MIRROR_WRITE_ANSWER`: 11 R339; also R338. -/
def execMirrorWriteAnswer (t : Nat) (s : State) : Outcome := .next (mirrorWriteAnswer t s)
/-- `MIRROR_SYNC_DONE`: 11 R335. -/
def execMirrorSyncDone (t : Nat) (region : Nat) (s : State) : Outcome := .next (mirrorSyncDone t region s)

end Sys2Proof.Machine
end

