-- ==== Sys2Proof/Machine/Link.lean ====
section
/-! DEFINITION. The link layer (chapter 05): flits, replay, virtual channels, landing and spill, keep-alive and link down,
the security handshake. -/

namespace Sys2Proof.Machine

/-! ### Flits (R132 to R136) -/

/-- A flit header (Table 5-1); `clean` when its reserved bits are 0. -/
structure FlitHdr where
  typ : Nat
  vc : Nat
  seq : Nat
  ack : Nat
  kind : Nat
  len : Nat
  kid : Nat
  count : Nat
  stall : Nat
  wedged : Nat
  clean : Bool
  deriving DecidableEq, Repr

/-- The 16 bytes of a header. -/
def FlitHdr.bytes (h : FlitHdr) : Bytes :=
  leBytes 16 (h.typ + h.vc * 2 ^ 4 + h.seq * 2 ^ 8 + h.ack * 2 ^ 20 + h.kind * 2 ^ 32 + h.len * 2 ^ 40 + h.kid * 2 ^ 48
    + h.count * 2 ^ 64 + h.stall * 2 ^ 96 + h.wedged * 2 ^ 104)

/-- The header in flit bytes 0 to 15. -/
def FlitHdr.of (b : Bytes) : FlitHdr :=
  let w := ofLe (b.take 16)
  let f (lo n : Nat) : Nat := w / 2 ^ lo % 2 ^ n
  { typ := f 0 4, vc := f 4 3, seq := f 8 12, ack := f 20 12, kind := f 32 2, len := f 40 8, kid := f 48 2,
    count := f 64 32, stall := f 96 8, wedged := f 104 8,
    clean := f 7 1 == 0 && f 34 6 == 0 && f 50 14 == 0 && f 112 16 == 0 }

/-- The little-endian 16-bit words of bytes, XORed. -/
def xorWords : Bytes → Nat
  | [] => 0
  | [x] => x.toNat
  | x :: y :: b => (x.toNat + 256 * y.toNat) ^^^ xorWords b

/-- The BIP-16 of slice `k` (R133). -/
def bip16 (k : Nat) (slice : Bytes) : Nat := xorWords slice ^^^ (0x5A00 + k)

/-- A flit striped over the eight positions (R132): eight slices of 32 bytes and their BIP-16. -/
def stripe (b : Bytes) : Bytes :=
  ((List.range 8).map fun k => let d := slice b (32 * k) 32; d ++ leBytes 2 (bip16 k d)).flatten

/-- The positions whose slice fails BIP-16. -/
def badSlices (w : Bytes) : List Nat :=
  (List.range 8).filter fun k => bip16 k (slice w (34 * k) 32) ≠ u16At w (34 * k + 32)

/-- The 256 bytes of a flit from its slices. -/
def unstripe (w : Bytes) : Bytes := ((List.range 8).map fun k => slice w (34 * k) 32).flatten

/-- The nonce of a flit (R161). -/
def flitNonce (k : SessKey) (count : Nat) : Bytes := k.iv.take 8 ++ beBytes 4 (ofBe (k.iv.drop 8) ^^^ count)

/-- The 256 bytes of a flit composed under a key, or in the clear (R161). -/
def sealFlit (mode : Nat) (key : Option SessKey) (h : FlitHdr) (payload : Bytes) : Bytes :=
  let hb := h.bytes
  match key with
  | none => hb ++ fit 240 payload
  | some k =>
    let pl := fit 224 payload
    let nonce := flitNonce k h.count
    if mode = 2 then
      let x := gcmSeal k.key nonce hb pl
      hb ++ x.1 ++ x.2
    else hb ++ pl ++ gcmTag k.key nonce (hb ++ pl) []

/-- The plaintext payload of a flit under a key; none where its tag fails (R135). -/
def openFlit (mode : Nat) (k : SessKey) (b : Bytes) : Option Bytes :=
  let hb := b.take 16
  let pl := slice b 16 224
  let tag := slice b 240 16
  let nonce := flitNonce k (FlitHdr.of b).count
  if mode = 2 then
    if gcmTag k.key nonce hb pl = tag then some (gcmCrypt k.key nonce pl) else none
  else if gcmTag k.key nonce (hb ++ pl) [] = tag then some pl else none

/-- The VCs a flit type may use (Table 5-2). -/
def typeOnVc (typ v : Nat) : Bool :=
  if typ = 0 then v == 0 else if typ = 1 then v != 4 else if typ = 2 then v == 4 else (typ == 3 || typ == 4) && v == 7

/-- The header fields that R136 and the LEN of Table 5-1 allow. Log entry 50 (DEDUCED). -/
def hdrOk (mode : Nat) (h : FlitHdr) : Bool :=
  h.clean && decide (h.typ ≤ 4) && typeOnVc h.typ h.vc && h.kind != 3
    && (if h.typ = 0 then h.len == 0 else decide (1 ≤ h.len ∧ h.len ≤ flitRoom mode))

/-- A payload is a segment of a handshake message (Table 5-6). -/
def isHandshake (payload : Bytes) : Bool := decide (1 ≤ u8At payload 0 ∧ u8At payload 0 ≤ 4)

/-- A flit that may travel before the session (R162). Log entry 57 (DEDUCED). -/
def preSessionOk (h : FlitHdr) (payload : Bytes) : Bool := h.typ == 0 || (h.typ == 2 && isHandshake payload)

/-! ### Distances and limits -/

/-- d(a, b) of R137. Log entry 50 (DEDUCED). -/
def seqDist (a b : Nat) : Nat := (b + 4096 - a) % 4096

/-- The maps a side sends (R150, R154). -/
def stallMap (l : Link) : Nat := ((fins 8).map fun v => bit v.val (vget l.rx v).stall).foldl (· + ·) 0
def wedgedMap (l : Link) : Nat := ((fins 8).map fun v => bit v.val (vget l.rx v).wedged).foldl (· + ·) 0

/-- A management frame (04 R104): SYNC, TYPE, SEQ, LEN, the payload, CRC-32. -/
def mgmtFrame (typ seq : Nat) (payload : Bytes) : Bytes :=
  let body := leBytes 1 typ ++ leBytes 1 seq ++ leBytes 2 payload.length ++ payload
  leBytes 4 0x5E4B39D2 ++ body ++ leBytes 4 (crc32 body)

/-- The management channel of a transmit lane is up: in training on all nine lanes, in service on the lanes with a role.
Log entry 43 (DESIGN CHOICE). -/
def mgmtUp (x : Phys) (l : Fin 9) : Bool :=
  let role := (vget x.tx l).role
  (2 ≤ x.st && x.st ≤ 7) || (8 ≤ x.st && x.st ≤ 10 && (role == .data || role == .spareReady))

/-- The transmit lanes whose management channel is up. -/
def upLanes (s : State) (p : Fin 8) : List (Fin 9) := (fins 9).filter (mgmtUp (port s p).phys)

/-- A management message sent on some lanes under one SEQ, counted per sender (04 R104, R105).
Log entry 43 (DESIGN CHOICE). -/
def sendFrames (p : Fin 8) (ls : List (Fin 9)) (typ : Nat) (payload : Fin 9 → Bytes) (s : State) : State :=
  let seq := (port s p).phys.mgmtSeq
  ls.foldl (fun s l => emit (.mgmt p l (mgmtFrame typ seq (payload l))) s)
    (modPhys p (fun x => { x with mgmtSeq := (seq + 1) % 256 }) s)

/-- A port message: on every lane whose management channel is up (04 R105). Log entry 43 (DESIGN CHOICE). -/
def sendMgmt (p : Fin 8) (typ : Nat) (payload : Bytes) (s : State) : State :=
  sendFrames p (upLanes s p) typ (fun _ => payload) s

/-- The transmit lane that carries a lane message: the one with the named index, or the lowest that is up (04 R105). -/
def mgmtLane (s : State) (p : Fin 8) (lane : Nat) : Option (Fin 9) :=
  ((upLanes s p).find? fun l => l.val == lane).or (upLanes s p).head?

/-- A lane message (04 R105). -/
def sendLaneMgmt (p : Fin 8) (lane typ : Nat) (payload : Bytes) (s : State) : State :=
  sendFrames p (mgmtLane s p lane).toList typ (fun _ => payload) s

/-- The LINK record of a port's growth ring (12 Table 12-6). -/
def linkTrace (p : Fin 8) (st data : Nat) (s : State) : State := traceRec (65 + p.val) 0x0C st data s

/-! ### Epochs and sessions (R141, R164 to R166) -/

/-- A new epoch is in use in both directions: the session is up, LINK_REKEY ends, the twin starts its session. -/
def epochInUse (p : Fin 8) (s : State) : State :=
  let l := (port s p).link
  match l.txKey, l.rxKey with
  | some a, some b =>
    if a.epoch ≠ b.epoch then s
    else
      let first := decide (l.st = .securing)
      let s := modLink p (fun l => { l with st := if l.st = .securing then .up else l.st }) s
      let s := match l.rekeyWait with
        | some (e, ch, num) =>
          if e ≤ a.epoch then finishTicket ch num stOk [] (modLink p (fun l => { l with rekeyWait := none }) s) else s
        | none => s
      let s := if first then pump (announceOn p s) else s
      if p = 7 then twinEpoch s else s
  | _, _ => s

/-- After SEC_FINISH was sent and received, new flits use the new epoch (R164 step 5). Log entry 57 (DEDUCED). -/
def trySwitch (p : Fin 8) (s : State) : State :=
  match (port s p).link.shake with
  | some h =>
    if h.finishSent && h.finishGot then
      epochInUse p (modLink p (fun l => { l with txKey := h.newTx, txEpoch := h.epoch, txCount := 0, epochAt := s.now,
                                                 rekeyDue := false, shake := none }) s)
    else s
  | none => s

/-- An OPEN transmitter's epoch ends when its FLIT_COUNT reaches 0x8000_0000 (R141). -/
def advanceEpoch (l : Link) : Link :=
  if l.mode = 0 ∧ 0x80000000 ≤ l.txCount then { l with txEpoch := l.txEpoch + 1, txCount := 0 } else l

/-! ### Link down (R158) -/

/-- A receiver with the port DISABLED; a FAILED lane stays FAILED (04 R123). Log entry 45 (DEDUCED). -/
def RxLane.disable (x : RxLane) : RxLane :=
  { x with role := if x.role = .failed then .failed else .off, qualified := false, energyAt := none, pend := none,
           swappedAt := none, leaving := false, retryAt := none, degAt := none, exchanged := false, retabled := false,
           relieved := false }

/-- A transmitter with the port DISABLED. -/
def TxLane.disable (x : TxLane) : TxLane :=
  { x with role := if x.role = .failed then .failed else .off, pend := none, lastAccepted := none, copy := none,
           retabled := false }

/-- The physical layer goes to DISABLED; what waited on it ends with LINK_DOWN; after reasons 2 and 3 Root will train the
port again (R159). -/
def physDown (p : Fin 8) (reason : Nat) (s : State) : State :=
  let ph := (port s p).phys
  let again := (reason == 2 || reason == 3) && (vget s.cfg.ports p).autoRetrain && ph.last.isSome
  let s := modPhys p (fun x => { x with
    st := 0, since := s.now, grade := 0, ticket := none, listening := false, helloSent := false, peerHello := none,
    quietSymbol := none, ownGrade := none, peerGrade := none, returns := 0, retrain := none, lowAsked := false,
    lowDue := false, quietAt := none, bootWait := false, autoAt := if again then some s.now else none,
    rx := x.rx.map RxLane.disable, tx := x.tx.map TxLane.disable }) s
  let s := finishRef ph.ticket stLinkDown [] s
  let s := finishRef (ph.retrain.bind (·.ticket)) stLinkDown [] s
  linkTrace p 0 reason s

/-- The bytes a first flit's message has in all (R178): transactions, collective and mirror messages give their length;
any other message is one flit. -/
def msgTotal (v : Nat) (payload : Bytes) : Nat :=
  let op := u8At payload 0
  if v = 4 ∨ v = 7 then payload.length
  else if 0x40 ≤ op ∧ op ≤ 0x42 then 48 + u16At payload 14
  else if op = 0x50 then
    32 + 64 * ((List.range (u16At payload 2)).filter fun i => !(u64At payload 24).testBit i).length
  else if txnOpOk (op % 128) then
    32 + (if op.testBit 7 then u32At payload 16 else reqDataLen op (u32At payload 16))
  else payload.length

/-- The container of a CTRL flit takes its place in the assembly (R163): the message once whole; an error where the
segments do not fit. Log entry 54 (DEDUCED). -/
def takeCtrl (old : Option CtrlAsm) (b : Bytes) : Option (Option CtrlAsm × Option Bytes) :=
  let code := u8At b 0
  let seg := u8At b 1
  let segs := u8At b 2
  let len := u16At b 4
  if b.length < 8 ∨ segs = 0 ∨ segs ≤ seg ∨ u8At b 3 ≠ 0 ∨ u16At b 6 ≠ 0 then none
  else
    let start : CtrlAsm := { code := code, segments := segs, length := len, next := 0, bytes := [] }
    match (if seg = 0 then some start else old) with
    | none => none
    | some a =>
      if a.code ≠ code ∨ a.segments ≠ segs ∨ a.length ≠ len ∨ a.next ≠ seg then none
      else
        let a : CtrlAsm := { a with next := seg + 1, bytes := a.bytes ++ b.drop 8 }
        if seg + 1 < segs then (if a.bytes.length ≤ len then some (some a, none) else none)
        else if a.bytes.length = len then some (none, some (BitVec.ofNat 8 code :: a.bytes)) else none

/-- A whole message put before its consumer. -/
def pushInbox (m : InMsg) (s : State) : State := modTxn (fun x => { x with inbox := x.inbox ++ [m] }) s

/-- The consumer takes the first flit of a VC, in order of acceptance (R146). The flag is false where the segments of a
control message do not fit. Log entry 54 (DEDUCED). -/
def deliverFlit (p v : Fin 8) (s : State) : Bool × State :=
  let r := vcRx s p v
  match r.flits with
  | [] => (true, s)
  | f :: rest =>
    if v = 4 then
      let s := modRx p v (fun r => { r with flits := rest }) s
      match takeCtrl (port s p).link.ctrlAsm (landedPayload s p v f) with
      | none => (false, afterTake p v s)
      | some (a, done) =>
        let s := afterTake p v (modLink p (fun l => { l with ctrlAsm := a }) s)
        match done with
        | some b => (true, pushInbox { port := some p, vc := 4, typ := 2, bytes := b, at_ := f.at_ } s)
        | none => (true, s)
    else
      let b := r.asm ++ landedPayload s p v f
      let s := modRx p v (fun r => { r with flits := rest, asm := if f.last then [] else b }) s
      let s := afterTake p v s
      (true, if f.last then pushInbox
        { port := some p, vc := v.val, typ := f.typ, bytes := b, at_ := f.at_, suspect := f.suspect } s else s)

/-- Flits of a message that is not whole at the end of a VC are discarded (06 R178). -/
def dropTail (l : List LandFlit) : List LandFlit := (l.reverse.dropWhile fun f => !f.last).reverse

/-- Everything landed at a VC is delivered. Log entry 59 (DEDUCED). -/
def deliverAll (p v : Fin 8) : Nat → State → State
  | 0, s => s
  | n + 1, s => deliverAll p v n (deliverFlit p v s).2

/-- Responses that were accepted from a port reach their transactions. Log entry 59 (DEDUCED). -/
def takeResponses (p : Fin 8) : Nat → State → State
  | 0, s => s
  | n + 1, s =>
    match takeMsg (fun m => m.port == some p && isTxnMsg m && isResponse m && !isTransit s m) s with
    | some (m, s) => takeResponses p n (acceptResponse m s)
    | none => s

/-- What landed on a port that went down is delivered, its responses are taken, and its transactions complete (R158 steps 4
and 5). Log entry 59 (DEDUCED). -/
def settlePort (p : Fin 8) (s : State) : State :=
  let s := (fins 8).foldl (fun s v => deliverAll p v (vcRx s p v).flits.length s) s
  pump (linkDownTxns p (takeResponses p s.txn.inbox.length s))

/-- Steps 4 and 5 of R158; during a cut the flits stay, and the completions wait for the release (12 R380).
Log entry 59 (DEDUCED). -/
def settleDown (p : Fin 8) (s : State) : State :=
  if cutStopped s then { s with obs := { s.obs with cut := { s.obs.cut with lost := s.obs.cut.lost ++ [p.val] } } }
  else settlePort p s

/-- The link layer of a port ends (R158 steps 2 to 6). Log entry 162 (DESIGN CHOICE). -/
def endLink (p : Fin 8) (s : State) : State :=
  let s := colLinkLost p s
  let wait := (port s p).link.rekeyWait
  let s := modLink p (fun l => { l with
    st := .down, replay := [], resend := none,
    tx := l.tx.map fun v => { v with queue := [], stallAt := none, stalled := false, wedged := false },
    rx := l.rx.map fun v => { v with flits := dropTail v.flits, left := 0, stall := false, wedged := false,
                                     asm := if (dropTail v.flits).isEmpty then [] else v.asm },
    txKey := none, rxKey := none, nextRx := none, prevRx := none, zeroiseAt := none, shake := none, rekeyWait := none,
    rekeyDue := false, peer := none, ctrlAsm := none }) s
  let s := match wait with
    | some (_, ch, num) => finishTicket ch num stLinkDown [] s
    | none => s
  let s := settleDown p s
  let s := modLink p (fun l => { l with next := 0, oldest := 0, expected := 0, nakPending := false, nakDue := false,
                                        needNull := false, ackCount := 0, newest := none }) s
  if p = 7 then twinLinkDown s else s

/-- A side takes the link down (`sent`), or its partner's DOWN was received (R158). Log entry 59 (DEDUCED). -/
def linkGoesDown (p : Fin 8) (reason : Nat) (sent : Bool) (s : State) : State :=
  let l := (port s p).link
  let s := if sent then sendMgmt p 0x09 (leBytes 1 reason ++ zeros 3) s else s
  let s := physDown p reason s
  let s := modLink p (fun l => { l with lastDown := reason, lastDownSent := sent }) s
  if l.st = .down then s
  else
    logErr 0x0011 30 (leBytes 1 p.val ++ leBytes 1 reason ++ leBytes 1 (bit 0 sent) ++ zeros 1 ++ leBytes 2 l.next
      ++ leBytes 2 l.oldest ++ leBytes 2 l.expected) (endLink p s)

/-! ### The handshake (R164) -/

/-- A control message of the link layer or above queued on VC4. -/
def sendCtrl (p : Fin 8) (code : Nat) (body : Bytes) (s : State) : State :=
  queueMsg p 4 2 0 none (BitVec.ofNat 8 code :: body) s

/-- A handshake for an epoch starts: a fresh key pair and nonce, SEC_HELLO (R164 step 1). -/
def startShake (e : Nat) (p : Fin 8) (s : State) : State :=
  let d := drawNat s
  let scalar := d.1 % (p384N - 1) + 1
  let n := drawBytes 32 d.2
  let s := n.2
  let own := leBytes 1 (port s p).link.mode ++ leBytes 1 p.val ++ leBytes 2 (ownChip s) ++ leBytes 4 e ++ n.1
    ++ pointBytes (p384Public scalar) ++ zeros 3
  let s := modLink p (fun l => { l with
    rekeyDue := false,
    shake := some { epoch := e, scalar := scalar, own := own, peer := none, z := [], th := [], proofOk := false,
                    finishSent := false, finishGot := false, newTx := none, start := s.now } }) s
  sendCtrl p 1 own s

/-- The link layer starts when the physical layer reaches LINKED (R137, R141, R162, R169). -/
def linkStart (p : Fin 8) (s : State) : State :=
  let now := s.now
  let s := modLink p (fun l => { l with
    st := if l.mode = 0 then .up else .securing, next := 0, oldest := 0, expected := 0, replay := [], resend := none,
    sinceNull := 0, nakPending := false, nakDue := false, ackCount := 0, needNull := false, timer := now, replays := 0,
    txEpoch := 0, txCount := 0, newest := none, lastSent := now, lastIntact := now, lastNakSent := none, replayed := 0,
    killed := 0, tagFail := 0, naks := 0, tagFailTimes := [], epochAt := now, syncSeq := 0, lastSync := now, wrrTurn := 0,
    rx := l.rx.map fun v => { v with peak := 0, accepted := 0, spilled := 0, dropped := 0, wedges := 0, left := 0 } }) s
  let c := s.obs.cut
  let closed := (vget c.chanClosed p).map fun x => x.map fun _ => 0
  let s := { s with obs := { s.obs with cut := { c with chanClosed := vset c.chanClosed p closed } } }
  if (port s p).link.mode = 0 then
    let s := pump (announceOn p s)
    if p = 7 then twinEpoch s else s
  else startShake 0 p s

/-! ### The transmitter (R137 to R144, R161) -/

/-- A new flit stamped with acknowledgement, maps, epoch and count, and sent (R142, R141, R161). -/
def sendFlit (p : Fin 8) (typ vc len : Nat) (payload : Bytes) (msg : Option Nat) (s : State) : State :=
  let l := advanceEpoch (port s p).link
  let clear := l.mode == 0 || l.txKey.isNone
  let h : FlitHdr := { typ := typ, vc := vc, seq := if typ = 0 then 0 else l.next, ack := l.expected,
                       kind := if l.nakDue then 2 else 1, len := len, kid := l.txEpoch % 4, count := l.txCount,
                       stall := stallMap l, wedged := wedgedMap l, clean := true }
  let b := stripe (sealFlit l.mode (if clear then none else l.txKey) h payload)
  let l := { l with
    txCount := l.txCount + 1, lastSent := s.now, ackCount := 0, needNull := false, sinceNull := 0, nakDue := false,
    nakAt := if l.nakDue then s.now else l.nakAt, naks := if l.nakDue then sat32 (l.naks + 1) else l.naks,
    lastNakSent := if l.nakDue then some s.now else l.lastNakSent }
  let l := if typ = 0 then l
    else
      let restart := l.replay.isEmpty
      { l with next := (l.next + 1) % 4096,
               replay := l.replay ++ [{ seq := l.next, bytes := b, msg := msg }],
               timer := if restart then s.now else l.timer, replays := if restart then 0 else l.replays }
  let s := emit (.flit p b) (modLink p (fun _ => l) s)
  if !clear && decide (0xFFFFFFFE ≤ l.txCount) then linkGoesDown p 4 true s else s

/-- A NULL flit. -/
def sendNull (p : Fin 8) (s : State) : State := sendFlit p 0 0 0 [] none s

/-- The bytes a message occupies in segments, and its segments: a control message's body goes into containers (R163). -/
def ctrlSegs (room : Nat) (m : TxMsg) : Nat := max 1 (ceilDiv (m.bytes.length - 1) (room - 8))

/-- The next flit's payload of a message, the bytes sent after it, and whether it is the last. -/
def nextPiece (room : Nat) (m : TxMsg) : Bytes × Nat × Bool :=
  if m.typ = 2 then
    let body := m.bytes.drop 1
    let k := m.sent / (room - 8)
    let n := ctrlSegs room m
    (leBytes 1 (u8At m.bytes 0) ++ leBytes 1 k ++ leBytes 1 n ++ zeros 1 ++ leBytes 2 body.length ++ zeros 2
      ++ slice body m.sent (room - 8), m.sent + (room - 8), decide (n ≤ k + 1))
  else (slice m.bytes m.sent room, m.sent + room, decide (m.bytes.length ≤ m.sent + room))

/-- What composing a message's flit does beside: the first flit of a request starts T (06 R195); a collective message
sent whole is progress (09 R288); SEC_FINISH sent may switch the epoch. -/
def composed (p : Fin 8) (m : TxMsg) (last : Bool) (s : State) : State :=
  let s := match m.tag with
    | some tag =>
      match colTagOf tag with
      | some (slot, opseq) =>
        if last then modOp slot (fun o => if o.opseq = opseq then { o with timer := s.now } else o) s else s
      | none =>
        if m.sent = 0 then
          modTxn (fun x => { x with txns := tmod tag (fun t => { t with sentAt := some (t.sentAt.getD s.now) }) x.txns }) s
        else s
    | none => s
  if m.typ = 2 ∧ u8At m.bytes 0 = 3 then
    trySwitch p (modLink p (fun l => { l with shake := l.shake.map fun h => { h with finishSent := true } }) s)
  else s

/-- A SYNC flit carries the instant of its composition (12 R364); the growth ring notes it (R365). -/
def stampSync (p : Fin 8) (m : TxMsg) (s : State) : TxMsg × State :=
  if m.typ = 4 then
    ({ m with bytes := patch m.bytes 8 (leBytes 8 s.now) },
     traceRec (65 + p.val) 0x0D (u32At m.bytes 4 % 65536) (((port s p).link.peer.getD 0xFFFF)) s)
  else (m, s)

/-- The next flit of a message composed on a VC; the message leaves the queue with its last flit. -/
def composeMsg (p v : Fin 8) (m : TxMsg) (s : State) : State :=
  let x := stampSync p m s
  let s := x.2
  let l := (port s p).link
  let pc := nextPiece (flitRoom l.mode) x.1
  let q := vget l.tx v
  let queue := if pc.2.2 then q.queue.erase m else q.queue.map fun y => if y = m then { m with sent := pc.2.1 } else y
  let s := modTx p v (fun q => { q with queue := queue, lastPart := m.part }) s
  let s := sendFlit p m.typ v.val pc.1.length pc.1 m.tag s
  composed p m pc.2.2 s

/-- A message may be composed: until the session is up, only the handshake (R162). Log entry 60 (DEDUCED). -/
def mayCompose (l : Link) (m : TxMsg) : Bool :=
  l.st == .up || (m.typ == 2 && decide (1 ≤ u8At m.bytes 0 ∧ u8At m.bytes 0 ≤ 4))

/-- The least number of a list above `a`, else the least. Log entry 52 (DEDUCED). -/
def nextAfter (a : Nat) (l : List Nat) : Option Nat :=
  match (l.filter fun x => decide (a < x)).min? with
  | some x => some x
  | none => l.min?

/-- The message a VC sends next: the one partly sent, else by round robin over partitions (07 R209).
Log entry 52 (DEDUCED). -/
def nextMsg (l : Link) (v : Fin 8) : Option TxMsg :=
  let q := vget l.tx v
  match q.queue.find? fun m => decide (0 < m.sent) with
  | some m => some m
  | none =>
    let ms := q.queue.filter (mayCompose l)
    (nextAfter q.lastPart (ms.map (·.part))).bind fun k => ms.find? fun m => m.part == k

/-- A VC may start new flits (R151, R155); under a cut only VC4 and VC7 have senders that run (12 R374).
Log entry 60 (DEDUCED). -/
def vcOpen (s : State) (p v : Fin 8) : Bool :=
  let q := vcTx s p v
  !q.stalled && !q.wedged && (match q.stallAt with | some t => decide (s.now < t + 1000) | none => true)
    && (v == 4 || v == 7 || !cutStopped s)

/-- A VC has a flit ready. -/
def vcReady (s : State) (p v : Fin 8) : Bool := vcOpen s p v && (nextMsg (port s p).link v).isSome

/-- The weighted round robin of R144 rule 3 from a turn: the VC and the turn after its flit. -/
def wrrPick (s : State) (p : Fin 8) (turn : Nat) : Option (Fin 8 × Nat) :=
  let order : List (Fin 8 × Nat) := [(0, 2), (2, 4), (5, 2), (3, 4)]
  let idx := turn / 8 % 4
  ((List.range 4).filterMap fun i =>
    let j := (idx + i) % 4
    let e := order.getD j (0, 2)
    if vcReady s p e.1 then
      let used := (if i = 0 then turn % 8 else 0) + 1
      some (e.1, if e.2 ≤ used then (j + 1) % 4 * 8 else j * 8 + used)
    else none).head?

/-- The VC of the next new flit (R144), with the turn of the round robin after it. -/
def pickVc (s : State) (p : Fin 8) : Option (Fin 8 × Nat) :=
  let turn := (port s p).link.wrrTurn
  match ([4, 7, 1] : List (Fin 8)).find? (vcReady s p) with
  | some v => some (v, turn)
  | none =>
    match wrrPick s p turn with
    | some x => some x
    | none => if vcReady s p 6 then some (6, turn) else none

/-- The port composes flits: LINKED, the link layer started. Log entry 51 (DEDUCED). -/
def composes (s : State) (p : Fin 8) : Bool :=
  (port s p).phys.st == 8 && ((port s p).link.st == .securing || (port s p).link.st == .up)

/-- The next buffered flit of a replay, byte for byte (R140). -/
def resendFlit (p : Fin 8) (f : SentFlit) (s : State) : State :=
  emit (.flit p f.bytes) (modLink p (fun l => { l with
    resend := if (f.seq + 1) % 4096 = l.next then none else some ((f.seq + 1) % 4096)
    replayed := l.replayed + 1, sinceNull := l.sinceNull + 1, lastSent := s.now }) s)

/-- A new flit: by priority and round robin, or a NULL flit where one is wanted (R137, R142, R144). -/
def composeNew (null : Bool) (p : Fin 8) (s : State) : State :=
  let l := (port s p).link
  let full := decide (2048 ≤ seqDist l.oldest l.next)
  match if full then none else pickVc s p with
  | some (v, turn) =>
    match nextMsg l v with
    | some m => composeMsg p v m (modLink p (fun l => { l with wrrTurn := turn }) s)
    | none => s
  | none => if null || l.needNull || l.nakDue || full then sendNull p s else s

/-- One flit: replays first, with a NULL flit after every 256 and where an acknowledgement is wanted (R139, R140). Traffic
for a port in LOW sends the WAKE pilot (04 R126). -/
def composeOne (null : Bool) (p : Fin 8) (s : State) : State :=
  if (port s p).phys.st = 9 ∧ ((fins 8).any fun v => !(vcTx s p v).queue.isEmpty) = true then emit (.pilot p .wake) s
  else if !composes s p then s
  else
    let l := (port s p).link
    match l.resend.bind fun a => l.replay.find? fun f => f.seq == a with
    | some f => if 256 ≤ l.sinceNull || null then sendNull p s else resendFlit p f s
    | none => composeNew null p s

/-- SEC_ABORT is sent at once, and the link goes down with reason 4 (Table 5-7). Log entry 56 (DEDUCED). -/
def abortShake (reason : Nat) (p : Fin 8) (s : State) : State :=
  let m : TxMsg := { bytes := [4, BitVec.ofNat 8 reason, 0, 0, 0], sent := 0, typ := 2, part := 0, tag := none,
                     since := s.now }
  let l := (port s p).link
  let s := if composes s p && decide (seqDist l.oldest l.next < 2048) then composeMsg p 4 m s else s
  if (port s p).link.st = .down then s else linkGoesDown p 4 true s

/-! ### The receiver (R135 to R143, R162) -/

/-- A replay from a number starts; it counts towards the 16 of R143. Log entry 51 (DEDUCED). -/
def replayFrom (a now : Nat) (l : Link) : Link :=
  { l with resend := some a, replays := l.replays + 1, timer := now, sinceNull := 0 }

/-- An acknowledgement acted on (R139): what it releases, and a NAK's replay; after the 16th replay from one OLDEST none
starts. Log entry 50 (DEDUCED). -/
def ackFlits (kind a now : Nat) (l : Link) : Link :=
  let d := seqDist l.oldest a
  let l := if d = 0 then l
    else
      { l with oldest := a, timer := now, replays := 0,
               replay := l.replay.filter fun f => decide (d ≤ seqDist l.oldest f.seq),
               resend := l.resend.bind fun r =>
                 if seqDist l.oldest r < d then (if a = l.next then none else some a) else some r }
  if kind = 2 ∧ a ≠ l.next ∧ l.replays < 16 then replayFrom a now l else l

/-- A side needs a NAK, unless one is pending (R138). -/
def needNak (now : Nat) (l : Link) : Link :=
  if l.nakPending then l else { l with nakPending := true, nakDue := true, nakAt := now }

/-- Messages of completed transactions that a VC has not begun to send are dropped (06 R193).
Log entry 53 (DEDUCED). -/
def dropUnsent (p v : Fin 8) (s : State) : State :=
  let keep (m : TxMsg) : Bool := decide (0 < m.sent) || (match m.tag with
    | some tag => decide (65536 ≤ tag) || thas tag s.txn.txns
    | none => true)
  modTx p v (fun q => { q with queue := q.queue.filter keep }) s

/-- The partner's bits for a VC acted on (R151, R155, 06 R179). -/
def actMaps (p : Fin 8) (h : FlitHdr) (s : State) (v : Fin 8) : State :=
  let q := vcTx s p v
  let s := modTx p v (fun q => { q with
    stallAt := if h.stall.testBit v.val then some (q.stallAt.getD s.now) else none
    stalled := q.stalled && h.stall.testBit v.val }) s
  let w := h.wedged.testBit v.val
  if w && !q.wedged then
    let s := partnerWedgedTxns p v (modTx p v (fun q => { q with wedged := true }) s)
    dropUnsent p v (if v = 2 then colWedged p s else s)
  else if !w && q.wedged then
    modTx p v (fun q => { q with wedged := false, queue := q.queue.filter fun m => m.sent == 0 }) s
  else s

/-- A header newer than every one acted on (R141); KEY_ID 4 stands for the flits before the session.
Log entry 57 (DEDUCED). -/
def isNewer (ref : Option (Nat × Nat)) (kid count : Nat) : Bool :=
  match ref with
  | none => true
  | some (k, c) =>
    if kid = k then decide (c < count) else if k = 4 then true else kid != 4 && kid == (k + 1) % 4

/-- VC `v` of a port wedges (R154 to R156). Log entries 53 (DEDUCED), 162 (DESIGN CHOICE). -/
def wedgeVc (p v : Fin 8) (s : State) : State :=
  let recent := (vcRx s p v).wedgeTimes.filter (fun t => decide (s.now < t + 10000000000)) ++ [s.now]
  let s := modRx p v (fun r => { r with wedged := true, wedges := sat32 (r.wedges + 1), wedgeTimes := recent }) s
  let s := logErr 0x0015 30 (leBytes 1 p.val ++ leBytes 1 v.val) s
  let s := ownWedgedTxns p v s
  let s := if v = 2 then colWedged p s else s
  if 4 ≤ recent.length then linkGoesDown p 2 true s else s

/-- The first flit that lies in a landing slot replaced. -/
def replaceSlot (g : LandFlit) : List LandFlit → List LandFlit
  | [] => []
  | f :: fs => if f.ring then f :: replaceSlot g fs else g :: fs

/-- The oldest flit in a landing slot moves to the ring and is counted (R145). Log entry 53 (DEDUCED). -/
def spillOne (p v : Fin 8) (s : State) : State :=
  match (vcRx s p v).flits.find? fun f => !f.ring with
  | none => s
  | some f =>
    let x := spillFlit p v f s
    afterTake p v (modRx p v (fun r => { r with flits := replaceSlot x.1 r.flits, spilled := r.spilled + 1 }) x.2)

/-- A cut's channel of a port closes with the peer's MARKER (12 R378). Log entries 53 (DEDUCED), 103 (DEDUCED). -/
def closeChannel (p : Fin 8) (payload : Bytes) (s : State) : State :=
  let c := s.obs.cut
  let peerIn := match (port s p).link.peer with
    | some x => c.map.testBit x
    | none => false
  if c.st != .idle && c.scope == 1 && u32At payload 0 == c.id && peerIn
      && (vget c.chanClosed p).all (·.isNone) then
    let counts := (port s p).link.rx.map fun v => some (v.accepted - v.dropped)
    { s with obs := { s.obs with cut := { c with chanClosed := vset c.chanClosed p counts } } }
  else s

/-- The port sent a NAK within the last 10 µs: what it accepts now may be a replay (12 R365). -/
def nakJustSent (s : State) (p : Fin 8) : Bool :=
  match (port s p).link.lastNakSent with
  | some n => decide (s.now ≤ n + 10000)
  | none => false

/-- An accepted flit lands (R145, R146, R154). -/
def landFlit (p v : Fin 8) (h : FlitHdr) (payload : Bytes) (s : State) : State :=
  let r := vcRx s p v
  let total := if r.left = 0 then msgTotal v.val payload else r.left
  let left := total - payload.length
  let last := left == 0 || decide (payload.length < flitRoom (port s p).link.mode)
  let s := modRx p v (fun r => { r with accepted := r.accepted + 1, left := if last then 0 else left }) s
  let drop (s : State) : State := modRx p v (fun r => { r with dropped := sat32 (r.dropped + 1) }) s
  if r.wedged then drop s
  else
    let fill := ringFill s p v
    let ring := decide (0 < fill)
    if ring && decide (ringSize s p v ≤ fill) then wedgeVc p v (drop s)
    else
      let s := if h.typ = 3 then closeChannel p payload s else s
      let f : LandFlit := { typ := h.typ, hdr := h.bytes, payload := payload, at_ := s.now, last := last, ring := false, entry := 0,
                            sealed_ := false, suspect := nakJustSent s p }
      let x := if ring then spillFlit p v f s else (f, s)
      let s := modRx p v (fun r => { r with
        flits := r.flits ++ [x.1], spilled := if ring then r.spilled + 1 else r.spilled }) x.2
      let s := afterTake p v s
      if 192 ≤ slotsUsed s p v then spillOne p v s else s

/-- An intact sequenced flit (R138). Log entry 161 (DESIGN CHOICE). -/
def sequenced (p : Fin 8) (h : FlitHdr) (payload : Bytes) (s : State) : State :=
  let l := (port s p).link
  if h.seq = l.expected then
    let s := modLink p (fun l => { l with
      expected := (l.expected + 1) % 4096, nakPending := false, nakDue := false,
      ackFirst := if l.ackCount = 0 then s.now else l.ackFirst, ackCount := l.ackCount + 1 }) s
    landFlit p (finOf 8 h.vc) h (payload.take h.len) s
  else if seqDist h.seq l.expected ≤ 2048 then modLink p (fun l => { l with needNull := true }) s
  else modLink p (needNak s.now) s

/-- The header of a newer flit acted on: acknowledgement, stall and wedge maps (R139, R140).
Log entry 50 (DEDUCED). -/
def actHeader (p : Fin 8) (ref : Nat) (h : FlitHdr) (s : State) : State :=
  let l := (port s p).link
  let s := modLink p (fun l => { l with newest := some (ref, h.count) }) s
  let isOver : Bool := decide (seqDist l.oldest l.next < seqDist l.oldest h.ack)
  if h.kind ≠ 0 && isOver && decide (seqDist l.oldest h.ack < 2048) then linkGoesDown p 2 true s
  else
    let s := if h.kind ≠ 0 && !isOver then modLink p (ackFlits h.kind h.ack s.now) s else s
    pump ((fins 8).foldl (actMaps p h) s)

/-- How a flit whose slices pass BIP-16 authenticates (R135, R162, R165). -/
inductive FlitAuth where
  /-- Its tag fails. -/
  | bad
  /-- Sent before the session, in the clear. -/
  | clear (payload : Bytes)
  /-- Under the key of the receiving epoch, the next or the previous one; on OPEN ports, in the clear. -/
  | current (payload : Bytes)
  | next (payload : Bytes)
  | previous (payload : Bytes)
  deriving DecidableEq, Repr

/-- The key a flit verifies under. Flits before the session are taken until the session's first flit, and as replays while
the previous key would still be held (R165). Log entries 57 (DEDUCED), 58 (DEDUCED). -/
def authFlit (l : Link) (now : Nat) (b : Bytes) : FlitAuth :=
  let h := FlitHdr.of b
  let plain := slice b 16 224
  let try_ (k : Option SessKey) : Option Bytes :=
    k.bind fun k => if k.epoch % 4 = h.kid then openFlit l.mode k b else none
  let old := match l.rxKey, l.zeroiseAt with
    | none, _ => true
    | some k, some z => k.epoch == 0 && l.prevRx.isNone && decide (now < z) && hdrOk l.mode h && preSessionOk h plain
    | some _, none => false
  if l.mode = 0 then .current (slice b 16 240)
  else
    match try_ l.rxKey, try_ l.nextRx, try_ l.prevRx with
    | some x, _, _ => .current x
    | none, some x, _ => .next x
    | none, none, some x => .previous x
    | none, none, none => if old then .clear plain else .bad

/-- The first flit under a new epoch: its key becomes current, the previous one is held 200 µs (R165). -/
def rotateRx (p : Fin 8) (s : State) : State :=
  epochInUse p (modLink p (fun l => { l with prevRx := l.rxKey, rxKey := l.nextRx, nextRx := none,
                                             zeroiseAt := some (s.now + 200000) }) s)

/-- A lane error counted by a receiver that holds a position or is the ready spare (04 R120, R121).
Log entry 152 (DESIGN CHOICE). -/
def RxLane.addErr (now span : Nat) (r : RxLane) : RxLane :=
  if r.role = .data ∨ r.role = .spareReady then
    { r with errs := sat32 (r.errs + 1), errTimes := r.errTimes.filter (fun t => decide (now < t + span)) ++ [now] }
  else r

/-- A BIP-16 failure: an error of the lane that carries the position (R135, 04 R121). -/
def laneError (p : Fin 8) (k : Nat) (s : State) : State :=
  let span := (vget s.cfg.ports p).retireUs * 1000
  modPhys p (fun x => { x with rx := x.rx.map fun r =>
    if r.role = .data ∧ r.position = k then r.addErr s.now span else r }) s

/-- A CRC8 failure of a framing word, or an errored PRBS31 block of the ready spare: an error of a physical lane (04 R100, R120).
Log entry 152 (DESIGN CHOICE). -/
def symbolError (p : Fin 8) (l : Fin 9) (s : State) : State :=
  modPhys p (fun x => { x with rx := vmod x.rx l (RxLane.addErr s.now ((vget s.cfg.ports p).retireUs * 1000)) }) s

/-- The link layer has drained a port: no flit queued, unacknowledged or in a landing slot (04 R125). -/
def drained (l : Link) : Bool :=
  l.replay.isEmpty && l.resend.isNone && (fins 8).all fun v => (vget l.tx v).queue.isEmpty && (vget l.rx v).flits.all (·.ring)

/-- LOW_ENTER is sent once the link layer has drained the port (04 R125). -/
def askLow (p : Fin 8) (s : State) : State :=
  if (port s p).phys.lowDue && (port s p).phys.st == 8 && drained (port s p).link then
    sendMgmt p 0x07 (leBytes 4 (vget s.cfg.ports p).beaconMs) (modPhys p (fun x => { x with lowDue := false, lowAsked := true }) s)
  else s

/-- An intact flit (R136 to R140, R162). -/
def intact (p : Fin 8) (ref : Nat) (h : FlitHdr) (payload : Bytes) (s : State) : State :=
  let s := modLink p (fun l => { l with lastIntact := s.now }) s
  let l := (port s p).link
  if !hdrOk l.mode h || ((ref == 4 || l.st == .securing) && !preSessionOk h payload) then linkGoesDown p 2 true s
  else
    let s := if isNewer l.newest ref h.count then actHeader p ref h s else s
    if (port s p).link.st = .down then s
    else if l.mode ≠ 0 ∧ ref ≠ 4 ∧ 0xFFFFFFFE ≤ h.count then linkGoesDown p 4 true s
    else if h.typ = 0 then s else sequenced p h payload s

/-- A flit of eight slices of 34 bytes, position by position, on a port whose link layer runs. -/
def takeFlit (p : Fin 8) (w : Bytes) (s : State) : State :=
  let l := (port s p).link
  if !composes s p || w.length != 272 then s
  else
    let bad := badSlices w
    let kill (s : State) : State := modLink p (fun l => needNak s.now { l with killed := sat32 (l.killed + 1) }) s
    if bad ≠ [] then kill (bad.foldl (fun s k => laneError p k s) s)
    else
      let b := unstripe w
      let h := FlitHdr.of b
      match authFlit l s.now b with
      | .bad =>
        let recent := l.tagFailTimes.filter (fun t => decide (s.now < t + 1000000)) ++ [s.now]
        let s := kill (modLink p (fun l => { l with tagFail := sat32 (l.tagFail + 1), tagFailTimes := recent }) s)
        if 4 ≤ recent.length then linkGoesDown p 4 true s else s
      | .clear pl => intact p 4 h pl s
      | .current pl => intact p h.kid h pl s
      | .previous pl => intact p h.kid h pl s
      | .next pl => intact p h.kid h pl (rotateRx p s)

/-- FLIT_RECEIVE: a flit, and the lane errors of the symbols that carried it (04 R100, R120).
Log entry 152 (DESIGN CHOICE). -/
def flitReceive (t : Nat) (p : Fin 8) (w : Bytes) (laneErrs : List (Fin 9)) (s : State) : State :=
  let s := s.at t
  let s := if (port s p).phys.st = 8 then laneErrs.foldl (fun s l => symbolError p l s) s else s
  askLow p (takeFlit p w s)

/-! ### The rows -/

/-- FLIT_COMPOSE. Log entry 51 (DEDUCED). -/
def flitCompose (t : Nat) (p : Fin 8) (s : State) : State := composeOne false p (s.at t)

/-- NAK_RESEND: a NAK still pending 4 µs after it was sent. Log entry 51 (DEDUCED). -/
def nakResend (t : Nat) (p : Fin 8) (s : State) : State :=
  let s := s.at t
  let l := (port s p).link
  if l.nakPending && !l.nakDue && decide (l.nakAt + 4000 ≤ s.now) then
    composeOne true p (modLink p (fun l => { l with nakDue := true }) s)
  else s

/-- ACK_TIMER: 64 accepted flits, or 0.5 µs after the first unacknowledged one (R142). -/
def ackTimer (t : Nat) (p : Fin 8) (s : State) : State :=
  let s := s.at t
  let l := (port s p).link
  if 64 ≤ l.ackCount ∨ (0 < l.ackCount ∧ l.ackFirst + 500 ≤ s.now) then composeOne true p s else s

/-- REPLAY_TIMER (R143). -/
def replayTimer (t : Nat) (p : Fin 8) (s : State) : State :=
  let s := s.at t
  let l := (port s p).link
  if composes s p && !l.replay.isEmpty && decide (l.timer + 10000 ≤ s.now) then
    if 16 ≤ l.replays then linkGoesDown p 3 true s else modLink p (fun l => replayFrom l.oldest s.now l) s
  else s

/-- KEEPALIVE_NULL (R157). -/
def keepaliveNull (t : Nat) (p : Fin 8) (s : State) : State :=
  let s := s.at t
  if composes s p && decide ((port s p).link.lastSent + 1000 ≤ s.now) then sendNull p s else s

/-- LINK_DOWN_TIMEOUT (R157); the timer is suspended in LOW. -/
def linkDownTimeout (t : Nat) (p : Fin 8) (s : State) : State :=
  let s := s.at t
  if composes s p && decide ((port s p).link.lastIntact + (vget s.cfg.ports p).downUs * 1000 ≤ s.now) then
    linkGoesDown p 3 true s
  else s

/-- LANDING_SPILL: a flit that has waited 2 µs in its slot, or 192 slots in use, moves to the ring; a full ring that must
take it wedges the VC (R145, R154). Log entry 53 (DEDUCED). -/
def landingSpill (t : Nat) (p v : Fin 8) (s : State) : State :=
  let s := s.at t
  match (vcRx s p v).flits.find? fun f => !f.ring with
  | some f =>
    if f.at_ + 2000 ≤ s.now ∨ 192 ≤ slotsUsed s p v then
      if ringFill s p v < ringSize s p v then askLow p (spillOne p v s)
      else if (vcRx s p v).wedged || (port s p).link.st == .down then s else wedgeVc p v s
    else s
  | none => s

/-- The flit at the head of a VC belongs to a message for another chip whose output VC is stalled (R152). -/
def headBlocked (s : State) (p v : Fin 8) : Bool :=
  let r := vcRx s p v
  match r.flits with
  | [] => false
  | f :: _ =>
    let m : InMsg := { port := some p, vc := v.val, typ := f.typ, bytes := r.asm ++ landedPayload s p v f, at_ := f.at_ }
    isTransit s m && transitBlocked s m

/-- FLIT_DELIVER (R146): the consumers of VC4 and VC7 always take; the engines take none during a cut, and leave a message
behind one that waits; the switch leaves a flit whose output VC is stalled (R152). -/
def flitDeliver (t : Nat) (p v : Fin 8) (s : State) : State :=
  let s := s.at t
  let waits := s.txn.inbox.any fun m => m.port == some p && m.vc == v.val
  if v ≠ 4 ∧ v ≠ 7 ∧ (cutStopped s || waits || headBlocked s p v) = true then s
  else
    let r := deliverFlit p v s
    askLow p (if r.1 || (port s p).link.st == .down then r.2 else linkGoesDown p 2 true r.2)

/-- STALL_TAKE_EFFECT (R151). -/
def stallTakeEffect (t : Nat) (p v : Fin 8) (s : State) : State :=
  let s := s.at t
  match (vcTx s p v).stallAt with
  | some t0 => if t0 + 1000 ≤ s.now then modTx p v (fun q => { q with stalled := true }) s else s
  | none => s

/-- WEDGE_CLEAR (R156, 06 R179): no earlier than 200 µs after the ring and the slots have emptied.
Log entry 53 (DEDUCED). -/
def wedgeClear (t : Nat) (p v : Fin 8) (s : State) : State :=
  let s := s.at t
  let r := vcRx s p v
  if r.wedged && s.root.alive && r.flits.isEmpty && parkedFlits s p v == 0 && decide (r.emptyAt + 200000 ≤ s.now) then
    modRx p v (fun r => { r with wedged := false, left := 0, asm := [] }) s
  else s

/-- EPOCH_ADVANCE (R141). -/
def epochAdvance (t : Nat) (p : Fin 8) (s : State) : State :=
  let s := s.at t
  if composes s p then modLink p advanceEpoch s else s

/-- The hours of R166, in ns. -/
def rekeyPeriod : Nat := 24 * 3600 * 1000000000

/-- REKEY_START: a count reached 0x8000_0000, LINK_REKEY, the identity key replaced, or 24 hours (R166); no earlier than
1 ms after the epoch began (R141). -/
def rekeyStart (t : Nat) (p : Fin 8) (s : State) : State :=
  let s := s.at t
  let l := (port s p).link
  let rxHigh := match l.newest with
    | some (k, c) => k != 4 && decide (0x80000000 ≤ c)
    | none => false
  let due := l.rekeyDue || l.rekeyWait.isSome || decide (0x80000000 ≤ l.txCount) || rxHigh
    || decide (l.epochAt + rekeyPeriod ≤ s.now)
  if composes s p && s.root.alive && l.mode != 0 && l.txKey.isSome && l.shake.isNone && due && decide (l.epochAt + 1000000 ≤ s.now) then
    startShake (l.txEpoch + 1) p s
  else s

/-- The first handshake message of a code that a port received. -/
def takeShake (p : Fin 8) (code : Nat) (s : State) : Option (Bytes × State) :=
  (takeMsg (fun m => m.port == some p && m.typ == 2 && ctrlCode m == code) s).map fun x => (x.1.bytes.drop 1, x.2)

/-- The certificate that the chip presents for an identity leaf (15 R455). Log entry 55 (DEDUCED). -/
def certFor (s : State) (handle : Nat) : Option Bytes :=
  (keyEntry s handle).bind fun e => s.cfg.certs.find? fun c => u64At c 0 == s.fuse.serial && u16At c 8 == e.keyId

/-- SEC_PROOF is sent: the certificate and the signature by the identity leaf (R164 step 3, Table 5-7). -/
def sendProof (p : Fin 8) (role : Nat) (th : Bytes) (s : State) : State :=
  let id := (port s p).link.identity
  match certFor s id with
  | none => abortShake 3 p s
  | some cert =>
    match useKey id useLink s with
    | (none, s) => abortShake 4 p s
    | (some m, s) =>
      let d := drawNat s
      sendCtrl p 2 (cert ++ ecdsaSign (ofBe m) (d.1 % (p384N - 1) + 1) (ascii "SAP-PROOF" ++ leBytes 1 role ++ th)) d.2

/-- The role in the handshake: 0 for the initiator of 04 R115. -/
def shakeRole (s : State) (p : Fin 8) : Nat := if (port s p).phys.initiator then 0 else 1

/-- A SEC_HELLO checked and answered (R164 steps 2 and 3). Log entry 55 (DEDUCED). -/
def takeHello (p : Fin 8) (h : Handshake) (b : Bytes) (s : State) : State :=
  let l := (port s p).link
  if u8At b 0 ≠ l.mode ∨ u32At b 4 ≠ h.epoch then abortShake 1 p s
  else if l.peerExpect ≠ 0xFFFF ∧ u16At b 2 ≠ l.peerExpect then abortShake 2 p s
  else
    match pointOfBytes (slice b 40 97) with
    | none => abortShake 4 p s
    | some q =>
      let role := shakeRole s p
      let th := sha384 (if role = 0 then h.own ++ b else b ++ h.own)
      let s := modLink p (fun l => { l with shake := some { h with peer := some b, z := ecdhX h.scalar q, th := th } }) s
      sendProof p role th s

/-! ### Withdrawal of keys (03 R82 step 3, R91, Table 3-7) -/

/-- The partitions whose seal key satisfies `p` lose both of their installed keys. Log entry 64 (DESIGN CHOICE). -/
def dropPairs (p : Nat → Bool) (s : State) : State :=
  { s with mm := { s.mm with parts := s.mm.parts.map fun e =>
      (e.1, if p e.2.sealKey then { e.2 with pair := none, oldPair := none } else e.2) } }

/-- The secured ports whose identity satisfies `p` are taken down, reason 4. Log entry 64 (DESIGN CHOICE). -/
def dropPorts (p : Nat → Bool) (s : State) : State :=
  (fins 8).foldl (fun s i =>
    let l := (port s i).link
    if l.mode ≠ 0 ∧ p l.identity = true ∧ l.st ≠ .down then linkGoesDown i 4 true s else s) s

/-- The graft is taken down and the pairing ends, without failover (11 R347). Log entry 64 (DESIGN CHOICE). -/
def dropTwin (s : State) : State :=
  let s := if (port s 7).link.st ≠ .down then linkGoesDown 7 4 true s else s
  if s.twn.st = .pairing then sessionFails s else endPairing true s

/-- Every consumer of an orphaned key gives it up. Log entry 64 (DESIGN CHOICE). -/
def withdraw (s : State) : State :=
  if s.hwd.orphans.isEmpty then s
  else
    let p := fun h => s.hwd.orphans.contains h
    let twin := p s.twn.pairKey && s.twn.st != .none
    let s := dropPorts p (dropPairs p s)
    let s := if twin then dropTwin s else s
    modHwd (fun h => { h with orphans := [] }) s

/-! ### Handshake messages (R164) -/

/-- SEC_HELLO; a hello for the next epoch is answered no earlier than 1 ms after the present one began (R141), by Root (01 R16).
Log entry 55 (DEDUCED). -/
def secHello (t : Nat) (p : Fin 8) (s : State) : State :=
  let s := s.at t
  let l := (port s p).link
  if l.shake.isNone && l.txKey.isSome && (!s.root.alive || decide (s.now < l.epochAt + 1000000)) then s
  else
    match takeShake p 1 s with
    | none => s
    | some (b, s) =>
      if !composes s p then s
      else if b.length ≠ 140 ∨ zeroAt b 137 3 = false then linkGoesDown p 2 true s
      else if l.mode = 0 then abortShake 1 p s
      else
        let e := if l.txKey.isSome then l.txEpoch + 1 else 0
        let s := if l.shake.isNone ∧ u32At b 4 = e then startShake e p s else s
        match (port s p).link.shake with
        | none => abortShake 1 p s
        | some h => if h.peer.isSome then s else withdraw (takeHello p h b s)

/-- The identity point of a certificate that the owner signed (Table 5-5). Log entry 55 (DEDUCED). -/
def checkCert (s : State) (c : Bytes) : Option (Nat × Nat) :=
  match pointOfBytes s.cfg.ownerKey, pointOfBytes (slice c 12 97) with
  | some o, some q =>
    if zeroAt c 10 2 && zeroAt c 109 3 && ecdsaVerify o (ascii "SAP-CERT" ++ c.take 112) (slice c 112 96) then some q
    else none
  | _, _ => none

/-- A direction's key and IV (R164). Log entry 55 (DEDUCED). -/
def sessionKey (h : Handshake) (dir : Nat) : SessKey :=
  let k := hkdf384 h.z h.th (ascii "SAP-KEY" ++ leBytes 1 dir ++ leBytes 4 h.epoch) 44
  { key := k.take 32, iv := k.drop 32, epoch := h.epoch }

/-- SEC_PROOF: the peer's certificate and signature verified, both keys derived, SEC_FINISH sent (R164 step 4).
Log entry 54 (DEDUCED). -/
def secProof (t : Nat) (p : Fin 8) (s : State) : State :=
  let s := s.at t
  match takeShake p 2 s with
  | none => s
  | some (b, s) =>
    if !composes s p then s
    else
      match (port s p).link.shake with
      | none => linkGoesDown p 2 true s
      | some h =>
        if h.peer.isNone ∨ h.proofOk = true ∨ b.length ≠ 304 then linkGoesDown p 2 true s
        else
          let role := shakeRole s p
          match checkCert s (b.take 208) with
          | none => abortShake 3 p s
          | some q =>
            if !ecdsaVerify q (ascii "SAP-PROOF" ++ leBytes 1 (1 - role) ++ h.th) (b.drop 208) then abortShake 4 p s
            else
              let s := modLink p (fun l => { l with
                nextRx := some (sessionKey h (1 - role))
                shake := some { h with proofOk := true, newTx := some (sessionKey h role) } }) s
              sendCtrl p 3 (leBytes 4 h.epoch) s

/-- SEC_FINISH. Log entries 54 (DEDUCED), 55 (DEDUCED). -/
def secFinish (t : Nat) (p : Fin 8) (s : State) : State :=
  let s := s.at t
  match takeShake p 3 s with
  | none => s
  | some (b, s) =>
    if !composes s p then s
    else
      match (port s p).link.shake with
      | none => linkGoesDown p 2 true s
      | some h =>
        if b.length ≠ 4 then linkGoesDown p 2 true s
        else if ofLe b ≠ h.epoch then abortShake 1 p s
        else trySwitch p (modLink p (fun l => { l with shake := some { h with finishGot := true } }) s)

/-- SEC_ABORT received (Table 5-7). Log entry 56 (DEDUCED). -/
def secAbort (t : Nat) (p : Fin 8) (s : State) : State :=
  let s := s.at t
  match takeShake p 4 s with
  | none => s
  | some (_, s) => if (port s p).link.st = .down then s else linkGoesDown p 4 true s

/-- HANDSHAKE_TIMEOUT (Table 5-7). -/
def handshakeTimeout (t : Nat) (p : Fin 8) (s : State) : State :=
  let s := s.at t
  match (port s p).link.shake with
  | some h => if h.start + 10000000 ≤ s.now then abortShake 5 p s else s
  | none => s

/-- PREV_KEY_ZEROISE (R165). -/
def prevKeyZeroise (t : Nat) (p : Fin 8) (s : State) : State :=
  let s := s.at t
  match (port s p).link.zeroiseAt with
  | some z => if z ≤ s.now then modLink p (fun l => { l with prevRx := none, zeroiseAt := none }) s else s
  | none => s

/-- Whole messages at the head of a VC's landed flits that have waited longer than T are discarded. -/
def holdLanded (fuel limit : Nat) (l : List LandFlit) : Nat × List LandFlit :=
  match fuel with
  | 0 => (0, l)
  | n + 1 =>
    let m := l.takeWhile fun f => !f.last
    match l.drop m.length with
    | f :: rest =>
      let r := holdLanded n limit rest
      if f.at_ < limit then (r.1 + 1, r.2) else (r.1, m ++ f :: r.2)
    | [] => (0, l)

/-- The message at the head of a VC's landed flits has waited longer than T. -/
def headOld (limit : Nat) (l : List LandFlit) : Bool :=
  match l.dropWhile fun f => !f.last with
  | f :: _ => decide (f.at_ < limit)
  | [] => false

/-- MESSAGE_HOLD_EXPIRE (06 R195, 11 R328): messages, of every VC, that waited here longer than T are discarded and counted; nothing while a cut
suspends it (12 R379). -/
def messageHoldExpire (t : Nat) (s : State) : State :=
  let s := s.at t
  let lim := s.now - remoteT s
  if cutStopped s then s
  else
    let old := s.txn.inbox.filter fun m => m.port.isSome && decide (m.at_ < lim)
    let s := modTxn (fun x => { x with inbox := x.inbox.filter fun m => !old.contains m }) s
    let s := old.foldl (fun s _ => dropHeld s) s
    (fins 8).foldl (fun s p => (fins 8).foldl (fun s v =>
      let gone (m : TxMsg) : Bool := m.tag.isNone && m.sent == 0 && decide (m.since < lim)
      let n := ((vcTx s p v).queue.filter gone).length
      let s := modTx p v (fun q => { q with queue := q.queue.filter fun m => !gone m }) s
      let l := (vcRx s p v).flits
      let r := holdLanded l.length lim l
      let s := if r.1 = 0 then s
        else
          let s := if v = 4 ∧ headOld lim l = true then modLink p (fun l => { l with ctrlAsm := none }) s else s
          afterTake p v (modRx p v (fun x => { x with flits := r.2, asm := if headOld lim l then [] else x.asm }) s)
      (List.range (n + r.1)).foldl (fun s _ => dropHeld s) s) s) s

/-- `FLIT_COMPOSE`: 05 R144; also R19, R133, R137, R139, R140, R142, R161, R178, R209. -/
def execFlitCompose (t : Nat) (p : Fin 8) (s : State) : Outcome := .next (flitCompose t p s)
/-- `FLIT_RECEIVE`: 05 R138; also R29, R100, R133, R135, R136, R137, R139, R140, R141, R145, R151, R155. -/
def execFlitReceive (t : Nat) (p : Fin 8) (flit : FlitHeard) (s : State) : Outcome :=
  .next (flitReceive t p flit.bytes flit.laneErrs s)
/-- `NAK_RESEND`: 05 R138. -/
def execNakResend (t : Nat) (p : Fin 8) (s : State) : Outcome := .next (nakResend t p s)
/-- `ACK_TIMER`: 05 R142. -/
def execAckTimer (t : Nat) (p : Fin 8) (s : State) : Outcome := .next (ackTimer t p s)
/-- `REPLAY_TIMER`: 05 R143; also R158. -/
def execReplayTimer (t : Nat) (p : Fin 8) (s : State) : Outcome := .next (replayTimer t p s)
/-- `KEEPALIVE_NULL`: 05 R157. -/
def execKeepaliveNull (t : Nat) (p : Fin 8) (s : State) : Outcome := .next (keepaliveNull t p s)
/-- `LINK_DOWN_TIMEOUT`: 05 R157; also R11, R158, R168, R193, R290, R341, R361, R380. -/
def execLinkDownTimeout (t : Nat) (p : Fin 8) (s : State) : Outcome := .next (linkDownTimeout t p s)
/-- `LANDING_SPILL`: 05 R145; also R17, R29, R147, R148, R150, R154, R156. -/
def execLandingSpill (t : Nat) (p v : Fin 8) (s : State) : Outcome := .next (landingSpill t p v s)
/-- `FLIT_DELIVER`: 05 R146; also R148, R150, R152, R153, R178, R179. -/
def execFlitDeliver (t : Nat) (p v : Fin 8) (s : State) : Outcome := .next (flitDeliver t p v s)
/-- `STALL_TAKE_EFFECT`: 05 R151. -/
def execStallTakeEffect (t : Nat) (p v : Fin 8) (s : State) : Outcome := .next (stallTakeEffect t p v s)
/-- `WEDGE_CLEAR`: 05 R156; also R179. -/
def execWedgeClear (t : Nat) (p v : Fin 8) (s : State) : Outcome := .next (wedgeClear t p v s)
/-- `EPOCH_ADVANCE`: 05 R141. -/
def execEpochAdvance (t : Nat) (p : Fin 8) (s : State) : Outcome := .next (epochAdvance t p s)
/-- `REKEY_START`: 05 R166; also R164. -/
def execRekeyStart (t : Nat) (p : Fin 8) (s : State) : Outcome := .next (rekeyStart t p s)
/-- `SEC_HELLO`: 05 R164; also R72, R166. -/
def execSecHello (t : Nat) (p : Fin 8) (s : State) : Outcome := .next (secHello t p s)
/-- `SEC_PROOF`: 05 R164; also R86, R87, R455, R470. -/
def execSecProof (t : Nat) (p : Fin 8) (s : State) : Outcome := .next (secProof t p s)
/-- `SEC_FINISH`: 05 R164; also R319, R332. -/
def execSecFinish (t : Nat) (p : Fin 8) (s : State) : Outcome := .next (secFinish t p s)
/-- `SEC_ABORT`: 05 R166; also R158. -/
def execSecAbort (t : Nat) (p : Fin 8) (s : State) : Outcome := .next (secAbort t p s)
/-- `HANDSHAKE_TIMEOUT`: 05 R166; also R158. -/
def execHandshakeTimeout (t : Nat) (p : Fin 8) (s : State) : Outcome := .next (handshakeTimeout t p s)
/-- `PREV_KEY_ZEROISE`: 05 R165. -/
def execPrevKeyZeroise (t : Nat) (p : Fin 8) (s : State) : Outcome := .next (prevKeyZeroise t p s)
/-- `MESSAGE_HOLD_EXPIRE`: 06 R195; also R328. -/
def execMessageHoldExpire (t : Nat) (s : State) : Outcome := .next (messageHoldExpire t s)

/-- `TWIN_HELLO`: 11 R332; also R333. -/
def execTwinHello (t : Nat) (s : State) : Outcome := .next (withdraw (twinHello t s))
/-- `TWIN_PROOF`: 11 R332; also R331, R346. -/
def execTwinProof (t : Nat) (s : State) : Outcome := .next (withdraw (twinProof t s))

end Sys2Proof.Machine
end

