-- ==== Sys2Proof/Machine/Lanes.lean ====
section
/-! DEFINITION. The lanes of a port (chapter 04): training, bit tables and their swaps, the spare lane and retirement, LOW
and wake. -/

namespace Sys2Proof.Machine

/-! ### Waking the device (14 Table 14-8) -/

/-- The state with power changed. -/
def modPwr (f : Pwr → Pwr) (s : State) : State := { s with pwr := f s.pwr }

/-- The running tickets of a command code. -/
def runningTickets (s : State) (cmd : Nat) : List (Fin 130 × Nat) :=
  ((fins 130).map fun ch => ((chan s ch).tickets.filter fun k => k.cmd == cmd && k.final.isNone).map fun k =>
    (ch, k.num)).flatten

/-- A state of Table 4-8 is entered; the growth ring notes it. -/
def enterPhys (p : Fin 8) (st data : Nat) (s : State) : State :=
  linkTrace p st data (modPhys p (fun x => { x with st := st, since := s.now }) s)

/-! ### Symbols and messages (R95, R99, R104) -/

/-- The symbols since Cambium time 0: one each 170/9 ns. Log entry 16 (DESIGN CHOICE). -/
def symBase (s : State) : Nat := s.now * 9 / 170

/-- The 32-bit symbol counter of the direction that a port sends (R95). Log entry 16 (DESIGN CHOICE). -/
def symTx (s : State) (p : Fin 8) : Nat := (symBase s + (port s p).phys.txSym) % 2 ^ 32

/-- The same of the direction that the port receives (R95). Log entry 16 (DESIGN CHOICE). -/
def symRx (s : State) (p : Fin 8) : Nat := (symBase s + (port s p).phys.rxSym) % 2 ^ 32

/-- How far `b` lies ahead of `a`, modulo 2³² (R95). -/
def symDist (a b : Nat) : Nat := (b % 2 ^ 32 + 2 ^ 32 - a % 2 ^ 32) % 2 ^ 32

/-- `b` is at or after `a` (R95). Log entry 16 (DESIGN CHOICE). -/
def symLater (a b : Nat) : Bool := decide (symDist a b < 2 ^ 31)

/-- The first ns of a symbol of a counter that stands at `cur` now; now where the symbol has passed. -/
def symInstant (s : State) (cur symbol : Nat) : Nat :=
  if symLater cur symbol then ceilDiv ((symBase s + symDist cur symbol) * 170) 9 else s.now

/-- B of a grade (Table 4-3). -/
def gradeBits (g : Nat) : Nat :=
  if g = 50 then 960 else if g = 100 then 1920 else if g = 150 then 2880 else if g = 200 then 3840
  else if g = 250 then 4720 else 0

/-- The grades, highest first. Log entry 47 (DEDUCED). -/
def gradesDown : List Nat := [250, 200, 150, 100, 50]

/-- The SF code of Table 4-13. -/
def sfCode (sf : Nat) : Nat := if sf = 4 then 1 else if sf = 16 then 2 else if sf = 64 then 3 else 0

/-! ### Bit tables (R110, R111, R114) -/

/-- 40 × log10(2^b − 1) in units of 2⁻⁶⁴, rounded down: quarter-dB of R110. -/
def binCost (b : Nat) : Int :=
  ([0, 0, 352053347117631939961, 623572290453461988296, 867802178525079719310, 1100430699499792331912,
    1327678984688725868220, 1552333152871696020381, 1775713232462559103424, 1998461887546844056525,
    2220896220351302859886] : List Int).getD b 0

/-- One quarter-dB in the units of `binCost`. -/
def quarterDb : Int := 18446744073709551616

/-- The bits that a bin of an SNR carries before trimming: the greatest b up to 10 with x at least 10 log10(2^b − 1). -/
def binLoad (snr : Int) : Nat :=
  let q := snr - 60
  if q < 0 then 0
  else (([0, 20, 34, 48, 60, 72, 85, 97, 109, 121] : List Int).filter fun t => decide (t ≤ q)).length

/-- e of a bin in the units of `binCost`. -/
def binExcess (snr : Int) (b : Nat) : Int := (snr - 60) * quarterDb - binCost b

/-- A loaded bin of the trimming: its index, its SNR, its bits. -/
abbrev Bin := Nat × Int × Nat

/-- The bin with the least excess among the loaded ones; on equal excess, the higher bin. -/
def leastBin : List Bin → Option Bin
  | [] => none
  | x :: xs =>
    match leastBin xs with
    | none => if x.2.2 = 0 then none else some x
    | some y => if x.2.2 ≠ 0 ∧ binExcess x.2.1 x.2.2 < binExcess y.2.1 y.2.2 then some x else some y

/-- Bits trimmed one at a time (R110). -/
def trimBins : Nat → List Bin → List Bin
  | 0, bs => bs
  | n + 1, bs =>
    match leastBin bs with
    | some y => trimBins n (bs.map fun x => if x.1 = y.1 then (x.1, x.2.1, x.2.2 - 1) else x)
    | none => bs

/-- The bins 16 to 495 of an SNR report over bins 8 to 495. -/
def dataBins (snr : List Int) : List Int := (snr.drop 8).take 480

/-- The untrimmed loading of a lane. -/
def untrimmedOf (snr : List Int) : Nat := ((dataBins snr).map binLoad).foldl (· + ·) 0

/-- The table that an SNR report gives at a grade; none where the lane does not meet it. -/
def bitTableOf (snr : List Int) (grade : Nat) : Option (List (BitVec 8)) :=
  let u := untrimmedOf snr
  let want := gradeBits grade
  if u < want ∨ (dataBins snr).length ≠ 480 then none
  else
    let bins : List Bin := (dataBins snr).zipIdx.map fun x => (x.2, x.1, binLoad x.1)
    some ((trimBins (u - want) bins).map fun x => BitVec.ofNat 8 x.2.2)

/-- The running SF from the mean SNR of bins 8 to 15. -/
def runningSf (snr : List Int) : Nat :=
  let m := (snr.take 8).foldl (· + ·) 0
  if 448 ≤ m then 1 else if 256 ≤ m then 4 else if 64 ≤ m then 16 else 64

/-- The smallest bin margin of a table over an SNR report, in the units of `binCost` (R114). -/
def tableMargin (snr : List Int) (table : List (BitVec 8)) : Option Int :=
  (((dataBins snr).zip table).filterMap fun x =>
    let b := x.2.toNat % 16
    if b = 0 then none else some ((x.1 - 48) * quarterDb - binCost b)).min?

/-- A margin in 0.25 dB, rounded to the nearest. Log entry 159 (DESIGN CHOICE). -/
def marginQuarters (m : Int) : Int := (m + quarterDb / 2) / quarterDb

/-- 10^(g/40) for a gain nibble, in units of 2⁻⁹⁶ (R111). -/
def gainPower (n : Nat) : Nat :=
  ([79228162514264337593543950336, 83922726282186137332892345685, 88895460441439633162414689118,
    94162847623945252302818858120, 99742347118965433378564067652, 105652452743690362343010761924,
    111912754142871491448813219597, 118544001720686696219909383552, 49989591028045417366379999059,
    52951660516546286360014337234, 56089243656474818485830008900, 59412740285497570970931258692,
    62933166470404083641613631154, 66662191020977978376046540459, 70612174167450941842876011836,
    74796208529739937090257788518] : List Nat).getD n 0

/-- What R111 requires of a proposed table, beside timing: entries, sums, gains, SF, table ID.
Log entry 40 (DEDUCED). -/
def tableValid (grade inForce : Nat) (m : BitTable) : Bool :=
  let bs := m.entries.map fun e => e.toNat % 16
  let total := bs.foldl (· + ·) 0
  let loaded := m.entries.filter fun e => e.toNat % 16 ≠ 0
  m.entries.length == 480 && bs.all (fun b => decide (b ≤ 10)) && total == gradeBits grade && total == m.totalBits
    && m.entries.all (fun e => e.toNat % 16 != 0 || e.toNat / 16 == 0)
    && decide ((loaded.map fun e => gainPower (e.toNat / 16)).foldl (· + ·) 0 ≤ loaded.length * 2 ^ 96)
    && (m.runningSf == 1 || m.runningSf == 4 || m.runningSf == 16 || m.runningSf == 64)
    && m.tableId != inForce

/-! ### Lane access -/

/-- A lane's receiver and transmitter. -/
def rxLane (s : State) (p : Fin 8) (l : Fin 9) : RxLane := vget (port s p).phys.rx l
def txLane (s : State) (p : Fin 8) (l : Fin 9) : TxLane := vget (port s p).phys.tx l
def modRxLane (p : Fin 8) (l : Fin 9) (f : RxLane → RxLane) (s : State) : State :=
  modPhys p (fun x => { x with rx := vmod x.rx l f }) s
def modTxLane (p : Fin 8) (l : Fin 9) (f : TxLane → TxLane) (s : State) : State :=
  modPhys p (fun x => { x with tx := vmod x.tx l f }) s

/-- The receive lane that hears a partner's transmit lane. -/
def hearing (s : State) (p : Fin 8) (partner : Nat) : Option (Fin 9) :=
  (fins 9).find? fun l => (rxLane s p l).qualified && (rxLane s p l).partner == partner

/-- The ready spare of each direction. -/
def rxSpare (s : State) (p : Fin 8) : Option (Fin 9) := (fins 9).find? fun l => (rxLane s p l).role == .spareReady
def txSpare (s : State) (p : Fin 8) : Option (Fin 9) := (fins 9).find? fun l => (txLane s p l).role == .spareReady

/-- Receive lanes that hold a position or are the ready spare. -/
def lanesUp (s : State) (p : Fin 8) : Nat :=
  ((fins 9).filter fun l => let r := (rxLane s p l).role; r == .data || r == .spareReady).length

/-- The lanes qualified. -/
def qualifiedLanes (s : State) (p : Fin 8) : List (Fin 9) := (fins 9).filter fun l => (rxLane s p l).qualified

/-- The roles at first training from the transmit lanes that are tabled: lane k takes Dk and lane 8 is the spare; lane 8
takes the position of a lane that is missing. Log entry 39 (DEDUCED). -/
def firstRole (tabled : List Nat) (k : Nat) : LaneRole × Nat :=
  if !tabled.contains k then (.off, 0)
  else if k < 8 then (.data, k)
  else
    match (List.range 8).find? fun j => !tabled.contains j with
    | some j => (.data, j)
    | none => (.spareReady, 0)

/-! ### Training (R115 to R118) -/

/-- A lane's receiver as training begins anew at an acquisition SF. -/
def RxLane.restart (sf : Nat) (x : RxLane) : RxLane :=
  { x.disable with partner := 0xF, inverted := false, position := 0, tableId := 0, sf := sf, table := [] }

/-- A lane's transmitter as training begins anew. -/
def TxLane.restart (sf : Nat) (x : TxLane) : TxLane :=
  { x.disable with position := 0, tableId := 0, sf := sf, table := [] }

/-- FAILED lanes are trained again by a command only (R123). -/
def reviveLanes (p : Fin 8) (s : State) : State :=
  modPhys p (fun x => { x with
    rx := x.rx.map fun r => if r.role = .failed then { r with role := .off } else r
    tx := x.tx.map fun y => if y.role = .failed then { y with role := .off } else y }) s

/-- DETECT is entered: TRAIN pilots on all nine lanes. -/
def enterDetect (p : Fin 8) (s : State) : State :=
  let s := modPhys p (fun x => { x with
    listening := false, helloSent := false, peerHello := none, quietSymbol := none, ownGrade := none, peerGrade := none,
    grade := 0, quietAt := none, heard := [], rx := x.rx.map (RxLane.restart x.acquireSf),
    tx := x.tx.map (TxLane.restart x.acquireSf) }) s
  emit (.pilot p .train) (enterPhys p 1 0 s)

/-- Training begins with a target grade and an acquisition SF. -/
def beginTraining (p : Fin 8) (target sf : Nat) (s : State) : State :=
  enterDetect p (modPhys p (fun x => { x with target := target, acquireSf := sf, returns := 0, started := s.now,
                                              autoAt := none, bootWait := false }) s)

/-- The highest grade up to a target that the Sink Reserve admits for a port beside the others (05 R149): ports in training
count at their targets. The payload rate of a grade is in proportion to B − 32. Log entry 47 (DEDUCED). -/
def admitGrade (s : State) (p : Fin 8) (target : Nat) : Option Nat :=
  let share (q : Fin 8) : Nat :=
    let x := (port s q).phys
    if q = p ∨ x.st = 0 ∨ x.st = 11 ∨ (x.st = 1 ∧ x.listening = true) then 0
    else gradeBits (if 8 ≤ x.st ∧ x.st ≤ 10 then x.grade else x.target) - 32
  let used := ((fins 8).map share).foldl (· + ·) 0
  gradesDown.find? fun g => decide (g ≤ target ∧ (used + (gradeBits g - 32)) * 240 * 576 ≤ 15000 * 272 * 1088)

/-- The port fails: no more than 4 returns to DETECT, or no grade (R116, R117). -/
def trainingFails (p : Fin 8) (s : State) : State :=
  let ph := (port s p).phys
  let s := logErr 0x0012 30 (leBytes 1 p.val ++ leBytes 1 ph.st) s
  let s := modPhys p (fun x => { x with ticket := none, grade := 0, rx := x.rx.map RxLane.disable,
                                        tx := x.tx.map TxLane.disable }) s
  finishRef ph.ticket stLinkDown [] (enterPhys p 11 1 s)

/-- A state of training ends in DETECT, or in FAILED after the fourth return (R116). -/
def backToDetect (p : Fin 8) (s : State) : State :=
  if 4 < (port s p).phys.returns + 1 then trainingFails p s
  else enterDetect p (modPhys p (fun x => { x with returns := x.returns + 1 }) s)

/-- The lane-to-lane skew of the receive direction is at most 8 symbols (R102). -/
def skewOk (s : State) (p : Fin 8) : Bool :=
  let ts := (qualifiedLanes s p).map fun l => (rxLane s p l).timing
  decide ((ts.max?.getD 0 - ts.min?.getD 0) * 9 ≤ 8 * 170)

/-- This side reports QUALIFIED: at least eight lanes, deskewed (R102, R115). -/
def selfQualified (s : State) (p : Fin 8) : Bool := decide (8 ≤ (qualifiedLanes s p).length) && skewOk s p

/-- HELLO of this side. Log entry 43 (DESIGN CHOICE). -/
def sendPortHello (p : Fin 8) (s : State) : State :=
  let ph := (port s p).phys
  let mask := ((qualifiedLanes s p).map fun l => 2 ^ l.val).foldl (· + ·) 0
  let s := modPhys p (fun x => { x with helloSent := true, helloAt := s.now }) s
  sendFrames p (upLanes s p) 0x01 (fun l => leBytes 2 (ownChip s) ++ leBytes 1 p.val ++ leBytes 1 l.val ++ leBytes 1 250
    ++ leBytes 1 ph.target ++ leBytes 1 (bit 0 (selfQualified s p) + 2) ++ zeros 1 ++ leBytes 2 mask ++ zeros 2
    ++ leBytes 4 (symTx s p) ++ leBytes 4 ph.nonce) s

/-- A fresh nonce. Log entry 44 (DESIGN CHOICE). -/
def drawNonce (p : Fin 8) (s : State) : State :=
  let d := drawNat s
  modPhys p (fun x => { x with nonce := d.1 % 2 ^ 32 }) d.2

/-- ACQUIRE is entered. -/
def enterAcquire (p : Fin 8) (s : State) : State := sendPortHello p (drawNonce p (enterPhys p 3 0 s))

/-- QUIET is entered. -/
def enterQuiet (p : Fin 8) (symbol : Nat) (s : State) : State :=
  enterPhys p 4 0 (modPhys p (fun x => { x with
    quietSymbol := some symbol, quietAt := none, ownGrade := none, peerGrade := none,
    rx := x.rx.map fun r => { r with tableId := 0, pend := none },
    tx := x.tx.map fun y => { y with tableId := 0, pend := none, lastAccepted := none, copy := none } }) s)

/-- QUIET begins at the PHASE symbol, at an instant of its counter's (R115). -/
def setQuiet (p : Fin 8) (cur symbol : Nat) (s : State) : State :=
  modPhys p (fun x => { x with quietSymbol := some symbol, quietAt := some (symInstant s cur symbol) }) s

/-- Both HELLOs are in: the initiator is chosen, and it sends PHASE with Q (R115). Log entry 44 (DESIGN CHOICE). -/
def meetHellos (p : Fin 8) (s : State) : State :=
  let ph := (port s p).phys
  match ph.peerHello with
  | none => s
  | some h =>
    let own := ownChip s
    let peerLanes := ((List.range 9).filter fun i => h.qualifiedMask.testBit i).length
    if ph.st ≠ 3 ∨ ph.quietAt.isSome = true ∨ h.qualified = false ∨ peerLanes < 8 ∨ selfQualified s p = false then s
    else if min ph.target (min h.targetGrade h.maxGrade) < 50 then s
    else if own = h.chipId ∧ ph.nonce = h.nonce then
      sendPortHello p (drawNonce p (modPhys p (fun x => { x with peerHello := none }) s))
    else
      let ini := decide (own < h.chipId) || (own == h.chipId && decide (ph.nonce < h.nonce))
      let s := modPhys p (fun x => { x with initiator := ini }) s
      if ini then
        let d := drawNat s
        let q := (symTx s p + 512 + d.1 % 4096) % 2 ^ 32
        setQuiet p (symTx s p) q (sendMgmt p 0x02 (leBytes 1 4 ++ leBytes 1 0 ++ zeros 2 ++ leBytes 4 q) d.2)
      else s

/-- What has come due on a port since the last event: QUIET began at its symbol; in ACQUIRE the next HELLO follows the last one
after 64 management bits (R115). Log entry 145 (DEDUCED). -/
def duePhase (p : Fin 8) (s : State) : State :=
  let ph := (port s p).phys
  if ph.st ≠ 3 then s
  else
    match ph.quietAt with
    | some a => if a ≤ s.now then { enterQuiet p (ph.quietSymbol.getD 0) { s with now := a } with now := s.now } else s
    | none => if ph.helloAt + ceilDiv (20 * ph.acquireSf * 170) 9 ≤ s.now then sendPortHello p s else s

/-- A port's physical layer at the instant of an event. Log entry 145 (DEDUCED). -/
def atPort (t : Nat) (p : Fin 8) (s : State) : State := duePhase p (s.at t)

/-- The state of Table 4-8 that a port shows. Log entry 145 (DEDUCED). -/
def physState (s : State) (p : Fin 8) : Nat :=
  let ph := (port s p).phys
  match ph.quietAt with
  | some a => if ph.st = 3 ∧ a ≤ s.now then 4 else ph.st
  | none => ph.st

/-- A management frame is acted on: a port that listens, a CRC that passes, a SEQ not acted on before (R104, R105).
Log entry 43 (DESIGN CHOICE). -/
def frameNew (s : State) (p : Fin 8) (f : Frame) : Bool :=
  let ph := (port s p).phys
  decide (2 ≤ ph.st) && f.intact && !ph.heard.contains f.seq.val

/-- The SEQ of a frame acted on is kept; the later copies are discarded. Log entry 43 (DESIGN CHOICE). -/
def noteFrame (p : Fin 8) (f : Frame) (s : State) : State :=
  modPhys p (fun x => { x with heard := keepLast 128 (x.heard ++ [f.seq.val]) }) s

/-- A management frame at an instant, acted on by `k` where it is new. -/
def onFrame (t : Nat) (p : Fin 8) (f : Frame) (k : State → State) (s : State) : State :=
  let s := atPort t p s
  if frameNew s p f then k (noteFrame p f s) else s

/-- ENERGY_DETECT (R106, R115). Log entry 130 (DESIGN CHOICE). -/
def energyDetect (t : Nat) (p : Fin 8) (l : Fin 9) (s : State) : State :=
  let s := atPort t p s
  let ph := (port s p).phys
  if ph.st = 0 ∨ ph.st = 11 then s
  else
    let s := modRxLane p l (fun r => { r with energyAt := some (r.energyAt.getD s.now) }) s
    if ph.st = 1 ∧ ph.listening = false then enterPhys p 2 0 s else s

/-- A wake pilot or a HELLO reached a port in LOW: RESUME (R126). Log entry 48 (DEDUCED). -/
def enterResume (p : Fin 8) (s : State) : State :=
  if (port s p).phys.st = 9 then sendPortHello p (drawNonce p (enterPhys p 10 0 (modPhys p (fun x => { x with peerHello := none }) s)))
  else s

/-- A wake source of Table 14-8 acts: QUIET and NAP are left; an entry into NAP that has not reached self-refresh is
abandoned, its ports resumed and its command answered BUSY (14 R437). -/
def wakeDevice (src : Nat) (s : State) : State :=
  match s.pwr.st with
  | .quiet => modPwr (fun x => { x with st := .leaving, phase := 1, phaseAt := s.now, wakeReason := src }) s
  | .nap => modPwr (fun x => { x with st := .leaving, phase := 2, phaseAt := s.now, wakeReason := src }) s
  | .entering =>
    if s.pwr.phase = 2 then
      let s := modPwr (fun x => { x with st := .run, phase := 0, wakeReason := src }) s
      let s := (fins 8).foldl (fun s p => enterResume p (modPhys p (fun x => { x with lowAsked := false, lowDue := false }) s)) s
      (runningTickets s 0x0A01).foldl (fun s k => finishTicket k.1 k.2 stBusy [] s) s
    else s
  | _ => s

/-- A WAKE or TRAIN pilot on a port in LOW wakes the chip from NAP, not from QUIET (R126, 14 Table 14-8). -/
def wakeFromNap (s : State) : State := if s.pwr.st = .quiet then s else wakeDevice 2 s

/-- LANE_QUALIFY (R108, R115, R118, R126): the partner lane, the pattern, the polarity and the symbol timing (in ns) are known.
SAP_PORT_BEACONS counts a pilot once for every lane that qualifies it.
Log entries 130 (DESIGN CHOICE), 160 (DESIGN CHOICE). -/
def laneQualify (t : Nat) (p : Fin 8) (l : Fin 9) (partner : Fin 9) (pat : Pilot) (inv : Bool) (timing : Nat) (s : State) : State :=
  let s := atPort t p s
  let ph := (port s p).phys
  let mark (s : State) : State :=
    modRxLane p l (fun r => { r with partner := partner.val, inverted := inv, qualified := true, qualifiedAt := s.now,
                                     energyAt := none, timing := timing }) s
  if ph.st = 0 ∨ ph.st = 11 then s
  else if ph.st = 9 then
    match pat with
    | .beacon => modRxLane p l (fun r => { r with energyAt := none })
        (modPhys p (fun x => { x with beacons := sat32 (x.beacons + 1), lastBeacon := s.now }) s)
    | _ => enterResume p (wakeFromNap (modRxLane p l (fun r => { r with energyAt := none }) s))
  else if pat = .train ∧ ph.st = 1 ∧ ph.listening = true then
    match ph.last with
    | some (g, sf) =>
      match admitGrade s p g with
      | some g => mark (enterPhys p 2 0 (beginTraining p g sf s))
      | none => s
    | none => s
  else if ph.st ≤ 3 then
    let s := mark (if ph.st = 1 then enterPhys p 2 0 s else s)
    if (port s p).phys.st = 2 ∧ (qualifiedLanes s p).length = 9 then enterAcquire p s else s
  else s

/-- FALSE_WAKE (R108): energy that did not qualify within 20 µs. -/
def falseWake (t : Nat) (p : Fin 8) (l : Fin 9) (s : State) : State :=
  let s := s.at t
  match (rxLane s p l).energyAt with
  | some t0 =>
    if t0 + 20000 ≤ s.now then
      modRxLane p l (fun r => { r with energyAt := none })
        (modPhys p (fun x => { x with falseWakes := sat32 (x.falseWakes + 1) }) s)
    else s
  | none => s

/-- HELLO (R115): in ACQUIRE it is answered by the choice of the initiator; in LOW and RESUME it ends the WAKE pilot. Its 32 bytes
end 16 × SF symbols after the symbol it names; the receive counter follows. -/
def takeHelloMsg (p : Fin 8) (f : Frame) (m : Hello) (s : State) : State :=
  let st := (port s p).phys.st
  let keep (s : State) : State := modPhys p (fun x => { x with
    peerHello := some m, rxSym := symDist (symBase s) (m.symbol + 16 * f.sf) }) s
  if st = 3 then meetHellos p (modPhys p (fun x => { x with rx := x.rx.map fun r => { r with sf := f.sf } }) (keep s))
  else if st = 10 then keep s
  else if st = 9 then keep (enterResume p s)
  else s

/-! ### Tables (R110 to R117) -/

/-- A proposal for a receive lane: BIT_TABLE, 504 bytes at the SF of the lane that sends it, with a swap symbol far enough after its
end (R112). Log entry 44 (DESIGN CHOICE). -/
def proposeTable (p : Fin 8) (l : Fin 9) (grade : Nat) (entries : List (BitVec 8)) (sf : Nat) (s : State) : State :=
  let r := rxLane s p l
  let id := (r.tableId + 1) % 4
  let d := drawNat s
  let s := d.2
  let sendSf := ((mgmtLane s p r.partner).map fun l => (txLane s p l).sf).getD 1
  let swap := (symRx s p + 252 * sendSf + 1024 + d.1 % 4096) % 2 ^ 32
  let q : PendingTable := { id := id, sf := sf, grade := grade, entries := entries, swapSymbol := swap, accepted := false }
  let s := modRxLane p l (fun r => { r with pend := some q }) s
  sendLaneMgmt p r.partner 0x03 (leBytes 1 r.partner ++ leBytes 1 id ++ leBytes 1 grade ++ leBytes 1 sf ++ leBytes 4 swap
    ++ leBytes 2 (gradeBits grade) ++ zeros 2 ++ entries) s

/-- The receive lanes that meet a grade. -/
def meeting (s : State) (p : Fin 8) (grade : Nat) : List (Fin 9) :=
  (qualifiedLanes s p).filter fun l => (rxLane s p l).role != .failed && (bitTableOf (rxLane s p l).snr grade).isSome

/-- Both grades are known: TABLE at the lower one, with a table for every lane that meets it (R117). -/
def enterTable (p : Fin 8) (s : State) : State :=
  let ph := (port s p).phys
  match ph.ownGrade, ph.peerGrade with
  | some a, some b =>
    if ph.st ≠ 5 then s
    else
      let g := min a b
      let s := enterPhys p 6 0 (modPhys p (fun x => { x with grade := g }) s)
      let ls := meeting s p g
      let tabled := ls.map fun l => (rxLane s p l).partner
      ls.foldl (fun s l =>
        let r := rxLane s p l
        let role := firstRole tabled r.partner
        let s := modRxLane p l (fun x => { x with role := role.1, position := role.2, untrimmed := untrimmedOf r.snr }) s
        proposeTable p l g ((bitTableOf r.snr g).getD []) (runningSf r.snr) s) s
  | _, _ => s

/-- No grade is possible: DOWN with reason 1, FAILED (R117). -/
def noGrade (p : Fin 8) (s : State) : State := trainingFails p (sendMgmt p 0x09 (leBytes 1 1 ++ zeros 3) s)

/-- PHASE (R115, R117). -/
def phaseMsg (p : Fin 8) (st grade symbol : Nat) (s : State) : State :=
  let ph := (port s p).phys
  if st = 4 then
    if ph.st = 3 ∧ ph.initiator = false ∧ ph.peerHello.isSome = true ∧ ph.quietAt = none then
      duePhase p (setQuiet p (symRx s p) symbol s)
    else s
  else if st = 6 then
    if ph.st = 4 ∨ ph.st = 5 then
      if grade = 0 then noGrade p s
      else enterTable p (modPhys p (fun x => { x with peerGrade := some grade }) s)
    else s
  else s

/-- Reports taken for the qualified lanes. -/
def takeReports (p : Fin 8) (reps : List (List Int)) (f : List Int → RxLane → RxLane) (s : State) : State :=
  (qualifiedLanes s p).foldl (fun s l => modRxLane p l (f (reps.getD l.val [])) s) s

/-- The uniform table of PROBE: b = 4, g = 0 (R115). -/
def probeTable : List (BitVec 8) := List.replicate 480 4

/-- The receive lanes in a lane retrain whose RETRAIN exchange is over (R119). -/
def retraining (s : State) (p : Fin 8) : List (Fin 9) :=
  (fins 9).filter fun l => (rxLane s p l).role == .retrain && (rxLane s p l).exchanged

/-- QUIET_COMPLETE (R109): in full training, and of the lanes in a lane retrain (R119).
Log entry 44 (DESIGN CHOICE). -/
def quietComplete (t : Nat) (p : Fin 8) (noise : List (List Int)) (s : State) : State :=
  let s := atPort t p s
  let st := (port s p).phys.st
  let take (x : List Int) (r : RxLane) : RxLane := { r with noise := x, table := probeTable }
  if st = 4 then
    let s := modPhys p (fun x => { x with tx := x.tx.map fun y => { y with table := probeTable } }) s
    enterPhys p 5 0 (takeReports p noise take s)
  else if st = 8 then
    let s := modPhys p (fun x => { x with
      tx := x.tx.map fun y => if y.role = .retrain then { y with table := probeTable } else y }) s
    (retraining s p).foldl (fun s l => modRxLane p l (take (noise.getD l.val [])) s) s
  else s

/-- A lane in a lane retrain is measured; where it meets the port grade, its table is proposed (R119 step 4). -/
def retable (p : Fin 8) (l : Fin 9) (snr : List Int) (s : State) : State :=
  let g := (port s p).phys.grade
  let s := modRxLane p l (fun r => { r with snr := snr, untrimmed := untrimmedOf snr }) s
  match bitTableOf snr g with
  | some e => proposeTable p l g e (runningSf snr) s
  | none => s

/-- PROBE_COMPLETE (R117): the highest grade that eight lanes meet, up to both targets; in LINKED, the PROBE of a lane retrain
(R119). Log entry 44 (DESIGN CHOICE). -/
def probeComplete (t : Nat) (p : Fin 8) (snr : List (List Int)) (s : State) : State :=
  let s := atPort t p s
  let ph := (port s p).phys
  if ph.st = 8 then (retraining s p).foldl (fun s l => retable p l (snr.getD l.val []) s) s
  else if ph.st = 5 ∧ ph.ownGrade = none then
    let s := takeReports p snr (fun x r => { r with snr := x }) s
    let limit := min ph.target (match ph.peerHello with | some h => h.targetGrade | none => ph.target)
    let g := (gradesDown.find? fun g => decide (g ≤ limit ∧ 8 ≤ (meeting s p g).length)).getD 0
    let s := sendMgmt p 0x02 (leBytes 1 6 ++ leBytes 1 g ++ zeros 2 ++ leBytes 4 (symTx s p)) s
    if g = 0 then noGrade p s else enterTable p (modPhys p (fun x => { x with ownGrade := some g }) s)
  else s

/-- The transmit lanes take their roles from the tables that the partner has put in force. -/
def roleTx (tabled : List Nat) (p : Fin 8) (s : State) : State :=
  modPhys p (fun x => { x with tx := Vector.ofFn fun l =>
    let role := firstRole tabled l.val
    { vget x.tx l with role := role.1, position := role.2 } }) s

/-- Every lane has swapped: VERIFY (Table 4-8). A receive lane that has a role has its table; a transmit lane whose table comes
after the others still takes its role in VERIFY. Log entry 42 (DEDUCED). -/
def tryVerify (p : Fin 8) (s : State) : State :=
  let ph := (port s p).phys
  let tabled := ((fins 9).filter fun l => (txLane s p l).tableId ≠ 0).map (·.val)
  let done := (fins 9).all fun l =>
    let r := rxLane s p l
    r.pend.isNone && (txLane s p l).pend.isNone && (r.tableId != 0 || !(r.role == .data || r.role == .spareReady))
  if ph.st = 6 ∧ done = true ∧ 8 ≤ tabled.length then enterPhys p 7 0 (roleTx tabled p s)
  else if ph.st = 7 then roleTx tabled p s
  else s

/-- The port carries tables: in training from TABLE, and in service. Log entry 42 (DEDUCED). -/
def tablesLive (st : Nat) : Bool := st == 6 || st == 7 || st == 8

/-- BIT_TABLE (R111, R112): the transmitter's answer. Log entry 40 (DEDUCED). -/
def bitTable (p : Fin 8) (m : BitTable) (ackEnd : Nat) (s : State) : State :=
  let ph := (port s p).phys
  let x := txLane s p m.lane
  let answer (r : Nat) (s : State) : State :=
    sendLaneMgmt p m.lane.val 0x04 (leBytes 1 m.lane.val ++ leBytes 1 m.tableId ++ leBytes 1 r ++ zeros 1 ++ leBytes 4 m.swapSymbol) s
  if !tablesLive ph.st then s
  else if !tableValid ph.grade x.tableId m then
    let recent := ph.nakInvalid.filter (fun t => decide (s.now < t + 1000000000)) ++ [s.now]
    let s := answer 2 (modPhys p (fun x => { x with nakInvalid := recent }) s)
    if 16 ≤ recent.length then
      let s := if (port s p).link.st = .down then logErr 0x0011 30 (leBytes 1 p.val ++ leBytes 1 2 ++ leBytes 1 1) s else s
      linkGoesDown p 2 true s
    else s
  else if x.pend.isSome || (match x.lastAccepted with | some a => decide (s.now < a + 1000000) | none => false) then answer 3 s
  else if !(symLater ackEnd m.swapSymbol && decide (256 ≤ symDist ackEnd m.swapSymbol)) then answer 1 s
  else
    let q : PendingTable := { id := m.tableId, sf := m.runningSf, grade := m.grade, entries := m.entries,
                              swapSymbol := m.swapSymbol, accepted := true }
    answer 0 (modTxLane p m.lane (fun x => { x with pend := some q, lastAccepted := some s.now }) s)

/-- TABLE_ACK (R112, R114) for the partner's transmit lane it names. Log entry 40 (DEDUCED). -/
def tableAck (p : Fin 8) (lane : Fin 9) (id : Nat) (r : TableResult) (swap : Nat) (s : State) : State :=
  match hearing s p lane.val with
  | none => s
  | some l =>
    match (rxLane s p l).pend with
    | none => s
    | some q =>
      if q.id ≠ id ∨ q.swapSymbol ≠ swap then s
      else
        match r with
        | .ack => modRxLane p l (fun x => { x with pend := some { q with accepted := true }, swappedAt := some s.now }) s
        | .nakLate => proposeTable p l q.grade q.entries q.sf s
        | _ => modRxLane p l (fun x => { x with pend := none }) s

/-- TABLE_SWAP (R112): the transmitter sends swap_symbol and later symbols under the new table. -/
def tableSwap (t : Nat) (p : Fin 8) (l : Fin 9) (symbol : Nat) (s : State) : State :=
  let s := s.at t
  match (txLane s p l).pend with
  | some q =>
    if symLater q.swapSymbol symbol then
      tryVerify p (modTxLane p l (fun x => { x with tableId := q.id, sf := q.sf, table := q.entries, pend := none,
                                                     retabled := true }) s)
    else s
  | none => s

/-- TABLE_ADOPT (R113): a framing word passed under the new table within 16 symbols of swap_symbol.
Log entry 42 (DEDUCED). -/
def tableAdopt (t : Nat) (p : Fin 8) (l : Fin 9) (id symbol : Nat) (s : State) : State :=
  let s := s.at t
  match (rxLane s p l).pend with
  | some q =>
    if q.id = id ∧ symDist q.swapSymbol symbol ≤ 15 then
      tryVerify p (modRxLane p l (fun x => { x with tableId := q.id, sf := q.sf, table := q.entries, pend := none,
                                                     retabled := true }) s)
    else s
  | none => s

/-- TABLE_SWAP_LAPSE (R113). -/
def tableSwapLapse (t : Nat) (p : Fin 8) (l : Fin 9) (symbol : Nat) (s : State) : State :=
  let s := s.at t
  match (rxLane s p l).pend with
  | some q =>
    if symLater (q.swapSymbol + 16) symbol then tryVerify p (modRxLane p l (fun x => { x with pend := none }) s) else s
  | none => s

/-! ### VERIFY and LINKED -/

/-- A lane that failed VERIFY holds no role; the spare takes its position (R115). -/
def dropFailedLanes (p : Fin 8) (mask : BitVec 9) (s : State) : State :=
  (fins 9).foldl (fun s l =>
    let r := rxLane s p l
    if mask.getLsbD l.val || !(r.role == .data || r.role == .spareReady) then s
    else
      let s := modRxLane p l (fun r => { r with role := .off }) s
      match r.role, rxSpare s p with
      | .data, some m => if mask.getLsbD m.val then modRxLane p m (fun x => { x with role := .data, position := r.position }) s
                         else s
      | _, _ => s) s

/-- The same for the transmit lanes that the partner did not pass. -/
def dropFailedTx (p : Fin 8) (mask : BitVec 9) (s : State) : State :=
  (fins 9).foldl (fun s l =>
    let r := txLane s p l
    if mask.getLsbD l.val || !(r.role == .data || r.role == .spareReady) then s
    else
      let s := modTxLane p l (fun r => { r with role := .off }) s
      match r.role, txSpare s p with
      | .data, some m => if mask.getLsbD m.val then modTxLane p m (fun x => { x with role := .data, position := r.position }) s
                         else s
      | _, _ => s) s

/-- LINKED is reached from training: the link layer starts; LINK_TRAIN completes, or Root logs the link-up (R118).
Log entries 39 (DEDUCED), 49 (DEDUCED). -/
def enterLinked (p : Fin 8) (s : State) : State :=
  let ph := (port s p).phys
  let s := modPhys p (fun x => { x with
    ticket := none, trainNs := s.now - ph.started, nakInvalid := [],
    rx := x.rx.map fun r => { r with errTimes := [], errs := 0, fresh := true } }) s
  let s := enterPhys p 8 ph.grade s
  let peer := match ph.peerHello with | some h => h.chipId | none => 0xFFFF
  let s := if ph.ticket.isSome then s
    else logErr 0x0010 30 (leBytes 1 p.val ++ leBytes 1 (ph.grade / 10) ++ leBytes 2 peer) s
  let s := linkStart p s
  finishRef ph.ticket stOk (leBytes 1 ph.grade ++ leBytes 1 (lanesUp s p) ++ leBytes 2 peer) s

/-- LINKED is reached again from LOW: the link layer goes on (R125, R126), and the chip names itself (11 R319).
Log entry 48 (DEDUCED). -/
def resumeLinked (p : Fin 8) (s : State) : State :=
  let s := enterPhys p 8 (port s p).phys.grade s
  let s := modPhys p (fun x => { x with rx := x.rx.map fun r => { r with fresh := true } }) s
  pump (announceOn p (modLink p (fun l => { l with st := if l.st = .low then .up else l.st, lastIntact := s.now,
                                                   lastSent := s.now, timer := s.now }) s))

/-- The link layer of a port that leaves LOW into full training ends as at link down (R126).
Log entry 48 (DEDUCED). -/
def leaveLow (p : Fin 8) (s : State) : State :=
  if (port s p).link.st = .down then s
  else
    let l := (port s p).link
    logErr 0x0011 30 (leBytes 1 p.val ++ leBytes 1 3 ++ zeros 2 ++ leBytes 2 l.next ++ leBytes 2 l.oldest
      ++ leBytes 2 l.expected) (endLink p s)

/-- VERIFY_RESULT (Table 4-8): eight lanes in each direction, or back. Log entry 42 (DEDUCED). -/
def verifyResult (p : Fin 8) (own peer : BitVec 9) (s : State) : State :=
  let st := (port s p).phys.st
  let pass (m : BitVec 9) : Nat := ((List.range 9).filter fun i => m.getLsbD i).length
  if st = 7 ∨ st = 10 then
    let s := sendMgmt p 0x0A (leBytes 2 own.toNat ++ zeros 2) s
    let ok := decide (8 ≤ pass own ∧ 8 ≤ pass peer)
    if ok then
      let s := dropFailedTx p peer (dropFailedLanes p own s)
      if st = 10 then resumeLinked p s else enterLinked p s
    else if st = 10 then enterQuiet p (symTx s p) (leaveLow p s)
    else backToDetect p s
  else s

/-- The timeout of a training state, in ns (Table 4-8). -/
def trainLimit (st : Nat) : Nat :=
  if st = 1 then 8000000 else if st = 2 then 20000 else if st = 3 then 200000 else if st = 4 then 400000
  else if st = 5 then 300000 else if st = 6 then 400000 else if st = 7 then 400000 else 150000

/-- TRAINING_TIMEOUT (R115, R116, R118). -/
def trainingTimeout (t : Nat) (p : Fin 8) (s : State) : State :=
  let s := atPort t p s
  let ph := (port s p).phys
  let isOver : Bool := decide (ph.since + trainLimit ph.st ≤ s.now)
  if ph.st = 1 then
    if isOver && !ph.listening then
      let s := modPhys p (fun x => { x with listening := true, ticket := none, lastPilot := s.now }) s
      finishRef ph.ticket stLinkDown [] s
    else s
  else if ph.st = 2 then
    let q := qualifiedLanes s p
    let first := (q.map fun l => (rxLane s p l).qualifiedAt).min?.getD s.now
    if 8 ≤ q.length then (if first + 20000 ≤ s.now then enterAcquire p s else s)
    else if isOver then backToDetect p s else s
  else if 3 ≤ ph.st ∧ ph.st ≤ 7 then (if isOver then backToDetect p s else s)
  else if ph.st = 10 then (if isOver then backToDetect p (leaveLow p s) else s)
  else s

/-- LISTEN_PILOT (R118). -/
def listenPilot (t : Nat) (p : Fin 8) (s : State) : State :=
  let s := s.at t
  let ph := (port s p).phys
  if ph.st = 1 ∧ ph.listening = true ∧ ph.lastPilot + 1000000 ≤ s.now then
    emit (.pilot p .train) (modPhys p (fun x => { x with lastPilot := s.now }) s)
  else s

/-- AUTO_RETRAIN (05 R159): within 1 ms, with the parameters of the last LINK_TRAIN, admitted anew; it waits for Root (01 R16).
Log entry 47 (DEDUCED). -/
def autoRetrain (t : Nat) (p : Fin 8) (s : State) : State :=
  let s := s.at t
  let ph := (port s p).phys
  if ph.st = 0 ∧ ph.autoAt.isSome = true ∧ s.root.alive = true then
    let s := modPhys p (fun x => { x with autoAt := none }) s
    match ph.last with
    | some (g, sf) =>
      match admitGrade s p g with
      | some g => beginTraining p g sf s
      | none => s
    | none => s
  else s

/-- DOWN received in any state from QUALIFY onwards (R115); both sides stay FAILED after reason 1 (R117).
Log entry 145 (DEDUCED). -/
def downMsg (p : Fin 8) (reason : Nat) (s : State) : State :=
  let st := (port s p).phys.st
  if st < 2 ∨ (st = 11 ∧ reason = 1) then s else linkGoesDown p reason false s

/-! ### Live tables, the spare, retirement, retraining (R114, R119 to R124) -/

/-- RETRAIN sent for the partner's transmit lane that a receive lane hears (R119). Log entry 45 (DEDUCED). -/
def askRetrain (p : Fin 8) (l : Fin 9) (s : State) : State :=
  let partner := (rxLane s p l).partner
  sendLaneMgmt p partner 0x06 (leBytes 1 partner ++ leBytes 1 0 ++ zeros 2 ++ leBytes 4 (symTx s p)) s

/-- A receive lane enters retraining; the steps complete within 200 µs, or 500 µs at SF64 (R119).
Log entry 45 (DEDUCED). -/
def startRetrain (p : Fin 8) (l : Fin 9) (s : State) : State :=
  modRxLane p l (fun r => { r with
    role := .retrain, pend := none, leaving := false, retryAt := none, degAt := none, exchanged := false, retabled := false,
    relieved := false, retrainBy := s.now + (if r.sf = 64 then 500000 else 200000) }) s

/-- A spare swap is asked for a lane that holds a position (R122 step 1). -/
def askSpareSwap (p : Fin 8) (l : Fin 9) (s : State) : State :=
  let r := rxLane s p l
  let s := modRxLane p l (fun r => { r with leaving := true, errTimes := [] }) s
  sendMgmt p 0x05 (leBytes 1 r.position ++ leBytes 1 r.partner ++ zeros 2) s

/-- The candidate table of a live-SNR window, where it may be proposed now (R114). Log entry 39 (DEDUCED). -/
def candidate (s : State) (p : Fin 8) (l : Fin 9) : Option (List (BitVec 8)) :=
  let r := rxLane s p l
  let settled := match r.swappedAt with | some a => decide (a + 1000000 ≤ s.now) | none => true
  if r.pend.isNone && settled then
    (bitTableOf r.snr (port s p).phys.grade).bind fun c => if c = r.table then none else some c
  else none

/-- SNR_WINDOW_END (R114). Log entries 44 (DESIGN CHOICE), 159 (DESIGN CHOICE). -/
def snrWindowEnd (t : Nat) (p : Fin 8) (l : Fin 9) (snr : List Int) (s : State) : State :=
  let s := s.at t
  let r := rxLane s p l
  if (port s p).phys.st = 8 ∧ (r.role = .data ∨ r.role = .spareReady) then
    let margin := (tableMargin snr r.table).getD 0
    let s := modRxLane p l (fun r => { r with snr := snr, margin := marginQuarters margin, fresh := false,
                                              untrimmed := untrimmedOf snr }) s
    match candidate s p l with
    | some c =>
      let better := (tableMargin snr c).getD 0
      if r.fresh ∨ margin < 6 * quarterDb ∨ margin + 4 * quarterDb ≤ better then
        proposeTable p l (port s p).phys.grade c (runningSf snr) s
      else s
    | none => s
  else s

/-- A port-level retrain of Root at the last target (R124): the port goes down and trains again.
Log entry 45 (DEDUCED). -/
def retrainPort (p : Fin 8) (s : State) : State :=
  let target := (port s p).phys.target
  let sf := (port s p).phys.acquireSf
  let s := linkGoesDown p 0 true s
  match admitGrade s p target with
  | some g => beginTraining p g sf s
  | none => s

/-- A lane without a spare reached the threshold (R124): LANE_DEGRADED and a new table; reached again in each of the next
10 windows, the port is retrained. -/
def degradeLane (p : Fin 8) (l : Fin 9) (s : State) : State :=
  let r := rxLane s p l
  let span := (vget s.cfg.ports p).retireUs * 1000
  let begin_ (s : State) : State :=
    let s := modRxLane p l (fun r => { r with degAt := some s.now, degIdx := 0, errTimes := [] }) s
    let s := logErr 0x0013 30 (leBytes 1 p.val ++ leBytes 1 l.val) s
    match candidate s p l with
    | some c => proposeTable p l (port s p).phys.grade c (runningSf (rxLane s p l).snr) s
    | none => s
  match r.degAt with
  | none => begin_ s
  | some a =>
    let idx := (s.now - a) / span
    if idx ≤ r.degIdx then modRxLane p l (fun r => { r with errTimes := [] }) s
    else if s.root.alive = false then s
    else if idx = r.degIdx + 1 then
      let s := modRxLane p l (fun r => { r with degIdx := idx, errTimes := [] }) s
      if 10 ≤ idx then retrainPort p s else s
    else begin_ s

/-- LANE_RETIRE (R121, R120, R124): the threshold is reached within the window. What Root decides waits for Root (01 R16). -/
def laneRetire (t : Nat) (p : Fin 8) (l : Fin 9) (s : State) : State :=
  let s := s.at t
  let c := vget s.cfg.ports p
  let r := rxLane s p l
  let recent := r.errTimes.filter fun t => decide (s.now < t + c.retireUs * 1000)
  if (port s p).phys.st ≠ 8 ∨ recent.length < c.retireThreshold ∨ r.leaving = true then s
  else
    match r.role with
    | .spareReady =>
      if s.root.alive then askRetrain p l (startRetrain p l (modRxLane p l (fun r => { r with errTimes := [] }) s)) else s
    | .data => if (rxSpare s p).isSome then askSpareSwap p l s else degradeLane p l s
    | _ => s

/-- SPARE_SWAP (R122 step 2): the transmitter sends the position on the spare as well. Log entry 46 (DEDUCED). -/
def spareSwap (p : Fin 8) (position : Fin 8) (leaving : Fin 9) (s : State) : State :=
  let x := txLane s p leaving
  match txSpare s p with
  | some m =>
    if (port s p).phys.st = 8 ∧ x.role = .data ∧ x.position = position.val then
      modTxLane p m (fun y => { y with copy := some position.val })
        (modTxLane p leaving (fun y => { y with pend := none }) s)
    else s
  | none => s

/-- SPARE_TAKEOVER (R122 steps 3 and 4): the receiver takes the position from the spare; the leaving lane retrains.
Log entry 46 (DEDUCED). -/
def spareTakeover (t : Nat) (p : Fin 8) (position : Fin 8) (s : State) : State :=
  let s := s.at t
  match rxSpare s p, (fins 9).find? fun l => (rxLane s p l).leaving && (rxLane s p l).role == .data
      && (rxLane s p l).position == position.val with
  | some m, some l =>
    let s := modRxLane p m (fun r => { r with role := .data, position := position.val, fresh := true }) s
    askRetrain p l (modRxLane p l (fun r => { r with relieved := true }) (startRetrain p l s))
  | _, _ => s

/-- The named transmit lane leaves service for a retrain: a lane that holds a position once the spare carries it (R119).
Log entry 46 (DEDUCED). -/
def retrainTx (p : Fin 8) (lane : Fin 9) (s : State) : State :=
  let x := txLane s p lane
  let leave (s : State) : State :=
    modTxLane p lane (fun y => { y with role := .retrain, pend := none, copy := none, retabled := false }) s
  match x.role, txSpare s p with
  | .data, some m =>
    if (txLane s p m).copy = some x.position then
      leave (modTxLane p m (fun y => { y with role := .data, position := x.position, copy := none }) s)
    else s
  | .data, none => s
  | .off, _ => s
  | .retrain, _ => s
  | _, _ => leave s

/-- The receive lane that hears the partner's lane of that index leaves service too (R119). Log entry 46 (DEDUCED). -/
def retrainRx (p : Fin 8) (lane : Fin 9) (s : State) : State :=
  match hearing s p lane.val with
  | some l =>
    match (rxLane s p l).role with
    | .data => if (rxSpare s p).isSome && !(rxLane s p l).leaving then askSpareSwap p l s else s
    | .spareReady => startRetrain p l s
    | .retired => startRetrain p l s
    | .failed => startRetrain p l s
    | _ => s
  | none => s

/-- The RETRAIN exchange of a receive lane in retraining is over: QUIET can begin (R119 steps 1 and 2). -/
def noteExchange (p : Fin 8) (lane : Fin 9) (s : State) : State :=
  match hearing s p lane.val with
  | some l => modRxLane p l (fun r => if r.role = .retrain then { r with exchanged := true } else r) s
  | none => s

/-- RETRAIN (R119): the named lane leaves service in both directions; a request is answered by the quiet start. -/
def retrainMsg (p : Fin 8) (lane : Fin 9) (step : Nat) (s : State) : State :=
  if (port s p).phys.st ≠ 8 ∨ 1 < step then s
  else if step = 1 then noteExchange p lane (retrainTx p lane s)
  else
    let s := noteExchange p lane (retrainRx p lane (retrainTx p lane s))
    sendLaneMgmt p lane.val 0x06 (leBytes 1 lane.val ++ leBytes 1 1 ++ zeros 2 ++ leBytes 4 ((symTx s p + 512) % 2 ^ 32)) s

/-- The transmit lane of a lane retrain ends it: ready where the partner has put a table in force.
Log entry 46 (DEDUCED). -/
def retrainTxDone (p : Fin 8) (partner : Fin 9) (role : LaneRole) (s : State) : State :=
  modTxLane p partner (fun y =>
    if y.role = .retrain then { y with role := if role = .spareReady ∧ y.retabled = false then .retired else role } else y) s

/-- A lane retrain fails: retried after 1 s and after 10 s, FAILED after three failures within 600 s (R123). -/
def retrainFailed (p : Fin 8) (l partner : Fin 9) (s : State) : State :=
  let recent := (rxLane s p l).retrainFails.filter (fun t => decide (s.now < t + 600000000000)) ++ [s.now]
  if 3 ≤ recent.length then
    logErr 0x0014 30 (leBytes 1 p.val ++ leBytes 1 l.val)
      (retrainTxDone p partner .failed (modRxLane p l (fun r => { r with role := .failed, pend := none, retrainFails := recent }) s))
  else
    let wait := if recent.length = 1 then 1000000000 else 10000000000
    retrainTxDone p partner .retired (modRxLane p l (fun r => { r with role := .retired, pend := none, retrainFails := recent,
                                                                       retryAt := some (s.now + wait) }) s)

/-- LANE_RETRAIN_DONE (R119, R123): a lane that passed VERIFY under its new table in time is the ready spare; any other has failed.
Log entries 45 (DEDUCED), 46 (DEDUCED). -/
def laneRetrainDone (t : Nat) (p : Fin 8) (l : Fin 9) (passed : Bool) (s : State) : State :=
  let s := s.at t
  let r := rxLane s p l
  let ph := (port s p).phys
  if ph.st ≠ 8 ∨ r.role ≠ .retrain then s
  else
    let partner : Fin 9 := finOf 9 r.partner
    let s := if passed && r.retabled && decide (s.now ≤ r.retrainBy) then
        retrainTxDone p partner .spareReady
          (modRxLane p l (fun r => { r with role := .spareReady, fresh := true, errTimes := [] }) s)
      else retrainFailed p l partner s
    match ph.retrain with
    | some w =>
      if w.lane = l.val then
        finishRef w.ticket stOk (leBytes 2 r.untrimmed) (modPhys p (fun x => { x with retrain := none }) s)
      else s
    | none => s

/-- LANE_RETRAIN_RETRY (R123). -/
def laneRetrainRetry (t : Nat) (p : Fin 8) (l : Fin 9) (s : State) : State :=
  let s := s.at t
  let r := rxLane s p l
  match r.retryAt with
  | some a =>
    if (port s p).phys.st = 8 ∧ r.role = .retired ∧ a ≤ s.now ∧ s.root.alive = true then askRetrain p l (startRetrain p l s) else s
  | none => s

/-! ### LOW (R125, R126) -/

/-- A port enters LOW. -/
def enterLow (p : Fin 8) (ms : Nat) (s : State) : State :=
  let s := modPhys p (fun x => { x with lowMs := ms, lowAsked := false, lowDue := false, lastBeacon := s.now, lastBeaconSent := s.now,
                                        rx := x.rx.map fun r => { r with energyAt := none } }) s
  enterPhys p 9 0 (modLink p (fun l => { l with st := if l.st = .up then .low else l.st }) s)

/-- LOW_ENTER: answered, and the port goes to LOW. Log entry 48 (DEDUCED). -/
def lowEnter (p : Fin 8) (ms : Nat) (s : State) : State :=
  if (port s p).phys.st = 8 then enterLow p ms (sendMgmt p 0x08 (leBytes 4 ms) s) else s

/-- LOW_ACK. -/
def lowAck (p : Fin 8) (ms : Nat) (s : State) : State :=
  let ph := (port s p).phys
  if ph.st = 8 ∧ ph.lowAsked = true then enterLow p ms s else s

/-- BEACON_SEND. -/
def beaconSend (t : Nat) (p : Fin 8) (s : State) : State :=
  let s := s.at t
  let ph := (port s p).phys
  if ph.st = 9 ∧ ph.lastBeaconSent + ph.lowMs * 1000000 ≤ s.now then
    emit (.pilot p .beacon) (modPhys p (fun x => { x with lastBeaconSent := s.now }) s)
  else s

/-- BEACON_LOSS. -/
def beaconLoss (t : Nat) (p : Fin 8) (s : State) : State :=
  let s := s.at t
  let ph := (port s p).phys
  if ph.st = 9 ∧ ph.lastBeacon + 3 * ph.lowMs * 1000000 ≤ s.now then linkGoesDown p 3 true s else s

/-! ### The rows -/

/-- `ENERGY_DETECT`: 04 R106; also R115, R126. -/
def execEnergyDetect (t : Nat) (p : Fin 8) (lane : Fin 9) (s : State) : Outcome := .next (energyDetect t p lane s)
/-- `LANE_QUALIFY`: 04 R108; also R102, R115, R118, R126. -/
def execLaneQualify (t : Nat) (p : Fin 8) (lane : Fin 9) (partner : Fin 9) (pattern : Pilot) (pilot : PilotHeard) (s : State) : Outcome :=
  .next (laneQualify t p lane partner pattern pilot.inverted pilot.timing s)
/-- `FALSE_WAKE`: 04 R108. -/
def execFalseWake (t : Nat) (p : Fin 8) (lane : Fin 9) (s : State) : Outcome := .next (falseWake t p lane s)
/-- `HELLO`: 04 R115; also R102, R105, R126, R467. -/
def execHello (t : Nat) (f : PortFrame) (m : Hello) (s : State) : Outcome :=
  .next (onFrame t f.port f.frame (takeHelloMsg f.port f.frame m) s)
/-- `PHASE`: 04 R117; also R105, R115. -/
def execPhase (t : Nat) (f : PortFrame) (state grade at_symbol : Nat) (s : State) : Outcome :=
  .next (onFrame t f.port f.frame (phaseMsg f.port state grade at_symbol) s)
/-- `BIT_TABLE`: 04 R111; also R105, R112. -/
def execBitTable (t : Nat) (f : PortFrame) (m : BitTable) (ackEndSymbol : Nat) (s : State) : Outcome :=
  .next (onFrame t f.port f.frame (bitTable f.port m ackEndSymbol) s)
/-- `TABLE_ACK`: 04 R112; also R114. -/
def execTableAck (t : Nat) (f : PortFrame) (lane : Fin 9) (tableId : Nat) (result : TableResult) (swapSymbol : Nat)
    (s : State) : Outcome := .next (onFrame t f.port f.frame (tableAck f.port lane tableId result swapSymbol) s)
/-- `SPARE_SWAP`: 04 R122. -/
def execSpareSwap (t : Nat) (f : PortFrame) (position : Fin 8) (leaving : Fin 9) (s : State) : Outcome :=
  .next (onFrame t f.port f.frame (spareSwap f.port position leaving) s)
/-- `RETRAIN`: 04 R119. -/
def execRetrain (t : Nat) (f : PortFrame) (lane : Fin 9) (step _at_symbol : Nat) (s : State) : Outcome :=
  .next (onFrame t f.port f.frame (retrainMsg f.port lane step) s)
/-- `LOW_ENTER`: 04 R125. -/
def execLowEnter (t : Nat) (f : PortFrame) (beaconMs : Nat) (s : State) : Outcome :=
  .next (onFrame t f.port f.frame (lowEnter f.port beaconMs) s)
/-- `LOW_ACK`: 04 R125. -/
def execLowAck (t : Nat) (f : PortFrame) (beaconMs : Nat) (s : State) : Outcome :=
  .next (onFrame t f.port f.frame (lowAck f.port beaconMs) s)
/-- `DOWN`: 04 R115; also R158. -/
def execDown (t : Nat) (f : PortFrame) (reason : Nat) (s : State) : Outcome :=
  .next (onFrame t f.port f.frame (downMsg f.port reason) s)
/-- `VERIFY_RESULT`: 04 R115; also R126, R168, R319. -/
def execVerifyResult (t : Nat) (f : PortFrame) (ownMask peerMask : BitVec 9) (s : State) : Outcome :=
  .next (onFrame t f.port f.frame (verifyResult f.port ownMask peerMask) s)
/-- `TRAINING_TIMEOUT`: 04 R115; also R102, R116, R118. -/
def execTrainingTimeout (t : Nat) (p : Fin 8) (s : State) : Outcome := .next (trainingTimeout t p s)
/-- `QUIET_COMPLETE`: 04 R109; also R115. -/
def execQuietComplete (t : Nat) (p : Fin 8) (noise : List (List Int)) (s : State) : Outcome :=
  .next (quietComplete t p noise s)
/-- `PROBE_COMPLETE`: 04 R117; also R109, R110, R115. -/
def execProbeComplete (t : Nat) (p : Fin 8) (snr : List (List Int)) (s : State) : Outcome := .next (probeComplete t p snr s)
/-- `LISTEN_PILOT`: 04 R118. -/
def execListenPilot (t : Nat) (p : Fin 8) (s : State) : Outcome := .next (listenPilot t p s)
/-- `SNR_WINDOW_END`: 04 R114; also R109, R110, R112. -/
def execSnrWindowEnd (t : Nat) (p : Fin 8) (lane : Fin 9) (snr : List Int) (s : State) : Outcome :=
  .next (snrWindowEnd t p lane snr s)
/-- `TABLE_SWAP`: 04 R112. -/
def execTableSwap (t : Nat) (p : Fin 8) (lane : Fin 9) (symbol : Nat) (s : State) : Outcome :=
  .next (tableSwap t p lane symbol s)
/-- `TABLE_ADOPT`: 04 R113; also R115. -/
def execTableAdopt (t : Nat) (p : Fin 8) (lane : Fin 9) (tableId symbol : Nat) (s : State) : Outcome :=
  .next (tableAdopt t p lane tableId symbol s)
/-- `TABLE_SWAP_LAPSE`: 04 R113. -/
def execTableSwapLapse (t : Nat) (p : Fin 8) (lane : Fin 9) (symbol : Nat) (s : State) : Outcome :=
  .next (tableSwapLapse t p lane symbol s)
/-- `LANE_RETIRE`: 04 R121; also R100, R120, R122, R124, R388. -/
def execLaneRetire (t : Nat) (p : Fin 8) (lane : Fin 9) (s : State) : Outcome := .next (laneRetire t p lane s)
/-- `SPARE_TAKEOVER`: 04 R122. -/
def execSpareTakeover (t : Nat) (p : Fin 8) (position : Fin 8) (s : State) : Outcome := .next (spareTakeover t p position s)
/-- `LANE_RETRAIN_DONE`: 04 R123; also R119, whose steps run in both directions: VERIFY must pass in each. -/
def execLaneRetrainDone (t : Nat) (p : Fin 8) (lane : Fin 9) (passed peerPassed : Bool) (s : State) : Outcome :=
  .next (laneRetrainDone t p lane (passed && peerPassed) s)
/-- `LANE_RETRAIN_RETRY`: 04 R123. -/
def execLaneRetrainRetry (t : Nat) (p : Fin 8) (lane : Fin 9) (s : State) : Outcome := .next (laneRetrainRetry t p lane s)
/-- `BEACON_SEND`: 04 R125. -/
def execBeaconSend (t : Nat) (p : Fin 8) (s : State) : Outcome := .next (beaconSend t p s)
/-- `BEACON_LOSS`: 04 R125. -/
def execBeaconLoss (t : Nat) (p : Fin 8) (s : State) : Outcome := .next (beaconLoss t p s)
/-- `AUTO_RETRAIN`: 05 R159. -/
def execAutoRetrain (t : Nat) (p : Fin 8) (s : State) : Outcome := .next (autoRetrain t p s)

end Sys2Proof.Machine
end

