-- ==== Sys2Proof/Machine/Mailbox.lean ====
section
/-! DEFINITION. The mailbox (chapter 02): tamper, the catalogue of
commands, posting, authorisation, refusal, tickets, and the general commands. -/

namespace Sys2Proof.Machine

/-! ### Tamper (03 R91) -/

/-- Tamper (R91): the slots are zeroised and every consumer loses its keys; a KEY_REPLACE that has not committed ends with
ACCESS_DENIED (R80). -/
def tamper (s : State) : State :=
  let s := logErr 0x0041 31 (leBytes 1 2) (modHwd (fun h => { h with fault := .tamper, slots := [] }) s)
  let s := dropPorts (fun _ => true) (dropPairs (fun h => h != 0) s)
  let s := if s.twn.st ≠ .none then dropTwin s else s
  (runningTickets s 0x0301).foldl (fun s k => finishTicket k.1 k.2 stAccessDenied [] s) s

/-! ### The catalogue (Tables 2-10 to 2-21) -/

/-- How a command names its object (R43). -/
inductive Target where
  | query
  | device
  | part
  | newIn
  | queue
  | keyLoad
  | key
  | keySet
  | port
  | routes
  | bundle
  | group
  | grammarLoad
  | grammar
  | streamOpen
  | stream
  | grove
  | peer
  | twin
  | bough
  | island
  | cut
  | crown
  | firmware
  | lending
  deriving DecidableEq, Repr

/-- A row of the catalogue: `chans` has bit 0 for P, bit 1 for B, bit 2 for V; `flags` has bit 0 for a critical command,
bit 1 for a long one, bit 2 for one that needs Crown, the token engine or HBM (14 Table 14-8), bit 3 for one that changes
a unit that a cut stops (12 R380). -/
structure CmdRow where
  code : Nat
  chans : Nat
  flags : Nat
  target : Target
  deriving DecidableEq, Repr

/-- A critical command: it is refused without a tag (R48). -/
def CmdRow.critical (c : CmdRow) : Bool := c.flags.testBit 0
/-- A long command: it is answered ACCEPTED and gets a ticket. -/
def CmdRow.long (c : CmdRow) : Bool := c.flags.testBit 1
/-- A command that needs Crown, the token engine or HBM. Log entry 26 (DEDUCED). -/
def CmdRow.needs (c : CmdRow) : Bool := c.flags.testBit 2
/-- A command that changes a unit that a cut stops. Log entry 25 (DEDUCED). -/
def CmdRow.cutBusy (c : CmdRow) : Bool := c.flags.testBit 3

/-- Areas 0x00 to 0x06. Log entry 25 (DEDUCED). -/
def catalogueLow : List CmdRow :=
  [⟨0x0001, 7, 0, .query⟩, ⟨0x0002, 7, 0, .query⟩, ⟨0x0003, 7, 0, .query⟩, ⟨0x0004, 7, 0, .query⟩, ⟨0x0005, 7, 0, .query⟩,
   ⟨0x0006, 7, 0, .query⟩] ++
  [⟨0x0100, 1, 15, .part⟩, ⟨0x0101, 1, 15, .part⟩, ⟨0x0102, 5, 0, .query⟩, ⟨0x0103, 5, 12, .part⟩, ⟨0x0104, 5, 12, .part⟩,
   ⟨0x0105, 5, 8, .part⟩, ⟨0x0106, 5, 8, .part⟩, ⟨0x0107, 5, 8, .part⟩, ⟨0x0108, 1, 13, .lending⟩, ⟨0x0109, 5, 14, .part⟩,
   ⟨0x010A, 7, 0, .query⟩, ⟨0x010B, 5, 8, .part⟩] ++
  [⟨0x0200, 5, 12, .queue⟩, ⟨0x0201, 5, 12, .queue⟩, ⟨0x0202, 5, 0, .query⟩] ++
  [⟨0x0300, 5, 1, .keyLoad⟩, ⟨0x0301, 5, 3, .key⟩, ⟨0x0302, 5, 1, .key⟩, ⟨0x0303, 5, 0, .query⟩, ⟨0x0304, 1, 0, .keySet⟩] ++
  [⟨0x0400, 1, 2, .port⟩, ⟨0x0401, 1, 2, .port⟩, ⟨0x0402, 1, 0, .port⟩, ⟨0x0403, 3, 0, .query⟩, ⟨0x0404, 1, 1, .port⟩,
   ⟨0x0405, 1, 3, .port⟩, ⟨0x0406, 1, 1, .routes⟩, ⟨0x0407, 1, 1, .bundle⟩] ++
  [⟨0x0500, 5, 12, .newIn⟩, ⟨0x0501, 5, 8, .group⟩, ⟨0x0502, 5, 0, .query⟩] ++
  [⟨0x0600, 5, 14, .newIn⟩, ⟨0x0601, 5, 14, .grammarLoad⟩, ⟨0x0602, 5, 12, .grammar⟩, ⟨0x0603, 5, 12, .streamOpen⟩,
   ⟨0x0604, 5, 12, .stream⟩]

/-- Areas 0x07 to 0x0B. Log entry 25 (DEDUCED). -/
def catalogueHigh : List CmdRow :=
  [⟨0x0700, 1, 3, .grove⟩, ⟨0x0701, 1, 3, .grove⟩, ⟨0x0702, 1, 0, .peer⟩, ⟨0x0703, 1, 11, .twin⟩, ⟨0x0704, 1, 13, .part⟩,
   ⟨0x0705, 1, 11, .twin⟩] ++
  [⟨0x0800, 5, 4, .bough⟩, ⟨0x0801, 1, 0, .island⟩, ⟨0x0802, 1, 1, .cut⟩, ⟨0x0803, 1, 0, .cut⟩, ⟨0x0804, 3, 0, .query⟩,
   ⟨0x0805, 1, 5, .device⟩] ++
  [⟨0x0900, 1, 15, .bough⟩, ⟨0x0901, 1, 15, .crown⟩, ⟨0x0902, 3, 1, .device⟩, ⟨0x0903, 1, 1, .device⟩,
   ⟨0x0904, 3, 0, .query⟩, ⟨0x0905, 1, 4, .query⟩, ⟨0x0906, 1, 15, .bough⟩, ⟨0x0907, 1, 1, .device⟩] ++
  [⟨0x0A00, 3, 1, .device⟩, ⟨0x0A01, 1, 11, .device⟩, ⟨0x0A02, 3, 0, .query⟩] ++
  [⟨0x0B00, 1, 3, .firmware⟩, ⟨0x0B01, 1, 3, .firmware⟩, ⟨0x0B02, 1, 1, .firmware⟩, ⟨0x0B03, 3, 0, .query⟩]

/-- The commands of GCS 3.2 (R59). -/
def catalogue : List CmdRow := catalogueLow ++ catalogueHigh

/-- The row of a command code. -/
def cmdRow (code : Nat) : Option CmdRow := catalogue.find? fun c => c.code == code

/-- The object a request changes, and the partition that the object belongs to (R43); none for a command that only reads.
Log entry 19 (DEDUCED). -/
def targetOf (s : State) (ch : Nat) (c : CmdRow) (a : Bytes) : Option (Obj × Option Nat) :=
  match c.target with
  | .query => none
  | .device => some (.device, none)
  | .part => some (.partition (u8At a 0), some (u8At a 0))
  | .newIn => some (.fresh, some (u8At a 0))
  | .queue => some (.queue (u8At a 0) (u8At a 1) (u8At a 2), some (u8At a 0))
  | .keyLoad => some (.fresh, if ch < 2 then none else some (ch - 2))
  | .key => some (.key (u32At a 0), (keyEntry s (u32At a 0)).bind fun e => if e.channel < 2 then none else some (e.channel - 2))
  | .keySet => some (.key (u8At a 0 + 1), none)
  | .port => some (.port (u8At a 0), none)
  | .routes => some (.routes, none)
  | .bundle => some (.bundle (u8At a 0), none)
  | .group => some (.group (u16At a 0), (tget (u16At a 0) s.col.slots).map (·.part))
  | .grammarLoad => some (.fresh, (tget (u32At a 0) s.tke.vocabs).map (·.part))
  | .grammar => some (.grammar (u32At a 0), (tget (u32At a 0) s.tke.grammars).map (·.part))
  | .streamOpen => some (.fresh, (tget (u32At a 0) s.tke.vocabs).map (·.part))
  | .stream => some (.stream (u16At a 0), (tget (u16At a 0) s.tke.streams).map (·.part))
  | .grove => some (.grove, none)
  | .peer => some (.peer (u16At a 0), none)
  | .twin => some (.twin, none)
  | .bough => some (.bough (u8At a 0), none)
  | .island => some (.island (u8At a 0), none)
  | .cut => some (.cut, none)
  | .crown => some (.crown, none)
  | .firmware => some (.firmware, none)
  | .lending => some (.lending, none)

/-- PART_CREATE and PART_DESTROY change every object of their partition. -/
def ofPart (code : Nat) : Bool := code == 0x0100 || code == 0x0101

/-- Two commands change the same object (R43). Log entry 19 (DEDUCED). -/
def clash (c1 : Nat) (t1 : Obj × Option Nat) (c2 : Nat) (t2 : Obj × Option Nat) : Bool :=
  (t1.1 == t2.1 && t1.1 != .fresh) || ((ofPart c1 || ofPart c2) && t1.2 == t2.2 && t1.2.isSome)

/-! ### Device state and permission (R60, 13 R403, 15 R456) -/

/-- The device runs the recovery of 15 R456. Log entry 21 (DEDUCED). -/
def inRecovery (s : State) : Bool := s.boot.stage == 7

/-- device_state of GET_INFO. Log entry 21 (DEDUCED). -/
def deviceState (s : State) : Nat := if s.cmb.outOfService || inRecovery s then 2 else if inProvision s then 1 else 0

/-- The commands of a channel whose partition does not exist. Log entry 21 (DEDUCED). -/
def basicCmds : List Nat := [0x0001, 0x0002, 0x0005, 0x0006]

/-- What PROVISION permits (R60). Log entry 21 (DEDUCED). -/
def provisionCmds (ch : Nat) : List Nat := basicCmds ++ [0x0A02, 0x0904] ++ (if ch = 0 then [0x0304] else [])

/-- What OUT_OF_SERVICE permits (13 R403). Log entry 21 (DEDUCED). -/
def outOfServiceCmds (ch : Nat) : List Nat :=
  if ch = 0 then basicCmds ++ [0x0003, 0x0004, 0x010A, 0x0403, 0x0804, 0x0904, 0x0905, 0x0B03, 0x0A02, 0x0A00, 0x0A01,
    0x0903, 0x0907, 0x0902, 0x0B00, 0x0B01]
  else if ch = 1 then basicCmds ++ [0x010A, 0x0403, 0x0804, 0x0904, 0x0B03, 0x0A02, 0x0A00, 0x0902]
  else []

/-- What the ROM permits in recovery (15 R456). Log entry 21 (DEDUCED). -/
def recoveryCmds : List Nat := basicCmds ++ [0x0904, 0x0B00, 0x0B01, 0x0902]

/-- The reason for which a command is not permitted on a channel in this device state, or 0. The channel of a lending partition refuses
every command (07 R231). Log entries 20 (DEDUCED), 21 (DEDUCED). -/
def notPermitted (s : State) (ch : Nat) (c : CmdRow) (auth : Bool) : Nat :=
  if s.cmb.outOfService && !inRecovery s && decide (2 ≤ ch) then 2
  else if 2 ≤ ch ∧ (chanPart s ch).map (·.mode) = some 3 then 4
  else if 2 ≤ ch ∧ (chanPart s ch).isNone = true then
    if basicCmds.contains c.code && !auth then 0 else 4
  else if !c.chans.testBit (min ch 2) then 1
  else if inRecovery s then
    if recoveryCmds.contains c.code && (!inProvision s || (provisionCmds ch).contains c.code || c.code == 0x0902) then 0 else 2
  else if s.cmb.outOfService then if (outOfServiceCmds ch).contains c.code then 0 else 2
  else if inProvision s && decide (ch < 2) then if (provisionCmds ch).contains c.code then 0 else 2
  else 0

/-! ### Frames and authorisation (R39, R48 to R53) -/

/-- A request keeps the frame rules (R39). Log entry 22 (DEDUCED). -/
def frameOk (b : Bytes) : Bool :=
  let n := u16At b 8
  decide (n ≤ 4048) && n % 4 == 0 && u16At b 2 / 2 == 0 && zeroAt b 10 6 && zeroAt b 24 8
    && ((u16At b 2).testBit 0 || u64At b 16 == 0)

/-- Commands whose first argument is a partition. -/
def namesPart (code : Nat) : Bool :=
  [0x0102, 0x0103, 0x0104, 0x0105, 0x0106, 0x0107, 0x0109, 0x010B, 0x0200, 0x0201, 0x0202, 0x0500, 0x0600].contains code

/-- A partition channel names a partition or a bough that is not its own (R59, 12 R352). Log entry 20 (DEDUCED). -/
def namesOther (s : State) (ch code : Nat) (a : Bytes) : Bool :=
  decide (2 ≤ ch ∧ a ≠ []) &&
    ((namesPart code && u8At a 0 != ch - 2)
      || (code == 0x0800 && decide (u8At a 0 < 64)
          && !(((chanPart s ch).map fun p => p.boughMask.testBit (u8At a 0)).getD false)))

/-- The blob argument: its length field's offset and its own. -/
def blobAt (code : Nat) : Nat × Nat := if code = 0x0300 then (0, 2) else if code = 0x0301 then (4, 6) else (2, 4)

/-- The blob of a request; empty where it runs past the arguments (R70). -/
def blobArg (code : Nat) (a : Bytes) : Bytes :=
  let p := blobAt code
  let n := u16At a p.1
  if p.2 + n ≤ a.length then slice a p.2 n else []

/-- The owner's key hash and signature of MBX_KEY_SET (Table 2-13, R470). -/
def ownerSigned (s : State) (a : Bytes) : Bool :=
  let n := u16At a 2
  let key := slice a (4 + n) 97
  let sig := slice a (4 + n + 97) 96
  let c := u8At a 0
  let f := (chan s (finOf 130 c)).floor
  let body := leBytes 8 s.fuse.serial ++ leBytes 1 c ++ leBytes 8 f ++ slice a 4 n
  key.length == 97 && sha384 key == s.fuse.ownerHash &&
    (match pointOfBytes key with
     | some q => ecdsaVerify q body sig
     | none => false)

/-- Verification of an authenticated request (R50, R51, R87): the reason or 0, and the key. Log entry 20 (DEDUCED). -/
def verifyRequest (ch : Fin 130) (r : Request) (s : State) : Nat × Bytes × State :=
  let k := requestKey ch.val s
  if k.1 ≠ 0 then k
  else
    let n := u16At r.bytes 8
    let c := u64At r.bytes 16
    let f := (chan s ch).floor
    let tag := cmac k.2.1 (leBytes 2 ch.val ++ zeros 2 ++ r.bytes.take (32 + n))
    let reason := if slice r.bytes (32 + n) 16 ≠ tag then 5
      else if c = 2 ^ 64 - 1 ∨ f + 2 ^ 32 < c then 7 else if c ≤ f then 6 else 0
    (reason, k.2.1, k.2.2)

/-- The blob checks of the authorisation step (R70): the reason or 0, and the staged blob.
Log entry 157 (DESIGN CHOICE). -/
def authBlob (ch : Fin 130) (r : Request) (s : State) : Nat × Option Staged × State :=
  let code := r.cmd
  if code = 0x0300 then checkBlob ch.val .load (blobArg code r.args) s
  else if code = 0x0301 then checkBlob ch.val .replace (blobArg code r.args) s
  else if code = 0x0304 then
    if hwdDead s then (4, none, s)
    else if !ownerSigned s r.args then (9, none, s)
    else checkBlob ch.val .owner (blobArg code r.args) s
  else (0, none, s)

/-- The authorisation step of R53: the reason of a refusal, or 0 with the request's keys; on success the counter is the
floor before the command runs (R51, R52). Log entry 20 (DEDUCED). -/
def authorise (ch : Fin 130) (c : CmdRow) (r : Request) (s : State) : Nat × Request × State :=
  let early := notPermitted s ch.val c r.auth
  let early := if early ≠ 0 then early
    else if namesOther s ch.val c.code r.args then 1
    else if c.critical && !r.auth then 3 else 0
  if early ≠ 0 then (early, r, s)
  else
    let v : Nat × Bytes × State := if r.auth then verifyRequest ch r s else (0, [], s)
    if v.1 ≠ 0 then (v.1, r, v.2.2)
    else
      let b := authBlob ch r v.2.2
      if b.1 ≠ 0 then (b.1, r, b.2.2)
      else
        let s := b.2.2
        let n := u64At r.bytes 16
        let s := if r.auth then modChan ch (fun x => { x with floor := n }) (raiseWater ch.val n s) else s
        (0, { r with tagKey := if r.auth then some v.2.1 else none, staged := b.2.1 }, s)

/-! ### Refusal (R54 to R56) -/

/-- A refusal record appended to the log. Log entries 33 (DEDUCED), 154 (DESIGN CHOICE). -/
def logRefusal (ch : Fin 130) (r : Request) (reason : Nat) (s : State) : State :=
  let plain := leBytes 8 s.now ++ leBytes 2 ch.val ++ leBytes 2 r.cmd ++ leBytes 2 reason ++ zeros 2 ++ slice r.bytes 16 8
    ++ leBytes 8 (chan s ch).floor
  let x := s.root
  let lost := if 1024 ≤ x.refusals.length then sat32 (x.refusalLost + 1) else x.refusalLost
  let rcd := sealRefusal s x.refusalNext lost plain
  reshare .refusalLog { s with root := { x with refusals := keepLast 1024 (x.refusals ++ [(x.refusalNext, rcd)]),
                                                refusalNext := x.refusalNext + 1, refusalLost := lost } }

/-- The response to a refused request (R54). Log entry 27 (DEDUCED). -/
def refusedBytes (r : Request) : Bytes := leBytes 2 r.cmd ++ leBytes 2 stAuthRefused ++ slice r.bytes 4 4 ++ zeros 24

/-- REFUSAL_RESPONSE: 500 µs to 505 µs after t0, whatever the reason. Log entry 27 (DEDUCED). -/
def refusalResponse (t : Nat) (ch : Fin 130) (s : State) : State :=
  let s := s.at t
  let c := chan s ch
  match c.cur with
  | some r =>
    if c.st = .taken ∧ r.refusal.isSome = true ∧ s.root.alive = true ∧ r.since + 500000 ≤ s.now ∧ s.now ≤ r.since + 505000 then
      finishChannel ch (refusedBytes r) r.cmd stAuthRefused s
    else s
  | none => s

/-! ### Posting (R34 to R38) -/

/-- Root stops serving: ROOT_ALIVE reads 0 (R41). -/
def rootStops (s : State) : State := { s with root := { s.root with alive := false, downAt := s.now } }

/-- Root takes a posted request (R36): the journal record, then steps 1 to 3 of R53. Log entry 27 (DEDUCED). -/
def takeRequest (ch : Fin 130) (s : State) : State :=
  match (chan s ch).cur with
  | none => s
  | some r =>
    let n := min 4096 ((if r.auth then 48 else 32) + u16At r.bytes 8)
    let s := journalAt r.t0 0x02 30 (leBytes 1 ch.val ++ zeros 15 ++ r.bytes.take n) s
    let r := { r with since := max r.since s.root.aliveAt }
    let s := modChan ch (fun c => { c with st := .taken, cur := some r }) s
    match frameOk r.bytes, cmdRow r.cmd with
    | true, some row =>
      let a := authorise ch row r s
      let s := if a.1 ≠ 0 then logRefusal ch r a.1 a.2.2 else a.2.2
      let q : Request := if a.1 ≠ 0 then { r with refusal := some a.1 } else a.2.1
      withdraw (modChan ch (fun c => { c with cur := some q }) s)
    | _, _ => respond ch r stBadArg 0 [] s

/-- Root serves a channel: every channel, but only 0 and 1 in recovery (15 R456). -/
def served (s : State) (ch : Fin 130) : Bool := s.root.alive && (!inRecovery s || decide (ch.val < 2))

/-- Root becomes alive: the requests that wait are taken in the order of t0, then of the channel (R41, R43).
Log entry 113 (DEDUCED). -/
def takePosted (s : State) : State :=
  let waiting := (fins 130).filter fun c => (chan s c).st == .posted
  let key := fun (c : Fin 130) => (((chan s c).cur.map (·.t0)).getD 0) * 256 + c.val
  let order := waiting.mergeSort fun a b => decide (key a ≤ key b)
  order.foldl (fun s c => if served s c then takeRequest c s else s) s

/-- A requester reaches the channels and registers (14 R433, R459). -/
def reaches (s : State) (r : Requester) : Bool :=
  match r with
  | .smb => s.pwr.st != .deep && s.pwr.st != .hold && s.pwr.st != .tripped
  | _ => s.pwr.pcieUp

/-- RELEASE (R38). -/
def releaseChan (ch : Fin 130) (s : State) : State :=
  modChan ch (fun c => if c.st = .done then { c with st := .idle, rsp := [], cur := none } else c) s

/-- GO (R34). -/
def postChan (ch : Fin 130) (s : State) : State :=
  let c := chan s ch
  if c.st ≠ .idle then setChan ch { c with overrun := true } s
  else
    let r : Request := { t0 := s.now, since := s.now, bytes := Mem.read 0 c.req 0 4096, refusal := none, tagKey := none,
                         staged := none, ended := false }
    let s := setChan ch { c with st := .posted, cur := some r } s
    if served s ch then takeRequest ch s else s

/-- A write of ROOT_MBX_CTRL that sets GO and perhaps RELEASE (R34): GO acts first, and RELEASE does nothing to a request
that this GO has posted. -/
def goRelease (ch : Fin 130) (alsoRelease : Bool) (s : State) : State :=
  if alsoRelease && (chan s ch).st != .idle then releaseChan ch (postChan ch s) else postChan ch s

/-- GO, and RELEASE after it where one write sets both. -/
def go (t : Nat) (ch : Fin 130) (alsoRelease : Bool) (s : State) : State :=
  let s := s.at t
  if reaches s (chanRequester ch) then goRelease ch alsoRelease s else s

/-- RELEASE. -/
def release (t : Nat) (ch : Fin 130) (s : State) : State :=
  let s := s.at t
  if reaches s (chanRequester ch) then releaseChan ch s else s

/-- Held events written while slots are free (R47). -/
def flushHeld (ch : Fin 130) : Nat → State → State
  | 0, s => s
  | n + 1, s =>
    let c := chan s ch
    match c.held with
    | [] => s
    | b :: rest =>
      if (c.head + 1) % 64 = c.tail then s
      else
        let s := setChan ch { c with evq := tset c.head b c.evq, head := (c.head + 1) % 64, held := rest } s
        flushHeld ch n (if c.eventEn then channelIrq ch s else s)

/-- A write of EVQ_TAIL (R46). -/
def moveTail (ch : Fin 130) (v : Nat) (s : State) : State :=
  let c := chan s ch
  if v < 64 ∧ (v + 64 - c.tail) % 64 ≤ (c.head + 64 - c.tail) % 64 then
    flushHeld ch c.held.length (setChan ch { c with tail := v } s)
  else setChan ch { c with evqReject := true } s

/-- `ROOT_MBX_EVQ_TAIL`: a write of a channel's EVQ_TAIL by the side that the channel belongs to (R46, R47). -/
def evqTail (t : Nat) (ch : Fin 130) (v : BitVec 32) (s : State) : State :=
  let s := s.at t
  if reaches s (chanRequester ch) then moveTail ch v.toNat s else s

/-! ### Running a command (R43, R44, R53 steps 4 and 5) -/

/-- A request that Root has accepted and not yet answered. -/
def acceptedReq (s : State) (ch : Fin 130) : Option Request :=
  let c := chan s ch
  match c.cur with
  | some r => if c.st = .taken ∧ r.refusal = none then some r else none
  | none => none

/-- A request waits for an earlier one that changes the same object. Log entry 19 (DEDUCED). -/
def waitsFor (s : State) (ch : Fin 130) (r : Request) (row : CmdRow) : Bool :=
  match targetOf s ch.val row r.args with
  | none => false
  | some tg =>
    (fins 130).any fun c =>
      c != ch && (match acceptedReq s c with
        | some q =>
          decide (q.t0 < r.t0 ∨ (q.t0 = r.t0 ∧ c.val < ch.val)) &&
            (match (cmdRow q.cmd).bind fun x => targetOf s c.val x q.args with
             | some tq => clash row.code tg q.cmd tq
             | none => false)
        | none => false)

/-- A long command that runs changes the object of a request. Log entry 19 (DEDUCED). -/
def objectBusy (s : State) (ch : Fin 130) (r : Request) (row : CmdRow) : Bool :=
  match targetOf s ch.val row r.args with
  | none => false
  | some tg =>
    s.root.chans.toList.any fun c =>
      c.tickets.any fun k => k.final.isNone && clash row.code tg k.cmd (k.obj, k.owner)

/-- The units that a command needs sleep or are going to sleep (14 Table 14-8). Log entry 26 (DEDUCED). -/
def unitsAsleep (s : State) : Bool :=
  match s.pwr.st with
  | .nap => true
  | .entering | .leaving => s.pwr.phase == 2
  | _ => false

/-- Table 2-8: a request that is not refused is answered within 2 ms. Log entry 143 (DEDUCED). -/
def withinLimit (s : State) (r : Request) : Bool := decide (s.now ≤ r.since + 2000000)

/-- A command of the catalogue runs on its channel: `parse` reads the arguments, `ok` are the checks of the argument step,
`run` the rest. A request whose partition has been destroyed since its authorisation receives BUSY (R208).
Log entries 19 (DEDUCED), 23 (DEDUCED), 143 (DEDUCED). -/
def onCmd {α : Type} (code t : Nat) (ch : Fin 130) (parse : Bytes → Option α) (ok : State → α → Bool)
    (run : Request → α → State → State) (s : State) : State :=
  let s := s.at t
  match acceptedReq s ch, cmdRow code with
  | some r, some row =>
    if r.cmd ≠ code ∨ served s ch = false ∨ withinLimit s r = false ∨ waitsFor s ch r row = true then s
    else if row.needs && unitsAsleep s then wakeDevice 8 s
    else
      match parse r.args with
      | none => respond ch r stBadArg 0 [] s
      | some a =>
        if r.ended then respond ch r stBusy 0 [] s
        else if !ok s a then respond ch r stBadArg 0 [] s
        else if objectBusy s ch r row || (row.long && decide (16 ≤ (chan s ch).tickets.length))
            || (row.cutBusy && s.obs.cut.st != .idle) then respond ch r stBusy 0 [] s
        else run r a s
  | _, _ => s

/-- A long command is ACCEPTED under a new ticket (R44). Log entries 23 (DEDUCED), 24 (DESIGN CHOICE). -/
def acceptLong (ch : Fin 130) (r : Request) (work : Work) (s : State) : State :=
  let num := (chan s ch).nextTicket
  let tg := ((cmdRow r.cmd).bind fun row => targetOf s ch.val row r.args).getD (.fresh, none)
  let k : Ticket := { num := num, since := s.now, cmd := r.cmd, obj := tg.1, owner := tg.2, final := none, result := [], doneAt := 0,
                      work := work }
  let s := modChan ch (fun c => { c with tickets := c.tickets ++ [k], nextTicket := (num % (2 ^ 32 - 1)) + 1 }) s
  respond ch r stAccepted num [] s

/-- The ticket that `acceptLong` would give. -/
def nextTicketOf (s : State) (ch : Fin 130) : Nat := (chan s ch).nextTicket

/-- A long command that fails at once: the final status in its own response. -/
def answer (ch : Fin 130) (r : Request) (status : Nat) (result : Bytes) (s : State) : State := respond ch r status 0 result s

/-- No arguments. -/
def noArgs (b : Bytes) : Option Unit := if zeroAt b 0 b.length then some () else none

/-! ### General commands (Table 2-10) -/

/-- GET_INFO. Log entry 134 (DESIGN CHOICE). -/
def getInfo (t : Nat) (ch : Fin 130) (s : State) : State :=
  onCmd 0x0001 t ch noArgs (fun _ _ => true) (fun r _ s =>
    answer ch r stOk (packArgs [(2, 3), (2, s.boot.gcsMinor), (1, 0xB0), (1, ch.val), (2, ownChip s), (4, s.boot.fwBuild),
      (4, s.root.bootCount), (4, deviceState s), (8, s.fuse.serial), (8, 0)]) s) s

/-- The map of GET_COMMANDS (R58). Log entry 134 (DESIGN CHOICE). -/
def commandMap (s : State) (ch : Nat) : Bytes :=
  let codes := (catalogue.filter fun c => notPermitted s ch c false == 0).map (·.code)
  leBytes 512 (codes.foldl (fun m c => m ||| 2 ^ c) 0)

/-- GET_COMMANDS. -/
def getCommands (t : Nat) (ch : Fin 130) (s : State) : State :=
  onCmd 0x0002 t ch noArgs (fun _ _ => true) (fun r _ s => answer ch r stOk (commandMap s ch.val) s) s

/-- A ticket argument that the channel holds. -/
def ticketArg (s : State) (ch : Fin 130) (a : List Nat) : Bool := (findTicket s ch (a.headD 0)).isSome

/-- TICKET_STATUS (R471). -/
def ticketStatus (t : Nat) (ch : Fin 130) (s : State) : State :=
  onCmd 0x0003 t ch (parseArgs [4]) (fun s a => ticketArg s ch a) (fun r a s =>
    match findTicket s ch (a.headD 0) with
    | some k => answer ch r stOk (packArgs [(2, k.final.getD stAccepted), (2, k.cmd), (8, k.doneAt)]) s
    | none => s) s

/-- TICKET_RESULT (R471). -/
def ticketResult (t : Nat) (ch : Fin 130) (s : State) : State :=
  onCmd 0x0004 t ch (parseArgs [4]) (fun s a => ticketArg s ch a) (fun r a s =>
    match findTicket s ch (a.headD 0) with
    | some k =>
      match k.final with
      | none => respond ch r stAccepted k.num [] s
      | some st =>
        answer ch r st k.result (modChan ch (fun c => { c with tickets := c.tickets.filter fun x => x.num ≠ k.num }) s)
    | none => s) s

/-- TIME_GET; the journal records the answer (13 R406). -/
def timeGet (t : Nat) (ch : Fin 130) (s : State) : State :=
  onCmd 0x0005 t ch noArgs (fun _ _ => true) (fun r _ s =>
    answer ch r stOk (leBytes 8 s.now)
      (journal 0x04 30 (leBytes 1 64 ++ zeros 1 ++ leBytes 2 ch.val ++ zeros 4 ++ leBytes 8 s.now) s)) s

/-- ECHO. -/
def echo (t : Nat) (ch : Fin 130) (s : State) : State :=
  onCmd 0x0006 t ch some (fun _ _ => true) (fun r a s => answer ch r stOk a s) s

/-- REFUSAL_LOG_READ (R473). -/
def refusalLogRead (t : Nat) (ch : Fin 130) (s : State) : State :=
  onCmd 0x0B03 t ch (parseArgs [4, 2]) (fun _ a => decide (1 ≤ a.getD 1 0 ∧ a.getD 1 0 ≤ 63)) (fun r a s =>
    let l := s.root.refusals
    let oldest := (l.head?.map (·.1)).getD s.root.refusalNext
    let next := s.root.refusalNext
    -- the records held span at most 1,024 indices: `first` at or beyond `next` lies less than 2³¹ after the oldest
    let d : Nat := (a.headD 0 + 2 ^ 32 - oldest % 2 ^ 32) % 2 ^ 32
    let skip := if d < 2 ^ 31 then d else 0
    let got := if next - oldest ≤ skip then [] else (l.drop skip).take (a.getD 1 0)
    answer ch r stOk (got.map (·.2)).flatten s) s

/-- `GO`: 02 R34; also R7, R16, R31, R33, R35, R36, R37, R39, R40, R41, R43, R44. -/
def execGo (t : Nat) (ch : Fin 130) (alsoRelease : Bool) (s : State) : Outcome := .next (go t ch alsoRelease s)
/-- `RELEASE`: 02 R38; also R7, R37. -/
def execRelease (t : Nat) (ch : Fin 130) (s : State) : Outcome := .next (release t ch s)
/-- `ROOT_MBX_EVQ_TAIL`: 02 R46; also R47. -/
def execEvqTail (t : Nat) (ch : Fin 130) (v : BitVec 32) (s : State) : Outcome := .next (evqTail t ch v s)
/-- `REFUSAL_RESPONSE`: 02 R54; also R33, R37, R55, R56, R77. -/
def execRefusalResponse (t : Nat) (ch : Fin 130) (s : State) : Outcome := .next (refusalResponse t ch s)
/-- `GET_INFO`: 02 R57; also R464. -/
def execGetInfo (t : Nat) (ch : Fin 130) (s : State) : Outcome := .next (getInfo t ch s)
/-- `GET_COMMANDS`: 02 R58. -/
def execGetCommands (t : Nat) (ch : Fin 130) (s : State) : Outcome := .next (getCommands t ch s)
/-- `TICKET_STATUS`: 02 R471. -/
def execTicketStatus (t : Nat) (ch : Fin 130) (s : State) : Outcome := .next (ticketStatus t ch s)
/-- `TICKET_RESULT`: 02 R471. -/
def execTicketResult (t : Nat) (ch : Fin 130) (s : State) : Outcome := .next (ticketResult t ch s)
/-- `TIME_GET`: 02 R59; also R406. -/
def execTimeGet (t : Nat) (ch : Fin 130) (s : State) : Outcome := .next (timeGet t ch s)
/-- `ECHO`: 02 R59. -/
def execEcho (t : Nat) (ch : Fin 130) (s : State) : Outcome := .next (echo t ch s)
/-- `REFUSAL_LOG_READ`: 02 R473. -/
def execRefusalLogRead (t : Nat) (ch : Fin 130) (s : State) : Outcome := .next (refusalLogRead t ch s)

end Sys2Proof.Machine
end

