-- ==== Sys2Proof/Machine/Keys.lean ====
section
/-! DEFINITION. The key commands (02 Table 2-13, chapter 03). -/

namespace Sys2Proof.Machine

/-- The seal key pair of a partition (Table 3-7): the XTS material, and K_tag under the generation of its creation. -/
def sealPairOf (n gen : Nat) (xts : Bytes) : SealPair :=
  { xts := xts, tag := hkdf384 xts (zeros 48) (ascii "HWD-LTAG" ++ leBytes 1 n ++ leBytes 1 gen) 32 }

/-- A blob command's arguments have their listed fields and nothing beyond them: `extra` bytes follow the blob. -/
def blobArgsOk (code extra : Nat) (a : Bytes) : Option Bytes :=
  let p := blobAt code
  let e := p.2 + u16At a p.1 + extra
  if e ≤ a.length ∧ zeroAt a e (a.length - e) = true ∧ (code ≠ 0x0304 ∨ zeroAt a 1 1 = true) then some a else none

/-- KEY_LOAD (R71, R73, R79). A blob orphaned since its authorisation, or a tamper, ends it with ACCESS_DENIED (R82, R91).
Log entries 155 (DESIGN CHOICE), 164 (DEDUCED). -/
def keyLoad (t : Nat) (ch : Fin 130) (s : State) : State :=
  onCmd 0x0300 t ch (blobArgsOk 0x0300 0) (fun _ _ => true) (fun r _ s =>
    match r.staged with
    | none => answer ch r stBadArg [] s
    | some st =>
      if !stagedLive s st then answer ch r stAccessDenied [] s
      else match s.hwd.reg.find? fun e => e.2.channel == ch.val && e.2.keyId == blobId st.blob && e.2.gen == blobGen st.blob with
      | some e => answer ch r stOk (leBytes 4 (handleOf s e.1)) s
      | none =>
        match tfree s.hwd.reg 3 4093 with
        | none => answer ch r stNoResource [] s
        | some i =>
          if !loadFits s st.blob false then answer ch r stNoResource [] s
          else
            let u := nextUniq s i
            let s := modHwd (fun h => { h with uniq := tset i u h.uniq }) s
            let s := registerKey i ch.val st s
            answer ch r stOk (leBytes 4 (handleOf s i)) s) s

/-- The usages that a handle serves now (R80). Log entry 35 (DEDUCED). -/
def servedUsages (s : State) (h : Nat) : Nat :=
  let kid := ((keyEntry s h).map (·.keyId)).getD 0
  bit 0 (s.hwd.reg.any fun e => (e.2.chain.head?.map (·.1)) == some kid)
    + bit 1 (s.mm.parts.any fun p => p.2.cmdKey == h)
    + bit 2 (s.mm.parts.any fun p => p.2.sealKey == h)
    + bit 3 ((fins 8).any fun p => (port s p).link.identity == h)
    + bit 4 (s.twn.pairKey == h && s.twn.st != .none)

/-- A seal-key sweep of a handle still runs (07 R223). Log entry 35 (DEDUCED). -/
def sweeps (s : State) (h : Nat) : Bool := s.mm.parts.any fun p => p.2.sealKey == h && p.2.oldPair.isSome

/-- The argument step of KEY_REPLACE. Log entry 36 (DEDUCED). -/
def keyReplaceOk (s : State) (ch : Nat) (a : Bytes) : Bool :=
  let h := u32At a 0
  let b := blobArg 0x0301 a
  match keyEntry s h with
  | none => false
  | some e => mayModify s ch h && h != 1 && h != 2 && e.kind == blobKind b && e.keyId == blobId b
      && (servedUsages s h &&& blobUsage b) == servedUsages s h

/-- KEY_REPLACE (R80 step 1): accepted; LONG_COMMAND_COMPLETE performs the rest. -/
def keyReplace (t : Nat) (ch : Fin 130) (s : State) : State :=
  onCmd 0x0301 t ch (blobArgsOk 0x0301 0) (fun s a => keyReplaceOk s ch.val a) (fun r a s =>
    let h := u32At a 0
    let pinned := ((keyEntry s h).map (·.pinned)).getD false
    match r.staged with
    | none => answer ch r stBadArg [] s
    | some st =>
      if sweeps s h then answer ch r stBusy [] s
      else if !loadFits s st.blob pinned then answer ch r stNoResource [] s
      else acceptLong ch r (.keyReplace h st) s) s

/-- A seal key installed beside the old pair, and its sweep started (07 R223). -/
def installSwept (n : Nat) (xts : Bytes) (s : State) : State :=
  modPart n (fun p => if p.pair.isSome then
      { p with oldPair := p.pair, pair := some (sealPairOf n p.creationGen xts), sweep := 0 } else p) s

/-- Steps 2 to 5 of R80: the final status. The 64 pinned slots and the counter are tested again at the commit (R73, R84).
Log entries 35 (DEDUCED), 36 (DEDUCED), 158 (DESIGN CHOICE). -/
def replaceKey (h : Nat) (st : Staged) (s : State) : Nat × State :=
  match keyIndex s h with
  | none => (stAccessDenied, s)
  | some i =>
    match tget i s.hwd.reg with
    | none => (stAccessDenied, s)
    | some e =>
      let users := (s.mm.parts.filter fun p => p.2.sealKey == h && p.2.pair.isSome).map (·.1)
      let full := blobCounted st.blob && !users.isEmpty &&
        (match counterOf s e.keyId with
         | some c => decide (blobLimit st.blob < (vget s.hwd.counters c).value + users.length)
         | none => decide (blobLimit st.blob < users.length))
      if hwdDead s || st.chain.any (fun a => storedGen s a.1 != a.2) then (stAccessDenied, s)
      else if full || !loadFits s st.blob e.pinned then (stNoResource, s)
      else
        let s := modHwd (fun x => { x with gens := tset e.keyId (blobGen st.blob) x.gens,
                                           reg := tset i { e with blob := st.blob, chain := st.chain } x.reg }) s
        let s := if blobCounted st.blob then bindCounter e.keyId s else s
        let s := reprobe h st.material (takeSlot (.key i) st.material (blobRoot st.blob || blobPin st.blob) s)
        let s := users.foldl (fun s n => installSwept n st.material (countUse i s).2) s
        let s := (fins 8).foldl (fun s p =>
          modLink p (fun l => if l.identity = h ∧ l.txKey.isSome = true then { l with rekeyDue := true } else l) s) s
        (stOk, withdraw (orphanStale s))

/-- KEY_DESTROY (R82, R83): the response is tagged before the key is withdrawn. Log entry 36 (DEDUCED). -/
def keyDestroy (t : Nat) (ch : Fin 130) (s : State) : State :=
  onCmd 0x0302 t ch (parseArgs [4]) (fun s a => mayModify s ch.val (a.headD 0)) (fun r a s =>
    let h := a.headD 0
    match keyEntry s h with
    | none => answer ch r stBadArg [] s
    | some e =>
      if sweeps s h then answer ch r stBusy [] s
      else
        let g := storedGen s e.keyId + 1
        let s := answer ch r stOk (leBytes 4 g) s
        let s := writeGen e.keyId g s
        let s := if h = 1 then deriveLog (setOwner 0 none s) else if h = 2 then setOwner 1 none s else s
        releaseCounter e.keyId (withdraw s)) s

/-- KEY_QUERY (R87). -/
def keyQuery (t : Nat) (ch : Fin 130) (s : State) : State :=
  onCmd 0x0303 t ch (parseArgs [4]) (fun s a => mayQuery s ch.val (a.headD 0)) (fun r a s =>
    match keyEntry s (a.headD 0) with
    | some e =>
      let n := match e.counted, counterOf s e.keyId with
        | true, some c => (vget s.hwd.counters c).value
        | _, _ => e.uses
      answer ch r stOk (packArgs [(2, e.kind), (2, e.gen), (8, n)]) s
    | none => answer ch r stBadArg [] s) s

/-- MBX_KEY_SET (R52, R74): the floor of the target channel rises by 1. ACCESS_DENIED as for KEY_LOAD.
Log entry 164 (DEDUCED). -/
def mbxKeySet (t : Nat) (ch : Fin 130) (s : State) : State :=
  onCmd 0x0304 t ch (blobArgsOk 0x0304 193) (fun _ a => decide (u8At a 0 ≤ 1)) (fun r a s =>
    let c := u8At a 0
    match r.staged with
    | none => answer ch r stBadArg [] s
    | some st =>
      let need := bit 0 (slotMaterial s (.key (c + 1))).isNone + bit 0 (slotMaterial s (.command c)).isNone
      if hwdDead s || decide (blobGen st.blob < storedGen s (blobId st.blob)) then answer ch r stAccessDenied [] s
      else if 64 < pinnedSlots s + need then answer ch r stNoResource [] s
      else
        let kid := blobId st.blob
        let f := (chan s (finOf 130 c)).floor + 1
        let s := setOwner c (some st.blob) (raiseWater c f s)
        let s := if storedGen s kid < blobGen st.blob then writeGen kid (blobGen st.blob) s else s
        let s := bindOwner c st s
        let s := modChan (finOf 130 c) (fun x => { x with floor := f }) s
        withdraw (answer ch r stOk [] s)) s

/-- `KEY_LOAD`: 03 R70; also R65, R68, R69, R71, R72, R73, R76, R78, R79, R84. -/
def execKeyLoad (t : Nat) (ch : Fin 130) (s : State) : Outcome := .next (keyLoad t ch s)
/-- `KEY_REPLACE`: 03 R80; also R65, R68, R69, R70, R78, R81, R85, R223, R347. -/
def execKeyReplace (t : Nat) (ch : Fin 130) (s : State) : Outcome := .next (keyReplace t ch s)
/-- `KEY_DESTROY`: 03 R82; also R77, R78, R83, R84, R85, R224, R347. -/
def execKeyDestroy (t : Nat) (ch : Fin 130) (s : State) : Outcome := .next (keyDestroy t ch s)
/-- `KEY_QUERY`: 03 R87; also R78. -/
def execKeyQuery (t : Nat) (ch : Fin 130) (s : State) : Outcome := .next (keyQuery t ch s)
/-- `MBX_KEY_SET`: 03 R74; also R49, R52, R65, R68, R69, R70, R71, R77, R85, R470. -/
def execMbxKeySet (t : Nat) (ch : Fin 130) (s : State) : Outcome := .next (mbxKeySet t ch s)

end Sys2Proof.Machine
end

