-- ==== Sys2Proof/Machine/Links.lean ====
section
/-! DEFINITION. The commands of links, routes and bundles (02 Table 2-14; 04 R118, R119, R131; 05 R149, R160, R166, R167, R170;
06 R199). -/

namespace Sys2Proof.Machine

/-- A status code that nothing constrains, where the spec gives a command no status. Log entry 61 (DESIGN CHOICE). -/
def freeStatus (s : State) : Nat × State := let d := drawNat s; (d.1 % 65536, d.2)

/-- The port that the first argument names. -/
def portArg (a : List Nat) : Fin 8 := finOf 8 (a.headD 0)

/-- LINK_DOWN (04 R115, 05 R157): from QUALIFY onwards the partner is told. -/
def commandDown (p : Fin 8) (s : State) : State :=
  let st := (port s p).phys.st
  if st = 0 then modPhys p (fun x => { x with autoAt := none, bootWait := false }) s
  else linkGoesDown p 0 (decide (2 ≤ st ∧ st ≤ 10)) s

/-- The port may be trained under its security mode (15 R455). Log entry 62 (DEDUCED). -/
def hasIdentity (s : State) (p : Fin 8) : Bool :=
  let l := (port s p).link
  l.mode == 0 || (certFor s l.identity).isSome

/-- LINK_TRAIN (04 R118, 05 R149, 15 R455). Log entry 62 (DEDUCED). -/
def linkTrain (t : Nat) (ch : Fin 130) (s : State) : State :=
  onCmd 0x0400 t ch (parseArgs [1, 1, 1])
    (fun _ a => decide (a.headD 0 < 8) && gradesDown.contains (a.getD 1 0) && [1, 4, 16, 64].contains (a.getD 2 0))
    (fun r a s =>
      let p := portArg a
      let st := (port s p).phys.st
      if !hasIdentity s p then answer ch r stAccessDenied [] s
      else
        let s := if 8 ≤ st ∧ st ≤ 10 then commandDown p s else s
        match admitGrade s p (a.getD 1 0) with
        | none => answer ch r stNoResource [] s
        | some g =>
          let s := modPhys p (fun x => { x with last := some (a.getD 1 0, a.getD 2 0),
                                                ticket := some (ch, nextTicketOf s ch) }) s
          beginTraining p g (a.getD 2 0) (reviveLanes p (acceptLong ch r .event s))) s

/-- LINK_RETRAIN (04 R119). Log entries 45 (DEDUCED), 61 (DESIGN CHOICE). -/
def linkRetrain (t : Nat) (ch : Fin 130) (s : State) : State :=
  onCmd 0x0401 t ch (parseArgs [1, 1]) (fun _ a => decide (a.headD 0 < 8 ∧ a.getD 1 0 < 9)) (fun r a s =>
    let p := portArg a
    let l : Fin 9 := finOf 9 (a.getD 1 0)
    let x := rxLane s p l
    if (port s p).phys.st ≠ 8 then let f := freeStatus s; answer ch r f.1 [] f.2
    else if x.role = .retrain ∨ x.leaving = true ∨ (port s p).phys.retrain.isSome = true then answer ch r stBusy [] s
    else if (x.role = .data ∧ (rxSpare s p).isNone = true) ∨ x.partner = 0xF then answer ch r stNoResource [] s
    else
      let w : Retrain := { lane := l.val, ticket := some (ch, nextTicketOf s ch) }
      let s := modPhys p (fun y => { y with retrain := some w }) (acceptLong ch r .event s)
      if x.role = .data then askSpareSwap p l s else askRetrain p l (startRetrain p l s)) s

/-- LINK_DOWN. Log entry 62 (DEDUCED). -/
def linkDown (t : Nat) (ch : Fin 130) (s : State) : State :=
  onCmd 0x0402 t ch (parseArgs [1]) (fun _ a => decide (a.headD 0 < 8)) (fun r a s =>
    answer ch r stOk [] (commandDown (portArg a) s)) s

/-- LINK_STATUS (04 R131, 05 R170). -/
def linkStatus (t : Nat) (ch : Fin 130) (s : State) : State :=
  onCmd 0x0403 t ch (parseArgs [1]) (fun _ a => decide (a.headD 0 < 8)) (fun r a s =>
    let p := portArg a
    let x := port s p
    let security := if x.link.mode = 0 then 0 else if x.link.st = .up ∨ x.link.st = .low then x.link.mode else 3
    let spare := if (rxSpare s p).isSome then 0
      else if (fins 9).any fun l => (rxLane s p l).role == .retrain && (rxLane s p l).relieved then 1 else 2
    let errs := ((fins 9).map fun l => (rxLane s p l).errs).foldl (· + ·) 0
    answer ch r stOk (packArgs [(1, physState s p), (1, x.phys.grade), (1, security), (1, spare), (4, sat32 errs),
      (8, x.link.replayed)]) s) s

/-- The argument step of LINK_SECURITY_SET (03 R64, 05 R160); an OPEN port needs no identity key.
Log entry 62 (DEDUCED). -/
def securitySetOk (s : State) (a : List Nat) : Bool :=
  let mode := a.getD 1 0
  let peer := a.getD 2 0
  let key := a.getD 3 0
  decide (a.headD 0 < 8 ∧ mode ≤ 2 ∧ (peer ≤ 1023 ∨ peer = 0xFFFF)) && (!s.cfg.requireSealed || mode == 2)
    && ((mode == 0 && key == 0) || keyServes s key useLink)

/-- A port that boot training left waiting for its identity key begins (15 R458). -/
def bootTrain (p : Fin 8) (s : State) : State :=
  let c := vget s.cfg.ports p
  match admitGrade s p c.targetGrade with
  | some g => beginTraining p g c.acquireSf (modPhys p (fun x => { x with last := some (c.targetGrade, c.acquireSf) }) s)
  | none => modPhys p (fun x => { x with bootWait := false }) s

/-- LINK_SECURITY_SET. -/
def linkSecuritySet (t : Nat) (ch : Fin 130) (s : State) : State :=
  onCmd 0x0404 t ch (parseArgs [1, 1, 2, 4]) securitySetOk (fun r a s =>
    let p := portArg a
    let st := (port s p).phys.st
    if st ≠ 0 ∧ st ≠ 1 ∧ st ≠ 11 then answer ch r stBusy [] s
    else
      let s := modLink p (fun l => { l with mode := a.getD 1 0, peerExpect := a.getD 2 0, identity := a.getD 3 0 }) s
      let s := answer ch r stOk [] s
      if (port s p).phys.bootWait && hasIdentity s p then bootTrain p s else s) s

/-- LINK_REKEY (05 R166): it ends when the new epoch is in use in both directions. Log entry 61 (DESIGN CHOICE). -/
def linkRekey (t : Nat) (ch : Fin 130) (s : State) : State :=
  onCmd 0x0405 t ch (parseArgs [1]) (fun _ a => decide (a.headD 0 < 8)) (fun r a s =>
    let p := portArg a
    let l := (port s p).link
    if l.mode = 0 ∨ l.txKey.isNone = true ∨ l.st = .down ∨ l.st = .securing then
      let f := freeStatus s; answer ch r f.1 [] f.2
    else
      let e := match l.shake with | some h => h.epoch | none => l.txEpoch + 1
      let s := modLink p (fun l => { l with rekeyWait := some (e, ch, nextTicketOf s ch) }) s
      acceptLong ch r .event s) s

/-- A route entry keeps R199. -/
def routeEntryOk (e : Nat) : Bool :=
  let pri := e / 2 ^ 20 % 16
  let alt := e / 2 ^ 24 % 16
  e / 2 ^ 28 == 0 && decide (e % 1024 ≤ e / 1024 % 1024) && (pri < 12 || pri == 15) && (alt < 12 || alt == 15)

/-- The entries of ROUTE_SET. -/
def routeArgs (b : Bytes) : Option (Nat × List Nat) :=
  let n := u16At b 4
  let e := 6 + 4 * n
  if 6 ≤ b.length ∧ n ≤ 1000 ∧ e ≤ b.length ∧ zeroAt b e (b.length - e) = true then
    some (u32At b 0, (List.range n).map fun i => u32At b (6 + 4 * i))
  else none

/-- ROUTE_SET (06 R199). -/
def routeSet (t : Nat) (ch : Fin 130) (s : State) : State :=
  onCmd 0x0406 t ch routeArgs (fun s a => decide (s.txn.routeGen < a.1) && a.2.all routeEntryOk) (fun r a s =>
    answer ch r stOk [] (pump (modTxn (fun x => { x with routes := a.2.map (BitVec.ofNat 32), routeGen := a.1 }) s))) s

/-- The argument step of BUNDLE_SET (05 R167). -/
def bundleSetOk (s : State) (a : List Nat) : Bool :=
  let b := a.headD 0
  let ps := (fins 8).filter fun p => (a.getD 1 0).testBit p.val
  let linked := ps.filter fun p => (port s p).phys.st == 8
  let peers := (linked.map fun p => ((port s p).link.peer).getD 0xFFFF).eraseDups
  decide (b < 4 ∧ ps.length ≠ 1 ∧ peers.length ≤ 1)
    && ps.all fun p => !((fins 4).any fun c => c.val != b && (vget s.txn.bundles c).testBit p.val)
        && !(p == 7 && s.twn.st != .none)

/-- BUNDLE_SET. -/
def bundleSet (t : Nat) (ch : Fin 130) (s : State) : State :=
  onCmd 0x0407 t ch (parseArgs [1, 1]) bundleSetOk (fun r a s =>
    let b : Fin 4 := finOf 4 (a.headD 0)
    let mask := a.getD 1 0
    let peer := ((fins 8).filter fun p => mask.testBit p.val && (port s p).phys.st == 8).findSome? fun p => (port s p).link.peer
    answer ch r stOk [] (pump (modTxn (fun x => { x with bundles := vset x.bundles b mask,
                                                         bundlePeer := vset x.bundlePeer b peer }) s))) s

/-- `LINK_TRAIN`: 04 R118; also R115, R149, R455, R465. -/
def execLinkTrain (t : Nat) (ch : Fin 130) (s : State) : Outcome := .next (linkTrain t ch s)
/-- `LINK_RETRAIN`: 04 R119. -/
def execLinkRetrain (t : Nat) (ch : Fin 130) (s : State) : Outcome := .next (linkRetrain t ch s)
/-- `LINK_DOWN`: 05 R158; also R115. -/
def execLinkDown (t : Nat) (ch : Fin 130) (s : State) : Outcome := .next (linkDown t ch s)
/-- `LINK_STATUS`: 04 R131; also R170. -/
def execLinkStatus (t : Nat) (ch : Fin 130) (s : State) : Outcome := .next (linkStatus t ch s)
/-- `LINK_SECURITY_SET`: 05 R160; also R64. -/
def execLinkSecuritySet (t : Nat) (ch : Fin 130) (s : State) : Outcome := .next (linkSecuritySet t ch s)
/-- `LINK_REKEY`: 05 R166; also R141. -/
def execLinkRekey (t : Nat) (ch : Fin 130) (s : State) : Outcome := .next (linkRekey t ch s)
/-- `ROUTE_SET`: 06 R199; also R187, R327. -/
def execRouteSet (t : Nat) (ch : Fin 130) (s : State) : Outcome := .next (routeSet t ch s)
/-- `BUNDLE_SET`: 05 R167. -/
def execBundleSet (t : Nat) (ch : Fin 130) (s : State) : Outcome := .next (bundleSet t ch s)

end Sys2Proof.Machine
end

