-- ==== Sys2Proof/Machine/Granules.lean ====
section
/-! DEFINITION. Granules (chapter 07): what is held, free and available, allocation and release, and what the memory controller
does in the background: zeroisation, patrol scrub, row retirement, and the sweep of a seal key. -/

namespace Sys2Proof.Machine

/-! ### Accounting (R206, R210, R213) -/

/-- The state with the memory controller changed. -/
def modMm (f : MemState → MemState) (s : State) : State := { s with mm := f s.mm }

/-- A partition's data granules and tag granules. -/
def Partition.granules (p : Partition) : List Nat := p.pages.map (·.2) ++ p.tagPages.map (·.2)

/-- The granules a partition holds. -/
def Partition.used (p : Partition) : Nat := p.pages.length + p.tagPages.length

/-- The granules that partitions hold, the lending partition included. -/
def heldGranules (s : State) : List Nat := (s.mm.parts.map fun e => e.2.granules).flatten

/-- The granules outside the reserved regions that are not retired. -/
def usableGranules (s : State) : Nat :=
  totalGranules - reservedGranules s - (s.mm.retired.filter fun g => decide (reservedGranules s ≤ g)).length

/-- The granules actually available: A of R213. -/
def availGranules (s : State) : Nat := usableGranules s - ((s.mm.parts.map fun e => e.2.used).foldl (· + ·) 0)

/-- The granules of the lending partition. -/
def lentGranules (s : State) : Nat :=
  match s.mm.lending.bind fun n => part s n with
  | some p => p.used
  | none => 0

/-- free_granules: A less the unused quota or the granules awaiting zeroisation, whichever is more (R213). -/
def freeGranules (s : State) : Nat :=
  let unused := ((s.mm.parts.filter fun e => e.2.mode != 3).map fun e => e.2.quota - e.2.used).foldl (· + ·) 0
  availGranules s - max unused s.mm.zeroing.length

/-- The sum of the quotas. -/
def quotaSum (s : State) : Nat := (s.mm.parts.map fun e => e.2.quota).foldl (· + ·) 0

/-! ### Allocation and release (R208, R210, R211, R221) -/

/-- The `k` lowest granules from `g` on that are not in the ascending list `used`. Log entry 65 (DESIGN CHOICE). -/
def pickFree : Nat → List Nat → Nat → Nat → List Nat
  | 0, _, _, _ => []
  | fuel + 1, used, g, k =>
    if k = 0 ∨ totalGranules ≤ g then []
    else
      match used with
      | [] => g :: pickFree fuel [] (g + 1) (k - 1)
      | u :: us =>
        if u < g then pickFree fuel us g k
        else if u = g then pickFree fuel us (g + 1) k
        else g :: pickFree fuel (u :: us) (g + 1) (k - 1)

/-- `k` device granules to allocate: zeroised ones first, then those that await it. Which granules serve is internal.
Log entries 65 (DESIGN CHOICE), 66 (DESIGN CHOICE). -/
def takeGranules (s : State) (k : Nat) : List Nat :=
  let used := (heldGranules s ++ s.mm.retired ++ s.mm.zeroing).mergeSort
  let clean := pickFree (3 * totalGranules) used (reservedGranules s) k
  clean ++ (s.mm.zeroing.filter fun g => decide (reservedGranules s ≤ g)).take (k - clean.length)

/-- A device granule made zero: no poison, no errors, none of its tag lines cached. -/
def zeroGranule (g : Nat) (s : State) : State :=
  modMm (fun m => { m with bytes := Mem.clear m.bytes (g * granuleBytes) granuleBytes
                           fault := m.fault.filter fun l => l / 32768 ≠ g
                           eccBad := m.eccBad.filter fun l => l / 32768 ≠ g
                           eccSoft := m.eccSoft.filter fun l => l / 32768 ≠ g
                           tagBad := m.tagBad.filter fun x => x / 262144 ≠ g
                           tagCache := m.tagCache.filter fun e => e.1 / 32768 ≠ g
                           fresh := tdel g m.fresh
                           zeroing := m.zeroing.filter (· ≠ g) }) s

/-- A data granule mapped at an offset granule; a SEALED one carries UNWRITTEN in every line.
Log entry 65 (DESIGN CHOICE). -/
def mapPage (n o g : Nat) (s : State) : State :=
  let s := zeroGranule g s
  let s := if ((part s n).map (·.mode)) = some 2 then modMm (fun m => { m with fresh := tset g [] m.fresh }) s else s
  modPart n (fun p => { p with pages := tset o g p.pages }) s

/-- A tag granule mapped. -/
def mapTag (n j g : Nat) (s : State) : State :=
  modPart n (fun p => { p with tagPages := tset j g p.tagPages }) (zeroGranule g s)

/-- The tag granules that a run of data granules still needs. Log entry 66 (DESIGN CHOICE). -/
def newTags (p : Partition) (o k : Nat) : List Nat :=
  if p.mode = 2 ∧ k ≠ 0 then
    ((List.range ((o + k - 1) / 8 - o / 8 + 1)).map fun i => o / 8 + i).filter fun j => !thas j p.tagPages
  else []

/-- A run of granules of a partition's offset space backed by device granules. -/
def mapRun (n o k : Nat) (s : State) : State :=
  match part s n with
  | none => s
  | some p =>
    let tags := newTags p o k
    let gs := takeGranules s (k + tags.length)
    let s := ((List.range k).zip gs).foldl (fun s x => mapPage n (o + x.1) x.2 s) s
    (tags.zip (gs.drop k)).foldl (fun s x => mapTag n x.1 x.2 s) s

/-- The lowest offset granule at which `k` granules are unallocated, the allocated ones ascending. -/
def lowestRun (k : Nat) : List Nat → Nat → Nat
  | [], o => o
  | a :: as, o => if o + k ≤ a then o else lowestRun k as (a + 1)

/-- Device granules returned to zeroisation. -/
def releaseGranules (gs : List Nat) (s : State) : State :=
  modMm (fun m => { m with zeroing := m.zeroing ++ gs, fresh := m.fresh.filter fun e => !gs.contains e.1 }) s

/-- A run of data granules released, and the tag granules that lose their last one (R211, R221). -/
def unmapRun (n o k : Nat) (s : State) : State :=
  match part s n with
  | none => s
  | some p =>
    let pages := p.pages.filter fun e => !decide (o ≤ e.1 ∧ e.1 < o + k)
    let gone := (p.pages.filter fun e => decide (o ≤ e.1 ∧ e.1 < o + k)).map (·.2)
    let dead := p.tagPages.filter fun t => !pages.any fun e => e.1 / 8 == t.1
    let q : Partition := { p with pages := pages, tagPages := p.tagPages.filter fun t => pages.any fun e => e.1 / 8 == t.1 }
    releaseGranules (gone ++ dead.map (·.2)) (modPart n (fun _ => q) s)

/-- A MEM_ALLOC of `k` granules: the offset granule, or none where the quota or the memory does not suffice. -/
def allocRun (n k : Nat) (s : State) : Option (Nat × State) :=
  match part s n with
  | none => none
  | some p =>
    let o := lowestRun k (p.pages.map (·.1)) 0
    let need := k + (newTags p o k).length
    if p.used + need ≤ p.quota ∧ need ≤ availGranules s ∧ o + k ≤ 2 ^ 25 then some (o, mapRun n o k s) else none

/-! ### In the background -/

/-- HBM takes accesses: the device has booted, and HBM is not in self-refresh. -/
def hbmOpen (s : State) : Bool :=
  s.boot.stage == 6 && (match s.pwr.st with
    | .run | .quiet | .entering => true
    | .leaving => s.pwr.phase == 1
    | _ => false)

/-- HBM's controller does its background work: not while a cut or a reset stops it. -/
def memoryRuns (s : State) : Bool := hbmOpen s && !cutStopped s && !s.cmb.inReset

/-- GRANULE_ZEROISED. Log entry 66 (DESIGN CHOICE). -/
def granuleZeroised (t g : Nat) (s : State) : State :=
  let s := s.at t
  if memoryRuns s && s.mm.zeroing.contains g then zeroGranule g s else s

/-- Who holds a device granule: the partition, whether as data, and the granule's number there. -/
def granuleOwner (s : State) (g : Nat) : Option (Nat × Bool × Nat) :=
  s.mm.parts.findSome? fun e =>
    match e.2.pages.find? fun x => x.2 == g with
    | some x => some (e.1, true, x.1)
    | none => (e.2.tagPages.find? fun x => x.2 == g).map fun x => (e.1, false, x.1)

/-- A line found uncorrectable by the scrub (R215, R230): a data line becomes poisoned, a tag line loses its tags, any other line is
poisoned. -/
def lineUncorrectable (dl : Nat) (s : State) : State :=
  match granuleOwner s (dl / 32768) with
  | some (n, true, k) =>
    let o := k * granuleBytes + dl % 32768 * 64
    faultLine (localWho s n) n o 2 (noteBadLine dl n (partitionLine o) s)
  | some (n, false, _) => loseTags dl n s
  | none => noteBadLine dl 0xFF (leBytes 5 0xFFFFFFFFFF) (modMm (fun m => { m with fault := dl :: m.fault }) s)

/-- A device line of the spill rings, which the scrub does not read. Log entry 121 (DEDUCED). -/
def spillLine (s : State) (dl : Nat) : Bool :=
  decide (spillBase s ≤ dl * 64 ∧ dl * 64 < spillBase s + s.mm.spillGranules * granuleBytes)

/-- A device line that the scrub reads: in a granule, outside the spill rings, not poisoned (R216). -/
def scrubbed (s : State) (dl : Nat) : Bool :=
  decide (dl < totalGranules * 32768) && !spillLine s dl && (linePoison s.mm dl).isNone

/-- One error of a scrub pass: found by it, or arisen behind it. A one-symbol error of a scratchpad line is corrected and counted
nowhere. Log entry 148 (DESIGN CHOICE). -/
def scrubError (e : ScrubError) (s : State) : State :=
  if e.scratch then
    if e.corrected ∨ 64 * 65536 ≤ e.line ∨ s.crn.scratchFault.contains e.line = true then s
    else { s with crn := { s.crn with scratchBad := e.line :: s.crn.scratchBad.filter (· ≠ e.line) } }
  else if !scrubbed s e.line then s
  else if e.found then (if e.corrected then correctLine e.line s else lineUncorrectable e.line s)
  else if e.corrected then modMm (fun m => { m with eccSoft := e.line :: m.eccSoft.filter (· ≠ e.line) }) s
  else modMm (fun m => { m with eccBad := e.line :: m.eccBad.filter (· ≠ e.line) }) s

/-- SCRUB_PASS (R216): the pass ends; it finds the errors that no access has found, and those it is given.
Log entry 148 (DESIGN CHOICE). -/
def scrubPass (t : Nat) (es : List ScrubError) (s : State) : State :=
  let s := s.at t
  if !memoryRuns s then s
  else
    let bad := s.mm.eccBad.filter (scrubbed s)
    let soft := s.mm.eccSoft.filter fun dl => scrubbed s dl && !bad.contains dl
    let s := soft.foldl (fun s dl => correctLine dl s) (bad.foldl (fun s dl => lineUncorrectable dl s) s)
    modMm (fun m => { m with scrubPasses := sat32 (m.scrubPasses + 1) }) (es.foldl (fun s e => scrubError e s) s)

/-- The lines of a granule moved to another: contents, poison and errors. -/
def moveGranule (g h : Nat) (s : State) : State :=
  let d := Mem.read 0 s.mm.bytes (g * granuleBytes) granuleBytes
  let go (l : Nat) : Nat := if l / 32768 = g then h * 32768 + l % 32768 else l
  let s := zeroGranule h s
  modMm (fun m => { m with
    bytes := Mem.write 0 (Mem.clear m.bytes (g * granuleBytes) granuleBytes) (h * granuleBytes) d
    fault := m.fault.map go
    eccBad := m.eccBad.map go
    eccSoft := m.eccSoft.map go
    tagBad := m.tagBad.map fun x => 8 * go (x / 8) + x % 8
    tagCache := m.tagCache.foldl (fun t e => tset (go e.1) e.2 t) []
    fresh := match tget g m.fresh with
      | some w => tset h (w.map go) (tdel g m.fresh)
      | none => m.fresh
    retired := g :: m.retired }) s

/-- The mapping of a moved granule. -/
def remap (g h : Nat) (s : State) : State :=
  let go (e : Nat × Nat) : Nat × Nat := (e.1, if e.2 = g then h else e.2)
  modMm (fun m => { m with parts := m.parts.map fun e =>
    (e.1, { e.2 with pages := e.2.pages.map go, tagPages := e.2.tagPages.map go }) }) s

/-- Step 4 of R218 for a granule: its contents move to a free granule and it is retired. A granule of a reserved region keeps
its device addresses, and the free granule counts as the retired one; a granule that holds nothing is retired as it is.
Log entry 73 (DEDUCED). -/
def retireGranule (g h : Nat) (s : State) : State :=
  if g < reservedGranules s then modMm (fun m => { m with retired := h :: m.retired, zeroing := m.zeroing.filter (· ≠ h) }) s
  else if (granuleOwner s g).isSome then remap g h (moveGranule g h s)
  else modMm (fun m => { m with retired := g :: m.retired }) (zeroGranule g s)

/-- The first device line of a row. -/
def rowStart (row : Nat) : Nat :=
  let base := row / 2048 * 32768
  (((List.range 32768).map fun i => base + i).find? fun l => rowOfLine l == row).getD base

/-- ROW_RETIRE (R217, R218): a row at its threshold is repaired, moved, or stays degraded. Log entry 73 (DEDUCED). -/
def rowRetire (t row : Nat) (repairLeft : Bool) (s : State) : State :=
  let s := s.at t
  let s1 := countRow row 0 s
  if !memoryRuns s || decide ((tgetD row [] s1.mm.rowErrors).length < s.cfg.rowErrors) then s
  else
    let s := modMm (fun m => { m with rowErrors := tdel row m.rowErrors }) s1
    let g := row / 2048
    let retire := modMm (fun m => { m with retiredRows := sat32 (m.retiredRows + 1) })
    if repairLeft then retire s
    else
      match if freeGranules s = 0 then none else (takeGranules s 2).find? fun h => h != g with
      | some h => retire (retireGranule g h s)
      | none =>
        logErr 0x0021 30 (leBytes 4 (rowStart row)) (modMm (fun m => { m with degradedRows := sat32 (m.degradedRows + 1) }) s)

/-- The lines of a SEALED partition that may hold data, ascending in its offset space. -/
def writtenLines (s : State) (p : Partition) : List Nat :=
  (p.pages.map fun e =>
    ((tgetD e.2 [] s.mm.fresh).mergeSort.map fun dl => e.1 * granuleBytes + dl % 32768 * 64)).flatten

/-- The sweep of one line (R223): verified and read under the old pair, then, with the pointer past it, written under the new one; a
line whose tag fails or that is uncorrectable becomes poisoned, a poisoned one is passed over.
Log entry 74 (DEDUCED). -/
def sweepLine (n : Nat) (s : State) (o : Nat) : State :=
  let past := modPart n fun p => { p with sweep := o + 64 }
  match lineState s n o with
  | some (.good d) => storeLine n o d (past (touchLine n o (.good d) s))
  | some .poisoned => past s
  | some st => past (failLine (localWho s n) n o st (touchLine n o st s)).2
  | none => past s

/-- SWEEP_DONE: the sweep of a partition has come to an offset; where no allocated granule is left above it, it ends and the old pair is
zeroised. Log entry 74 (DEDUCED). -/
def sweepDone (t : Nat) (n : Fin 128) (upTo : Nat) (s : State) : State :=
  let s := s.at t
  match part s n with
  | none => s
  | some p =>
    if p.oldPair.isNone || !memoryRuns s then s
    else
      let lim := max p.sweep (upTo / 64 * 64)
      let s := ((writtenLines s p).filter fun o => decide (p.sweep ≤ o ∧ o < lim)).foldl (sweepLine n) s
      if p.pages.any fun e => decide (lim < (e.1 + 1) * granuleBytes) then modPart n (fun p => { p with sweep := lim }) s
      else modPart n (fun p => { p with oldPair := none, sweep := 0 }) s

/-- `GRANULE_ZEROISED`: 07 R208. -/
def execGranuleZeroised (t : Nat) (granule : Nat) (s : State) : Outcome := .next (granuleZeroised t granule s)
/-- `SCRUB_PASS`: 07 R216; also R214, R215, R474. -/
def execScrubPass (t : Nat) (errors : List ScrubError) (s : State) : Outcome := .next (scrubPass t errors s)
/-- `ROW_RETIRE`: 07 R218; also R217, R388. -/
def execRowRetire (t : Nat) (row : Nat) (repairLeft : Bool) (s : State) : Outcome := .next (rowRetire t row repairLeft s)
/-- `SWEEP_DONE`: 07 R223. -/
def execSweepDone (t : Nat) (point : SweepPoint) (s : State) : Outcome := .next (sweepDone t point.part point.upTo s)

end Sys2Proof.Machine
end

