-- ==== Sys2Proof/Machine/Windows.lean ====
section
/-! DEFINITION. Exports and imports (06 R172 to R175), lent memory (07 R231, R232) and the residency planner (07 R233 to R237). -/

namespace Sys2Proof.Machine

/-- A partition that commands may act on: it exists and is not the lending partition. Log entry 68 (DEDUCED). -/
def ownPart (s : State) (n : Nat) : Bool := ((part s n).map fun p => p.mode != 3).getD false

/-- A partition's generation. -/
def genOf (s : State) (n : Nat) : BitVec 8 := vget s.mm.gens (finOf 128 n)

/-! ### Exports -/

/-- The argument step of WINDOW_EXPORT (R172). Log entry 69 (DEDUCED). -/
def exportOk (s : State) (a : List Nat) : Bool :=
  let off := a.getD 1 0
  let len := a.getD 2 0
  let rights := a.getD 3 0
  let chip := a.getD 4 0
  let n := a.getD 5 0
  ownPart s (a.headD 0) && off % 4096 == 0 && len % 4096 == 0 && decide (4096 ≤ len) && decide (off + len ≤ 2 ^ 47)
    && allocated s (a.headD 0) off len && decide (1 ≤ rights ∧ rights ≤ 15) && !(rights.testBit 3 && !rights.testBit 0)
    && (decide (chip ≤ 1023) || chip == 0xFFFF) && (decide (n ≤ 127) || n == 0xFF)

/-- An export ID that no export has: IDs are non-zero u32 (R172). Log entry 15 (DESIGN CHOICE). -/
def freshExport : Nat → Nat → State → Nat
  | 0, id, _ => id
  | fuel + 1, id, s =>
    let id := if id % 2 ^ 32 = 0 then 1 else id % 2 ^ 32
    if thas id s.txn.exports then freshExport fuel (id + 1) s else id

/-- An export created: its ID; none beyond the limit. -/
def addExport (e : Export) (s : State) : Option (Nat × State) :=
  if 4096 ≤ s.txn.exports.length then none
  else
    let id := freshExport 4096 s.txn.nextExport s
    some (id, modTxn (fun x => { x with exports := tset id e x.exports, nextExport := id + 1 }) s)

/-- WINDOW_EXPORT. Log entry 69 (DEDUCED). -/
def windowExport (t : Nat) (ch : Fin 130) (s : State) : State :=
  onCmd 0x0105 t ch (parseArgs [1, 8, 8, 4, 2, 1]) exportOk (fun r a s =>
    let n := a.headD 0
    let e : Export := { part := n, gen := genOf s n, offset := a.getD 1 0, length := a.getD 2 0, rights := a.getD 3 0,
                        impChip := a.getD 4 0, impPart := a.getD 5 0 }
    match addExport e s with
    | some (id, s) => answer ch r stOk (leBytes 4 id) s
    | none => answer ch r stNoResource [] s) s

/-- The lent granules of a revoked export freed; the lending partition ends when it holds none (07 R232). -/
def freeLent (e : Export) (s : State) : State :=
  let s := unmapRun e.part (e.offset / granuleBytes) (e.length / granuleBytes) s
  match part s e.part with
  | some p =>
    if p.pages.isEmpty then modMm (fun m => { m with parts := tdel e.part m.parts, lending := none }) s else s
  | none => s

/-- WINDOW_REVOKE (06 R173, 07 R232). -/
def windowRevoke (t : Nat) (ch : Fin 130) (s : State) : State :=
  onCmd 0x0107 t ch (parseArgs [1, 4])
    (fun s a => match tget (a.getD 1 0) s.txn.exports with
      | some e => e.part == a.headD 0
      | none => false)
    (fun r a s =>
      match tget (a.getD 1 0) s.txn.exports with
      | some e =>
        let s := modTxn (fun x => { x with exports := tdel (a.getD 1 0) x.exports }) s
        let s := if s.mm.lending = some e.part then freeLent e s else s
        answer ch r stOk [] s
      | none => s) s

/-- What an export answers to a chip and partition that ask to import it; none where it does not exist or names another
importer (R174). Log entry 66 (DESIGN CHOICE). -/
def exportFor (s : State) (id chip n : Nat) : Option ExportInfo :=
  (tget id s.txn.exports).bind fun e =>
    if (e.impChip = chip ∨ e.impChip = 0xFFFF) ∧ (e.impPart = n ∨ e.impPart = 0xFF) then
      some { partition := e.part, offset := e.offset, length := e.length, rights := e.rights, generation := genOf s e.part }
    else none

/-- EXPORT_QUERY: this chip's Root answers another's query. Log entry 70 (DESIGN CHOICE). -/
def exportQuery (t chip n id : Nat) (s : State) : State :=
  let s := s.at t
  if s.root.alive then emit (.exportAnswer chip n id (exportFor s id chip n)) s else s

/-! ### Imports -/

/-- An import slot taken; none beyond a limit (R174). -/
def addImport (n chip : Nat) (e : ExportInfo) (plan : Bool) (s : State) : Option (Nat × State) :=
  if 256 ≤ (s.txn.imports.filter fun i => i.2.part == n).length then none
  else
    let i : Import := { part := n, chip := chip, remote := e.partition, offset := e.offset, length := e.length,
                        rights := e.rights, gen := e.generation, stale := false, plan := plan, inst := s.txn.nextInst }
    (tfree s.txn.imports 0 4096).map fun k => (k, modTxn (fun x => { x with imports := tset k i x.imports, nextInst := x.nextInst + 1 }) s)

/-- WINDOW_IMPORT ends with the exporter's answer. Log entry 70 (DESIGN CHOICE). -/
def importDone (ch : Fin 130) (r : Request) (n chip remote : Nat) (e : Option ExportInfo) (s : State) : State :=
  match e with
  | none => answer ch r stAccessDenied [] s
  | some x =>
    if x.partition ≠ remote then answer ch r stAccessDenied [] s
    else
      match addImport n chip x false s with
      | some (k, s) => answer ch r stOk (packArgs [(4, k), (8, groveAddr chip remote x.offset)]) s
      | none => answer ch r stNoResource [] s

/-- Where an export is asked for: the status that says it cannot be, or 0. Log entry 69 (DEDUCED). -/
def importPath (s : State) (chip : Nat) : Nat :=
  if s.txn.chip.isNone then stNoRoute
  else if s.txn.chip = some chip then stOk
  else if (pathCode s chip).isNone then stNoRoute else stOk

/-- WINDOW_IMPORT: an export of this chip is recorded at once; another chip's Root is asked over VC4.
Log entries 69 (DEDUCED), 70 (DESIGN CHOICE). -/
def windowImport (t : Nat) (ch : Fin 130) (s : State) : State :=
  onCmd 0x0106 t ch (parseArgs [1, 2, 1, 4])
    (fun s a => ownPart s (a.headD 0) && decide (a.getD 1 0 ≤ 1023 ∧ a.getD 2 0 ≤ 127))
    (fun r a s =>
      let n := a.headD 0
      let chip := a.getD 1 0
      let remote := a.getD 2 0
      let id := a.getD 3 0
      if s.txn.pendingImports.any fun p => p.ch == ch && p.ticket == 0 then s
      else if importPath s chip ≠ stOk then answer ch r (importPath s chip) [] s
      else if s.txn.chip = some chip then importDone ch r n chip remote (exportFor s id chip n) s
      else
        let p : PendingImport := { ch := ch, ticket := 0, part := n, chip := chip, remote := remote, id := id }
        emit (.exportQuery chip n id) (modTxn (fun x => { x with pendingImports := x.pendingImports ++ [p] }) s)) s

/-- WINDOW_UNIMPORT (R175). -/
def windowUnimport (t : Nat) (ch : Fin 130) (s : State) : State :=
  onCmd 0x010B t ch (parseArgs [1, 4])
    (fun s a => match tget (a.getD 1 0) s.txn.imports with
      | some i => i.part == a.headD 0
      | none => false)
    (fun r a s =>
      let k := a.getD 1 0
      if ((tget k s.txn.imports).map (·.plan)).getD false then answer ch r stBusy [] s
      else
        answer ch r stOk [] (modTxn (fun x => { x with imports := tdel k x.imports,
                                                       readAhead := x.readAhead.filter fun e => e.slot != k }) s)) s

/-! ### Lent memory (07 R231) -/

/-- The highest partition number not in use. -/
def highestFree (s : State) : Option Nat := ((List.range 128).reverse).find? fun n => !thas n s.mm.parts

/-- A lending partition created. Log entry 68 (DEDUCED). -/
def makeLending (n : Nat) (s : State) : State :=
  let p : Partition := { mode := 3, queuesPerClass := 0, quota := 0, boughMask := 0, cmdKey := 0, sealKey := 0,
                         creationGen := 0, pages := [], tagPages := [], pair := none, oldPair := none, sweep := 0,
                         poisonHits := 0, overhang := 0, plan := none }
  modMm (fun m => { m with parts := tset n p m.parts, lending := some n }) (genChange n s)

/-- LEND_OFFER. Log entry 69 (DEDUCED). -/
def lendOffer (t : Nat) (ch : Fin 130) (s : State) : State :=
  onCmd 0x0108 t ch (parseArgs [2, 1, 4])
    (fun _ a => (decide (a.headD 0 ≤ 1023) || a.headD 0 == 0xFFFF) && (decide (a.getD 1 0 ≤ 127) || a.getD 1 0 == 0xFF)
      && a.getD 2 0 != 0)
    (fun r a s =>
      let k := a.getD 2 0
      match (match s.mm.lending with | some n => some n | none => highestFree s) with
      | none => answer ch r stNoResource [] s
      | some n =>
        if freeGranules s < k then answer ch r stNoCapacity [] s
        else if 4096 ≤ s.txn.exports.length then answer ch r stNoResource [] s
        else
          let s := if s.mm.lending.isNone then makeLending n s else s
          let o := match ((part s n).map fun p => p.pages.map (·.1)).getD [] with
            | [] => 0
            | x :: xs => xs.foldl max x + 1
          let s := mapRun n o k s
          let e : Export := { part := n, gen := genOf s n, offset := o * granuleBytes, length := k * granuleBytes,
                              rights := 11, impChip := a.headD 0, impPart := a.getD 1 0 }
          match addExport e s with
          | some (id, s) => answer ch r stOk (leBytes 4 id) s
          | none => answer ch r stNoResource [] s) s

/-! ### The residency planner (R233 to R237) -/

/-- A tensor of the table (Table 7-4). -/
structure Tensor where
  size : Nat
  group : Nat
  localOnly : Bool
  reads : Nat
  deriving DecidableEq, Repr

/-- A table entry, if its fields are in range and its reserved bits 0. -/
def Tensor.of (b : Bytes) : Option Tensor :=
  if u64At b 0 = 0 ∨ 1 < u16At b 10 ∨ 255 < u32At b 12 ∨ zeroAt b 40 8 = false then none
  else some { size := u64At b 0, group := u16At b 8, localOnly := u16At b 10 == 1, reads := u32At b 12 }

/-- x rounded up to a multiple of 4,096. -/
def pageUp (x : Nat) : Nat := alignUp x 4096

/-- A tensor that may be lent. -/
def Tensor.eligible (x : Tensor) : Bool := !x.localOnly && decide (0 < x.reads)

/-- M of R234. Log entry 71 (DEDUCED). -/
def planM (ts : List Tensor) : Nat := sumOf (ts.map fun x => pageUp x.size)

/-- A: the bytes of data that the free quota can hold. -/
def planRoom (p : Partition) : Nat :=
  let f := p.quota - p.used
  (if p.mode = 2 then 8 * f / 9 else f) * granuleBytes

/-- E: the bytes that may be lent. Log entry 71 (DEDUCED). -/
def planE (ts : List Tensor) : Nat := sumOf ((ts.filter Tensor.eligible).map fun x => pageUp x.size)

/-- T[i] of R234, for an overflow O that is not above E. Log entry 71 (DEDUCED). -/
def planTails (o e : Nat) (ts : List Tensor) : List Nat :=
  ts.map fun x =>
    if o = 0 ∨ x.eligible = false then 0
    else min (pageUp x.size) (pageUp ((o * pageUp x.size + e - 1) / e))

/-- The payload of a grade in units of 10 MB/s (04 Table 4-3). -/
def gradePayload (g : Nat) : Nat :=
  if g = 50 then 4335 else if g = 100 then 8819 else if g = 150 then 13304 else if g = 200 then 17788
  else if g = 250 then 21899 else 0

/-- B_H in bytes per second, and 15 B_N (R235): a secured port carries 224 of 240 bytes. Log entry 71 (DEDUCED). -/
def planRates (p : Partition) (chip : Nat) (s : State) : Nat × Nat :=
  let boughs := ((List.range 64).filter fun b => p.boughMask.testBit b).length
  let bh := (if p.mode = 2 then 100000000000 else 112500000000) * boughs
  let ports := match pathCode s chip with
    | some c => pathPorts s c
    | none => []
  let bn := sumOf (ports.map fun q =>
    gradePayload (port s q).phys.grade * 10000000 * (if (port s q).link.mode = 0 then 15 else 14))
  (bh, bn)

/-- slowdown_ppm; none where R235 divides by 0. Log entry 71 (DEDUCED). -/
def slowdown (bh bn15 : Nat) (ts : List (Tensor × Nat)) : Option Nat :=
  let groups := (ts.map fun x => x.1.group).eraseDups
  let per := groups.map fun g =>
    let mine := ts.filter fun x => x.1.group == g
    let h := sumOf (mine.map fun x => pageUp x.1.size * x.1.reads)
    let n := sumOf (mine.map fun x => x.2 * x.1.reads)
    (h * bn15, max (h * bn15) (15 * n * bh))
  let base := sumOf (per.map (·.1))
  let pred := sumOf (per.map (·.2))
  if base = 0 ∨ bh = 0 then none else some ((1000000 * (pred - base) + base - 1) / base)

/-- The placements of R234: the local parts from `off`, the tails from `addr`, both at 4 KiB alignment. -/
def placeTensors : List (Nat × Nat) → Nat → Nat → List Placement
  | [], _, _ => []
  | (size, tail) :: ts, off, addr =>
    { size := size, offset := off, lentAddr := if tail = 0 then 0 else addr, lent := tail } ::
      placeTensors ts (off + (pageUp size - tail)) (addr + pageUp tail)

/-- A placement written back into its table entry. -/
def writePlacement (n table i : Nat) (p : Placement) (s : State) : State :=
  let d := leBytes 8 p.offset ++ leBytes 8 p.lentAddr ++ leBytes 8 p.lent
  (takeMarks (writeRange (localWho s n) false n (table + 48 * i + 16) d s).2).2

/-- What the plan in force holds is released. -/
def releasePlan (n : Nat) (s : State) : State :=
  match (part s n).bind (·.plan) with
  | none => s
  | some p =>
    let s := unmapRun n (p.offset / granuleBytes) p.granules s
    let s := match p.slot with
      | some k => dropReadAhead (· == .plan n) (modTxn (fun x => { x with imports := tdel k x.imports }) s)
      | none => s
    modPart n (fun q => { q with plan := none }) s

/-- The plan takes force: the previous one released, the local space allocated, the window imported, the table written. The
status and the result; on failure the state as it was. -/
def commitPlan (n table lender slow : Nat) (ts : List (Nat × Nat)) (win : Option ExportInfo) (s : State) :
    Nat × Bytes × State :=
  let m := sumOf (ts.map fun x => pageUp x.1)
  let l := sumOf (ts.map (·.2))
  let s1 := releasePlan n s
  let imported : Nat × Option Nat × State := match win with
    | none => (stOk, none, s1)
    | some e =>
      match addImport n lender e true s1 with
      | some (k, s2) => if e.length < l then (stNoCapacity, none, s2) else (stOk, some k, s2)
      | none => (stNoResource, none, s1)
  if imported.1 ≠ stOk then (imported.1, [], s)
  else
    let k := (m - l + granuleBytes - 1) / granuleBytes
    match allocRun n k imported.2.2 with
    | none => (stNoCapacity, [], s)
    | some (o, s3) =>
      let base := match win with
        | some e => groveAddr lender e.partition e.offset
        | none => 0
      let ps := placeTensors ts (o * granuleBytes) base
      let plan : Plan := { offset := o * granuleBytes, granules := k, slot := imported.2.1, tensors := ps }
      let s4 := modPart n (fun p => { p with plan := some plan, overhang := slow }) s3
      let s5 := ps.zipIdx.foldl (fun s x => writePlacement n table x.2 x.1 s) s4
      (stOk, packArgs [(8, m - l), (8, l), (4, slow)], s5)

/-- A planned result becomes that of a running ticket. Log entry 71 (DEDUCED). -/
def decideTicket (ch : Fin 130) (num status : Nat) (result : Bytes) (s : State) : State :=
  modChan ch (fun c => { c with tickets := c.tickets.map fun k =>
    if k.num = num then { k with work := .planned status result } else k }) s

/-- A residency plan accepted with its outcome already decided, or refused at once. -/
def finishPlan (ch : Fin 130) (r : Request) (q : Nat × Bytes × State) : State :=
  if isSuccess q.1 then acceptLong ch r (.planned q.1 q.2.1) q.2.2 else answer ch r q.1 [] q.2.2

/-- RESIDENCY_PLAN once its table has been read (R234, R236). Log entries 7 (DESIGN CHOICE), 71 (DEDUCED). -/
def planTable (ch : Fin 130) (r : Request) (n table lender id : Nat) (ts : List Tensor) (s : State) : State :=
  let rel := releasePlan n s
  match part rel n with
  | none => s
  | some p =>
    let m := planM ts
    let room := planRoom p
    let e := planE ts
    let o := m - room
    if o = 0 then finishPlan ch r (commitPlan n table lender 0 (ts.map fun x => (x.size, 0)) none s)
    else if e < o then answer ch r stNoCapacity [] s
    else
      let tails := planTails o e ts
      let pairs := (ts.map (·.size)).zip tails
      if m / 8 < sumOf tails then answer ch r stNoCapacity [] s
      else if importPath s lender ≠ stOk ∨ (pathCode s lender).isNone = true then answer ch r stNoRoute [] s
      else
        let rates := planRates p lender s
        let d := drawNat s
        let slow := match slowdown rates.1 rates.2 (ts.zip tails) with
          | some v => v % 2 ^ 32
          | none => d.1 % 2 ^ 32
        if s.txn.chip = some lender then
          match exportFor s id lender n with
          | some x => finishPlan ch r (commitPlan n table lender slow pairs (some x) d.2)
          | none => answer ch r stAccessDenied [] s
        else
          let q : PendingImport := { ch := ch, ticket := nextTicketOf s ch, part := n, chip := lender, remote := 0, id := id }
          let s := modTxn (fun x => { x with pendingImports := x.pendingImports ++ [q] }) d.2
          acceptLong ch r (.plan n table lender slow pairs) (emit (.exportQuery lender n id) s)

/-- RESIDENCY_PLAN. A table that cannot be read gives the status of its lines. Log entry 71 (DEDUCED). -/
def residencyPlan (t : Nat) (ch : Fin 130) (s : State) : State :=
  onCmd 0x0109 t ch (parseArgs [1, 4, 8, 2, 4])
    (fun s a => ownPart s (a.headD 0) && decide (1 ≤ a.getD 1 0 ∧ a.getD 1 0 ≤ 65536)
      && decide (a.getD 2 0 + 48 * a.getD 1 0 ≤ 2 ^ 47) && allocated s (a.headD 0) (a.getD 2 0) (48 * a.getD 1 0))
    (fun r a s =>
      let n := a.headD 0
      let k := a.getD 1 0
      let table := a.getD 2 0
      let d := readRange (localWho s n) n table (48 * k) s
      if d.1 ≠ stOk then answer ch r d.1 [] d.2.2
      else
        match allSome ((List.range k).map fun i => Tensor.of (slice d.2.1 (48 * i) 48)) with
        | none => answer ch r stBadArg [] d.2.2
        | some ts => planTable ch r n table (a.getD 3 0) (a.getD 4 0) ts d.2.2) s

/-- EXPORT_QUERY_ANSWER: the oldest query of the channel is answered. Log entry 70 (DESIGN CHOICE). -/
def exportQueryAnswer (t : Nat) (ch : Fin 130) (e : Option ExportInfo) (s : State) : State :=
  let s := s.at t
  match s.root.alive, s.txn.pendingImports.find? fun p => p.ch == ch with
  | true, some p =>
    let s := modTxn (fun x => { x with pendingImports := x.pendingImports.erase p }) s
    if p.ticket = 0 then
      match acceptedReq s ch with
      | some r => if r.cmd = 0x0106 then importDone ch r p.part p.chip p.remote e s else s
      | none => s
    else
      match ((findTicket s ch p.ticket).map fun k => k.work : Option Work), e with
      | some (.plan n table lender slow ts), some x =>
        let q := commitPlan n table lender slow ts (some x) s
        decideTicket ch p.ticket q.1 q.2.1 q.2.2
      | some (.plan _ _ _ _ _), none => decideTicket ch p.ticket stAccessDenied [] s
      | _, _ => s
  | _, _ => s

/-- `WINDOW_EXPORT`: 06 R172. -/
def execWindowExport (t : Nat) (ch : Fin 130) (s : State) : Outcome := .next (windowExport t ch s)
/-- `WINDOW_IMPORT`: 06 R174. -/
def execWindowImport (t : Nat) (ch : Fin 130) (s : State) : Outcome := .next (windowImport t ch s)
/-- `WINDOW_REVOKE`: 06 R173; also R232. -/
def execWindowRevoke (t : Nat) (ch : Fin 130) (s : State) : Outcome := .next (windowRevoke t ch s)
/-- `WINDOW_UNIMPORT`: 06 R175; also R191. -/
def execWindowUnimport (t : Nat) (ch : Fin 130) (s : State) : Outcome := .next (windowUnimport t ch s)
/-- `LEND_OFFER`: 07 R231. -/
def execLendOffer (t : Nat) (ch : Fin 130) (s : State) : Outcome := .next (lendOffer t ch s)
/-- `RESIDENCY_PLAN`: 07 R234; also R233, R235, R236, R468. -/
def execResidencyPlan (t : Nat) (ch : Fin 130) (s : State) : Outcome := .next (residencyPlan t ch s)
/-- `EXPORT_QUERY`: 06 R174. -/
def execExportQuery (t : Nat) (chip partition exportId : Nat) (s : State) : Outcome :=
  .next (exportQuery t chip partition exportId s)
/-- `EXPORT_QUERY_ANSWER`: 06 R174. -/
def execExportQueryAnswer (t : Nat) (ch : Fin 130) (answer : Option ExportInfo) (s : State) : Outcome :=
  .next (exportQueryAnswer t ch answer s)

end Sys2Proof.Machine
end

