-- ==== Sys2Proof/Machine/Parts.lean ====
section
/-! DEFINITION. The commands of partitions, memory and queues (02 Tables 2-11 and 2-12; 07 R206 to R213; 08 R241, R250). -/

namespace Sys2Proof.Machine

/-! ### Boughs of a partition -/

/-- A bough. -/
def bough (s : State) (b : Fin 64) : Bough := vget s.crn.boughs b

/-- The state with a bough changed. -/
def modBough (b : Fin 64) (f : Bough → Bough) (s : State) : State :=
  { s with crn := { s.crn with boughs := vmod s.crn.boughs b f } }

/-- A bough's scratchpad zeroised (08 R253). -/
def zeroScratch (b : Fin 64) (s : State) : State :=
  let lo := b.val * scratchBytes
  { s with crn := { s.crn with
      scratch := Mem.clear s.crn.scratch lo scratchBytes
      scratchFault := s.crn.scratchFault.filter fun l => !decide (lo ≤ l * 64 ∧ l * 64 < lo + scratchBytes)
      scratchBad := s.crn.scratchBad.filter fun l => !decide (lo ≤ l * 64 ∧ l * 64 < lo + scratchBytes) } }

/-- The boughs a mask names. -/
def maskBoughs (m : Nat) : List (Fin 64) := (fins 64).filter fun b => m.testBit b.val

/-- A bough given to a partition. -/
def giveBough (n : Nat) (b : Fin 64) (s : State) : State :=
  let beats := vmod s.cmb.beats b fun x => { x with lastBeat := s.now, tilesAt := s.now }
  modBough b (fun _ => { st := .active, owner := n }) (zeroScratch b { s with cmb := { s.cmb with beats := beats } })

/-- A bough released: FREE, but RETIRED stays RETIRED. -/
def freeBough (b : Fin 64) (s : State) : State :=
  modBough b (fun x => if x.st = .retired then { x with owner := 0 } else { st := .free, owner := 0 }) (zeroScratch b s)

/-! ### PART_CREATE (R206) -/

/-- A bough mask names only FREE boughs; those of the partition itself, which then exists, are left to the BUSY check.
Log entry 41 (DEDUCED). -/
def maskFree (s : State) (n m : Nat) : Bool :=
  (maskBoughs m).all fun b => (bough s b).st == .free || (((part s n).map fun p => p.boughMask.testBit b.val).getD false)

/-- The argument step of PART_CREATE. Log entries 7 (DESIGN CHOICE), 67 (DEDUCED). -/
def partCreateOk (s : State) (a : List Nat) : Bool :=
  let mode := a.getD 1 0
  let sk := a.getD 6 0
  decide (a.headD 0 ≤ 127 ∧ mode ≤ 1 ∧ 1 ≤ a.getD 2 0 ∧ a.getD 2 0 ≤ 4) && maskFree s (a.headD 0) (a.getD 4 0)
    && keyServes s (a.getD 5 0) useCmac && (if mode = 0 then sk == 0 else keyServes s sk useSeal)

/-- A partition as PART_CREATE makes it. -/
def newPart (a : List Nat) (gen : Nat) (pair : Option SealPair) : Partition :=
  { mode := a.getD 1 0 + 1, queuesPerClass := a.getD 2 0, quota := a.getD 3 0, boughMask := a.getD 4 0, cmdKey := a.getD 5 0,
    sealKey := a.getD 6 0, creationGen := gen, pages := [], tagPages := [], pair := pair, oldPair := none, sweep := 0,
    poisonHits := 0, overhang := 0, plan := none }

/-- The partition created: its generation, boughs, channel and counters. Log entry 67 (DEDUCED). -/
def makePart (a : List Nat) (xts : Option Bytes) (s : State) : State :=
  let n := a.headD 0
  let s := genChange n s
  let gen := (genOf s n).toNat
  let s := modMm (fun m => { m with parts := tset n (newPart a gen (xts.map fun k => sealPairOf n gen k)) m.parts }) s
  let s := (maskBoughs (a.getD 4 0)).foldl (fun s b => giveBough n b s) s
  let s := modChan (partChan (finOf 128 n)) (fun c => { c with floor := a.getD 7 0 }) s
  { s with obs := { s.obs with parts := tset n PartCtr.zero s.obs.parts } }

/-- PART_CREATE. Log entry 67 (DEDUCED). -/
def partCreate (t : Nat) (ch : Fin 130) (s : State) : State :=
  onCmd 0x0100 t ch (parseArgs [1, 1, 1, 4, 8, 4, 4, 8]) partCreateOk (fun r a s =>
    let n := a.headD 0
    let h := a.getD 6 0
    let refused := a.getD 1 0 == 1 && ((keyEntry s h).map fun e => useRefused s e).getD true
    if thas n s.mm.parts then answer ch r stBusy [] s
    else if refused then answer ch r stNoResource [] s
    else if usableGranules s < quotaSum s + lentGranules s + a.getD 3 0 then answer ch r stNoCapacity [] s
    else
      let k : Option Bytes × State := if a.getD 1 0 = 1 then useKey h useSeal s else (none, s)
      if a.getD 1 0 = 1 ∧ k.1 = none then answer ch r stBadArg [] (withdraw k.2)
      else
        let s := makePart a k.1 k.2
        acceptLong ch r (.planned stOk (leBytes 1 (genOf s n).toNat)) s) s

/-! ### PART_DESTROY (R208) -/

/-- The handles that a channel loaded removed, their slots zeroised; no generation changes (03 R79). -/
def dropHandles (ch : Nat) (s : State) : State :=
  let mine := (s.hwd.reg.filter fun e => e.2.channel == ch && e.1 != 1 && e.1 != 2).map (·.1)
  modHwd (fun h => { h with reg := h.reg.filter fun e => !mine.contains e.1
                            slots := h.slots.filter fun x => match x.holds with
                              | .key i => !mine.contains i
                              | _ => true }) s

/-- The channel of a destroyed partition: its running tickets end with PEER_RESET, then its tickets and events go. -/
def closePartChan (n : Fin 128) (s : State) : State :=
  let c := partChan n
  let open_ := ((chan s c).tickets.filter fun k => k.final.isNone).map (·.num)
  let s := open_.foldl (fun s k => finishTicket c k stPeerReset [] s) s
  modChan c (fun x => { x with tickets := [], evq := [], head := 0, tail := 0, held := [], floor := 0 }) s

/-- What a partition has in the token engine and the collective sequencer freed. -/
def dropObjects (n : Nat) (s : State) : State :=
  let gone := (s.tke.vocabs.filter fun e => e.2.part == n).map (·.1)
  let s := { s with tke := { s.tke with
      cache := s.tke.cache.filter fun c => !gone.contains c.vocab
      vocabs := s.tke.vocabs.filter fun e => e.2.part != n
      grammars := s.tke.grammars.filter fun e => e.2.part != n
      streams := s.tke.streams.filter fun e => e.2.part != n } }
  modCol (fun c => { c with slots := c.slots.filter fun e => e.2.part != n }) s

/-- The windows of a partition end; what its transactions still bring is discarded. -/
def dropWindows (n : Nat) (s : State) : State :=
  let s := endWindowsOf n s
  modTxn (fun x => { x with
    txns := x.txns.map fun e => (e.1, if e.2.part = n then e.2.discarded else e.2)
    waiting := x.waiting.filter fun t => t.part != n
    readAhead := x.readAhead.filter fun e => e.part != n
    pendingImports := x.pendingImports.filter fun p => p.part != n }) s

/-- The tombstones of command keys that no partition names any more go (03 R83). -/
def dropTombs (s : State) : State :=
  modHwd (fun h => { h with tombs := h.tombs.filter fun t => t == 1 || t == 2 || s.mm.parts.any fun p => p.2.cmdKey == t }) s

/-- The steps of R208. -/
def destroyPart (n : Fin 128) (s : State) : State :=
  match part s n with
  | none => s
  | some p =>
    let s := dropWindows n (dropObjects n (stopQueues n s))
    let s := dropHandles (n.val + 2) (closePartChan n s)
    let s := dropRegions (fun r => r.part == n.val) s
    let s := releaseGranules p.granules s
    let s := (maskBoughs p.boughMask).foldl (fun s b => freeBough b s) s
    pump (dropTombs (modMm (fun m => { m with parts := tdel n m.parts }) s))

/-- PART_DESTROY: the partition goes as the command completes. Log entries 24 (DESIGN CHOICE), 68 (DEDUCED). -/
def partDestroy (t : Nat) (ch : Fin 130) (s : State) : State :=
  onCmd 0x0101 t ch (parseArgs [1]) (fun s a => ownPart s (a.headD 0)) (fun r a s =>
    acceptLong ch r (.destroy (finOf 128 (a.headD 0))) s) s

/-! ### Queries and memory -/

/-- PART_QUERY: mode 2 is LENDING (R231). -/
def partQuery (t : Nat) (ch : Fin 130) (s : State) : State :=
  onCmd 0x0102 t ch (parseArgs [1]) (fun s a => thas (a.headD 0) s.mm.parts) (fun r a s =>
    match part s (a.headD 0) with
    | some p => answer ch r stOk (packArgs [(1, p.mode - 1), (1, (genOf s (a.headD 0)).toNat), (4, p.used), (4, p.quota),
        (8, p.boughMask)]) s
    | none => s) s

/-- MEM_ALLOC (R210, R211). Log entry 68 (DEDUCED). -/
def memAlloc (t : Nat) (ch : Fin 130) (s : State) : State :=
  onCmd 0x0103 t ch (parseArgs [1, 4]) (fun s a => ownPart s (a.headD 0) && a.getD 1 0 != 0) (fun r a s =>
    match allocRun (a.headD 0) (a.getD 1 0) s with
    | some (o, s) => answer ch r stOk (leBytes 8 (o * granuleBytes)) s
    | none => answer ch r stNoCapacity [] s) s

/-- A run of granules is allocated. -/
def runAllocated (p : Partition) (o k : Nat) : Bool :=
  k != 0 && decide (k ≤ p.pages.length) && (List.range k).all fun i => thas (o + i) p.pages

/-- A mirrored region of the partition touches a run of granules (11 R340). -/
def runMirrored (s : State) (n o k : Nat) : Bool :=
  s.twn.regions.any fun e => e.2.part == n
    && decide (e.2.offset < (o + k) * granuleBytes ∧ o * granuleBytes < e.2.offset + e.2.length)

/-- MEM_FREE (R211). -/
def memFree (t : Nat) (ch : Fin 130) (s : State) : State :=
  onCmd 0x0104 t ch (parseArgs [1, 8, 4])
    (fun s a => ownPart s (a.headD 0) && a.getD 1 0 % granuleBytes == 0
      && ((part s (a.headD 0)).map fun p => runAllocated p (a.getD 1 0 / granuleBytes) (a.getD 2 0)).getD false)
    (fun r a s =>
      let n := a.headD 0
      let o := a.getD 1 0 / granuleBytes
      if runMirrored s n o (a.getD 2 0) then answer ch r stBusy [] s
      else answer ch r stOk [] (unmapRun n o (a.getD 2 0) s)) s

/-- MEM_STATUS (R213). -/
def memStatus (t : Nat) (ch : Fin 130) (s : State) : State :=
  onCmd 0x010A t ch noArgs (fun _ _ => true) (fun r _ s =>
    answer ch r stOk (packArgs [(4, totalGranules), (4, reservedGranules s), (4, freeGranules s), (4, s.mm.retiredRows)]) s) s

/-! ### Queues (08 R241, R242, R250) -/

/-- A queue before its first record. -/
def Queue.fresh (host : Bool) (entries base vector : Nat) : Queue :=
  { host := host, entries := entries, base := base, vector := vector, head := 0, tail := 0, started := 0, held := false,
    faulted := false, dbReject := false, running := [], recent := [], checkpointAt := 0 }

/-- The queue number of a class and an index. -/
def queueNo (a : List Nat) : Nat := 4 * a.getD 1 0 + a.getD 2 0

/-- The argument step of QUEUE_CREATE. Log entry 68 (DEDUCED). -/
def queueCreateOk (s : State) (a : List Nat) : Bool :=
  let e := a.getD 4 0
  let v := a.getD 6 0
  ownPart s (a.headD 0) && decide (a.getD 1 0 ≤ 3)
    && ((part s (a.headD 0)).map fun p => decide (a.getD 2 0 < p.queuesPerClass)).getD false
    && decide (a.getD 3 0 ≤ 1 ∧ 64 ≤ e ∧ e ≤ 65536) && 2 ^ Nat.log2 e == e && a.getD 5 0 % 4096 == 0
    && (decide (1 ≤ v ∧ v ≤ 15) || v == 0xFFFF)

/-- The completion slots of a new queue written with zeros. -/
def zeroSlots (n : Nat) (x : Queue) (s : State) : State :=
  let a := x.base + 64 * x.entries
  if x.host then emit (.hostWrite n a (zeros (64 * x.entries))) s
  else (takeMarks (writeRange (localWho s n) false n a (zeros (64 * x.entries)) s).2).2

/-- QUEUE_CREATE. -/
def queueCreate (t : Nat) (ch : Fin 130) (s : State) : State :=
  onCmd 0x0200 t ch (parseArgs [1, 1, 1, 1, 4, 8, 2]) queueCreateOk (fun r a s =>
    let n := a.headD 0
    let q := queueNo a
    let x := Queue.fresh (a.getD 3 0 == 1) (a.getD 4 0) (a.getD 5 0) (a.getD 6 0)
    if (queue s n q).isSome then answer ch r stBusy [] s
    else if !x.host && !(decide (x.base + 128 * x.entries ≤ 2 ^ 47) && allocated s n x.base (128 * x.entries)) then
      answer ch r stAccessDenied [] s
    else
      let s := zeroSlots n x s
      let s := { s with crn := { s.crn with queues := tset (qKey n q) x s.crn.queues } }
      answer ch r stOk (leBytes 4 (0x300000 + 0x10 * q)) (checkpoint n q true s)) s

/-- A queue that a command names. -/
def queueArg (s : State) (a : List Nat) : Bool :=
  decide (a.getD 1 0 ≤ 3 ∧ a.getD 2 0 ≤ 3) && (queue s (a.headD 0) (queueNo a)).isSome && decide (a.headD 0 ≤ 127)

/-- QUEUE_DESTROY. -/
def queueDestroy (t : Nat) (ch : Fin 130) (s : State) : State :=
  onCmd 0x0201 t ch (parseArgs [1, 1, 1]) queueArg (fun r a s =>
    answer ch r stOk [] (stopQueue (a.headD 0) (queueNo a) s)) s

/-- The state of a queue (Table 8-2): WAITING while the next record waits for another queue. Whether a record of a host ring
names a queue to wait for is open, for the ring is not the device's. Log entry 76 (DEDUCED). -/
def queueState (s : State) (n q : Nat) : Nat × State :=
  match queue s n q with
  | none => (0, s)
  | some x =>
    if x.faulted then (5, s)
    else if x.held then (4, s)
    else if !x.running.isEmpty then (2, s)
    else if x.started = x.tail then (1, s)
    else if x.host then let d := drawNat s; (2 + d.1 % 2, d.2)
    else
      match lineState s n (recAddr x x.started) with
      | some (.good b) => (if recFlag b 3 && !waitMet s n b then 3 else 2, s)
      | _ => (2, s)

/-- QUEUE_QUERY. -/
def queueQuery (t : Nat) (ch : Fin 130) (s : State) : State :=
  onCmd 0x0202 t ch (parseArgs [1, 1, 1]) queueArg (fun r a s =>
    let n := a.headD 0
    match queue s n (queueNo a) with
    | some x =>
      let st := queueState s n (queueNo a)
      answer ch r stOk (packArgs [(4, x.head.toNat), (4, x.tail.toNat), (4, st.1)]) st.2
    | none => s) s

/-- `PART_CREATE`: 07 R206; also R49, R64, R72, R86, R173, R192, R207, R253. -/
def execPartCreate (t : Nat) (ch : Fin 130) (s : State) : Outcome := .next (partCreate t ch s)
/-- `PART_DESTROY`: 07 R208; also R49, R79, R173, R250, R272, R296, R340. -/
def execPartDestroy (t : Nat) (ch : Fin 130) (s : State) : Outcome := .next (partDestroy t ch s)
/-- `PART_QUERY`: 07 R207. -/
def execPartQuery (t : Nat) (ch : Fin 130) (s : State) : Outcome := .next (partQuery t ch s)
/-- `MEM_ALLOC`: 07 R210; also R211, R221, R227. -/
def execMemAlloc (t : Nat) (ch : Fin 130) (s : State) : Outcome := .next (memAlloc t ch s)
/-- `MEM_FREE`: 07 R211; also R221, R340. -/
def execMemFree (t : Nat) (ch : Fin 130) (s : State) : Outcome := .next (memFree t ch s)
/-- `MEM_STATUS`: 07 R213; also R14. -/
def execMemStatus (t : Nat) (ch : Fin 130) (s : State) : Outcome := .next (memStatus t ch s)
/-- `QUEUE_CREATE`: 08 R241; also R242, R407. -/
def execQueueCreate (t : Nat) (ch : Fin 130) (s : State) : Outcome := .next (queueCreate t ch s)
/-- `QUEUE_DESTROY`: 08 R250. -/
def execQueueDestroy (t : Nat) (ch : Fin 130) (s : State) : Outcome := .next (queueDestroy t ch s)
/-- `QUEUE_QUERY`: 08 R242. -/
def execQueueQuery (t : Nat) (ch : Fin 130) (s : State) : Outcome := .next (queueQuery t ch s)

end Sys2Proof.Machine
end

