-- ==== Sys2Proof/Machine/Objects.lean ====
section
/-! DEFINITION. The commands of collective groups and of the token engine (02 Tables 2-15 and 2-16; 09 R270 to R272; 10 R295 to
R298, R305, R306, R311). -/

namespace Sys2Proof.Machine

/-- A channel may name an object of partition `n` (09 R272, 10 R296). -/
def mayName (ch : Fin 130) (n : Nat) : Bool := decide (ch.val < 2) || n == ch.val - 2

/-- The lines of a range in allocated memory of a partition are read; the status and the bytes. -/
def readTableOf (n o len : Nat) (s : State) : Nat × Bytes × State := readRange (localWho s n) n o len s

/-! ### Groups -/

/-- The member of an entry of Table 9-1. Log entry 78 (DEDUCED). -/
def memberAt (b : Bytes) (j : Nat) : Nat × Nat := (u16At b (8 + 4 * j), u8At b (10 + 4 * j))

/-- No number appears twice. -/
def noTwice (l : List Nat) : Bool := l.eraseDups.length == l.length

/-- The member table keeps the rules of R270 step 1 that do not need this chip's ID. Log entry 78 (DEDUCED). -/
def memberTableOk (b : Bytes) (m : Nat) : Bool :=
  (List.range m).all (fun j =>
    let e := memberAt b j
    decide (e.1 < 1024 ∧ e.2 < 128) && u8At b (11 + 4 * j) == 0)
    && noTwice ((List.range m).map fun j => (memberAt b j).1)

/-- GROUP_ID (R271). -/
def groupId (alg m : Nat) (b : Bytes) : Nat :=
  ofLe ((sha384 (ascii "COL-GRP" ++ leBytes 1 alg ++ leBytes 2 m ++ b.take (8 + 4 * m))).take 8)

/-- GROUP_CREATE after the table was read (R270 steps 1 to 4). Log entry 78 (DEDUCED). -/
def makeGroup (ch : Fin 130) (r : Request) (n alg m : Nat) (b : Bytes) (s : State) : State :=
  let ms := (List.range m).map (memberAt b)
  let self := ms.findIdx fun e => s.txn.chip == some e.1 && e.2 == n
  if !memberTableOk b m || (s.txn.chip.isSome && decide (m ≤ self)) then answer ch r stBadArg [] s
  else if s.txn.chip.isNone then answer ch r stNoRoute [] s
  else
    let id := groupId alg m b
    match tfree s.col.slots 0 256 with
    | none => answer ch r stNoResource [] s
    | some k =>
      if (slotById s id).isSome then answer ch r stBusy [] s
      else
        let g : Group := { part := n, algorithm := alg, id := id, members := ms, self := self, opSeq := 0, broken := none,
                           laggard := 0xFFFF, laggardNs := 0, segsIn := 0, lastGen := [], firstAt := [], op := none }
        answer ch r stOk (packArgs [(2, k)]) (modCol (fun c => { c with slots := tset k g c.slots }) s)

/-- GROUP_CREATE (R270). Log entry 78 (DEDUCED). -/
def groupCreate (t : Nat) (ch : Fin 130) (s : State) : State :=
  onCmd 0x0500 t ch (parseArgs [1, 1, 2, 8])
    (fun s a =>
      let n := a.headD 0
      let m := a.getD 2 0
      ownPart s n && decide (a.getD 1 0 ≤ 1 ∧ 2 ≤ m ∧ m ≤ 1024) && allocated s n (a.getD 3 0) (8 + 4 * m))
    (fun r a s =>
      let x := readTableOf (a.headD 0) (a.getD 3 0) (8 + 4 * a.getD 2 0) s
      if x.1 ≠ stOk then answer ch r x.1 [] x.2.2
      else makeGroup ch r (a.headD 0) (a.getD 1 0) (a.getD 2 0) x.2.1 x.2.2) s

/-- The slot that a request may name (R272). -/
def slotArg (s : State) (ch : Fin 130) (a : List Nat) : Bool :=
  match slotOf s (a.headD 0) with
  | some g => mayName ch g.part
  | none => false

/-- GROUP_DESTROY (R272). -/
def groupDestroy (t : Nat) (ch : Fin 130) (s : State) : State :=
  onCmd 0x0501 t ch (parseArgs [2]) (fun s a => slotArg s ch a) (fun r a s =>
    match slotOf s (a.headD 0) with
    | some g =>
      if g.op.isSome then answer ch r stBusy [] s
      else answer ch r stOk [] (modCol (fun c => { c with slots := tdel (a.headD 0) c.slots }) s)
    | none => s) s

/-- The state word of GROUP_QUERY (R272). -/
def groupWord (g : Group) : Nat :=
  match g.broken with
  | some st => 2 + st * 0x10000
  | none => if g.op.isSome then 1 else 0

/-- GROUP_QUERY (R272). -/
def groupQuery (t : Nat) (ch : Fin 130) (s : State) : State :=
  onCmd 0x0502 t ch (parseArgs [2]) (fun s a => slotArg s ch a) (fun r a s =>
    match slotOf s (a.headD 0) with
    | some g => answer ch r stOk (packArgs [(4, groupWord g), (2, g.laggard), (2, 0), (8, g.laggardNs)]) s
    | none => s) s

/-! ### Images of the token engine -/

/-- The next value of the ID counter (R296), and the state that has taken it. Log entry 15 (DESIGN CHOICE). -/
def takeTkeId (s : State) : Nat × State := (s.tke.nextId, modTke (fun k => { k with nextId := k.nextId + 1 }) s)

/-- VOCAB_LOAD after its image was read (R298, R296). Log entry 78 (DEDUCED). -/
def loadVocab (ch : Fin 130) (r : Request) (n o len : Nat) (img : Bytes) (s : State) : State :=
  if !vocabOk img then answer ch r stBadArg [] s
  else if 4 ≤ (s.tke.vocabs.filter fun e => e.2.part == n).length ∨ 64 ≤ s.tke.vocabs.length then
    answer ch r stNoResource [] s
  else
    let i := takeTkeId s
    let x : Image := { part := n, vocab := i.1, kind := 0, offset := o, length := len, hdr := img.take 64 }
    acceptLong ch r (.planned stOk (packArgs [(4, i.1)])) (modTke (fun k => { k with vocabs := tset i.1 x k.vocabs }) i.2)

/-- VOCAB_LOAD (R295, R298). -/
def vocabLoad (t : Nat) (ch : Fin 130) (s : State) : State :=
  onCmd 0x0600 t ch (parseArgs [1, 8, 8])
    (fun s a => ownPart s (a.headD 0) && decide (a.getD 2 0 ≤ 0x4000000) && allocated s (a.headD 0) (a.getD 1 0) (a.getD 2 0))
    (fun r a s =>
      let x := readTableOf (a.headD 0) (a.getD 1 0) (a.getD 2 0) s
      if x.1 ≠ stOk then answer ch r x.1 [] x.2.2
      else loadVocab ch r (a.headD 0) (a.getD 1 0) (a.getD 2 0) x.2.1 x.2.2) s

/-- GRAMMAR_LOAD after its image was read (R311, R296). -/
def loadGrammar (ch : Fin 130) (r : Request) (v : Image) (a : List Nat) (img : Bytes) (s : State) : State :=
  if !grammarOk (a.getD 1 0) img v.hdr then answer ch r stBadArg [] s
  else if 256 ≤ s.tke.grammars.length then answer ch r stNoResource [] s
  else
    let i := takeTkeId s
    let x : Image := { part := v.part, vocab := a.headD 0, kind := a.getD 1 0, offset := a.getD 2 0, length := a.getD 3 0,
                       hdr := img.take 64 }
    acceptLong ch r (.planned stOk (packArgs [(4, i.1)]))
      (modTke (fun k => { k with grammars := tset i.1 x k.grammars }) i.2)

/-- The vocabulary that a request may name. -/
def vocabArg (s : State) (ch : Fin 130) (id : Nat) : Option Image := (vocabOf s id).filter fun v => mayName ch v.part

/-- GRAMMAR_LOAD (R295, R311). -/
def grammarLoad (t : Nat) (ch : Fin 130) (s : State) : State :=
  onCmd 0x0601 t ch (parseArgs [4, 1, 8, 8])
    (fun s a =>
      match vocabArg s ch (a.headD 0) with
      | some v => decide (a.getD 1 0 ≤ 1 ∧ a.getD 3 0 ≤ 0x10000000) && allocated s v.part (a.getD 2 0) (a.getD 3 0)
      | none => false)
    (fun r a s =>
      match vocabArg s ch (a.headD 0) with
      | some v =>
        let h := readHdr v s
        let x := readTableOf v.part (a.getD 2 0) (a.getD 3 0) h.2.2
        if firstFail h.1 x.1 ≠ stOk then answer ch r (firstFail h.1 x.1) [] x.2.2 else loadGrammar ch r h.2.1 a x.2.1 x.2.2
      | none => s) s

/-- GRAMMAR_UNLOAD (R311). -/
def grammarUnload (t : Nat) (ch : Fin 130) (s : State) : State :=
  onCmd 0x0602 t ch (parseArgs [4])
    (fun s a => ((grammarOf s (a.headD 0)).filter fun g => mayName ch g.part).isSome)
    (fun r a s =>
      if s.tke.streams.any fun e => e.2.grammar == a.headD 0 then answer ch r stBusy [] s
      else answer ch r stOk [] (modTke (fun k => { k with grammars := tdel (a.headD 0) k.grammars }) s)) s

/-! ### Streams -/

/-- An entry of a stop table (R305); none where it is not valid. -/
def stopEntry (b : Bytes) : Option (Bool × Bytes) :=
  let n := u16At b 0
  if 1 ≤ n ∧ n ≤ 128 ∧ u16At b 2 ≤ 1 ∧ zeroAt b 4 4 = true ∧ zeroAt b (8 + n) (128 - n) = true then
    some ((u16At b 2).testBit 0, slice b 8 n)
  else none

/-- A stop table. -/
def stopTable (b : Bytes) : Option (List (Bool × Bytes)) := allSome ((piecesOf 136 b).map stopEntry)

/-- The START of a grammar, read in place: 0 for no grammar. -/
def startState (s : State) (g : Nat) : Nat × Nat × State :=
  match grammarOf s g with
  | some x => let h := readHdr x s; (h.1, grmStart h.2.1.hdr, h.2.2)
  | none => (stOk, 0, s)

/-- STREAM_OPEN after its stop table was read (R305). -/
def openStream (ch : Fin 130) (r : Request) (v : Image) (a : List Nat) (b : Bytes) (s₀ : State) : State :=
  let g := a.getD 1 0
  let st := startState s₀ g
  let s := st.2.2
  match stopTable b with
  | none => answer ch r stBadArg [] s
  | some stops =>
    if st.1 ≠ stOk then answer ch r st.1 [] s
    else
    let limited := g ≠ 0 ∧ 256 ≤ (s.tke.streams.filter fun e => e.2.grammar != 0).length
    match (if limited then none else tfree s.tke.streams 0 4096 : Option Nat) with
    | none => answer ch r stNoResource [] s
    | some id =>
      let x : Stream := { part := v.part, vocab := a.headD 0, grammar := g, runAhead := g != 0 && a.getD 2 0 == 1, stops := stops,
                          held := [], conf := { state := st.2.1, stack := [] }, stopReason := 0, stopIndex := 0,
                          pendingStop := none, unpresented := [], rng := a.getD 5 0, tokens := 0, maskAt := 0,
                          maskReady := false, mask := 0, built := [] }
      let s := modTke (fun k => { k with streams := tset id x k.streams }) s
      let s := journal 0x05 33 (leBytes 2 id ++ leBytes 1 v.part ++ zeros 5 ++ leBytes 8 (a.getD 5 0)) s
      answer ch r stOk (packArgs [(2, id)]) (reachConf id s)

/-- STREAM_OPEN (R305). Log entry 78 (DEDUCED). -/
def streamOpen (t : Nat) (ch : Fin 130) (s : State) : State :=
  onCmd 0x0603 t ch (parseArgs [4, 4, 1, 1, 8, 8])
    (fun s a =>
      match vocabArg s ch (a.headD 0) with
      | some v =>
        (a.getD 1 0 == 0 || ((grammarOf s (a.getD 1 0)).filter fun g => g.vocab == a.headD 0).isSome)
          && (a.getD 1 0 == 0 || decide (a.getD 2 0 ≤ 1)) && decide (a.getD 3 0 ≤ 16)
          && (a.getD 3 0 == 0 || allocated s v.part (a.getD 4 0) (136 * a.getD 3 0))
      | none => false)
    (fun r a s =>
      match vocabArg s ch (a.headD 0) with
      | some v =>
        let x : Nat × Bytes × State :=
          if a.getD 3 0 = 0 then (stOk, [], s) else readTableOf v.part (a.getD 4 0) (136 * a.getD 3 0) s
        if x.1 ≠ stOk then answer ch r x.1 [] x.2.2 else openStream ch r v a x.2.1 x.2.2
      | none => s) s

/-- A running record names the stream (R306). -/
def streamNamed (s : State) (id : Nat) : Bool := s.crn.queues.any fun e => e.2.running.any fun x => x.streams.contains id

/-- STREAM_CLOSE (R306). -/
def streamClose (t : Nat) (ch : Fin 130) (s : State) : State :=
  onCmd 0x0604 t ch (parseArgs [2])
    (fun s a => ((strm s (a.headD 0)).filter fun x => mayName ch x.part).isSome)
    (fun r a s =>
      let id := a.headD 0
      if streamNamed s id then answer ch r stBusy [] s
      else
        let s := dropReadAhead (fun o => o == .stream id) (dropBuilt id s)
        answer ch r stOk [] (modTke (fun k => { k with streams := tdel id k.streams }) s)) s

/-- `GROUP_CREATE`: 09 R270; also R271. -/
def execGroupCreate (t : Nat) (ch : Fin 130) (s : State) : Outcome := .next (groupCreate t ch s)
/-- `GROUP_DESTROY`: 09 R272; also R293. -/
def execGroupDestroy (t : Nat) (ch : Fin 130) (s : State) : Outcome := .next (groupDestroy t ch s)
/-- `GROUP_QUERY`: 09 R272. -/
def execGroupQuery (t : Nat) (ch : Fin 130) (s : State) : Outcome := .next (groupQuery t ch s)
/-- `VOCAB_LOAD`: 10 R298; also R295, R296, R303. -/
def execVocabLoad (t : Nat) (ch : Fin 130) (s : State) : Outcome := .next (vocabLoad t ch s)
/-- `GRAMMAR_LOAD`: 10 R311; also R295, R296. -/
def execGrammarLoad (t : Nat) (ch : Fin 130) (s : State) : Outcome := .next (grammarLoad t ch s)
/-- `GRAMMAR_UNLOAD`: 10 R311. -/
def execGrammarUnload (t : Nat) (ch : Fin 130) (s : State) : Outcome := .next (grammarUnload t ch s)
/-- `STREAM_OPEN`: 10 R305; also R257, R296, R406. -/
def execStreamOpen (t : Nat) (ch : Fin 130) (s : State) : Outcome := .next (streamOpen t ch s)
/-- `STREAM_CLOSE`: 10 R306; also R316. -/
def execStreamClose (t : Nat) (ch : Fin 130) (s : State) : Outcome := .next (streamClose t ch s)

end Sys2Proof.Machine
end

