-- ==== Sys2Proof/Machine/GroveCmds.lean ====
section
/-! DEFINITION. The commands of the grove and the twin (02 Table 2-17; 11 R318, R320, R329 to R331, R334, R344). -/

namespace Sys2Proof.Machine

/-! ### Membership -/

/-- The chip ID and the trunk recorded (R318 step 2); a chip that stops being the trunk clears its registry. -/
def takeChipId (c trunk : Nat) (s : State) : State :=
  let fresh := s.txn.chip.isNone
  let s := if isTrunk s ∧ c ≠ trunk then modGrv (fun g => { g with reg := [] }) s else s
  let s := modGrv (fun g => { g with trunk := trunk }) (modTxn (fun x => { x with chip := some c }) s)
  if fresh then announce s else s

/-- GROVE_JOIN (R318). -/
def groveJoin (t : Nat) (ch : Fin 130) (s : State) : State :=
  onCmd 0x0700 t ch (parseArgs [2, 2, 4])
    (fun s a =>
      let c := a.headD 0
      decide (c < 1024 ∧ a.getD 1 0 < 1024) && a.getD 2 0 == s.txn.routeGen && (s.txn.chip.isNone || s.txn.chip == some c))
    (fun r a s =>
      let c := a.headD 0
      let s := takeChipId c (a.getD 1 0) s
      if isTrunk s then
        let s := enterMember c s.fuse.serial s.txn.routeGen none
          (modGrv (fun g => { g with registered := true, joining := none }) s)
        acceptLong ch r (.planned stOk []) s
      else
        let j : Joining := { since := s.now, ticket := some (ch, nextTicketOf s ch) }
        sendJoin (acceptLong ch r .event (modGrv (fun g => { g with registered := false, joining := some j }) s))) s

/-- The pairing ended by a command (R331): a session under way fails. Log entry 93 (DEDUCED). -/
def endTwin (s : State) : State := if s.twn.st = .pairing then endPairing true (sessionFails s) else endPairing true s

/-- GROVE_LEAVE (R320). Log entry 93 (DEDUCED). -/
def groveLeave (t : Nat) (ch : Fin 130) (s : State) : State :=
  onCmd 0x0701 t ch noArgs (fun _ _ => true) (fun r _ s =>
    let s := if s.txn.chip.isSome then sendRouted 0x84 s.grv.trunk 0 (leBytes 8 s.fuse.serial) s else s
    let s := synthesiseAll stNoRoute (fun _ => true) s
    let s := s.col.slots.foldl (fun s e => breakGroup e.1 stNoRoute s) s
    let s := unassign (endTwin s)
    pump (acceptLong ch r (.planned stOk []) (modGrv (fun g => { g with reg := [] }) s))) s

/-- PEER_NOTIFY (R329, R330). -/
def peerNotify (t : Nat) (ch : Fin 130) (s : State) : State :=
  onCmd 0x0702 t ch (parseArgs [2, 1, 1])
    (fun s a => decide (a.headD 0 < 1024 ∧ a.getD 1 0 ≤ 2) && s.txn.chip != some (a.headD 0))
    (fun r a s =>
      relayNotice (a.headD 0) (a.getD 1 0) (a.getD 2 0)
        (answer ch r stOk [] (applyNotice (a.headD 0) (a.getD 1 0) (a.getD 2 0) s))) s

/-! ### Twins -/

/-- The conditions of TWIN_PAIR with a twin (R331). Log entries 7 (DESIGN CHOICE), 94 (DEDUCED). -/
def pairOk (s : State) (c key : Nat) : Bool :=
  let p := port s 7
  s.txn.chip.isSome && decide (c < 1024) && s.txn.chip != some c && p.phys.st == 8 && p.link.peer == some c
    && p.link.mode != 0 && ((keyEntry s key).map fun e => e.kind == 1 && e.may usePair) == some true

/-- TWIN_PAIR (R331). Log entry 94 (DEDUCED). -/
def twinPair (t : Nat) (ch : Fin 130) (s : State) : State :=
  onCmd 0x0703 t ch (parseArgs [2, 4]) (fun s a => a.headD 0 == 0xFFFF || pairOk s (a.headD 0) (a.getD 1 0)) (fun r a s =>
    if a.headD 0 = 0xFFFF then acceptLong ch r (.planned stOk []) (endTwin s)
    else if !(s.twn.st == .none || s.twn.st == .promoted) then answer ch r stBusy [] s
    else
      let w : TwinWait := { since := s.now, nonce := 0, ticket := some (ch, nextTicketOf s ch) }
      startSession (acceptLong ch r .event (modTwn (fun x =>
        { x with st := .pairing, chip := a.headD 0, pairKey := a.getD 1 0, pairing := some w }) s))) s

/-- The source regions of the chip together with those that are being opened. -/
def sourceRegions (s : State) : List Region :=
  (s.twn.regions.map (·.2)).filter (fun r => !r.target) ++ s.twn.opening.map fun e => e.2.1

/-- A range overlaps a region of partition `n` (R334). -/
def regionOverlap (s : State) (n o len : Nat) : Bool :=
  (s.twn.regions.map (·.2) ++ s.twn.opening.map fun e => e.2.1).any fun r =>
    r.part == n && decide (o < r.offset + r.length ∧ r.offset < o + len)

/-- The checks of MIRROR_SET (R334): a removal needs a region of the partition at the offset.
Log entries 7 (DESIGN CHOICE), 98 (DEDUCED). -/
def mirrorSetOk (s : State) (a : List Nat) : Bool :=
  let n := a.headD 0
  let mode := a.getD 1 0
  let lag := a.getD 2 0
  let o := a.getD 3 0
  let len := a.getD 4 0
  decide (mode ≤ 1) && (if mode = 0 then lag == 0 else decide (1 ≤ lag ∧ lag ≤ 256)) && o % 4096 == 0 && len % 4096 == 0
    && (if len = 0 then s.twn.regions.any fun e => e.2.part == n && e.2.offset == o
        else s.twn.st == .paired && allocated s n o len && !regionOverlap s n o len
          && !(((part s n).map (·.mode)) == some 2 && (port s 7).link.mode != 2))

/-- The request of a channel waits for its twin's reply. Log entry 98 (DEDUCED). -/
def openingOf (s : State) (ch : Fin 130) : Bool := s.twn.opening.any fun e => e.2.2.1 == ch

/-- MIRROR_SET that removes the region at an offset: its ID is answered. Log entry 98 (DEDUCED). -/
def mirrorRemove (ch : Fin 130) (r : Request) (n o : Nat) (s : State) : State :=
  let hit := fun (x : Region) => x.part == n && x.offset == o
  let id := ((s.twn.regions.find? fun e => hit e.2).map fun e => e.2.id).getD 0
  answer ch r stOk (leBytes 4 id) (dropRegions hit s)

/-- The `n`th ID of a source region: odd on the chip with the lower chip ID, even on the other, so that no two regions of a pair
share one. -/
def regionId (s : State) (n : Nat) : Nat := 2 * n - bit 0 (twinLow s)

/-- MIRROR_SET (R334): the open message names the partition's mode. Log entry 98 (DEDUCED). -/
def mirrorSet (t : Nat) (ch : Fin 130) (s : State) : State :=
  if openingOf s ch then s.at t
  else
    onCmd 0x0704 t ch (parseArgs [1, 1, 2, 8, 8]) mirrorSetOk (fun r a s =>
      let n := a.headD 0
      let o := a.getD 3 0
      let len := a.getD 4 0
      if len = 0 then mirrorRemove ch r n o s
      else
        let rs := sourceRegions s
        if 0x400000000 < sumOf (rs.map (·.length)) + len then answer ch r stNoCapacity [] s
        else if 64 ≤ rs.length then answer ch r stNoResource [] s
        else
          let x := Region.make (regionId s s.twn.nextRegion) n (a.getD 2 0) o len false (a.getD 1 0 == 1)
          let s := modTwn (fun w => { w with nextRegion := w.nextRegion % (2 ^ 31 - 1) + 1,
                                             opening := w.opening ++ [(s.now, x, (ch, r))] }) s
          let mode := ((part s n).map (·.mode)).getD 1 - 1
          sendTagged 0x93 (leBytes 4 x.id ++ leBytes 1 n ++ leBytes 1 mode ++ leBytes 2 (a.getD 2 0)
            ++ leBytes 8 o ++ leBytes 8 len) s) s

/-- TWIN_FAILOVER (R344). -/
def twinFailover (t : Nat) (ch : Fin 130) (s : State) : State :=
  onCmd 0x0705 t ch noArgs (fun s _ => s.twn.st == .paired || s.twn.st == .graftDown || s.twn.st == .lost) (fun r _ s =>
    if s.twn.st = .paired then
      let w : TwinWait := { since := s.now, nonce := 0, ticket := some (ch, nextTicketOf s ch) }
      sendTagged 0x96 (leBytes 1 s.twn.gen.toNat ++ zeros 3)
        (acceptLong ch r .event (modTwn (fun x => { x with yielding := some w }) s))
    else
      let down := s.twn.st == .graftDown
      let s := failover s
      let s := if down then sendStale s else s
      acceptLong ch r (.planned stOk (pad4 (leBytes 1 s.twn.gen.toNat))) s) s

/-- `GROVE_JOIN`: 11 R318; also R319. -/
def execGroveJoin (t : Nat) (ch : Fin 130) (s : State) : Outcome := .next (groveJoin t ch s)
/-- `GROVE_LEAVE`: 11 R320; also R201. -/
def execGroveLeave (t : Nat) (ch : Fin 130) (s : State) : Outcome := .next (groveLeave t ch s)
/-- `PEER_NOTIFY`: 11 R329; also R11, R191, R193, R290, R330. -/
def execPeerNotify (t : Nat) (ch : Fin 130) (s : State) : Outcome := .next (peerNotify t ch s)
/-- `TWIN_PAIR`: 11 R331; also R64, R332. -/
def execTwinPair (t : Nat) (ch : Fin 130) (s : State) : Outcome := .next (twinPair t ch s)
/-- `MIRROR_SET`: 11 R334. -/
def execMirrorSet (t : Nat) (ch : Fin 130) (s : State) : Outcome := .next (mirrorSet t ch s)
/-- `TWIN_FAILOVER`: 11 R344; also R207, R333, R343. -/
def execTwinFailover (t : Nat) (ch : Fin 130) (s : State) : Outcome := .next (twinFailover t ch s)

end Sys2Proof.Machine
end

