-- ==== Sys2Proof/Machine/Observe.lean ====
section
/-! DEFINITION. Observation (chapter 12): bough counters and their freeze, trace buffers and the export ring, growth rings, sync
flits, and the dormancy cut. -/

namespace Sys2Proof.Machine

/-- The state with the observation state changed. -/
def modObs (f : Obs → Obs) (s : State) : State := { s with obs := f s.obs }

/-- A trace record that carries another time than now (R365). -/
def traceAt (time u ty aux data : Nat) (s : State) : State :=
  { traceRec u ty aux data { s with now := time } with now := s.now }

/-! ### Bough counters (R352 to R355) -/

/-- An event select names an event of Table 12-4 and has no reserved bit. -/
def selectOk (e : Nat) : Bool := decide (e ≤ 21)

/-- The arguments of COUNTER_CONFIG: bough, mode, mask, the 16 selects. -/
def counterArgs (b : Bytes) : Option (Nat × Nat × Nat × List Nat) :=
  if 68 ≤ b.length ∧ zeroAt b 68 (b.length - 68) = true then
    some (u8At b 0, u8At b 1, u16At b 2, (List.range 16).map fun j => u32At b (4 + 4 * j))
  else none

/-- COUNTER_CONFIG on a bough (R352). Log entry 99 (DEDUCED). -/
def configCounters (mode mask : Nat) (sel : List Nat) (c : BoughCtr) : BoughCtr :=
  let named := fun (j : Fin 16) => mask.testBit j.val
  { c with
    mode := mode, lastMask := mask
    selects := (fins 16).foldl (fun a j => if named j then vset a j (sel.getD j.val 0) else a) c.selects
    counts := (fins 16).foldl (fun a j => if named j then vset a j 0 else a) c.counts
    latched := Vector.replicate 16 0, latchSeq := 0
    followed := if mode = 2 ∧ c.mode = 2 then c.followed else none
    late := mode == 2 && c.mode == 2 && c.late }

/-- COUNTER_CONFIG (R352). -/
def counterConfig (t : Nat) (ch : Fin 130) (s : State) : State :=
  onCmd 0x0800 t ch counterArgs
    (fun _ a => decide (a.1 < 64 ∧ a.2.1 ≤ 2) &&
      a.2.2.2.all selectOk)
    (fun r a s => answer ch r stOk []
      (modBoughCtr a.1 (configCounters a.2.1 a.2.2.1 a.2.2.2) (growCounters a.1 s))) s

/-- OBS_FREEZE_CTRL.ARM: the freeze holds from OBS_FREEZE_AT. Log entry 100 (DEDUCED). -/
def armFreeze (s : State) : State := modObs (fun o => { o with freezeTime := some (max o.freezeAt s.now) }) s

/-- OBS_FREEZE_CTRL.NOW: OBS_FREEZE_AT becomes 2 µs from now, and the freeze is armed. -/
def nowFreeze (s : State) : State := armFreeze (modObs (fun o => { o with freezeAt := s.now + 2000 }) s)

/-- OBS_FREEZE_CTRL.THAW: the thaw holds from OBS_FREEZE_AT; a freeze still to come is cancelled.
Log entry 100 (DEDUCED). -/
def armThaw (s : State) : State :=
  modObs (fun o => { o with
    thawTime := some (max o.freezeAt s.now)
    freezeTime := o.freezeTime.filter fun f => decide (f ≤ s.now) }) s

/-- Mode-1 counters are stopped at this instant: the freeze has begun, and no later thaw has.
Log entry 100 (DEDUCED). -/
def frozenNow (s : State) : Bool :=
  match s.obs.freezeTime with
  | some f => decide (f ≤ s.now) && (match s.obs.thawTime with
    | some h => decide (h < f ∨ s.now < h)
    | none => true)
  | none => false

/-- FREEZE_TIME_REACHED: the mode-1 counters of a bough stop or start as its time replica demands (R354).
Log entry 100 (DEDUCED). -/
def freezeTimeReached (t : Nat) (b : Fin 64) (s : State) : State :=
  let s := s.at t
  let c := vget s.obs.boughs b
  if c.frozen = frozenNow s then s
  else modBoughCtr b.val (fun c => { c with frozen := frozenNow s }) (growCounters b.val s)

/-! ### Trace (R357 to R362) -/

/-- An island holds a unit of Table 12-1. -/
def tracedIsland (i : Nat) : Bool := (List.range 82).any fun u => unitIsland u == i

/-- TRACE_CONFIG (R358). Log entry 101 (DESIGN CHOICE). -/
def traceConfig (t : Nat) (ch : Fin 130) (s : State) : State :=
  onCmd 0x0801 t ch (parseArgs [1, 1, 2])
    (fun _ a => tracedIsland (a.headD 0) && decide (8 ≤ a.getD 2 0 ∧ a.getD 2 0 ≤ 16))
    (fun r a s =>
      let i := a.headD 0
      let m := s.obs.traceMask
      let rest := if m.testBit i then m - 2 ^ i else m
      answer ch r stOk [] (modObs (fun o => { o with
        traceMask := rest + bit i (decide (a.getD 1 0 ≠ 0)), traceK := a.getD 2 0
        traceKs := tset i (a.getD 2 0) o.traceKs }) s)) s

/-- The entries of a growth ring, oldest first, EMPTY slots before them (R362). -/
def ringEntries (s : State) (u : Nat) : List Bytes :=
  let r := tgetD u [] s.obs.rings
  List.replicate (256 - r.length) (zeros 16) ++ r.reverse

/-- RING_READ (R362). -/
def ringRead (t : Nat) (ch : Fin 130) (s : State) : State :=
  onCmd 0x0804 t ch (parseArgs [1, 2, 2])
    (fun _ a => decide (a.headD 0 ≤ 81 ∧ 1 ≤ a.getD 2 0 ∧ a.getD 2 0 ≤ 128 ∧ a.getD 1 0 + a.getD 2 0 ≤ 256))
    (fun r a s =>
      answer ch r stOk (((ringEntries s (a.headD 0)).drop (a.getD 1 0)).take (a.getD 2 0)).flatten s) s

/-- JOURNAL_CONFIG (07 R204): the size from the next device reset. Log entry 117 (DEDUCED). -/
def journalConfig (t : Nat) (ch : Fin 130) (s : State) : State :=
  onCmd 0x0805 t ch (parseArgs [4]) (fun _ a => decide (256 ≤ a.headD 0 ∧ a.headD 0 ≤ 4096)) (fun r a s =>
    answer ch r stOk [] (modMm (fun m => { m with journalNext := a.headD 0 }) s)) s

/-- The unit sleeps (R363): Crown in QUIET; Crown and the token engine in NAP. Log entry 105 (DEDUCED). -/
def unitAsleep (s : State) (u : Nat) : Bool :=
  let crown := decide (u < 64)
  match s.pwr.st with
  | .run | .entering => false
  | .quiet => crown
  | .leaving => if s.pwr.phase = 1 then crown else if s.pwr.phase = 2 then crown || u == 81 else true
  | .nap => crown || u == 81
  | _ => true

/-- Records of a trace segment, and the bytes of one. -/
def segRecords : Nat := 786432
def segBytes : Nat := 0xC00000

/-- A record drained into its unit's segment (R359); a record overwritten there that the export still lacked is lost to it
(R360). Log entry 102 (DEDUCED). -/
def drainOne (u : Nat) (b : Bytes) (s : State) : State :=
  let k := tgetD u 0 s.obs.segPtr
  let wrapped := decide (segRecords ≤ k)
  let s := rawWrite (traceBase s + u * segBytes + 16 * (k % segRecords)) b s
  modObs (fun o =>
    let rest := o.segUncopied.filter fun e => !(wrapped && e.1 == u && e.2.1 + segRecords == k)
    { o with
      segPtr := tset u (k + 1) o.segPtr
      overwritten := if wrapped then sat32 (o.overwritten + 1) else o.overwritten
      segUncopied := if o.exportOn then rest ++ [(u, k, b)] else rest }) s

/-- A unit's buffer drained; a DROP record tells of the records lost (R359). -/
def drainUnit (u : Nat) (s : State) : State :=
  let buf := tgetD u [] s.obs.bufs
  let lost := tgetD u 0 s.obs.lostRecs
  let s := buf.foldl (fun s e => drainOne u e.2 s) (modObs (fun o => { o with bufs := tdel u o.bufs }) s)
  if lost = 0 then s
  else
    traceRec u 0x06 0 (sat32 lost) (modObs (fun o =>
      { o with lostRecs := tdel u o.lostRecs, dropped := sat32 (o.dropped + lost) }) s)

/-- TRACE_DRAIN: 1,024 records wait, or the oldest has waited 100 µs. -/
def traceDrain (t : Nat) (u : Fin 82) (s : State) : State :=
  let s := s.at t
  let buf := tgetD u.val [] s.obs.bufs
  let old : Bool := match buf with
    | e :: _ => decide (e.1 + 100000 ≤ s.now)
    | [] => false
  if hbmOpen s && (old || decide (1024 ≤ buf.length)) then drainUnit u.val s else s

/-- Records that the export ring has room for (R360). -/
def exportRoom (o : Obs) : Nat :=
  let cap := o.exportSize / 16
  cap - min cap ((o.exportHead + 2 ^ 32 - o.exportTail % 2 ^ 32) % 2 ^ 32)

/-- A record copied to the export ring in the PF's host memory. Log entry 102 (DEDUCED). -/
def exportOne (b : Bytes) (s : State) : State :=
  let o := s.obs
  emit (.hostWrite 128 (o.exportBase + 16 * (o.exportHead % (o.exportSize / 16))) b)
    (modObs (fun o => { o with exportHead := (o.exportHead + 1) % 2 ^ 32 }) s)

/-- TRACE_EXPORT: the drained records copied, in drain order, while the ring has room (R360).
Log entry 102 (DEDUCED). -/
def traceExport (t : Nat) (s : State) : State :=
  let s := s.at t
  if !s.obs.exportOn || !s.pwr.pcieUp then s
  else
    let n := exportRoom s.obs
    let go := s.obs.segUncopied.take n
    go.foldl (fun s e => exportOne e.2.2 s) (modObs (fun o => { o with segUncopied := o.segUncopied.drop n }) s)

/-- The hart of a unit that samples its PC. -/
def unitHart (u : Nat) : Option Hart := if u < 64 then some (.twig (finOf 64 u)) else if u = 64 then some .root else none

/-- A debug hart's state. -/
def hartState (s : State) (h : Hart) : HartState :=
  match h with
  | .twig b => tgetD b.val HartState.reset s.obs.harts
  | .root => s.obs.rootHart

/-- The state with a debug hart changed. -/
def modHart (h : Hart) (f : HartState → HartState) (s : State) : State :=
  match h with
  | .twig b => modObs (fun o => { o with harts := tset b.val (f (hartState s h)) o.harts }) s
  | .root => modObs (fun o => { o with rootHart := f o.rootHart }) s

/-- The stall codes of a unit (Table 12-7): Root uses four of them. -/
def stallOk (u stall : Nat) : Bool := if u = 64 then [0, 1, 11].contains stall else decide (stall ≤ 9)

/-- AUX of a PC sample: the stall code, the partition, and whether the bough is owned.
Log entry 101 (DESIGN CHOICE). -/
def sampleAux (s : State) (u stall : Nat) : Nat :=
  if u < 64 then
    let b := bough s (finOf 64 u)
    stall + (if b.st = .active then 256 * b.owner + 0x8000 else 0)
  else stall

/-- The nanoseconds between two samples of a unit: 2^k cycles of its core, 1.0 GHz in a bough and 1.5 GHz in Root (14 R427).
Log entry 101 (DESIGN CHOICE). -/
def sampleNs (s : State) (u : Nat) : Nat :=
  let n := 2 ^ tgetD (unitIsland u) 12 s.obs.traceKs
  if u = 64 then n * 2 / 3 else n

/-- A unit's next sample is due. Log entry 101 (DESIGN CHOICE). -/
def sampleDue (s : State) (u : Nat) : Bool :=
  match tget u s.obs.sampledAt with
  | some x => decide (x + sampleNs s u ≤ s.now)
  | none => true

/-- PC_SAMPLE (R357): once in 2^k cycles of a core; a core in debug mode reports HALTED.
Log entry 101 (DESIGN CHOICE). -/
def pcSample (t : Nat) (u : Fin 82) (pc : BitVec 32) (stall : Nat) (s : State) : State :=
  let s := s.at t
  match unitHart u.val with
  | none => s
  | some h =>
    let halted := (hartState s h).halted
    if !s.obs.traceMask.testBit (unitIsland u.val) || unitAsleep s u.val || !(halted || stallOk u.val stall)
        || !sampleDue s u.val then s
    else
      let s := modObs (fun o => { o with sampledAt := tset u.val s.now o.sampledAt }) s
      traceRec u.val 0x01 (sampleAux s u.val (if halted then 10 else stall)) pc.toNat s

/-! ### Sync flits (R364, R365) -/

/-- SYNC_TX: a SYNC flit is due on a port; it is stamped at its composition. -/
def syncTx (t : Nat) (p : Fin 8) (s : State) : State :=
  let s := s.at t
  let x := port s p
  let every := s.obs.syncInterval
  if x.phys.st ≠ 8 ∨ x.link.st ≠ .up ∨ every = 0 ∨ s.now < x.link.lastSync + every * 1000 then s
  else
    let b := leBytes 2 (ownChip s) ++ leBytes 1 p.val ++ zeros 1 ++ leBytes 4 x.link.syncSeq ++ leBytes 8 s.now
    queueMsg p 7 4 0 none b
      (modLink p (fun l => { l with lastSync := s.now, syncSeq := (l.syncSeq + 1) % 2 ^ 32 }) s)

/-- SYNC_RX: the acceptance of a SYNC flit and its sender's time are recorded. Log entry 105 (DEDUCED). -/
def syncRx (t : Nat) (s : State) : State :=
  let s := s.at t
  match takeMsg (fun m => m.typ == 4) s with
  | none => s
  | some (m, s) =>
    match m.port with
    | none => s
    | some p =>
      let sq := u32At m.bytes 4 % 65536
      traceAt (u64At m.bytes 8) (65 + p.val) 0x0F sq 0
        (traceAt m.at_ (65 + p.val) 0x0E sq (u16At m.bytes 0 % 1024 + bit 31 m.suspect) s)

/-! ### The dormancy cut (R374 to R381) -/

/-- The state with the cut changed. -/
def modCut (f : Cut → Cut) (s : State) : State := modObs (fun o => { o with cut := f o.cut }) s

/-- The map in a slot of the participant maps. -/
def cutMap (s : State) (off : Nat) : Nat := ofLe (Mem.read 0 s.obs.maps off 128)

/-- The peer chip of a port is a participant. -/
def peerInMap (s : State) (p : Fin 8) : Bool :=
  match (port s p).link.peer with
  | some c => s.obs.cut.scope == 1 && s.obs.cut.map.testBit c
  | none => false

/-- The checks of CUT_ARM (R375). -/
def cutArmOk (s : State) (a : List Nat) : Bool :=
  let off := a.getD 2 0
  decide (a.getD 1 0 ≤ 1) &&
    (a.getD 1 0 == 0 || (decide (0xC000 ≤ off ∧ off < 0xE000) && off % 128 == 0 &&
      (match s.txn.chip with
       | some c => (cutMap s off).testBit c
       | none => false)))

/-- CUT_ARM (R375). -/
def cutArm (t : Nat) (ch : Fin 130) (s : State) : State :=
  onCmd 0x0802 t ch (parseArgs [4, 1, 8]) cutArmOk (fun r a s =>
    if s.obs.cut.st ≠ .idle then answer ch r stBusy [] s
    else
      let map := if a.getD 1 0 = 1 then cutMap s (a.getD 2 0) else 0
      answer ch r stOk [] (modCut (fun c =>
        { Cut.reset with st := .armed, scope := a.getD 1 0, id := a.headD 0, map := map, onBreak := c.onBreak,
                         time := c.time, ignored := c.ignored }) s)) s

/-- The units that stop (Table 12-8): boughs, hubs, the token engine. -/
def stoppingUnits (s : State) : List Nat := ((List.range 64) ++ [73, 74, 81]).filter fun u => !unitAsleep s u

/-- Every stopping unit writes a record that carries the cut_id. Log entry 103 (DEDUCED). -/
def cutRecords (ty : Nat) (s : State) : State :=
  (stoppingUnits s).foldl (fun s u => traceRec u ty (s.obs.cut.id % 65536) 0 s) s

/-- The armed cut fires (R376): nothing that stops starts anything any more. How many units still finish is not fixed.
Log entry 103 (DEDUCED). -/
def fireCut (origin hops : Nat) (s : State) : State :=
  if s.obs.cut.st ≠ .armed then s
  else
    let d := drawNat s
    cutRecords 0x09 (modCut (fun c => { c with
      st := .firing, firedAt := s.now, origin := origin, hops := hops, waiting := d.1 % 128 }) d.2)

/-- OBS_CUT_CTRL.FIRE on this chip. -/
def fireHere (s : State) : State := fireCut (ownChip s) 0 s

/-- FIRE. -/
def fire (t : Nat) (s : State) : State := fireHere (s.at t)

/-- CUT_TAKEN: every stopping unit has stopped, 50 µs after FIRING at the latest; MARKERs go to the participants (R376, R377).
Log entry 103 (DEDUCED). -/
def cutTaken (t : Nat) (s : State) : State :=
  let s := s.at t
  if s.obs.cut.st ≠ .firing then s
  else
    let s := modCut (fun c => { c with st := .taken, time := min s.now (c.firedAt + 50000), waiting := 0 }) s
    let c := s.obs.cut
    let b := leBytes 4 c.id ++ leBytes 2 c.origin ++ leBytes 2 (ownChip s) ++ leBytes 8 c.time ++ leBytes 1 c.hops ++ zeros 7
    (fins 8).foldl (fun s p =>
      if (port s p).phys.st = 8 ∧ peerInMap s p = true then
        queueMsg p 7 3 0 none b (modCut (fun c => { c with sent := vset c.sent p true }) s)
      else s) s

/-- The peer's MARKER of the cut was accepted at a port: its channel closed then (`closeChannel`).
Log entry 103 (DEDUCED). -/
def channelClosed (s : State) (p : Fin 8) : Bool := (vget s.obs.cut.chanClosed p).any (·.isSome)

/-- MARKER: it fires the armed cut, or is the one that closed the channel state of its port, or is ignored (R375, R378).
Log entry 103 (DEDUCED). -/
def marker (t : Nat) (s : State) : State :=
  let s := s.at t
  match takeMsg (fun m => m.typ == 3) s with
  | none => s
  | some (m, s) =>
    let c := s.obs.cut
    let ours := fun (p : Fin 8) => c.st != .idle && c.id == u32At m.bytes 0 && peerInMap s p && !vget c.received p
      && channelClosed s p
    match m.port with
    | none => s
    | some p =>
      if ours p then
        let s := modCut (fun c => { c with received := vset c.received p true }) s
        fireCut (u16At m.bytes 4 % 1024) (u8At m.bytes 16 + 1) s
      else modCut (fun c => { c with ignored := sat32 (c.ignored + 1) }) s

/-- The flits of a VC's channel state (R378): those held, but for the ones accepted after the peer's MARKER; VC4 and VC7 form no part of it.
Log entry 103 (DEDUCED). -/
def cutFlits (s : State) (p v : Fin 8) : Nat :=
  if !cutStopped s || v == 4 || v == 7 then 0
  else
    let r := vcRx s p v
    match vget (vget s.obs.cut.chanClosed p) v with
    | some k => r.flits.length - ((r.accepted - r.dropped) - k)
    | none => r.flits.length

/-- Every bough's misses are counted afresh from now (13 R387). Log entry 104 (DEDUCED). -/
def freshBeats (s : State) : State :=
  { s with cmb := { s.cmb with beats := s.cmb.beats.map fun b => { b with lastBeat := s.now, tilesAt := s.now } } }

/-- A timer suspended since `from` keeps the time it had left (R379). -/
def shiftTimer (since now x : Nat) : Nat := x + (now - max x since)

/-- The suspended timers resume at the release (R379). -/
def resumeTimers (since : Nat) (s : State) : State :=
  let sh := shiftTimer since s.now
  let held := fun (m : InMsg) => if m.vc = 4 ∨ m.vc = 7 then m else { m with at_ := sh m.at_ }
  let s := modTxn (fun x => { x with
    txns := x.txns.map fun e => (e.1, { e.2 with sentAt := e.2.sentAt.map sh })
    inbox := x.inbox.map held
    readAhead := x.readAhead.map fun e => { e with at_ := sh e.at_ } }) s
  let s := modCol (fun c => { c with
    slots := c.slots.map fun e => (e.1, { e.2 with op := e.2.op.map fun o => { o with timer := sh o.timer } })
    parked := c.parked.map held }) s
  let flit := fun (f : LandFlit) => { f with at_ := sh f.at_ }
  let rx := fun (l : Link) (v : Fin 8) =>
    if v = 4 ∨ v = 7 then vget l.rx v else { vget l.rx v with flits := (vget l.rx v).flits.map flit }
  let s := (fins 8).foldl (fun s p => modLink p (fun l => { l with rx := (fins 8).foldl (fun a v => vset a v (rx l v)) l.rx }) s) s
  freshBeats s

/-- The stopped units go on (R381): what links lost meanwhile is settled first.
Log entries 103 (DEDUCED), 104 (DEDUCED). -/
def releaseCut (s : State) : State :=
  let c := s.obs.cut
  let s := modCut (fun c => { c with st := .idle, waiting := 0 }) s
  let s := if c.st = .taken then resumeTimers c.time s else s
  let s := cutRecords 0x0A s
  let s := c.lost.eraseDups.foldl (fun s p => settlePort (finOf 8 p) s) s
  mirrorResume (modCut (fun c => { c with lost := [] }) s)

/-- CUT_RELEASE (R381). -/
def cutRelease (t : Nat) (ch : Fin 130) (s : State) : State :=
  onCmd 0x0803 t ch (parseArgs [4]) (fun s a => s.obs.cut.st != .idle && s.obs.cut.id == a.headD 0) (fun r _ s =>
    answer ch r stOk [] (if s.obs.cut.st = .armed then modCut (fun c => { c with st := .idle }) s else releaseCut s)) s

/-- `COUNTER_CONFIG`: 12 R352. -/
def execCounterConfig (t : Nat) (ch : Fin 130) (s : State) : Outcome := .next (counterConfig t ch s)
/-- `TRACE_CONFIG`: 12 R358. -/
def execTraceConfig (t : Nat) (ch : Fin 130) (s : State) : Outcome := .next (traceConfig t ch s)
/-- `CUT_ARM`: 12 R375. -/
def execCutArm (t : Nat) (ch : Fin 130) (s : State) : Outcome := .next (cutArm t ch s)
/-- `CUT_RELEASE`: 12 R381; also R378, R379. -/
def execCutRelease (t : Nat) (ch : Fin 130) (s : State) : Outcome := .next (cutRelease t ch s)
/-- `RING_READ`: 12 R362. -/
def execRingRead (t : Nat) (ch : Fin 130) (s : State) : Outcome := .next (ringRead t ch s)
/-- `JOURNAL_CONFIG`: 07 R204. -/
def execJournalConfig (t : Nat) (ch : Fin 130) (s : State) : Outcome := .next (journalConfig t ch s)
/-- `TRACE_DRAIN`: 12 R359. -/
def execTraceDrain (t : Nat) (unit : Fin 82) (s : State) : Outcome := .next (traceDrain t unit s)
/-- `TRACE_EXPORT`: 12 R360. -/
def execTraceExport (t : Nat) (s : State) : Outcome := .next (traceExport t s)
/-- `PC_SAMPLE`: 12 R357. -/
def execPcSample (t : Nat) (unit : Fin 82) (pc : BitVec 32) (stall : Nat) (s : State) : Outcome :=
  .next (pcSample t unit pc stall s)
/-- `SYNC_TX`: 12 R364. -/
def execSyncTx (t : Nat) (p : Fin 8) (s : State) : Outcome := .next (syncTx t p s)
/-- `SYNC_RX`: 12 R365. -/
def execSyncRx (t : Nat) (s : State) : Outcome := .next (syncRx t s)
/-- `FREEZE_ARM`: 12 R354. -/
def execFreezeArm (t : Nat) (s : State) : Outcome := .next (armFreeze (s.at t))
/-- `FREEZE_NOW`: 12 R354. -/
def execFreezeNow (t : Nat) (s : State) : Outcome := .next (nowFreeze (s.at t))
/-- `THAW`: 12 R354. -/
def execThaw (t : Nat) (s : State) : Outcome := .next (armThaw (s.at t))
/-- `FREEZE_TIME_REACHED`: 12 R354. -/
def execFreezeTimeReached (t : Nat) (b : Fin 64) (s : State) : Outcome := .next (freezeTimeReached t b s)
/-- `FIRE`: 12 R376; also R374, R375. -/
def execFire (t : Nat) (s : State) : Outcome := .next (fire t s)
/-- `MARKER`: 12 R375; also R374, R376, R378. -/
def execMarker (t : Nat) (s : State) : Outcome := .next (marker t s)
/-- `CUT_TAKEN`: 12 R377; also R374, R376, R379. -/
def execCutTaken (t : Nat) (s : State) : Outcome := .next (cutTaken t s)

end Sys2Proof.Machine
end

