-- ==== Sys2Proof/Machine/Debug.lean ====
section
/-! DEFINITION. Breakpoints and debug access (12 R366 to R373): harts, the two Debug Modules (the RISC-V Debug Specification
0.13.2 that R367 names), and the requesting side of remote debug access. -/

namespace Sys2Proof.Machine

/-- DEBUG_ENABLE of the verified image (R366). -/
def debugOn (s : State) : Bool := s.cfg.debugEnable && (s.boot.stage == 5 || s.boot.stage == 6)

/-! ### Harts (R367 to R371) -/

/-- A hart that debug requests cannot reach: a bough of a SEALED partition (R368). -/
def hartSealed (s : State) (h : Hart) : Bool :=
  match h with
  | .root => false
  | .twig b => (bough s b).st == .active && ((part s (bough s b).owner).map (·.mode)) == some 2

/-- The observed unit of a hart. -/
def hartUnit (h : Hart) : Nat :=
  match h with
  | .root => 64
  | .twig b => b.val

/-- dcsr with a cause. -/
def withCause (d cause : Nat) : Nat := d - (d / 64 % 8) * 64 + cause * 64

/-- The limits of what Root has taken run on from where they stood: no limit runs while Root is hung (02 R41).
Log entries 27 (DEDUCED), 143 (DEDUCED). -/
def resumeLimits (pause : Nat) (s : State) : State :=
  { s with root := { s.root with chans := s.root.chans.map fun c => { c with
      cur := if c.st = .taken then c.cur.map fun r => { r with since := r.since + pause } else c.cur
      tickets := c.tickets.map fun k => { k with since := k.since + pause } } } }

/-- A hart enters debug mode (R369, R370): `aux` as HALT records it, the cause as dcsr records it.
Log entry 107 (DEDUCED). -/
def haltHart (h : Hart) (aux cause : Nat) (regs : CoreRegs) (s : State) : State :=
  let s := modHart h (fun x => { x with halted := true, regs := regs, dcsr := withCause x.dcsr cause }) s
  let s := traceRec (hartUnit h) 0x07 aux regs.pc.toNat s
  if h = .root then rootStops s else s

/-- Root serves again from this instant: the twig beats missed meanwhile are discarded (R370).
Log entry 113 (DEDUCED). -/
def rootServes (s : State) : State :=
  let s := resumeLimits (s.now - s.root.downAt) s
  takePosted (freshBeats { s with root := { s.root with alive := true, aliveAt := s.now },
                                  cmb := { s.cmb with lastRootBeat := s.now } })

/-- A hart leaves debug mode (R369, R370). Log entry 107 (DEDUCED). -/
def resumeHart (h : Hart) (s : State) : State :=
  let x := hartState s h
  if !x.halted then s
  else
    let s := modHart h (fun x => { x with halted := false, resumeAck := true }) s
    let s := traceRec (hartUnit h) 0x08 0 x.regs.pc.toNat s
    let s := match h with
      | .twig b => { s with cmb := { s.cmb with beats := vmod s.cmb.beats b fun x =>
          { x with lastBeat := s.now, tilesAt := s.now } } }
      | .root => s
    if h = .root ∧ s.cmb.restarting = false then rootServes s else s

/-- The hart can be halted: debug access exists, the hart is within its reach, runs, and does not sleep. -/
def mayHalt (s : State) (h : Hart) : Bool :=
  debugOn s && !hartSealed s h && !(hartState s h).halted && !unitAsleep s (hartUnit h)

/-- HALT_REQUEST: a hart that steps halts after one instruction; any other by a Debug Module's halt request.
Log entry 107 (DEDUCED). -/
def haltRequest (t : Nat) (h : Hart) (regs : CoreRegs) (s : State) : State :=
  let s := s.at t
  if !mayHalt s h then s
  else if (hartState s h).dcsr.testBit 2 then haltHart h 4 4 regs s else haltHart h 1 3 regs s

/-- RESUME_REQUEST. -/
def resumeRequest (t : Nat) (h : Hart) (s : State) : State :=
  let s := s.at t
  if debugOn s && !hartSealed s h then resumeHart h s else s

/-- A trigger of the hart matches something. Log entry 107 (DEDUCED). -/
def triggerSet (x : HartState) : Bool := x.tdata1.toList.any fun v => v % 8 != 0

/-- TRIGGER_FIRE: the hart halts; with ON_BREAK an armed cut fires (R371). Log entry 107 (DEDUCED). -/
def triggerFire (t : Nat) (h : Hart) (regs : CoreRegs) (s : State) : State :=
  let s := s.at t
  if !mayHalt s h || !triggerSet (hartState s h) then s
  else
    let s := haltHart h 2 2 regs s
    if s.obs.cut.onBreak then fireHere s else s

/-! ### Registers of a halted hart -/

/-- A register by its abstract number; none for one that R367 does not let the model name.
Log entry 106 (PRESUMED). -/
def hartGet (x : HartState) (n : Nat) : Option Nat :=
  if 0x1000 ≤ n ∧ n ≤ 0x101F then some (x.regs.x.getD (n - 0x1000) 0).toNat
  else match n with
    | 0x300 => some x.regs.mstatus.toNat
    | 0x341 => some x.regs.mepc.toNat
    | 0x342 => some x.regs.mcause.toNat
    | 0x343 => some x.regs.mtval.toNat
    | 0x7A0 => some x.tselect
    | 0x7A1 => some (vget x.tdata1 (finOf 4 x.tselect))
    | 0x7A2 => some (vget x.tdata2 (finOf 4 x.tselect))
    | 0x7B0 => some x.dcsr
    | 0x7B1 => some x.regs.pc.toNat
    | _ => none

/-- The bits of `v` under a mask, and those of `old` elsewhere. -/
def masked (mask old v : Nat) : Nat := ((old ^^^ (old &&& mask)) ||| (v &&& mask)) % 2 ^ 32

/-- A register written by its abstract number. Log entry 106 (PRESUMED). -/
def hartSet (n v : Nat) (x : HartState) : HartState :=
  let w := BitVec.ofNat 32 v
  if 0x1001 ≤ n ∧ n ≤ 0x101F then { x with regs := { x.regs with x := x.regs.x.set (n - 0x1000) w } }
  else match n with
    | 0x300 => { x with regs := { x.regs with mstatus := w } }
    | 0x341 => { x with regs := { x.regs with mepc := w } }
    | 0x342 => { x with regs := { x.regs with mcause := w } }
    | 0x343 => { x with regs := { x.regs with mtval := w } }
    | 0x7A0 => { x with tselect := if v < 4 then v else x.tselect }
    | 0x7A1 => { x with tdata1 := vset x.tdata1 (finOf 4 x.tselect) (0x20001000 + (v &&& 0x08000FDF)) }
    | 0x7A2 => { x with tdata2 := vset x.tdata2 (finOf 4 x.tselect) v }
    | 0x7B0 => { x with dcsr := masked 0xBE17 x.dcsr v }
    | 0x7B1 => { x with regs := { x.regs with pc := w } }
    | _ => x

/-! ### The Debug Modules (R367) -/

/-- A Debug Module: the Root core's or the twig cores'. -/
def dmOf (s : State) (root : Bool) : DebugModule := if root then s.obs.rootDm else s.obs.twigDm

/-- The state with a Debug Module changed. -/
def modDm (root : Bool) (f : DebugModule → DebugModule) (s : State) : State :=
  if root then modObs (fun o => { o with rootDm := f o.rootDm }) s else modObs (fun o => { o with twigDm := f o.twigDm }) s

/-- The hart that a module has selected; none where it does not exist. -/
def dmHart (root : Bool) (d : DebugModule) : Option Hart :=
  if root then (if d.hartsel = 0 then some .root else none)
  else if h : d.hartsel < 64 then some (.twig ⟨d.hartsel, h⟩) else none

/-- The program buffer runs on the hart: what its instructions leave is not fixed by this model's rules.
Log entry 106 (PRESUMED). -/
def runBuffer (root : Bool) (h : Hart) (s : State) : State :=
  let b := drawBytes 128 s
  let e := drawNat b.2
  let xs := (piecesOf 4 b.1).map fun w => BitVec.ofNat 32 (ofLe w)
  let s := modHart h (fun x => { x with regs := { x.regs with x := xs.set 0 0 } }) e.2
  modDm root (fun d => { d with cmderr := if e.1 % 2 = 0 then 0 else 3 }) s

/-- The transfer of an Access Register command. Log entry 106 (PRESUMED). -/
def dmTransfer (root : Bool) (h : Hart) (cmd : Nat) (s : State) : State :=
  let n := cmd % 65536
  let d := dmOf s root
  if !cmd.testBit 17 then s
  else
    match hartGet (hartState s h) n with
    | some v =>
      if cmd.testBit 16 then modHart h (hartSet n d.data0) s else modDm root (fun d => { d with data0 := v }) s
    | none =>
      -- another CSR of the core, which the spec does not list, or no register
      let v := drawNat s
      let e := drawNat v.2
      if 0x1000 ≤ n then modDm root (fun d => { d with cmderr := 3 }) s
      else if e.1 % 2 = 0 then
        (if cmd.testBit 16 then e.2 else modDm root (fun d => { d with data0 := v.1 % 2 ^ 32 }) e.2)
      else modDm root (fun d => { d with cmderr := 3 }) e.2

/-- The command register executes: Access Register of 32 bits on a halted hart. Log entry 106 (PRESUMED). -/
def dmExecute (root : Bool) (s : State) : State :=
  let d := dmOf s root
  let cmd := d.command
  let err := fun (e : Nat) => modDm root (fun d => { d with cmderr := e }) s
  if d.cmderr ≠ 0 then s
  else if cmd / 2 ^ 24 ≠ 0 then err 2
  else
    match dmHart root d with
    | none => err 4
    | some h =>
      if !(hartState s h).halted || hartSealed s h then err 4
      else if cmd.testBit 17 ∧ cmd / 2 ^ 20 % 8 ≠ 2 then err 2
      else
        let s := dmTransfer root h cmd s
        let s := if cmd.testBit 19 then
            modDm root (fun d => { d with command := cmd - cmd % 65536 + (cmd + 1) % 65536 }) s else s
        if cmd.testBit 18 ∧ (dmOf s root).cmderr = 0 then runBuffer root h s else s

/-- The halted harts of a module's word of 32. -/
def haltSum (s : State) (root : Bool) (base : Nat) : Nat :=
  if root then bit 0 (hartState s .root).halted
  else ((List.range 32).map fun i =>
    bit i (decide (base + i < 64) && (hartState s (.twig (finOf 64 (base + i)))).halted)).foldl (· + ·) 0

/-- dmstatus: version 2 (0.13), authenticated, and the selected hart's state. Log entry 17 (PRESUMED). -/
def dmStatus (s : State) (root : Bool) : Nat :=
  let both := fun (i : Nat) (b : Bool) => bit i b + bit (i + 1) b
  let base := 2 + bit 7 true
  match dmHart root (dmOf s root) with
  | none => base + both 14 true
  | some h =>
    let x := hartState s h
    let un := hartSealed s h
    base + both 8 (x.halted && !un) + both 10 (!x.halted && !un) + both 12 un + both 16 x.resumeAck

/-- A register of a Debug Module as it reads. -/
def dmValue (s : State) (root : Bool) (a : Nat) : Nat :=
  let d := dmOf s root
  if !debugOn s then 0
  else if a = 0x10 then bit 0 d.active + (if d.active then d.hartsel % 1024 * 2 ^ 16 + d.hartsel / 1024 % 1024 * 2 ^ 6 else 0)
  else if !d.active then 0
  else if 0x20 ≤ a ∧ a ≤ 0x27 then vget d.progbuf (finOf 8 (a - 0x20))
  else match a with
    | 0x04 => d.data0
    | 0x11 => dmStatus s root
    | 0x13 => bit 0 (haltSum s root 0 != 0) + bit 1 (!root && haltSum s root 32 != 0)
    | 0x16 => 1 + d.cmderr * 2 ^ 8 + 8 * 2 ^ 24
    | 0x18 => d.autoexec
    | 0x40 => haltSum s root (d.hartsel / 32 * 32)
    | _ => 0

/-- An access to data0 or to the program buffer runs the command again where abstractauto asks for it. -/
def dmAuto (root : Bool) (a : Nat) (s : State) : State :=
  let d := dmOf s root
  let auto := (a == 0x04 && d.autoexec.testBit 0) || (decide (0x20 ≤ a ∧ a ≤ 0x27) && d.autoexec.testBit (16 + (a - 0x20)))
  if debugOn s && d.active && auto then dmExecute root s else s

/-- A read of a register: its value, and what it sets off. Log entry 17 (PRESUMED). -/
def dmRead (root : Bool) (a : Nat) (s : State) : Nat × State := (dmValue s root a, dmAuto root a s)

/-- A write of dmcontrol. Log entry 17 (PRESUMED). -/
def dmControl (root : Bool) (v : Nat) (s : State) : State :=
  if !v.testBit 0 then modDm root (fun _ => DebugModule.reset) s
  else
    let sel := if root then 0 else v / 2 ^ 16 % 128
    let s := modDm root (fun d => { d with active := true, hartsel := sel, haltreq := v.testBit 31 }) s
    match dmHart root (dmOf s root) with
    | some h =>
      if v.testBit 30 ∧ v.testBit 31 = false ∧ hartSealed s h = false then
        resumeHart h (modHart h (fun x => { x with resumeAck := false }) s)
      else s
    | none => s

/-- A write of a register (R366: nothing while debug access does not exist). Log entry 17 (PRESUMED). -/
def dmWrite (root : Bool) (a v : Nat) (s : State) : State :=
  if !debugOn s then s
  else if a = 0x10 then dmControl root v s
  else if !(dmOf s root).active then s
  else
    let s := if 0x20 ≤ a ∧ a ≤ 0x27 then modDm root (fun d => { d with progbuf := vset d.progbuf (finOf 8 (a - 0x20)) v }) s
      else match a with
        | 0x04 => modDm root (fun d => { d with data0 := v }) s
        | 0x16 =>
          -- cmderr is cleared by ones
          modDm root (fun d => { d with cmderr := d.cmderr ^^^ (d.cmderr &&& (v / 2 ^ 8 % 8)) }) s
        | 0x17 => if (dmOf s root).cmderr = 0 then dmExecute root (modDm root (fun d => { d with command := v }) s) else s
        | 0x18 => modDm root (fun d => { d with autoexec := v &&& 0x00FF0001 }) s
        | _ => s
    dmAuto root a s

/-- DEBUG_MODULE_ACCESS. -/
def debugModuleAccess (t : Nat) (root : Bool) (a : BitVec 7) (w : Option (BitVec 32)) (s : State) : State :=
  let s := s.at t
  if !reaches s .pf then s
  else
    match w with
    | some v => dmWrite root a.toNat v.toNat s
    | none =>
      let x := dmRead root a.toNat s
      emit (.readData .pf (0x10E000 + (if root then 0x200 else 0) + 4 * a.toNat) x.1) x.2

/-! ### Remote debug access: the issuing chip (R372, R373) -/

/-- The state with the remote debug registers changed. -/
def modRdbg (f : RemoteDebug → RemoteDebug) (s : State) : State := modObs (fun o => { o with rdbg := f o.rdbg }) s

/-- A debug message (R372). -/
def debugMsg (op tag off data status : Nat) : Bytes :=
  leBytes 1 op ++ [0] ++ leBytes 2 tag ++ leBytes 4 off ++ leBytes 4 data ++ leBytes 2 status ++ zeros 2

/-- OBS_RDBG_CTRL.GO: one request is sent, and one only is outstanding. -/
def rdbgStart (s : State) : State :=
  let r := s.obs.rdbg
  if !debugOn s || r.waiting.isSome then s
  else
    let s := modRdbg (fun r => { r with done := false, status := 0, waiting := some (r.nextTag, s.now),
                                        nextTag := (r.nextTag + 1) % 65536 }) s
    let p := finOf 8 r.port
    if (port s p).link.st = .up then
      queueMsg p 7 1 0 none (debugMsg (if r.write then 0x61 else 0x60) r.nextTag r.offset (if r.write then r.data else 0) 0) s
    else s

/-- RDBG_GO. -/
def rdbgGo (t : Nat) (s : State) : State := rdbgStart (s.at t)

/-- A remote debug answer of a VC7 message. Log entry 107 (DEDUCED). -/
def isDebugAnswer (m : InMsg) : Bool := m.vc == 7 && m.typ == 1 && (u8At m.bytes 0 == 0xE0 || u8At m.bytes 0 == 0xE1)

/-- DEBUG_ANSWER: the answer to the outstanding request; any other is discarded. Log entry 107 (DEDUCED). -/
def debugAnswer (t : Nat) (s : State) : State :=
  let s := s.at t
  match takeMsg isDebugAnswer s with
  | none => s
  | some (m, s) =>
    let r := s.obs.rdbg
    match r.waiting with
    | some (tag, _) =>
      if tag = u16At m.bytes 2 ∧ m.port = some (finOf 8 r.port) then
        modRdbg (fun r => { r with done := true, status := u16At m.bytes 12, waiting := none,
                                   data := if u8At m.bytes 0 = 0xE0 then u32At m.bytes 8 else r.data }) s
      else s
    | none => s

/-- RDBG_TIMEOUT: no answer within 100 µs. -/
def rdbgTimeout (t : Nat) (s : State) : State :=
  let s := s.at t
  match s.obs.rdbg.waiting with
  | some (_, since) =>
    if since + 100000 ≤ s.now then modRdbg (fun r => { r with done := true, status := stTimeout, waiting := none }) s else s
  | none => s

/-- `TRIGGER_FIRE`: 12 R371; also R367, R369, R375. -/
def execTriggerFire (t : Nat) (h : Hart) (regs : CoreRegs) (s : State) : Outcome := .next (triggerFire t h regs s)
/-- `HALT_REQUEST`: 12 R369; also R367, R368, R370. -/
def execHaltRequest (t : Nat) (h : Hart) (regs : CoreRegs) (s : State) : Outcome := .next (haltRequest t h regs s)
/-- `RESUME_REQUEST`: 12 R369; also R41, R367, R370. -/
def execResumeRequest (t : Nat) (h : Hart) (s : State) : Outcome := .next (resumeRequest t h s)
/-- `DEBUG_MODULE_ACCESS`: 12 R367; also R366. -/
def execDebugModuleAccess (t : Nat) (rootModule : Bool) (addr : BitVec 7) (write : Option (BitVec 32)) (s : State) :
    Outcome := .next (debugModuleAccess t rootModule addr write s)
/-- `RDBG_GO`: 12 R373. -/
def execRdbgGo (t : Nat) (s : State) : Outcome := .next (rdbgGo t s)
/-- `DEBUG_ANSWER`: 12 R373. -/
def execDebugAnswer (t : Nat) (s : State) : Outcome := .next (debugAnswer t s)
/-- `RDBG_TIMEOUT`: 12 R373. -/
def execRdbgTimeout (t : Nat) (s : State) : Outcome := .next (rdbgTimeout t s)

end Sys2Proof.Machine
end

