-- ==== Sys2Proof/Machine/Faults.lean ====
section
/-! DEFINITION. Heartbeats, counted faults, and the bough and Crown resets (13 R383 to R394, R397, R398, R401), with their commands
and the error log's. -/

namespace Sys2Proof.Machine

/-- The state with Cambium changed. -/
def modCmb (f : Cmb → Cmb) (s : State) : State := { s with cmb := f s.cmb }

/-! ### Counted faults (R388, R389) -/

/-- The events of a history that lie within the window that ends now. -/
def inWindow (s : State) (h : List Nat) : Nat := (h.filter fun t => decide (s.now ≤ t + s.cmb.windowS * 1000000000)).length

/-- A reset's cause noted: a fault during a trial boot is recorded for the ROM (15 R457). -/
def noteReset (scope cause bough : Nat) (s : State) : State :=
  let s := modCmb (fun c => { c with last := { scope := scope, cause := cause, bough := bough } }) s
  if cause ≠ 0 ∧ s.boot.trial = true then { s with boot := { s.boot with trialFault := true } } else s

/-- A reset at Crown scope or wider counted against the device, unless a command caused it. -/
def countDevice (cause : Nat) (s : State) : State :=
  if cause = 0 then s
  else modCmb (fun c => { c with deviceHist := keepLast c.crownLimit (c.deviceHist ++ [s.now]) }) s

/-- The device history has reached crown_limit within the window. -/
def deviceReached (s : State) : Bool :=
  s.cmb.crownLimit != 0 && decide (s.cmb.crownLimit ≤ inWindow s s.cmb.deviceHist)

/-- A reset counted against a bough. -/
def countBough (b : Fin 64) (s : State) : State :=
  modCmb (fun c => { c with boughHist := vmod c.boughHist b fun h => keepLast c.boughLimit (h ++ [s.now]) }) s

/-- A bough's history has reached bough_limit within the window. -/
def boughReached (s : State) (b : Fin 64) : Bool :=
  s.cmb.boughLimit != 0 && decide (s.cmb.boughLimit ≤ inWindow s (vget s.cmb.boughHist b))

/-- The RESET entry of the error log. Log entry 111 (DEDUCED). -/
def logReset (island scope cause bough count : Nat) (s : State) : State :=
  logErr 0x0004 island (leBytes 1 scope ++ leBytes 1 cause ++ leBytes 1 bough ++ zeros 1 ++ leBytes 4 count) s

/-- The oldest record in progress on a queue, or 0xFFFF_FFFF. -/
def inProgress (s : State) (n q : Nat) : Nat :=
  match (queue s n q).bind fun x => x.running.head? with
  | some r => r.num
  | none => 0xFFFFFFFF

/-- The RESET record of the journal (R406); where no partition is meant its bytes for one are free.
Log entry 110 (DEDUCED). -/
def journalReset (scope cause bough : Nat) (n : Option Nat) (s : State) : State :=
  let d := drawBytes 2 s
  let who := match n with
    | some n => leBytes 1 n ++ leBytes 1 (genOf s n).toNat
    | none => d.1
  let recs := ((List.range 4).map fun q => leBytes 4 (match n with
    | some n => inProgress s n q
    | none => 0xFFFFFFFF)).flatten
  journal 0x07 (if scope ≤ 2 then 30 else 32)
    (leBytes 1 scope ++ leBytes 1 cause ++ leBytes 1 bough ++ who ++ zeros 3 ++ recs ++ zeros 8)
    (if n.isSome then s else d.2)

/-! ### A reset at device scope is due -/

/-- A device warm reset begins (R390, R396): counted, and turned into the escalation when the history is full (R402).
Log entry 111 (DEDUCED). -/
def startDevice (cause : Nat) (s : State) : State :=
  if s.cmb.devicePending.isSome then s
  else
    let s := countDevice cause s
    let cause := if cause ≠ 0 ∧ deviceReached s = true then 7 else cause
    let s := if cause = 7 then logErr 0x0006 32 (leBytes 2 (inWindow s s.cmb.deviceHist)) s else s
    noteReset 4 cause 0xFF (modCmb (fun c => { c with devicePending := some cause }) { s with root := { s.root with resetAt := none } })

/-! ### Core samples (R398) -/

/-- The first bytes of a core-sample slot, as a device address. -/
def sampleSlot (b : Nat) : Nat := crashBase + 0xA83000 + b * 0x101000

/-- The partition that owns a bough: the one whose mask names it, a retired bough as well (08; R206). -/
def boughPart (s : State) (b : Fin 64) : Option Nat :=
  let x := bough s b
  if x.st ≠ .free then
    (s.mm.parts.find? fun e => e.1 == x.owner && e.2.boughMask.testBit b.val).map (·.1)
  else none

/-- The earliest MATH record in progress of a bough's partition: (number, queue). -/
def boughRecord (s : State) (b : Fin 64) : Nat × Nat :=
  match (boughPart s b).bind fun n => earliestMath s n with
  | some (q, num) => (num, q)
  | none => (0xFFFFFFFF, 0)

/-- The registers of a core sample: PC, and x0 to x31 with the trap CSRs. Log entry 110 (DEDUCED). -/
def sampleRegs (r : Option CoreRegs) : Bytes × Bytes :=
  match r with
  | none => (zeros 4, zeros 144)
  | some r =>
    let w := fun (v : BitVec 32) => leBytes 4 v.toNat
    (w r.pc, fit 128 (r.x.map w).flatten ++ w r.mcause ++ w r.mepc ++ w r.mtval ++ w r.mstatus)

/-- A core sample of a bough (R398, Table 13-5): the generation before the reset is one below the present one.
Log entry 110 (DEDUCED). -/
def coreSample (b : Fin 64) (scope cause : Nat) (regs : Option CoreRegs) (s : State) : State :=
  let d := drawBytes 2 s
  let n := boughPart s b
  let isSealed : Bool := ((n.bind fun n => part s n).map fun p => p.mode == 2).getD false
  let o := s.cfg.sampleO
  let l := if isSealed then 0 else s.cfg.sampleL
  let r := boughRecord s b
  let w := sampleRegs regs
  let who := match n with
    | some n => leBytes 1 n ++ leBytes 1 ((genOf s n) - 1).toNat
    | none => d.1
  let flags := 1 + bit 1 isSealed + bit 2 regs.isNone
  let h := leBytes 4 0x31535243 ++ leBytes 2 1 ++ leBytes 1 b.val ++ leBytes 1 scope ++ leBytes 8 s.now
    ++ leBytes 4 s.root.bootCount ++ who ++ leBytes 1 cause ++ leBytes 1 flags ++ leBytes 4 o ++ leBytes 4 l ++ w.1
    ++ leBytes 4 (vget s.cmb.beats b).stall ++ leBytes 4 r.1 ++ leBytes 4 r.2 ++ w.2 ++ zeros 64
  rawWrite (sampleSlot b.val) (h ++ Mem.read 0 s.crn.scratch (b.val * scratchBytes + o) l)
    (if n.isSome then s else d.2)

/-! ### The bough reset (R392, R393) -/

/-- Every queue of a partition HELD, or resumed. -/
def holdQueues (n : Nat) (held : Bool) (s : State) : State :=
  (List.range 16).foldl (fun s q => modQueue n q (fun x => { x with held := held }) s) s

/-- Another bough of the partition is being reset. Log entry 109 (DEDUCED). -/
def resetUnderWay (s : State) (n : Nat) : Bool :=
  s.cmb.boughPending.any fun e => boughPart s (finOf 64 e.1) == some n

/-- A bough reset begins (R392 steps 1 and 2): a reset of another bough of the partition is joined (R393).
Log entries 108 (DEDUCED), 109 (DEDUCED). -/
def startBough (b : Fin 64) (cause : Nat) (s : State) : State :=
  let n := boughPart s b
  let joined := (n.map fun n => resetUnderWay s n).getD false
  let s := modCmb (fun c => { c with boughPending := tset b.val cause c.boughPending }) s
  let s := if cause ≠ 0 ∧ n.isSome = true then countBough b s else s
  let s := noteReset 1 cause b.val s
  let s := logReset 30 1 cause b.val (inWindow s (vget s.cmb.boughHist b)) s
  let s := journalReset 1 cause b.val n s
  let s := match n with
    | some n => holdQueues n true (if joined then s else genChange n s)
    | none => s
  modBough b (fun x => { x with st := .inReset }) s

/-- The records in progress of a queue complete with PEER_RESET (R392 step 7). -/
def failQueue (n q : Nat) (s : State) : State :=
  let s := undefineDests n q s
  match queue s n q with
  | none => s
  | some x => x.running.foldl (fun s r =>
      match running s n q r.num with
      | some r =>
        completeRecord n q { r with done := true, status := stPeerReset, remote := false, result := [], txnsLeft := 0 }
          stPeerReset s
      | none => s) s

/-- The records in progress of a partition complete, and its queues leave HELD (R392 steps 7 and 8). -/
def failRecords (n : Nat) (s : State) : State :=
  holdQueues n false ((List.range 16).foldl (fun s q => failQueue n q s) s)

/-- The bough reloaded (R392 steps 6 and 9): its scratchpad zeroised, its hart reset, ACTIVE again or FREE. -/
def reviveBough (b : Fin 64) (scope : Nat) (s : State) : State :=
  let n := boughPart s b
  let s := zeroScratch b s
  let s := modHart (.twig b) (fun _ => HartState.reset) s
  let fresh : Beats := { lastBeat := s.now, tiles := 0, tilesAt := s.now, sinceReset := 0, stall := 0 }
  let s := modCmb (fun c => { c with beats := vset c.beats b fresh
                                     quarantine := if c.quarantine = some b.val then none else c.quarantine }) s
  let s := traceRec b.val 0x10 scope 0 s
  let st : BoughState := if n.isSome then .active else .free
  modBough b (fun x => if x.st = .inReset then { x with st := st } else x) s

/-- A bough retired once its counted resets reach bough_limit (R401). Log entry 41 (DEDUCED). -/
def retireBough (b : Fin 64) (cause : Nat) (s : State) : State :=
  if cause = 0 ∨ boughReached s b = false ∨ (bough s b).st ≠ .active then s
  else
    let owner := (bough s b).owner
    let s := modCmb (fun c => { c with retired := c.retired ||| 2 ^ b.val }) s
    logErr 0x0005 30 (leBytes 1 b.val ++ leBytes 1 owner) (modBough b (fun x => { x with st := .retired }) s)

/-- The tickets of a command on an object that run. Log entry 109 (DEDUCED). -/
def ticketsOn (s : State) (cmd : Nat) (o : Obj) : List (Fin 130 × Nat) :=
  (runningTickets s cmd).filter fun k => match findTicket s k.1 k.2 with
    | some x => x.obj == o
    | none => false

/-- BOUGH_RESET: steps 4 to 9 of a bough reset that has begun; `regs` are what the halted core held, none where it did not
halt within 10 µs. Log entry 108 (DEDUCED). -/
def boughReset (t : Nat) (b : Fin 64) (regs : Option CoreRegs) (s : State) : State :=
  let s := s.at t
  match tget b.val s.cmb.boughPending with
  | none => s
  | some cause =>
    let n := boughPart s b
    let s := coreSample b 1 cause regs s
    let s := modCmb (fun c => { c with boughPending := tdel b.val c.boughPending }) s
    let s := match n with
      | some n => if resetUnderWay s n then s else failRecords n s
      | none => s
    let s := retireBough b cause (reviveBough b 1 s)
    let s := (ticketsOn s 0x0900 (.bough b.val)).foldl (fun s k => finishTicket k.1 k.2 stOk [] s) s
    pump s

/-- RESET_BOUGH (R389, R393). Log entry 108 (DEDUCED). -/
def resetBough (t : Nat) (ch : Fin 130) (s : State) : State :=
  onCmd 0x0900 t ch (parseArgs [1])
    (fun s a => decide (a.headD 0 < 64) && (bough s (finOf 64 (a.headD 0))).st != .retired)
    (fun r a s =>
      let b := finOf 64 (a.headD 0)
      if (bough s b).st = .inReset ∨ thas b.val s.cmb.boughPending = true ∨ s.cmb.crownPending.isSome = true
          ∨ s.cmb.devicePending.isSome = true then answer ch r stBusy [] s
      else acceptLong ch r .event (startBough b 0 s)) s

/-! ### The Crown reset (R394) -/

/-- The partitions that a Crown reset includes. -/
def crownParts (s : State) : List Nat := (s.mm.parts.filter fun e => e.2.mode != 3).map (·.1)

/-- The boughs that a Crown reset resets: the ACTIVE ones, and those of narrower resets in progress. -/
def crownBoughs (s : State) : List (Fin 64) := (fins 64).filter fun b => (bough s b).st == .active || (bough s b).st == .inReset

/-- A Crown reset begins; one that the history escalates is a device warm reset (R402).
Log entries 108 (DEDUCED), 109 (DEDUCED). -/
def startCrown (cause : Nat) (s : State) : State :=
  if s.cmb.crownPending.isSome ∨ s.cmb.devicePending.isSome then s
  else
    let s1 := countDevice cause s
    if cause ≠ 0 ∧ deviceReached s1 = true then startDevice cause s
    else
      let s := modCmb (fun c => { c with crownPending := some cause }) s1
      let s := logReset 30 2 cause 0xFF (inWindow s s.cmb.deviceHist) (noteReset 2 cause 0xFF s)
      let ns := crownParts s
      let s := if ns.isEmpty then journalReset 2 cause 0xFF none s
        else ns.foldl (fun s n => journalReset 2 cause 0xFF (some n) s) s
      let s := ns.foldl (fun s n => holdQueues n true (genChange n s)) s
      (crownBoughs s).foldl (fun s b => modBough b (fun x => { x with st := .inReset }) s) s

/-- The core sample of a bough in a Crown reset: its core registers are free values, and it may not have halted (R393).
Log entry 110 (DEDUCED). -/
def crownSample (b : Fin 64) (cause : Nat) (s : State) : State :=
  let d := drawBytes 148 s
  let w := (piecesOf 4 d.1).map fun x => BitVec.ofNat 32 (ofLe x)
  let at_ := fun (i : Nat) => w.getD i 0
  let halted := drawNat d.2
  let regs : CoreRegs := { pc := at_ 32, x := (w.take 32).set 0 0, mcause := at_ 33, mepc := at_ 34, mtval := at_ 35,
                           mstatus := at_ 36 }
  coreSample b 2 cause (if halted.1 % 2 = 0 then some regs else none) halted.2

/-- CROWN_RESET: every bough sampled, reloaded and zeroised; every record in progress fails; the queues resume. What the halted
cores held is not given. Log entry 108 (DEDUCED). -/
def crownReset (t : Nat) (s : State) : State :=
  let s := s.at t
  match s.cmb.crownPending with
  | none => s
  | some cause =>
    let bs := crownBoughs s
    let s := bs.foldl (fun s b => crownSample b cause s) s
    let s := modCmb (fun c => { c with crownPending := none, boughPending := [] }) s
    let s := (crownParts s).foldl (fun s n => failRecords n s) s
    let s := (fins 64).foldl (fun s b => zeroScratch b s) s
    let s := bs.foldl (fun s b => reviveBough b 2 s) s
    let done := runningTickets s 0x0901 ++ runningTickets s 0x0900
    pump (done.foldl (fun s k => finishTicket k.1 k.2 stOk [] s) s)

/-- RESET_CROWN. Log entry 108 (DEDUCED). -/
def resetCrown (t : Nat) (ch : Fin 130) (s : State) : State :=
  onCmd 0x0901 t ch noArgs (fun _ _ => true) (fun r _ s =>
    if s.cmb.crownPending.isSome ∨ s.cmb.devicePending.isSome then answer ch r stBusy [] s
    else acceptLong ch r .event (startCrown 0 s)) s

/-! ### Twig beats (R383, R384, R387) -/

/-- Crown runs: its misses are counted. -/
def crownAwake (s : State) : Bool := s.pwr.st == .run || s.pwr.st == .entering

/-- TWIG_BEAT. Log entry 114 (DEDUCED). -/
def twigBeat (t : Nat) (b : Fin 64) (_seq tiles stall : Nat) (s : State) : State :=
  let s := s.at t
  if (bough s b).st ≠ .active ∨ crownAwake s = false ∨ (hartState s (.twig b)).halted = true ∨ s.root.alive = false then s
  else
    modCmb (fun c => { c with beats := vmod c.beats b fun x =>
      { lastBeat := s.now, tiles := tiles, stall := stall, sinceReset := min 3 (x.sinceReset + 1)
        tilesAt := if tiles = x.tiles ∧ (stall = 0 ∨ stall = 3) then x.tilesAt else s.now } }) s

/-- Root counts a bough's misses (R387). Log entry 104 (DEDUCED). -/
def countsMisses (s : State) (b : Fin 64) : Bool :=
  (bough s b).st == .active && s.cmb.quarantine != some b.val && !(hartState s (.twig b)).halted
    && (vget s.cmb.beats b).sinceReset == 3

/-- BOUGH_HANG and BEAT_MISS: a bough is hung in a record of a queue, for a cause (R384). -/
def logHang (b : Fin 64) (cause record q : Nat) (s : State) : State :=
  let x := vget s.cmb.beats b
  let s := logErr 0x0002 30 (leBytes 1 b.val ++ leBytes 1 (bough s b).owner ++ leBytes 1 cause ++ leBytes 1 x.stall
    ++ leBytes 4 record ++ leBytes 4 q) s
  traceRec 64 0x11 b.val ((s.now - x.lastBeat) / 100000) s

/-- A bough declared hung: cause 1 for beats, 2 for progress (R384). Log entry 108 (DEDUCED). -/
def declareHung (b : Fin 64) (cause : Nat) (s : State) : State :=
  let r := boughRecord s b
  startBough b cause (logHang b cause r.1 r.2 s)

/-- BEAT_CHECK: Root's examination at the end of a 100 µs interval. Log entry 114 (DEDUCED). -/
def beatCheck (t : Nat) (s : State) : State :=
  let s := s.at t
  if !s.root.alive || !crownAwake s || s.obs.cut.st == .taken || s.cmb.crownPending.isSome || s.cmb.devicePending.isSome then s
  else
    (fins 64).foldl (fun s b =>
      let x := vget s.cmb.beats b
      if !countsMisses s b then s
      else if x.lastBeat + 300000 ≤ s.now then declareHung b 1 s
      else if (boughRecord s b).1 ≠ 0xFFFFFFFF ∧ x.tilesAt + s.cfg.progressMs * 1000000 ≤ s.now then declareHung b 2 s
      else s) s

/-! ### Stalled crossings (01 R24, Table 13-2) -/

/-- An island is gated now: a quad or the token engine asleep, HBM in self-refresh, a port in LOW while the device sleeps
(14 Table 14-8), any island before the rails are up. Log entry 166 (DEDUCED). -/
def islandGated (s : State) (i : Nat) : Bool :=
  s.boot.stage == 0 || (decide (i < 16) && unitAsleep s 0) || (i == 33 && unitAsleep s 81)
    || (decide (24 ≤ i ∧ i < 30) && unitAsleep s 81)
    || (decide (16 ≤ i ∧ i < 24) && unitAsleep s 81 && (port s (finOf 8 (i - 16))).phys.st == 9)

/-- ISLAND_STALL: a crossing into a running island unacknowledged for 100 µs: both islands named by the entry.
Log entries 114 (DEDUCED), 133 (DESIGN CHOICE), 166 (DEDUCED). -/
def islandStall (t : Nat) (sender receiver : Fin 40) (s : State) : State :=
  let s := s.at t
  let hit := fun (x : StalledCrossing) => x.sender == sender.val && x.receiver == receiver.val
  if islandGated s receiver.val then s
  else
    let x : StalledCrossing := { sender := sender.val, receiver := receiver.val, since := s.now - min s.now 100000 }
    logErr 0x0001 sender.val (leBytes 1 receiver.val) { s with stalls := (s.stalls.filter fun y => !hit y) ++ [x] }

/-- ISLAND_STALL_ESCALATE: a stall into a quad that has lasted 10 ms starts a Crown reset, which ends the stalls.
Log entry 133 (DESIGN CHOICE). -/
def islandStallEscalate (t : Nat) (sender receiver : Fin 40) (s : State) : State :=
  let s := s.at t
  let hit := fun (x : StalledCrossing) =>
    x.sender == sender.val && x.receiver == receiver.val && decide (x.since + 10000000 ≤ s.now)
  if receiver.val < 16 ∧ s.stalls.any hit = true ∧ s.root.alive = true then
    startCrown 6 { s with stalls := s.stalls.filter fun x => decide (16 ≤ x.receiver) }
  else s

/-! ### Commands on the counters and the log (R389, R404, R415) -/

/-- ESCALATION_SET (R389). -/
def escalationSet (t : Nat) (ch : Fin 130) (s : State) : State :=
  onCmd 0x0903 t ch (parseArgs [2, 2, 4])
    (fun _ a => decide (a.headD 0 ≤ 16 ∧ a.getD 1 0 ≤ 64 ∧ 60 ≤ a.getD 2 0 ∧ a.getD 2 0 ≤ 86400))
    (fun r a s => answer ch r stOk [] (modCmb (fun c =>
      { c with crownLimit := a.headD 0, boughLimit := a.getD 1 0, windowS := a.getD 2 0,
               deviceHist := keepLast (a.headD 0) c.deviceHist,
               boughHist := c.boughHist.map fun h => keepLast (a.getD 1 0) h }) s)) s

/-- The entries of ERRLOG_READ: those from `first` onward, at most `count`. -/
def errEntries (s : State) (first count : Nat) : List Bytes :=
  ((s.cmb.log.filter fun e => decide (first ≤ e.index)).take count).map (·.bytes)

/-- ERRLOG_READ (R415). -/
def errlogRead (t : Nat) (ch : Fin 130) (s : State) : State :=
  onCmd 0x0904 t ch (parseArgs [4, 2]) (fun _ a => decide (1 ≤ a.getD 1 0 ∧ a.getD 1 0 ≤ 126)) (fun r a s =>
    answer ch r stOk (errEntries s (a.headD 0) (a.getD 1 0)).flatten s) s

/-- RETURN_TO_SERVICE (R404): retired boughs become FREE; out of service, a device warm reset begins.
Log entry 41 (DEDUCED). -/
def returnToService (t : Nat) (ch : Fin 130) (s : State) : State :=
  onCmd 0x0907 t ch noArgs (fun _ _ => true) (fun r _ s =>
    let s := modCmb (fun c => { c with deviceHist := [], boughHist := Vector.replicate 64 [], retired := 0 }) s
    let s := (fins 64).foldl (fun s b =>
      if (bough s b).st = .retired then
        let m := 2 ^ b.val
        modBough b (fun _ => { st := .free, owner := 0 })
          (modMm (fun x => { x with parts := x.parts.map fun e =>
            (e.1, { e.2 with boughMask := e.2.boughMask ^^^ (e.2.boughMask &&& m) }) }) s)
      else s) s
    let s := answer ch r stOk [] (logErr 0x0007 30 [] s)
    if s.cmb.outOfService then startDevice 0 (modCmb (fun c => { c with outOfService := false }) s) else s) s

/-- RESET_DEVICE (02 R61): the reset begins after the delay, or at an earlier one's instant, which supersedes it. -/
def resetDevice (t : Nat) (ch : Fin 130) (s : State) : State :=
  onCmd 0x0902 t ch (parseArgs [4]) (fun _ a => decide (a.headD 0 ≤ 1000)) (fun r a s =>
    let s := answer ch r stOk [] s
    let due := s.now + a.headD 0 * 1000000
    { s with root := { s.root with resetAt := some (min due (s.root.resetAt.getD due)) } }) s

/-- RESET_DELAY_EXPIRE. -/
def resetDelayExpire (t : Nat) (s : State) : State :=
  let s := s.at t
  match s.root.resetAt with
  | some x => if x ≤ s.now then startDevice 0 s else s
  | none => s

/-- JOURNAL_GAP: space has freed in the journal's buffer after records were lost (R408). Log entry 117 (DEDUCED). -/
def journalGap (t : Nat) (s : State) : State :=
  let s := s.at t
  let j := s.fjr
  if j.lost = 0 ∨ (j.held = true ∧ 0x40000 < j.buffer.flatten.length + 32) then s
  else
    let n := sat32 j.lost
    let s := { s with fjr := { j with lost := 0, gaps := sat32 (j.gaps + 1) } }
    logErr 0x0040 35 (leBytes 4 n) (journal 0x08 35 (leBytes 4 n ++ zeros 4 ++ leBytes 8 j.lostTime) s)

/-- `RESET_BOUGH`: 13 R392; also R393. -/
def execResetBough (t : Nat) (ch : Fin 130) (s : State) : Outcome := .next (resetBough t ch s)
/-- `RESET_CROWN`: 13 R394. -/
def execResetCrown (t : Nat) (ch : Fin 130) (s : State) : Outcome := .next (resetCrown t ch s)
/-- `RESET_DEVICE`: 02 R61. -/
def execResetDevice (t : Nat) (ch : Fin 130) (s : State) : Outcome := .next (resetDevice t ch s)
/-- `ESCALATION_SET`: 13 R389. -/
def execEscalationSet (t : Nat) (ch : Fin 130) (s : State) : Outcome := .next (escalationSet t ch s)
/-- `ERRLOG_READ`: 13 R415. -/
def execErrlogRead (t : Nat) (ch : Fin 130) (s : State) : Outcome := .next (errlogRead t ch s)
/-- `RETURN_TO_SERVICE`: 13 R404. -/
def execReturnToService (t : Nat) (ch : Fin 130) (s : State) : Outcome := .next (returnToService t ch s)
/-- `TWIG_BEAT`: 13 R383. -/
def execTwigBeat (t : Nat) (b : Fin 64) (seq tiles stall : Nat) (s : State) : Outcome :=
  .next (twigBeat t b seq tiles stall s)
/-- `BEAT_CHECK`: 13 R384; also R369, R387, R410. -/
def execBeatCheck (t : Nat) (s : State) : Outcome := .next (beatCheck t s)
/-- `BOUGH_RESET`: 13 R392; also R173, R192, R207, R253, R290, R361, R368, R388, R389, R390, R391, R393. -/
def execBoughReset (t : Nat) (b : Fin 64) (regs : Option CoreRegs) (s : State) : Outcome := .next (boughReset t b regs s)
/-- `CROWN_RESET`: 13 R394; also R207, R389, R390, R391, R393, R397, R398. -/
def execCrownReset (t : Nat) (s : State) : Outcome := .next (crownReset t s)
/-- `ISLAND_STALL`: 01 R24; also R413. -/
def execIslandStall (t : Nat) (sender receiver : Fin 40) (s : State) : Outcome := .next (islandStall t sender receiver s)
/-- `ISLAND_STALL_ESCALATE`: 13 R390. -/
def execIslandStallEscalate (t : Nat) (sender receiver : Fin 40) (s : State) : Outcome :=
  .next (islandStallEscalate t sender receiver s)
/-- `RESET_DELAY_EXPIRE`: 02 R61. -/
def execResetDelayExpire (t : Nat) (s : State) : Outcome := .next (resetDelayExpire t s)
/-- `JOURNAL_GAP`: 13 R408; also R406. -/
def execJournalGap (t : Nat) (s : State) : Outcome := .next (journalGap t s)

end Sys2Proof.Machine
end

