-- ==== Sys2Proof/Machine/Power.lean ====
section
/-! DEFINITION. Power, clocks, thermal state and PCIe resets (chapter 14): what a reset of every island loses, power-up and
power-down, the power states, throttling, the monitors and the pins. -/

namespace Sys2Proof.Machine

/-! ### What the islands lose (13 Table 13-4, 14 R440, R441) -/

/-- The boughs after a reset of every island: the retired ones stay RETIRED. -/
def restingBoughs (retired : Nat) : Vector Bough 64 :=
  Vector.ofFn fun i => if retired.testBit i.val then { st := .retired, owner := 0 } else { st := .free, owner := 0 }

/-- Root after a reset of every island: Cambium keeps the floors of channels 0 and 1, the SMBus window and its alert.
Log entries 28 (DESIGN CHOICE), 33 (DEDUCED), 120 (DEDUCED). -/
def Root.kept (r : Root) : Root :=
  { Root.reset with
    bootCount := r.bootCount, smbOffset := r.smbOffset, smbAlert := r.smbAlert
    chans := vset (vset Root.reset.chans 0 { Chan.reset with floor := (vget r.chans 0).floor }) 1
      { Chan.reset with floor := (vget r.chans 1).floor } }

/-- Heartwood's persistent cells and, over a warm reset, its uniquifiers (03 R71, R89).
Log entries 38 (DEDUCED), 120 (DEDUCED). -/
def Hwd.kept (h : Hwd) : Hwd :=
  { Hwd.reset with fault := h.fault, uniq := h.uniq, gens := h.gens, counters := h.counters, owner0 := h.owner0,
                   owner1 := h.owner1, water0 := h.water0, water1 := h.water1 }

/-- The memory controller after a reset of every island: a warm reset keeps the crash-dump and journal regions; the journal's
new size comes into force (07 R204, R205, R218). Log entries 73 (DEDUCED), 120 (DEDUCED). -/
def MemState.kept (warm : Bool) (m : MemState) : MemState :=
  let top := journalBase + min m.journalMib m.journalNext * 0x100000
  let inside := fun (a : Nat) => warm && decide (crashBase ≤ a ∧ a < top)
  let size := if warm then m.journalNext else 1024
  { MemState.reset with
    bytes := m.bytes.filter fun e => inside e.1
    fault := m.fault.filter fun l => inside (64 * l)
    gens := m.gens, retired := m.retired, retiredRows := m.retiredRows, degradedRows := m.degradedRows
    journalMib := size, journalNext := size }

/-- Cambium over a reset of every other island. Log entry 120 (DEDUCED). -/
def Cmb.kept (c : Cmb) : Cmb :=
  { c with wdt := .unarmed, rootBeats := 0, restartAt := none, restarting := false, restartEnd := none
           beats := Vector.replicate 64 Beats.reset, boughPending := [], crownPending := none, devicePending := none
           inReset := true, quarantine := none }

/-- Observation after a reset of every island: a warm reset keeps the growth rings and the bough counters.
Log entry 120 (DEDUCED). -/
def Obs.kept (warm : Bool) (o : Obs) : Obs :=
  if warm then { Obs.reset with rings := o.rings, boughs := o.boughs.map fun b => { b with followed := none, frozen := false, seen := false } }
  else Obs.reset

/-- The journal after a reset of every island: the region of a warm reset still holds its records.
Log entry 117 (DEDUCED). -/
def Fjr.kept (warm : Bool) (mib : Nat) (j : Fjr) : Fjr :=
  if warm then
    { Fjr.reset with next := if j.next ≤ mib * 0x100000 then j.next else 0
                     hist := j.hist.filter fun e => decide (e.1 + e.2.length ≤ mib * 0x100000) }
  else Fjr.reset

/-- Every island but Cambium reset: `warm` with HBM in self-refresh, else with the rails down. -/
def islandsLost (warm : Bool) (s : State) : State :=
  let mm := s.mm.kept warm
  { State.reset with
    now := s.now, free := s.free, out := s.out, pending := s.pending, fuse := s.fuse, flash := s.flash, cfg := s.cfg
    root := s.root.kept, hwd := s.hwd.kept, mm := mm, cmb := s.cmb.kept, obs := s.obs.kept warm
    fjr := s.fjr.kept warm mm.journalMib
    twn := { Twin.reset with gen := s.twn.gen }
    crn := { Crown.reset with boughs := restingBoughs s.cmb.retired }
    boot := { Boot.reset with stage := bit 0 warm, trial := s.boot.trial, trialFault := s.boot.trialFault }
    pwr := { s.pwr with samples := [], heldReads := [], avgMw := 0, crownRate := 16, runAheadOff := false, paced := false, causes := 0
                        episode := none, clearSince := none, refreshDoubled := 0, pcieUp := false } }

/-- Power-down (R422): every enable falls, and the device rests in DEEP, HOLD or TRIPPED. Log entry 120 (DEDUCED). -/
def powerDown (dst : PwrState) (s : State) : State :=
  modPwr (fun p => { p with st := dst, phase := 3, phaseAt := s.now, groupsUp := 0, enables := Vector.replicate 3 false })
    (islandsLost false s)

/-! ### Power states (R436 to R440) -/

/-- CMB_POWER.STATE (R449). Log entry 122 (DESIGN CHOICE). -/
def powerCode (st : PwrState) : Nat :=
  match st with
  | .run => 0
  | .quiet => 1
  | .nap => 2
  | .deep => 3
  | .entering => 4
  | .leaving => 5
  | .hold => 6
  | .tripped => 7

/-- The POWER_STATE entry (R448). -/
def logPower (src dst wake : Nat) (s : State) : State :=
  logErr 0x0058 32 (leBytes 1 src ++ leBytes 1 dst ++ leBytes 1 wake) s

/-- The units that sleep in QUIET, and those that sleep in NAP (12 R363). Log entry 105 (DEDUCED). -/
def sleepUnits (nap : Bool) : List Nat := List.range 64 ++ (if nap then [81] else [])

/-- The units write SLEEP and drain their buffers completely (12 R363). -/
def goToSleep (nap : Bool) (s : State) : State :=
  (sleepUnits nap).foldl (fun s u => drainUnit u (drainUnit u (traceRec u 0x04 (if nap then 2 else 1) 0 s)))
    (modPwr (fun p => { p with sleepAt := s.now }) s)

/-- The units run again and write WAKE (12 R363). -/
def wakeUp (nap : Bool) (s : State) : State :=
  (sleepUnits nap).foldl (fun s u => traceRec u 0x05 1 (sat32 ((s.now - s.pwr.sleepAt) / 1000)) s) s

/-- A queue of a class that runs on Crown. -/
def crownClass (key : Nat) : Bool := key % 16 / 4 == 0 || key % 16 / 4 == 2

/-- A MATH or COLL record is in progress. -/
def crownBusy (s : State) : Bool := s.crn.queues.any fun e => crownClass e.1 && !e.2.running.isEmpty

/-- A MATH or COLL record waits to start. -/
def crownWanted (s : State) : Bool := s.crn.queues.any fun e => crownClass e.1 && e.2.started != e.2.tail

/-- NAP is refused (R436). -/
def napBusy (s : State) : Bool :=
  s.crn.queues.any (fun e => !e.2.running.isEmpty || e.2.tail != e.2.head)
    || s.col.slots.any (fun e => e.2.op.isSome)
    || [TwinSt.pairing, .paired, .graftDown, .lost].contains s.twn.st

/-- The entry into a state begins: NAP asks every LINKED port to go LOW (04 R125).
Log entries 122 (DESIGN CHOICE), 123 (DEDUCED). -/
def beginEntry (target : Nat) (s : State) : State :=
  let s := modPwr (fun p => { p with st := .entering, phase := target, phaseAt := s.now, entryFrom := powerCode p.st }) s
  if target ≠ 2 then s
  else
    (fins 8).foldl (fun s p =>
      if (port s p).phys.st ≠ 8 then s
      else askLow p (modPhys p (fun x => { x with lowDue := true }) s)) s

/-- The device is back in RUN: a POWER_STATE_SET that waited for it ends or goes on (R436). -/
def backToRun (src : Nat) (s : State) : State :=
  let s := freshBeats (modPwr (fun p => { p with st := .run, phase := 0 }) s)
  let s := logPower src 0 s.pwr.wakeReason s
  let s := (runningTickets s 0x0A01).foldl (fun s k =>
    match ((findTicket s k.1 k.2).map (·.work) : Option Work) with
    | some (.power t) =>
      if t = 0 then finishTicket k.1 k.2 stOk [] s
      else if t = 2 ∧ napBusy s = true then finishTicket k.1 k.2 stBusy [] s
      else beginEntry t s
    | _ => s) s
  pump s

/-- The arguments step and the refusals of POWER_STATE_SET (R436). Log entry 123 (DEDUCED). -/
def powerStateSet (t : Nat) (ch : Fin 130) (s : State) : State :=
  onCmd 0x0A01 t ch (parseArgs [1]) (fun _ a => decide (a.headD 0 ≤ 3)) (fun r a s =>
    let target := a.headD 0
    if powerCode s.pwr.st = target then acceptLong ch r (.planned stOk []) s
    else if (target = 2 ∧ s.pwr.st = .run ∧ napBusy s = true) ∨ (target = 3 ∧ s.mm.parts.isEmpty = false) then
      answer ch r stBusy [] s
    else
      let direct := s.pwr.st = .run ∨ (target = 3 ∧ (s.pwr.st = .quiet ∨ s.pwr.st = .nap))
      let s := acceptLong ch r (.power target) s
      if direct then beginEntry target s else wakeDevice 6 s) s

/-- QUIET is reached: Crown's clocks stop. A MATH or COLL doorbell that came meanwhile ends it at once.
Log entry 123 (DEDUCED). -/
def reachQuiet (s : State) : State :=
  let s := goToSleep false s
  let s := logPower s.pwr.entryFrom 1 0 (modPwr (fun p => { p with st := .quiet, phase := 0 }) s)
  if crownWanted s then wakeDevice 1 s else s

/-- NAP is reached (R437 steps 2 to 5): run-ahead masks discarded, the units asleep, HBM in self-refresh.
Log entry 123 (DEDUCED). -/
def reachNap (s : State) : State :=
  let s := s.tke.streams.foldl (fun s e => dropBuilt e.1 s) s
  let s := goToSleep true s
  let s := logPower s.pwr.entryFrom 2 0 (modPwr (fun p => { p with st := .nap, phase := 0 }) s)
  { s with fjr := { s.fjr with held := true } }

/-- DEEP is reached (R440). Log entry 123 (DEDUCED). -/
def reachDeep (s : State) : State :=
  let s := (fins 8).foldl (fun s p => if (port s p).phys.st = 8 then linkGoesDown p 0 true s else s) s
  powerDown .deep (logPower s.pwr.entryFrom 3 0 s)

/-- The rest of a POWER_STATE_SET: the state is reached, or after the command's 2 s the command gives up with BUSY.
Log entry 123 (DEDUCED). -/
def finishPower (ch : Fin 130) (num target : Nat) (s : State) : State :=
  let late := decide (s.pwr.phaseAt + 2000000000 ≤ s.now)
  let giveUp := fun (s : State) =>
    finishTicket ch num stBusy [] (pump (modPwr (fun p => { p with st := .run, phase := 0 }) s))
  if s.pwr.st ≠ .entering ∨ s.pwr.phase ≠ target then s
  else match target with
    | 1 =>
      if !crownBusy s then finishTicket ch num stOk [] (reachQuiet s)
      else if late then giveUp s else s
    | 2 =>
      if !(fins 8).any fun p => (port s p).phys.st == 8 then finishTicket ch num stOk [] (reachNap s)
      else if late then wakeDevice s.pwr.wakeReason s else s
    | _ => if s.mm.parts.isEmpty then reachDeep (finishTicket ch num stOk [] s) else giveUp s

/-- QUIET_EXIT (R439). -/
def quietExit (t : Nat) (s : State) : State :=
  let s := s.at t
  if s.pwr.st ≠ .leaving ∨ s.pwr.phase ≠ 1 then s else backToRun 1 (wakeUp false s)

/-- Journal records that waited for HBM are written in order (13 R408). Log entry 117 (DEDUCED). -/
def flushJournal (s : State) : State :=
  let b := s.fjr.buffer
  b.foldl (fun s x => journalPlace x s) { s with fjr := { s.fjr with held := false, buffer := [] } }

/-! ### Waking from DEEP, HOLD and TRIPPED (R424, R440, R446) -/

/-- The power-up sequence begins anew, and the boot that follows is accounted as a device warm reset. -/
def startUp (src cause : Nat) (s : State) : State :=
  let deep := s.pwr.st = .deep
  let s := countDevice cause s
  let esc : Bool := cause != 0 && deviceReached s
  let cause := if esc then 7 else cause
  let s := if esc then
      logErr 0x0006 32 (leBytes 2 (inWindow s s.cmb.deviceHist)) (modCmb (fun c => { c with outOfService := true }) s)
    else s
  let s := { s with root := { s.root with bootCount := (s.root.bootCount + 1) % 2 ^ 32 } }
  let s := logReset 32 4 cause 0xFF (inWindow s s.cmb.deviceHist) (noteReset 4 cause 0xFF s)
  modPwr (fun p => { p with
    st := .leaving, phase := 3, phaseAt := s.now, groupsUp := 0, enables := vset (Vector.replicate 3 false) 0 true
    wakeReason := src, energyBoot := src == 3, thermTrip := false, stuckTripped := false, coolSince := none
    pcieWakeAt := if deep ∧ src ≠ 5 then some s.now else none }) s

/-- A wake source that acts on a powered-down device: an exit from TRIPPED takes cause THERMAL, but not after the third
trip. Log entry 124 (DEDUCED). -/
def wakePowered (src : Nat) (s : State) : State :=
  match s.pwr.st with
  | .deep | .hold => startUp src 0 s
  | .tripped => startUp src (if s.pwr.stuckTripped then 0 else 8) s
  | _ => s

/-- TRIP_RECOVERY (R446). Log entry 124 (DEDUCED). -/
def tripRecovery (t : Nat) (s : State) : State :=
  let s := s.at t
  match s.pwr.coolSince with
  | some c => if s.pwr.st = .tripped ∧ s.pwr.stuckTripped = false ∧ c + 10000000000 ≤ s.now then startUp 7 8 s else s
  | none => s

/-- The check byte of an SMBus transaction: CRC-8 with polynomial 0x07. -/
def pecOf (b : Bytes) : BitVec 8 :=
  b.foldl (fun c x => (List.range 8).foldl (fun (c : BitVec 8) _ =>
    if c.getLsbD 7 then (c <<< 1) ^^^ 0x07 else c <<< 1) (c ^^^ x)) 0

/-- The device's SMBus address byte for a write (R432). Log entry 135 (DESIGN CHOICE). -/
def smbAddress (s : State) : Nat := 2 * (0x58 + s.pwr.straps.smbAddr.val)

/-- WAKE over SMBus (Table 14-7). -/
def smbWake (t : Nat) (pec : BitVec 8) (s : State) : State :=
  let s := s.at t
  if pec ≠ pecOf (leBytes 1 (smbAddress s) ++ leBytes 1 0xA3) then s
  else match s.pwr.st with
    | .quiet | .nap => wakeDevice 4 s
    | .entering => wakeDevice 4 s
    | _ => wakePowered 4 s

/-- The word of POWER_STATUS (Table 14-7). Log entry 122 (DESIGN CHOICE). -/
def powerWord (s : State) : Nat :=
  let hot := s.pwr.temps.toList.foldl max (-32768)
  powerCode s.pwr.st + 16 * s.pwr.wakeReason + 256 * (min 255 (hot / 4).toNat)

/-- POWER_STATUS: a Read Word, which the device ends with its own PEC. -/
def powerStatus (t : Nat) (s : State) : State :=
  let s := s.at t
  emit (.smbData (leBytes 2 (powerWord s))) s

/-- LINK_ENERGY_WAKE (04 R127): energy on six lanes of a port for 50 µs. -/
def linkEnergyWake (t : Nat) (p : Fin 8) (lanes : BitVec 9) (since : Nat) (s : State) : State :=
  let s := s.at t
  let n := ((List.range 9).filter fun i => lanes.getLsbD i).length
  if s.pwr.st = .deep ∧ (vget s.cfg.ports p).wakeOnLink = true ∧ 6 ≤ n ∧ 50000 ≤ since then wakePowered 3 s else s

/-! ### Power-up (R419, R422, Table 14-4) -/

/-- The enable group of a monitored rail: 0 HBM, 1 MAIN, 2 CRN (Table 14-3). -/
def railGroup (m : Fin 8) : Fin 3 := if m.val = 0 then 2 else if m.val < 4 then 1 else 0

/-- The nominal voltage of a monitored rail in mV (Table 14-3). -/
def railNominal (m : Fin 8) : Nat := [750, 750, 800, 1200, 750, 1800, 1100, 400].getD m.val 0

/-- The generations of cold power, from the device random source (07 R207). Log entry 139 (DESIGN CHOICE). -/
def drawGens (s : State) : State :=
  let d := drawBytes 128 s
  { d.2 with mm := { d.2.mm with gens := Vector.ofFn fun i : Fin 128 => d.1.getD i.val 0 } }

/-- POWER_UP: CMB_POR_N released; the generations are loaded, the straps sampled, and PWR_EN_HBM asserted unless TEST_N is low.
Log entries 12 (DESIGN CHOICE), 122 (DESIGN CHOICE), 139 (DESIGN CHOICE). -/
def powerUp (t : Nat) (x : Straps) (s : State) : State :=
  let s := s.at t
  if s.pwr.st ≠ .leaving ∨ s.pwr.phase ≠ 0 then s
  else modPwr (fun p => { p with straps := x, phase := 3, phaseAt := s.now, enables := vset p.enables 0 x.testN }) (drawGens s)

/-- RAIL_GROUP_IN_RANGE: the next enable, or after the last group every island leaves reset and the ROM starts. -/
def railGroupInRange (t : Nat) (g : Fin 3) (s : State) : State :=
  let s := s.at t
  if s.pwr.st ≠ .leaving ∨ s.pwr.phase ≠ 3 ∨ s.pwr.groupsUp ≠ g.val ∨ vget s.pwr.enables g = false then s
  else
    let s := modPwr (fun p => { p with groupsUp := g.val + 1, phaseAt := s.now }) s
    if h : g.val + 1 < 3 then modPwr (fun p => { p with enables := vset p.enables ⟨g.val + 1, h⟩ true }) s
    else
      let s := modPwr (fun p => { p with st := .run, phase := 0, pcieUp := p.perstHigh }) s
      let s := modCmb (fun c => { c with deviceAt := s.now, inReset := true }) s
      { s with boot := { s.boot with stage := 1 } }

/-- Steps 2 to 4 of R424. -/
def faultDown (s : State) : State := powerDown .hold (tamper s)

/-- SEQ_FAIL: a group not in range 10 ms after its enable. -/
def seqFail (t : Nat) (m : Fin 8) (s : State) : State :=
  let s := s.at t
  let g := railGroup m
  if s.pwr.st = .leaving ∧ s.pwr.phase = 3 ∧ s.pwr.groupsUp = g.val ∧ vget s.pwr.enables g = true
      ∧ s.pwr.phaseAt + 10000000 ≤ s.now then
    faultDown (logErr 0x0053 32 (leBytes 1 m.val) s)
  else s

/-- Loss of VDD_AON or VDDIO_AON, or CMB_POR_N asserted: everything but the fuses, the flash and Heartwood's persistent cells
starts anew; the floors come from the watermarks (02 R52, 13 R391). Log entries 18 (DESIGN CHOICE), 38 (DEDUCED). -/
def coldPowerLoss (s : State) : State :=
  let floor := fun (w : Nat) => { Chan.reset with floor := w }
  { State.reset with
    free := s.free, out := s.out, pending := s.pending, fuse := s.fuse, flash := s.flash
    hwd := { s.hwd.kept with fault := .none, uniq := [] }
    root := { Root.reset with chans := vset (vset Root.reset.chans 0 (floor s.hwd.water0)) 1 (floor s.hwd.water1) } }

/-! ### Monitors (R423, R424, R426, R428) -/

/-- A monitor acts: its enable is asserted and its group has come up. Log entry 126 (DEDUCED). -/
def monitorOn (s : State) (m : Fin 8) : Bool :=
  let g := railGroup m
  vget s.pwr.enables g && decide (g.val < s.pwr.groupsUp)

/-- A voltage lies outside ±`percent` of nominal. -/
def outside (m : Fin 8) (mv percent : Nat) : Bool :=
  let n := railNominal m
  decide (mv * 100 < n * (100 - percent) ∨ n * (100 + percent) < mv * 100)

/-- DATA of SUPPLY_WARN and SUPPLY_FAULT (Table 14-13). -/
def supplyData (m : Fin 8) (mv : Nat) : Bytes :=
  leBytes 1 m.val ++ leBytes 1 (if mv < railNominal m then 1 else 2) ++ leBytes 2 mv

/-- SUPPLY_WARN: at most once per rail per second. Log entry 126 (DEDUCED). -/
def supplyWarn (t : Nat) (m : Fin 8) (mv : Nat) (s : State) : State :=
  let s := s.at t
  let again : Bool := match vget s.pwr.lastWarn m with
    | some w => decide (w + 1000000000 ≤ s.now)
    | none => true
  if monitorOn s m && outside m mv 5 && again then
    logErr 0x0050 32 (supplyData m mv) (modPwr (fun p => { p with lastWarn := vset p.lastWarn m (some s.now) }) s)
  else s

/-- SUPPLY_FAULT. Log entry 126 (DEDUCED). -/
def supplyFault (t : Nat) (m : Fin 8) (mv : Nat) (s : State) : State :=
  let s := s.at t
  if monitorOn s m && outside m mv 8 then faultDown (logErr 0x0051 32 (supplyData m mv) s) else s

/-- SUPPLY_GLITCH on VDD_CRN, VDD_SOC or (none) VDD_AON. Log entry 126 (DEDUCED). -/
def supplyGlitch (t : Nat) (m : Option (Fin 8)) (s : State) : State :=
  let s := s.at t
  let watched := match m with
    | some m => decide (m.val ≤ 1) && monitorOn s m
    | none => true
  if !watched then s
  else
    let s := logErr 0x0052 32 (leBytes 1 ((m.map (·.val)).getD 0xFE)) s
    if vget s.pwr.enables 1 then tamper s else s

/-- CLOCK_FAULT: SYS_REFCLK absent, or off by more than the threshold, while a rail is enabled.
Log entry 126 (DEDUCED). -/
def clockFault (t : Nat) (absent : Bool) (ppm : Int) (s : State) : State :=
  let s := s.at t
  let limit : Int := if s.pwr.xtalFallback then 30000 else 1000
  if (absent || decide (limit < ppm ∨ ppm < -limit)) && s.pwr.enables.toList.any id then
    faultDown (logErr 0x0054 32 (leBytes 1 (if absent then 0 else 1) ++ zeros 3 ++ leBytes 4 (unsignedOf 32 ppm)) s)
  else s

/-- XTAL_FALLBACK. -/
def xtalFallback (t : Nat) (ppm : Int) (s : State) : State :=
  let s := s.at t
  if s.pwr.xtalFallback then s
  else logErr 0x0054 32 (leBytes 1 2 ++ zeros 3 ++ leBytes 4 (unsignedOf 32 ppm)) (modPwr (fun p => { p with xtalFallback := true }) s)

/-- PCIE_REFCLK_LOSS (R429). -/
def pcieRefclkLoss (t : Nat) (s : State) : State := modPwr (fun p => { p with pcieUp := false }) (s.at t)

/-! ### PCIe resets (R431) -/

/-- The PCIE_RESET entry. -/
def logPcie (kind vf : Nat) (s : State) : State := logErr 0x0059 32 (leBytes 1 kind ++ leBytes 1 vf) s

/-- The endpoint's rails are in range and the islands are out of reset. Log entry 127 (DESIGN CHOICE). -/
def endpointPowered (s : State) : Bool := s.boot.stage != 0

/-- PERST_N_FALL. Log entry 124 (DEDUCED). -/
def perstFall (t : Nat) (s : State) : State :=
  let s := modPwr (fun p => { p with perstHigh := false, pcieUp := false }) (s.at t)
  if endpointPowered s then startDevice 0 (logPcie 1 0 s) else s

/-- PERST_N_RISE. Log entries 124 (DEDUCED), 127 (DESIGN CHOICE). -/
def perstRise (t : Nat) (s : State) : State :=
  let s := modPwr (fun p => { p with perstHigh := true, pcieWakeAt := none }) (s.at t)
  if endpointPowered s then modPwr (fun p => { p with pcieUp := true }) s else wakePowered 5 s

/-- PF_FLR. Log entry 127 (DESIGN CHOICE). -/
def pfFlr (t : Nat) (s : State) : State :=
  let s := s.at t
  if s.pwr.pcieUp then startDevice 0 (logPcie 2 0 s) else s

/-- VF_FLR: the VF's channel becomes IDLE, its response and its events are discarded. Log entry 109 (DEDUCED). -/
def vfFlr (t : Nat) (n : Fin 128) (s : State) : State :=
  let s := s.at t
  if !s.pwr.pcieUp then s
  else
    let s := modChan (partChan n) (fun c => { c with st := .idle, rsp := [], cur := none, evq := [], head := 0, tail := 0,
                                                     held := [] }) s
    let stays := fun (e : PendingImport) => e.ch != partChan n || e.ticket != 0
    logPcie 3 n.val (modTxn (fun x => { x with pendingImports := x.pendingImports.filter stays }) s)

/-- PCIE_WAKE_N_RELEASE (R440). -/
def pcieWakeRelease (t : Nat) (s : State) : State :=
  let s := s.at t
  match s.pwr.pcieWakeAt with
  | some w => if s.pwr.perstHigh = true ∧ w + 100000 ≤ s.now then modPwr (fun p => { p with pcieWakeAt := none }) s else s
  | none => s

/-! ### Throttling and temperature (01 R26 to R28, 14 R443 to R446) -/

/-- The hottest sensor: its index and its reading. -/
def hottest (v : List Int) : Nat × Int :=
  (v.zipIdx.foldl (fun (b : Nat × Int) x => if b.2 < x.1 then (x.2, x.1) else b) (0, v.headD 0))

/-- A measure is in force. -/
def throttled (p : Pwr) : Bool := decide (p.crownRate < 16) || p.runAheadOff || p.paced

/-- The next measure of R27. Log entries 125 (DEDUCED), 131 (DESIGN CHOICE). -/
def applyMeasure (p : Pwr) : Pwr :=
  if 1 < p.crownRate then { p with crownRate := p.crownRate - 1 }
  else if !p.runAheadOff then { p with runAheadOff := true }
  else { p with paced := true }

/-- The last measure released. Log entry 125 (DEDUCED). -/
def releaseMeasure (p : Pwr) : Pwr :=
  if p.paced then { p with paced := false }
  else if p.runAheadOff then { p with runAheadOff := false }
  else { p with crownRate := min 16 (p.crownRate + 1) }

/-- The causes present now: power, temperature, BRD_THROT_N (Table 14-13). Log entry 125 (DEDUCED). -/
def presentCauses (p : Pwr) : Nat :=
  bit 0 (decide (p.limitMw < p.avgMw)) + bit 1 (p.temps.toList.any fun x => decide (380 ≤ x)) + bit 2 p.brdThrotLow

/-- Power and temperature are below their release thresholds. Log entry 125 (DEDUCED). -/
def belowRelease (p : Pwr) : Bool :=
  decide (p.avgMw * 100 < p.limitMw * 95) && p.temps.toList.all fun x => decide (x < 372)

/-- What Root decides in an interval from its averages and its sensors (R27, R444).
Log entries 125 (DEDUCED), 131 (DESIGN CHOICE). -/
def throttle (s : State) : State :=
  let p := s.pwr
  let clear := if belowRelease p then some (p.clearSince.getD s.now) else none
  let calm : Bool := match clear with
    | some c => decide (c + 10000000 ≤ s.now)
    | none => false
  let high := !p.brdThrotLow && decide (p.brdHighSince + 10000000 ≤ s.now)
  let now := presentCauses p
  let causes := now ||| (if calm then 0 else p.causes &&& 3) ||| (if high then 0 else p.causes &&& 4)
  let s := modPwr (fun p => { p with clearSince := clear, causes := causes }) s
  if now ≠ 0 then
    let s := modPwr applyMeasure s
    match p.episode with
    | some _ => s
    | none =>
      let h := hottest p.temps.toList
      logErr 0x0055 32 (leBytes 1 causes ++ leBytes 1 h.1 ++ leBytes 2 (unsignedOf 16 h.2))
        (modPwr (fun p => { p with episode := some s.now }) s)
  else if causes ≠ 0 ∨ throttled p = false then s
  else
    let s := modPwr releaseMeasure s
    match p.episode, throttled s.pwr with
    | some b, false =>
      logErr 0x0056 32 (leBytes 4 (sat32 ((s.now - b) / 1000))) (modPwr (fun p => { p with episode := none }) s)
    | _, _ => s

/-- The average of the power measurements of the last 1 ms. -/
def meanPower (l : List (Nat × Nat)) : Nat := (l.map (·.2)).foldl (· + ·) 0 / l.length

/-- POWER_MEASURE: every 100 µs Root measures, averages the last 1 ms, and takes at most one measure (R27). -/
def powerMeasure (t mw : Nat) (s : State) : State :=
  let s := s.at t
  let early := (s.pwr.samples.getLast?.map fun x => decide (s.now < x.1 + 100000)).getD false
  if !s.root.alive || early then s
  else
    let l := (s.pwr.samples.filter fun x => decide (s.now < x.1 + 1000000)) ++ [(s.now, mw)]
    throttle (modPwr (fun p => { p with samples := l, avgMw := meanPower l }) s)

/-- BRD_THROT_N: the pin changes; the measures follow in the intervals. -/
def brdThrotN (t : Nat) (high : Bool) (s : State) : State :=
  let s := s.at t
  modPwr (fun p => { p with brdThrotLow := !high, brdHighSince := if p.brdThrotLow && high then s.now else p.brdHighSince }) s

/-- A thermal trip (R445). Log entry 124 (DEDUCED). -/
def thermalTrip (sensor : Nat) (reading : Int) (s : State) : State :=
  let s := logErr 0x0057 32 (leBytes 1 sensor ++ zeros 1 ++ leBytes 2 (unsignedOf 16 reading)) s
  let trips := (s.pwr.trips.filter fun x => decide (s.now < x + 600000000000)) ++ [s.now]
  modPwr (fun p => { p with thermTrip := true, trips := trips, stuckTripped := decide (3 ≤ trips.length), coolSince := none })
    (powerDown .tripped s)

/-- TEMP_SAMPLE: twelve readings; those outside their number are ignored. -/
def tempSample (t : Nat) (v : List Int) (s : State) : State :=
  let s := s.at t
  if v.length ≠ 12 then s
  else
    let doubled := ((List.range 6).map fun i => bit i (decide (340 ≤ v.getD (6 + i) 0))).foldl (· + ·) 0
    let s := modPwr (fun p =>
      let new := (fins 12).foldl (fun a i => vset a i (v.getD i.val 0)) p.temps
      let top := (fins 12).foldl (fun a i => vset a i (max (vget p.tempMax i) (v.getD i.val 0))) p.tempMax
      let cool := if v.all fun x => decide (x < 340) then some (p.coolSince.getD s.now) else none
      let twice := if hbmOpen s then doubled else p.refreshDoubled
      { p with temps := new, tempMax := top, refreshDoubled := twice, coolSince := cool }) s
    match v.findIdx? fun x => decide (420 ≤ x) with
    | some i => if s.pwr.st = .tripped then s else thermalTrip i (v.getD i 0) s
    | none => s

/-- POWER_LIMIT_SET (01 R26). -/
def powerLimitSet (t : Nat) (ch : Fin 130) (s : State) : State :=
  onCmd 0x0A00 t ch (parseArgs [4]) (fun _ a => decide (50000 ≤ a.headD 0 ∧ a.headD 0 ≤ 150000)) (fun r a s =>
    answer ch r stOk [] (modPwr (fun p => { p with limitMw := a.headD 0 }) s)) s

/-- THERMAL_QUERY (R443). -/
def thermalQuery (t : Nat) (ch : Fin 130) (s : State) : State :=
  onCmd 0x0A02 t ch noArgs (fun _ _ => true) (fun r _ s =>
    answer ch r stOk ((s.pwr.temps.toList.map fun x => leBytes 2 (unsignedOf 16 x)).flatten ++ leBytes 4 s.pwr.avgMw) s) s

/-- `POWER_LIMIT_SET`: 01 R26. -/
def execPowerLimitSet (t : Nat) (ch : Fin 130) (s : State) : Outcome := .next (powerLimitSet t ch s)
/-- `POWER_STATE_SET`: 14 R436; also R23, R125, R363, R422, R437, R439, R440. -/
def execPowerStateSet (t : Nat) (ch : Fin 130) (s : State) : Outcome := .next (powerStateSet t ch s)
/-- `THERMAL_QUERY`: 14 R443. -/
def execThermalQuery (t : Nat) (ch : Fin 130) (s : State) : Outcome := .next (thermalQuery t ch s)
/-- `WAKE`: 14 R432; also R424, R440, R446. -/
def execWake (t : Nat) (pec : BitVec 8) (s : State) : Outcome := .next (smbWake t pec s)
/-- `POWER_STATUS`: 14 R432. -/
def execPowerStatus (t : Nat) (_pec : BitVec 8) (s : State) : Outcome := .next (powerStatus t s)
/-- `LINK_ENERGY_WAKE`: 04 R127; also R440. -/
def execLinkEnergyWake (t : Nat) (p : Fin 8) (lanes : BitVec 9) (sinceNs : Nat) (s : State) : Outcome :=
  .next (linkEnergyWake t p lanes sinceNs s)
/-- `POWER_MEASURE`: 01 R27; also R26, R28, R316, R444. -/
def execPowerMeasure (t : Nat) (milliwatts : Nat) (s : State) : Outcome := .next (powerMeasure t milliwatts s)
/-- `BRD_THROT_N`: 14 R444; also R28. -/
def execBrdThrotN (t : Nat) (high : Bool) (s : State) : Outcome := .next (brdThrotN t high s)
/-- `TEMP_SAMPLE`: 14 R443; also R27, R445. -/
def execTempSample (t : Nat) (readings : List Int) (s : State) : Outcome := .next (tempSample t readings s)
/-- `TRIP_RECOVERY`: 14 R446. -/
def execTripRecovery (t : Nat) (s : State) : Outcome := .next (tripRecovery t s)
/-- `SUPPLY_WARN`: 14 R423. -/
def execSupplyWarn (t : Nat) (monitor : Fin 8) (millivolts : Nat) (s : State) : Outcome := .next (supplyWarn t monitor millivolts s)
/-- `SUPPLY_FAULT`: 14 R424; also R91, R422, R423. -/
def execSupplyFault (t : Nat) (monitor : Fin 8) (millivolts : Nat) (s : State) : Outcome := .next (supplyFault t monitor millivolts s)
/-- `SUPPLY_GLITCH`: 14 R423; also R91, R224. -/
def execSupplyGlitch (t : Nat) (monitor : Option (Fin 8)) (s : State) : Outcome := .next (supplyGlitch t monitor s)
/-- `CLOCK_FAULT`: 14 R428; also R91. -/
def execClockFault (t : Nat) (absent : Bool) (ppm : Int) (s : State) : Outcome := .next (clockFault t absent ppm s)
/-- `XTAL_FALLBACK`: 14 R426. -/
def execXtalFallback (t : Nat) (ppm : Int) (s : State) : Outcome := .next (xtalFallback t ppm s)
/-- `PCIE_REFCLK_LOSS`: 14 R429. -/
def execPcieRefclkLoss (t : Nat) (s : State) : Outcome := .next (pcieRefclkLoss t s)
/-- `POWER_UP`: 14 R422; also R6, R52, R207, R390, R419, R421, R428. -/
def execPowerUp (t : Nat) (straps : Straps) (s : State) : Outcome := .next (powerUp t straps s)
/-- `RAIL_GROUP_IN_RANGE`: 14 R422; also R421. -/
def execRailGroupInRange (t : Nat) (group : Fin 3) (s : State) : Outcome := .next (railGroupInRange t group s)
/-- `SEQ_FAIL`: 14 R422. -/
def execSeqFail (t : Nat) (monitor : Fin 8) (s : State) : Outcome := .next (seqFail t monitor s)
/-- `PERST_N_FALL`: 14 R431. -/
def execPerstFall (t : Nat) (s : State) : Outcome := .next (perstFall t s)
/-- `PERST_N_RISE`: 14 R431; also R424, R440, R446, R459. -/
def execPerstRise (t : Nat) (s : State) : Outcome := .next (perstRise t s)
/-- `PF_FLR`: 14 R431. -/
def execPfFlr (t : Nat) (s : State) : Outcome := .next (pfFlr t s)
/-- `VF_FLR`: 14 R431. -/
def execVfFlr (t : Nat) (n : Fin 128) (s : State) : Outcome := .next (vfFlr t n s)
/-- `QUIET_EXIT`: 14 R439; also R23, R363. -/
def execQuietExit (t : Nat) (s : State) : Outcome := .next (quietExit t s)
/-- `COLD_POWER_LOSS`: 14 R422; also R421. -/
def execColdPowerLoss (t : Nat) (s : State) : Outcome := .next (coldPowerLoss (s.at t))
/-- `PCIE_WAKE_N_RELEASE`: 14 R440. -/
def execPcieWakeRelease (t : Nat) (s : State) : Outcome := .next (pcieWakeRelease t s)
/-- The SMBus target lets go of the bus: transactions are commands of their own, so nothing is under way here. -/
def execSmbusClockLowTimeout (t : Nat) (_lowUs : Nat) (s : State) : Outcome := .next (s.at t)

end Sys2Proof.Machine
end

