-- ==== Sys2Proof/Machine/Boot.lean ====
section
/-! DEFINITION. Bring-up (chapter 15): the flash and its directory, image checks, the configuration area, the ROM, the end of boot,
Root's beats, and the firmware commands. -/

namespace Sys2Proof.Machine

/-! ### The flash (R450, R451) -/

/-- Bytes of the flash; an erased byte reads 0xFF. Log entry 10 (DESIGN CHOICE). -/
def flashRead (s : State) (a n : Nat) : Bytes := Mem.read 0xFF s.flash a n

/-- Bytes written to the flash. -/
def flashWrite (a : Nat) (b : Bytes) (s : State) : State := { s with flash := Mem.write 0xFF s.flash a b }

/-- A run of the flash erased. -/
def flashErase (a n : Nat) (s : State) : State := { s with flash := Mem.clear s.flash a n }

/-- A directory copy: SEQ, the preferred slot, TRIAL. -/
structure Directory where
  seq : Nat
  slot : Nat
  trial : Bool
  deriving DecidableEq, Repr

/-- The directory copy k, where it is valid. -/
def directoryCopy (s : State) (k : Nat) : Option Directory :=
  let b := flashRead s (0x1000 * k) 20
  if u32At b 0 = 0x31444C46 ∧ u32At b 16 = crc32 (b.take 16) then
    some { seq := u32At b 4, slot := u8At b 8 % 2, trial := (u8At b 9).testBit 0 }
  else none

/-- The governing copy: its number and contents. Log entry 128 (DEDUCED). -/
def governingCopy (s : State) : Option (Nat × Directory) :=
  match directoryCopy s 0, directoryCopy s 1 with
  | some a, some b =>
    let d : Nat := (b.seq + 2 ^ 32 - a.seq) % 2 ^ 32
    if d ≠ 0 ∧ d < 2 ^ 31 then some (1, b) else some (0, a)
  | some a, none => some (0, a)
  | none, some b => some (1, b)
  | none, none => none

/-- The directory in force: slot A without TRIAL where no copy is valid. -/
def directory (s : State) : Directory :=
  match governingCopy s with
  | some (_, d) => d
  | none => { seq := 0, slot := 0, trial := false }

/-- A directory update: the copy that does not govern, with SEQ one above. Log entry 128 (DEDUCED). -/
def updateDirectory (slot : Nat) (trial : Bool) (s : State) : State :=
  let k := match governingCopy s with
    | some (k, _) => 1 - k
    | none => 0
  let b := leBytes 4 0x31444C46 ++ leBytes 4 ((directory s).seq + 1) ++ leBytes 1 slot ++ leBytes 1 (bit 0 trial) ++ zeros 6
  flashWrite (0x1000 * k) (b ++ leBytes 4 (crc32 b)) (flashErase (0x1000 * k) 0x1000 s)

/-- Where a slot begins, and its size. -/
def slotBase (slot : Nat) : Nat := if slot = 0 then 0x10000 else 0x800000
def slotBytes : Nat := 0x780000

/-! ### The configuration area (Tables 15-4 and 15-5, R454) -/

/-- A number lies in a range. -/
def within (lo v hi : Nat) : Bool := decide (lo ≤ v ∧ v ≤ hi)

/-- A port block, where every field lies in its range. -/
def portCfgOf (b : Bytes) : Option PortCfg :=
  let energy := signedOf 8 (u8At b 0)
  let launch := signedOf 8 (u8At b 6)
  let f := u8At b 5
  let ok := decide (-40 ≤ energy ∧ energy ≤ -10 ∧ -12 ≤ launch ∧ launch ≤ 4)
    && [5, 10, 15, 20, 25].contains (u8At b 1) && [1, 4, 16, 64].contains (u8At b 2) && within 0 (u8At b 3) 2
    && within 2 (u8At b 4) 255 && within 0 f 7 && zeroAt b 7 1 && within 100 (u32At b 8) 100000
    && within 4 (u16At b 12) 1000 && within 10 (u16At b 14) 1000
    && ((List.range 8).all fun v => within 2 (u8At b (16 + v)) 8) && zeroAt b 24 40
  if ok then
    some { energyThreshold := energy, targetGrade := 10 * u8At b 1, acquireSf := u8At b 2, securityMode := u8At b 3,
           retireThreshold := u8At b 4, autoTrain := f.testBit 0, autoRetrain := f.testBit 1, wakeOnLink := f.testBit 2,
           launchPower := launch, retireUs := u32At b 8, downUs := u16At b 12, beaconMs := u16At b 14,
           spillLog2 := Vector.ofFn fun v => 20 + u8At b (16 + v.val) }
  else none

/-- The certificates are ordered by serial and KEY_ID, none twice. -/
def certsOrdered : List Bytes → Bool
  | a :: b :: l =>
    decide (u64At a 0 < u64At b 0 ∨ (u64At a 0 = u64At b 0 ∧ u16At a 8 < u16At b 8)) && certsOrdered (b :: l)
  | _ => true

/-- The general part's fields lie in their ranges. -/
def generalOk (b : Bytes) : Bool :=
  let o := u32At b 24
  let l := u32At b 28
  u32At b 0 == 0x31474643 && u16At b 4 == 1 && within 0 (u16At b 6) 1024 && within 0 (u32At b 8) 7
    && within 100 (u32At b 12) 100000 && within 1000 (u32At b 16) 10000000 && within 10 (u32At b 20) 10000
    && o % 4096 == 0 && l % 4096 == 0 && decide (l ≤ 0x100000 ∧ o + l ≤ 0x400000) && within 2 (u8At b 32) 255 && zeroAt b 33 1
    && within 1 (u16At b 34) 168 && zeroAt b 36 28 && zeroAt b 161 95 && zeroAt b 768 256

/-- The CONFIG section as a configuration, where it passes R454. -/
def configOf (b : Bytes) : Option Cfg :=
  let n := u16At b 6
  let certs := (List.range n).map fun i => slice b (1024 + 208 * i) 208
  let flags := u32At b 8
  match allSome ((List.range 8).map fun p => portCfgOf (slice b (256 + 64 * p) 64)) with
  | none => none
  | some ports =>
    let sealedOk := !flags.testBit 1 || ports.all fun p => p.securityMode == 2
    let certsOk := certs.all fun c => zeroAt c 10 2 && zeroAt c 109 3
    if 1024 + 208 * n ≤ b.length ∧ (generalOk b && certsOrdered certs && certsOk && sealedOk) = true then
      some { ownerKey := slice b 64 97, certs := certs, debugEnable := flags.testBit 0, requireSealed := flags.testBit 1,
             autoFailover := flags.testBit 2, remoteTimeoutUs := u32At b 12, colTimeoutUs := u32At b 16,
             progressMs := u32At b 20, sampleO := u32At b 24, sampleL := u32At b 28, rowErrors := u8At b 32,
             rowHours := u16At b 34, ports := Vector.ofFn fun p => ports.getD p.val PortCfg.default }
    else none

/-! ### Image checks (Table 15-2, R452) -/

/-- A section: TYPE, OFFSET, LENGTH. -/
structure Section where
  typ : Nat
  offset : Nat
  length : Nat
  deriving DecidableEq, Repr

/-- The used entries of the section table. -/
def sectionsOf (h : Bytes) : List Section :=
  ((List.range 8).map fun i => { typ := u32At h (64 + 16 * i), offset := u32At h (68 + 16 * i), length := u32At h (72 + 16 * i) }).filter
    fun x => x.typ != 0

/-- No two sections overlap. -/
def sectionsApart : List Section → Bool
  | [] => true
  | x :: l => (l.all fun y => decide (x.offset + x.length ≤ y.offset ∨ y.offset + y.length ≤ x.offset)) && sectionsApart l

/-- The section of a type. -/
def sectionOf (h : Bytes) (ty : Nat) : Section := ((sectionsOf h).find? fun x => x.typ == ty).getD { typ := 0, offset := 0, length := 0 }

/-- The largest section of a type. -/
def sectionMax (ty : Nat) : Nat := if ty = 1 then 0x300000 else if ty = 2 then 0x40000 else 0x100000

/-- Check 2. -/
def headerPasses (h : Bytes) : Bool :=
  let l := sectionsOf h
  let len := u32At h 8
  u32At h 0 == 0x31474D49 && u16At h 4 == 1 && u16At h 6 == 3 && zeroAt h 19 45 && zeroAt h 192 320
    && ((List.range 8).all fun i => zeroAt h (76 + 16 * i) 4)
    && decide (len + 96 ≤ slotBytes) && l.length == 3 && [1, 2, 3].all (fun ty => l.any fun x => x.typ == ty)
    && sectionsApart l && l.all fun x => x.offset % 4096 == 0 && decide (x.offset + x.length ≤ len ∧ x.length ≤ sectionMax x.typ)

/-- The CONFIG section of a slot. -/
def slotConfig (s : State) (slot : Nat) : Bytes :=
  let c := sectionOf (flashRead s (slotBase slot) 512) 3
  flashRead s (slotBase slot + c.offset) c.length

/-- The checks of Table 15-3: 1 for a pass, else the code of the first that fails. Log entry 129 (DEDUCED). -/
def slotResult (s : State) (slot : Nat) (spiError : Bool) : Nat :=
  let h := flashRead s (slotBase slot) 512
  let len := u32At h 8
  let cfg := slotConfig s slot
  let key := slice cfg 64 97
  let image := flashRead s (slotBase slot) len
  let sig := flashRead s (slotBase slot + len) 96
  if spiError then 8
  else if !headerPasses h then 2
  else if u8At h 17 ≠ 3 then 6
  else if s.fuse.ownerHash.all (· == 0) then 3
  else if sha384 key ≠ s.fuse.ownerHash then 3
  else if !(match pointOfBytes key with
    | some q => ecdsaVerify q image sig
    | none => false) then 4
  else if u8At h 16 < s.fuse.rollback then 5
  else if (configOf cfg).isNone then 7
  else 1

/-! ### The ROM (R452, R453, R456, R457) -/

/-- Recovery, for a reason: the ROM serves channels 0 and 1. Log entry 129 (DEDUCED). -/
def enterRecovery (reason : Nat) (s : State) : State :=
  let s := modCmb (fun c => { c with inReset := false })
    { s with boot := { s.boot with stage := 7, recovery := reason, fwBuild := 0, gcsMinor := 2 }, pwr := { s.pwr with energyBoot := false } }
  rootServes s

/-- The image of a slot that passed starts: its configuration comes into force. Log entry 129 (DEDUCED). -/
def startImage (slot : Nat) (s : State) : State :=
  let h := flashRead s (slotBase slot) 512
  let c := (configOf (slotConfig s slot)).getD s.cfg
  let s := { s with
    cfg := c
    boot := { s.boot with stage := 5, slot := slot, recovery := 0, fwBuild := u32At h 12, gcsMinor := u8At h 18, rollback := u8At h 16 } }
  (fins 8).foldl (fun s p => modLink p (fun l => { l with mode := (vget c.ports p).securityMode }) s) s

/-- BOOT_ROM: the whole of the ROM's work, from the self-test to the start of the image or of recovery.
Log entries 10 (DESIGN CHOICE), 129 (DEDUCED). -/
def bootRom (t : Nat) (x : BootProbe) (s : State) : State :=
  let s := s.at t
  if s.boot.stage ≠ 1 ∨ s.pwr.st ≠ .run then s
  else
    let s := modPwr (fun p => { p with pcieUp := p.perstHigh }) (hwdReset (!x.heartwoodPasses) s)
    let s := if x.heartwoodPasses then s else logErr 0x0041 31 (leBytes 1 3) s
    if !x.sfdpValid || !x.quadMode then enterRecovery 2 s
    else
      let d := directory s
      let s := if s.boot.trialFault ∧ d.trial = true then updateDirectory (1 - d.slot) false s else s
      let d := directory s
      let s := { s with boot := { s.boot with trial := d.trial, trialFault := false, failedStacks := x.stacksFailed.toNat } }
      if x.stacksFailed ≠ 0 then enterRecovery 3 s
      else
        let spi := fun (k : Nat) => if k = 0 then x.spiErrorA else x.spiErrorB
        let first := slotResult s d.slot (spi d.slot)
        let other := if first = 1 then 0 else slotResult s (1 - d.slot) (spi (1 - d.slot))
        let a := if d.slot = 0 then first else other
        let b := if d.slot = 0 then other else first
        let s := { s with boot := { s.boot with slotA := a, slotB := b } }
        if first = 1 then startImage d.slot s
        else if other = 1 then startImage (1 - d.slot) s
        else enterRecovery (if s.fuse.ownerHash.all (· == 0) ∧ (a = 3 ∨ b = 3) then 4 else 1) s

/-- The granules of the spill rings of a configuration (05 R147, 07 Table 7-1). -/
def spillGranulesOf (c : Cfg) : Nat :=
  ((c.ports.toList.map fun p => (p.spillLog2.toList.map fun v => 2 ^ v).foldl (· + ·) 0).foldl (· + ·) 0) / granuleBytes

/-- Boot training of a port: an OPEN one begins, a secured one waits for its identity key (R458). -/
def bootPort (p : Fin 8) (s : State) : State :=
  if !(vget s.cfg.ports p).autoTrain && !s.pwr.energyBoot then s
  else if (port s p).link.mode = 0 then bootTrain p s
  else modPhys p (fun x => { x with bootWait := true }) s

/-- BOOT_READY: steps 11 to 13 of Table 15-6. Log entries 113 (DEDUCED), 139 (DESIGN CHOICE). -/
def bootReady (t : Nat) (s : State) : State :=
  let s := s.at t
  if s.boot.stage ≠ 5 then s
  else
    let d := drawBytes 64 s
    let e := drawBytes 64 d.2
    let s := modMm (fun m => { m with lendKey := d.1, spillKey := e.1, spillGranules := spillGranulesOf s.cfg }) e.2
    let s := modCmb (fun c => { c with inReset := false }) { s with boot := { s.boot with stage := 6, readyAt := s.now } }
    let s := { s with fjr := { s.fjr with recording := true, seq := 0, held := false } }
    let s := journal 0x09 30 (leBytes 4 s.root.bootCount ++ leBytes 4 s.mm.journalMib ++ zeros 8) s
    let s := if s.cmb.outOfService then s else (fins 8).foldl (fun s p => bootPort p s) s
    rootServes (modPwr (fun p => { p with energyBoot := false }) s)

/-! ### Root's beats (13 R385, R386) -/

/-- ROOT_BEAT: the third beat after a start of Root arms the watchdog. Log entry 114 (DEDUCED). -/
def rootBeat (t : Nat) (s : State) : State :=
  let s := s.at t
  if s.boot.stage < 5 ∨ s.obs.rootHart.halted = true ∨ s.cmb.devicePending.isSome = true then s
  else
    let n := s.cmb.rootBeats + 1
    let arms := decide (3 ≤ n) && s.cmb.wdt != .armed
    let s := modCmb (fun c => { c with rootBeats := n, lastRootBeat := s.now, wdt := if 3 ≤ n then .armed else .unarmed }) s
    if arms then { s with boot := { s.boot with armedAt := some s.now } } else s

/-- BOOT_TIMEOUT: Root not ARMED 5 s after the release of a device reset, or 100 ms after the start of a Root restart. -/
def bootTimeout (t : Nat) (s : State) : State :=
  let s := s.at t
  let late : Bool := match s.cmb.restartAt with
    | some r => decide (r + 100000000 ≤ s.now)
    | none => s.boot.armedAt.isNone && decide (s.cmb.deviceAt + 5000000000 ≤ s.now)
  if late ∧ s.cmb.wdt ≠ .armed ∧ s.boot.stage ≠ 0 ∧ s.boot.stage ≠ 7 ∧ s.obs.rootHart.halted = false then startDevice 5 s else s

/-- TRIAL_CONFIRM: ARMED for 60 s without a reset. -/
def trialConfirm (t : Nat) (s : State) : State :=
  let s := s.at t
  match s.boot.armedAt with
  | some a =>
    if s.boot.stage = 6 ∧ s.boot.trial = true ∧ s.boot.trialFault = false ∧ s.boot.activateAt = none ∧ s.cmb.wdt = .armed ∧ a + 60000000000 ≤ s.now then
      let s := updateDirectory (directory s).slot false s
      { s with boot := { s.boot with trial := false } }
    else s
  | none => s

/-! ### Firmware commands (R457) -/

/-- The slot that the governing directory copy does not prefer. -/
def stagingSlot (s : State) : Nat := 1 - (directory s).slot

/-- The arguments of FW_STAGE: offset and data. -/
def stageArgs (b : Bytes) : Option (Nat × Bytes) :=
  let n := u32At b 4
  if 8 ≤ b.length ∧ n ≤ 4032 ∧ 8 + n ≤ b.length ∧ zeroAt b (8 + n) (b.length - (8 + n)) = true then some (u32At b 0, slice b 8 n)
  else none

/-- FW_STAGE. Log entry 128 (DEDUCED). -/
def fwStage (t : Nat) (ch : Fin 130) (s : State) : State :=
  onCmd 0x0B00 t ch stageArgs
    (fun s a => decide (a.1 + a.2.length ≤ slotBytes) && (a.1 == 0 || (s.boot.stagedAny && a.1 == s.boot.staged)))
    (fun r a s =>
      let base := slotBase (stagingSlot s)
      let s := if a.1 = 0 then flashErase base slotBytes s else s
      let s := flashWrite (base + a.1) a.2 s
      acceptLong ch r (.planned stOk [])
        { s with boot := { s.boot with staged := a.1 + a.2.length, stagedAny := true } }) s

/-- FW_ACTIVATE: the staged slot is checked; LONG_COMMAND_COMPLETE writes the directory. Log entry 128 (DEDUCED). -/
def fwActivate (t : Nat) (ch : Fin 130) (s : State) : State :=
  onCmd 0x0B01 t ch noArgs (fun _ _ => true) (fun r _ s =>
    let slot := stagingSlot s
    if slotResult s slot false = 1 then acceptLong ch r (.activate (u32At (flashRead s (slotBase slot) 512) 12)) s
    else acceptLong ch r (.planned stBadArg []) s) s

/-- FW_ACTIVATE ends: the staged slot preferred in trial, the event, and the reset 100 ms after it.
Log entry 128 (DEDUCED). -/
def activateNow (ch : Fin 130) (num build : Nat) (s : State) : State :=
  let s := updateDirectory (stagingSlot s) true s
  let s := finishTicket ch num stOk (leBytes 4 build) s
  { s with boot := { s.boot with activateAt := some (s.now + 100000000), stagedAny := false, trial := true } }

/-- ACTIVATE_RESET. -/
def activateReset (t : Nat) (s : State) : State :=
  let s := s.at t
  match s.boot.activateAt with
  | some a => if a ≤ s.now then startDevice 0 { s with boot := { s.boot with activateAt := none } } else s
  | none => s

/-- ROLLBACK_ADVANCE. -/
def rollbackAdvance (t : Nat) (ch : Fin 130) (s : State) : State :=
  onCmd 0x0B02 t ch (parseArgs [1])
    (fun s a => decide (s.fuse.rollback < a.headD 0 ∧ a.headD 0 ≤ s.boot.rollback) && !s.boot.trial)
    (fun r a s => answer ch r stOk [] { s with fuse := { s.fuse with rollback := a.headD 0 } }) s

/-- `FW_STAGE`: 15 R457. -/
def execFwStage (t : Nat) (ch : Fin 130) (s : State) : Outcome := .next (fwStage t ch s)
/-- `FW_ACTIVATE`: 15 R457; also R451, R454, R470. -/
def execFwActivate (t : Nat) (ch : Fin 130) (s : State) : Outcome := .next (fwActivate t ch s)
/-- `ROLLBACK_ADVANCE`: 15 R457. -/
def execRollbackAdvance (t : Nat) (ch : Fin 130) (s : State) : Outcome := .next (rollbackAdvance t ch s)
/-- `ROOT_BEAT`: 13 R385. -/
def execRootBeat (t : Nat) (s : State) : Outcome := .next (rootBeat t s)
/-- `BOOT_TIMEOUT`: 13 R386. -/
def execBootTimeout (t : Nat) (s : State) : Outcome := .next (bootTimeout t s)
/-- `BOOT_ROM`: 15 R452; also R75, R91, R434, R450, R451, R453, R454, R456, R457, R458, R460, R470. -/
def execBootRom (t : Nat) (probe : BootProbe) (s : State) : Outcome := .next (bootRom t probe s)
/-- `BOOT_READY`: 15 R458; also R41, R75, R77, R83, R127, R149, R405, R406, R460. -/
def execBootReady (t : Nat) (s : State) : Outcome := .next (bootReady t s)
/-- `TRIAL_CONFIRM`: 15 R457; also R451. -/
def execTrialConfirm (t : Nat) (s : State) : Outcome := .next (trialConfirm t s)
/-- `ACTIVATE_RESET`: 15 R457. -/
def execActivateReset (t : Nat) (s : State) : Outcome := .next (activateReset t s)

end Sys2Proof.Machine
end

