-- ==== Sys2Proof/Machine/MoveOps.lean ====
section
/-! DEFINITION. The records of MOVE queues (08 Tables 8-13 to 8-16): COPY, FILL, REMOTE_OP, PREFETCH, and the failure
of a read of host memory (R259). -/

namespace Sys2Proof.Machine

/-! ### COPY (R258) -/

/-- The first `n` bytes of a byte string repeated. -/
def cycleBytes : Nat → Bytes → Bytes
  | 0, _ => []
  | n + 1, b => (b ++ cycleBytes n b).take (n + 1)

/-- How far the destination lies above the source in the same space, if it does. -/
def copyDistance (src dst : Loc) : Option Nat :=
  match src, dst with
  | .part x, .part y => if x < y then some (y - x) else none
  | .scratch x, .scratch y => if x < y then some (y - x) else none
  | _, _ => none

/-- The lines of a local copy's destination one after the other, in ascending address order: each from its source
bytes while these are readable; from the first failing source line on, poisoned (07 R226). Bytes whose source lies in
the same piece of the destination repeat those copied before them. -/
def copyPieces (n : Nat) (src dst : Loc) : List (Nat × Nat) → Nat → Nat → State → Nat × Nat × State
  | [], rd, wr, s => (rd, wr, s)
  | (off, len) :: ps, rd, wr, s =>
    let d := min len ((copyDistance src dst).getD len)
    let r := readLoc n (src.plus off) d s
    let rd' := firstFail rd r.1
    if rd' = stOk then
      let w := writeLoc n (dst.plus off) (cycleBytes len r.2.1) r.2.2
      copyPieces n src dst ps rd' (firstFail wr w.1) w.2
    else copyPieces n src dst ps rd' wr (poisonLoc n (dst.plus off) len r.2.2)

/-- The start of a local location within its line. -/
def Loc.start : Loc → Nat
  | .part o => o
  | .scratch a => a

/-- A copy's range cut at the line boundaries of its destination: (offset in the copy, length). -/
def dstPieces (dst : Loc) (len : Nat) : List (Nat × Nat) :=
  (lineCuts dst.start len).map fun c => (c.1 + c.2.1 - dst.start, c.2.2)

/-- A COPY between local ends ends with the first source failure, else with a destination line not merged (R474). -/
def copyLocalEnds (n q num : Nat) (src dst : Loc) (len : Nat) (s : State) : State :=
  let r := copyPieces n src dst (dstPieces dst len) stOk stOk s
  let st := firstFail r.1 r.2.1
  endRecord n q num st (leBytes 8 (if st = stOk then len else 0)) r.2.2

/-- A COPY from partition memory or scratch to the host: bytes before a failing source line are written. -/
def copyToHost (n q num : Nat) (src : Loc) (dst len : Nat) (s : State) : State :=
  let go := (dstPieces src len).foldl (fun (a : Nat × Bytes × State) p =>
    if a.1 ≠ stOk then a
    else
      let r := readLoc n (src.plus p.1) p.2 a.2.2
      (r.1, a.2.1 ++ r.2.1, r.2.2)) (stOk, [], s)
  let s := if go.2.1 = [] then go.2.2 else emit (.hostWrite n dst go.2.1) go.2.2
  endRecord n q num go.1 (leBytes 8 (if go.1 = stOk then len else 0)) s

/-- A COPY of host bytes to partition memory or scratch. -/
def copyFromHost (n q num : Nat) (data : Bytes) (dst : Loc) (len : Nat) (s : State) : State :=
  let w := writeLoc n dst (fit len data) s
  endRecord n q num w.1 (leBytes 8 (if w.1 = stOk then len else 0)) w.2

/-- COPY's fields are in range: its reserved bytes are 0, its length and spaces, no two far ends (R258). -/
def copyRanges (b : Bytes) : Bool :=
  let ss := u8At b 36
  let ds := u8At b 37
  decide (1 ≤ copyLen b ∧ copyLen b ≤ 2 ^ 30) && decide (ss ≤ 3 ∧ ds ≤ 3)
    && !(ss == 2 && ds == 2) && !(ss == 2 && ds == 3) && !(ss == 3 && ds == 2)

/-- The local ends of a COPY lie in allocated granules or the scratch space. -/
def copyOperands (s : State) (n : Nat) (b : Bytes) : Bool :=
  (decide (2 ≤ u8At b 36) || locOk s n (moveLoc (u8At b 36) (copySrc b)) (copyLen b))
    && (decide (2 ≤ u8At b 37) || locOk s n (moveLoc (u8At b 37) (copyDst b)) (copyLen b))

/-- COPY's work; `data` are the bytes of a host source. -/
def copyWork (data : Bytes) : RecBody := fun n q num b s =>
  let ss := u8At b 36
  let ds := u8At b 37
  let len := copyLen b
  if isBulk b then
    match running s n q num with
    | some r => finishBulk n q num (pump (issueChunk n q num r s))
    | none => s
  else if ss = 3 ∧ ds = 3 then
    endRecord n q num stOk (leBytes 8 len) (emit (.hostWrite n (copyDst b) (fit len data)) s)
  else if ss = 3 then copyFromHost n q num data (moveLoc ds (copyDst b)) len s
  else if ds = 3 then copyToHost n q num (moveLoc ss (copySrc b)) (copyDst b) len s
  else copyLocalEnds n q num (moveLoc ss (copySrc b)) (moveLoc ds (copyDst b)) len s

/-- COPY's reserved bytes: HINT bits 15:1, and bytes 40 to 63. -/
def copyReserved (b : Bytes) : Bool := decide (u16At b 38 ≤ 1) && zeroAt b 40 24

/-- COPY. -/
def copyBody (data : Bytes) : RecBody := fun n q num b s =>
  checkedRecord (copyReserved b) (copyRanges b) (copyOperands s n b) false (copyWork data) n q num b s

/-! ### FILL -/

/-- FILL's work: the pattern repeated. -/
def fillWork : RecBody := fun n q num b s =>
  let len := u32At b 32
  let w := writeLoc n (moveLoc (u8At b 24) (rec64 b 16)) (List.replicate (len / 4) (slice b 28 4)).flatten s
  endRecord n q num w.1 [] w.2

/-- FILL. -/
def fillBody : RecBody := fun n q num b s =>
  let len := u32At b 32
  checkedRecord (zeroAt b 25 3 && zeroAt b 36 28)
    (decide (u8At b 24 ≤ 1) && decide (4 ≤ len ∧ len ≤ 2 ^ 30) && len % 4 == 0 && rec64 b 16 % 4 == 0)
    (locOk s n (moveLoc (u8At b 24) (rec64 b 16)) len) false fillWork n q num b s

/-! ### REMOTE_OP -/

/-- The local ranges of a REMOTE_OP: (address, length, is a source). -/
def remoteLocals (b : Bytes) : List (Nat × Nat) :=
  let op := u8At b 16
  let len := u32At b 20
  (rec64 b 32, if op = 1 then len else reqDataLen op len) :: (if isAtomic op then [(rec64 b 40, len)] else [])

/-- REMOTE_OP's work: the local source is read, and the transaction issued. -/
def remoteOpWork : RecBody := fun n q num b s =>
  let op := u8At b 16
  let len := u32At b 20
  let sp := u8At b 17
  let send (data : Bytes) (s : State) : State :=
    pump (issueTxn (Txn.make op 0 n (rec64 b 24) len 0 data (.record n q num)) s)
  if op = 1 then send [] s
  else
    let d := readLoc n (moveLoc sp (rec64 b 32)) (reqDataLen op len) s
    if d.1 = stOk then send d.2.1 d.2.2
    else
      let s := if isAtomic op then poisonLoc n (moveLoc sp (rec64 b 40)) len d.2.2 else d.2.2
      endRecord n q num d.1 [] s

/-- REMOTE_OP. A size or alignment that breaks Table 6-2 completes at issue (06 R180), before the local operands are
checked. -/
def remoteOpBody : RecBody := fun n q num b s =>
  let op := u8At b 16
  let len := u32At b 20
  let okOp := op == 1 || op == 2 || isAtomic op
  if !zeroAt b 18 2 || !zeroAt b 48 16 || !okOp || !decide (u8At b 17 ≤ 1) || (!isAtomic op && rec64 b 40 != 0) then
    endRecord n q num stBadArg [] s
  else if !txnSizeOk op (rec64 b 24) len then
    pump (issueTxn (Txn.make op 0 n (rec64 b 24) len 0 [] (.record n q num)) s)
  else
    checkedRecord true true ((remoteLocals b).all fun l => locOk s n (moveLoc (u8At b 17) l.1) l.2) false remoteOpWork
      n q num b s

/-! ### PREFETCH (R260) -/

/-- PREFETCH's work: a range outside a slot with PREFETCH rights completes at issue with ACCESS_DENIED; otherwise one
read-ahead LOAD for each 4 KiB page. -/
def prefetchWork : RecBody := fun n q num b s =>
  let addr := rec64 b 16
  let len := u32At b 24
  let granted := match governing s n addr with
    | some (_, i) => slotGrants i addr len (needRights 1 1)
    | none => false
  if !granted then
    endRemote n q num (statusWord stAccessDenied true (ownChip s)) [] (countSynth stAccessDenied s)
  else
    let k := len / 4096
    let s := modRunning n q num (fun r => { r with txnsLeft := k }) s
    pump ((List.range k).foldl (fun s i =>
      issueTxn (Txn.make 1 1 n (addr + 4096 * i) 4096 0 [] (.readAhead (.queue (qKey n q) num))) s) s)

/-- PREFETCH. -/
def prefetchBody : RecBody := fun n q num b s =>
  let len := u32At b 24
  checkedRecord (zeroAt b 28 36)
    (rec64 b 16 % 4096 == 0 && decide (4096 ≤ len ∧ len ≤ 0x400000) && len % 4096 == 0) true false prefetchWork
    n q num b s

/-! ### Failure of a read of host memory (R259) -/

/-- The status a failed host read gives a COPY. Log entry 83 (DESIGN CHOICE). -/
def hostFailStatus : HostFail → Nat
  | .unsupportedRequest => stAccessDenied
  | .completerAbort => stAccessDenied
  | .poisonedTlp => stPoisoned
  | .completionTimeout => stTimeout

/-- The kind of a failed host read in the error log. -/
def hostFailKind : HostFail → Nat
  | .unsupportedRequest => 1
  | .completerAbort => 2
  | .poisonedTlp => 3
  | .completionTimeout => 4

/-- Root's HOST_ACCESS_FAIL entry and the endpoint's AER report. Log entry 135 (DESIGN CHOICE). -/
def logHostFail (n q num what : Nat) (kind : HostFail) (s : State) : State :=
  emit (.aer n kind) (logErr 0x0009 34 (leBytes 1 n ++ leBytes 1 q ++ leBytes 1 (hostFailKind kind) ++ leBytes 1 what
    ++ leBytes 4 num) s)

/-- The fetch of the next record of a host ring fails: the queue is FAULTED, its vector raised once.
Log entry 83 (DESIGN CHOICE). -/
def fetchFault (n q : Nat) (x : Queue) (kind : HostFail) (s : State) : State :=
  let s := modQueue n q (fun x => { x with faulted := true }) s
  logHostFail n q x.started.toNat 0 kind (queueIrq n x s)

/-- A COPY whose host source fails after the bytes `data`: these are copied; the lines that the failing read, of an
open size, was to fill are poisoned; later bytes keep their values. Log entry 83 (DESIGN CHOICE). -/
def copyHostFail (kind : HostFail) (data : Bytes) : RecBody := fun n q num b s =>
  let len := copyLen b
  let got := data.take len
  let ds := u8At b 37
  let f := drawNat s
  let size := min (len - got.length) (1 + f.1 % 4096)
  let s := f.2
  let s := if ds = 3 then (if got = [] then s else emit (.hostWrite n (copyDst b) got) s)
    else
      let dst := moveLoc ds (copyDst b)
      poisonLoc n (dst.plus got.length) size (writeLoc n dst got s).2
  let s := logHostFail n q num 1 kind s
  endRecord n q num (hostFailStatus kind) (leBytes 8 0) s

/-- A COPY that fails so: its checks come first. Log entry 83 (DESIGN CHOICE). -/
def copyFailBody (kind : HostFail) (data : Bytes) : RecBody := fun n q num b s =>
  checkedRecord (copyReserved b) (copyRanges b) (copyOperands s n b) false (copyHostFail kind data) n q num b s

/-- HOST_ACCESS_FAIL: the next record's fetch from a host ring failed (no record bytes), or the host source of the
COPY that starts now did. -/
def hostAccessFail (t : Nat) (n : Fin 128) (q : Fin 16) (kind : HostFail) (host data : Bytes) (s : State) : State :=
  match queue s n q with
  | none => s.at t
  | some x =>
    if x.host ∧ host = [] then
      let s := s.at t
      if x.started = x.tail ∨ x.faulted = true ∨ planeRuns s = false then s else fetchFault n q x kind s
    else if u8At (fetchRec n x host (s.at t)).2.1 36 = 3 then startRecord 0x20 (copyFailBody kind data) t n q host s
    else s.at t

/-! ### The rows -/

/-- `COPY`: 08 R258; also R11, R180, R185, R186, R188, R198, R212, R215, R219, R220, R222, R225. -/
def execCopy (t : Nat) (n : Fin 128) (q : Fin 16) (host data : List (BitVec 8)) (s : State) : Outcome :=
  .next (startRecord 0x20 (copyBody data) t n q host s)
/-- `FILL`: 08 R254; also R246. -/
def execFill (t : Nat) (n : Fin 128) (q : Fin 16) (host : List (BitVec 8)) (s : State) : Outcome :=
  .next (startRecord 0x21 fillBody t n q host s)
/-- `REMOTE_OP`: 06 R181; also R1, R11, R18, R168, R177, R180, R187, R191, R193, R199, R201, R246. -/
def execRemoteOp (t : Nat) (n : Fin 128) (q : Fin 16) (host : List (BitVec 8)) (s : State) : Outcome :=
  .next (startRecord 0x22 remoteOpBody t n q host s)
/-- `PREFETCH`: 08 R260; also R18, R198, R246. -/
def execPrefetch (t : Nat) (n : Fin 128) (q : Fin 16) (host : List (BitVec 8)) (s : State) : Outcome :=
  .next (startRecord 0x23 prefetchBody t n q host s)
/-- `HOST_ACCESS_FAIL`: 08 R259. -/
def execHostAccessFail (t : Nat) (n : Fin 128) (q : Fin 16) (kind : HostFail) (host data : List (BitVec 8))
    (s : State) : Outcome :=
  .next (hostAccessFail t n q kind host data s)

end Sys2Proof.Machine
end

