-- ==== Sys2Proof/Machine/Regs.lean ====
section
/-! DEFINITION. Registers: what every window of PF BAR0 and VF BAR0 reads as, the latches of 64-bit pairs (00 R5, R6), register writes
(00 R7, R8), the SMBus window (02 R62), doorbells, and the target of remote debug access (12 R372). -/

namespace Sys2Proof.Machine

/-- A register as it reads: its value, and whether it is the low word of a 64-bit pair, which the value then is. -/
abbrev RegVal := Nat × Bool

/-- A 32-bit register. -/
def word (v : Nat) : Option RegVal := some (v % 2 ^ 32, false)

/-- A 64-bit pair, at its low word. -/
def pair (v : Nat) : Option RegVal := some (v % 2 ^ 64, true)

/-! ### Channel windows (02 Tables 2-2 to 2-5) -/

/-- ROOT_MBX_STATUS. Log entry 30 (DEDUCED). -/
def mbxStatus (s : State) (ch : Fin 130) : Nat :=
  let c := chan s ch
  let st := match c.st with
    | .idle => 0
    | .posted => 1
    | .taken => 2
    | .done => 3
  st + bit 2 c.overrun + bit 3 c.lockHit + bit 4 (c.head != c.tail) + bit 5 s.root.alive + 256 * c.tickets.length
    + bit 13 c.evqReject

/-- A channel's window. -/
def chanAt (s : State) (ch : Fin 130) (o : Nat) : Option RegVal :=
  let c := chan s ch
  if o < 0x1000 then word (ofLe (Mem.read 0 c.req o 4))
  else if o < 0x2000 then word (if c.st = .done then u32At c.rsp (o - 0x1000) else 0)
  else if 0x3000 ≤ o ∧ o < 0x3400 then word (u32At (tgetD ((o - 0x3000) / 16) [] c.evq) (o % 16))
  else match o with
    | 0x2000 => word (bit 0 (c.st == .posted || c.st == .taken))
    | 0x2004 => word (mbxStatus s ch)
    | 0x2008 => word (0x00030000 + s.boot.gcsMinor)
    | 0x200C => word ch.val
    | 0x2010 => pair c.floor
    | 0x2018 => word c.head
    | 0x201C => word c.tail
    | 0x2020 => word (bit 0 c.doneEn + bit 1 c.eventEn)
    | _ => none

/-! ### The Observation window (12 Tables 12-2 to 12-5 and 12-10, 13 Table 13-11) -/

/-- A partition's counter block. -/
def partBlockAt (s : State) (n o : Nat) : Option RegVal :=
  let c := tgetD n PartCtr.zero s.obs.parts
  match o with
  | 0x00 => pair c.math
  | 0x08 => pair c.other
  | 0x10 => pair c.hbmRd
  | 0x18 => pair c.hbmWr
  | 0x20 => pair c.remoteOut
  | 0x28 => pair c.remoteIn
  | 0x30 => pair (boughNsNow s n)
  | 0x38 => pair c.failed
  | _ => none

/-- A bough's counter block. -/
def boughBlockAt (s : State) (b : Fin 64) (o : Nat) : Option RegVal :=
  let c := vget s.obs.boughs b
  if 0x040 ≤ o ∧ o < 0x080 then word (vget c.selects (finOf 16 ((o - 0x040) / 4)))
  else if 0x080 ≤ o ∧ o < 0x100 ∧ o % 8 = 0 then pair (vget c.counts (finOf 16 ((o - 0x080) / 8)))
  else if 0x100 ≤ o ∧ o < 0x180 ∧ o % 8 = 0 then pair (vget c.latched (finOf 16 ((o - 0x100) / 8)))
  else match o with
    | 0x000 => word (c.mode + 0x10000 * c.lastMask)
    | 0x004 => word c.latchRec
    | 0x008 => word c.latchQ
    | 0x00C => word c.latchSeq
    | _ => none

/-- OBS_CUT_STATE. -/
def cutWord (c : Cut) : Nat :=
  (match c.st with
    | .idle => 0
    | .armed => 1
    | .firing => 2
    | .taken => 3) + 4 * c.scope

/-- OBS_CUT_PORT of a port. -/
def cutPortWord (s : State) (p : Fin 8) : Nat :=
  bit 0 (vget s.obs.cut.received p) + bit 1 (vget s.obs.cut.sent p) + bit 2 (peerInMap s p)

/-- The remote debug registers; they read as 0 while debug access does not exist (12 R366, R373).
Log entry 30 (DEDUCED). -/
def rdbgAt (s : State) (o : Nat) : Option RegVal :=
  let r := s.obs.rdbg
  if !debugOn s then none
  else match o with
    | 0xF000 => word r.port
    | 0xF004 => word r.offset
    | 0xF008 => word r.data
    | 0xF00C => word (bit 0 r.waiting.isSome + bit 1 r.write + bit 2 r.done + 0x10000 * r.status)
    | _ => none

/-- Control and status of Observation and of the journal. Log entry 153 (DESIGN CHOICE). -/
def obsControlAt (s : State) (o : Nat) : Option RegVal :=
  let x := s.obs
  match o with
  | 0x0000 => word (bit 3 (frozenNow s))
  | 0x0008 => pair x.freezeAt
  | 0x0010 => word x.syncInterval
  | 0x0014 => pair x.traceMask
  | 0x001C => word (x.traceK % 16)
  | 0x0020 => word (bit 0 x.exportOn)
  | 0x0024 => pair x.exportBase
  | 0x002C => word x.exportSize
  | 0x0030 => word x.exportHead
  | 0x0034 => word x.exportTail
  | 0x0038 => word x.dropped
  | 0x003C => word x.overwritten
  | 0x0040 => word (cutWord x.cut)
  | 0x0044 => word x.cut.id
  | 0x0048 => word (bit 1 x.cut.onBreak)
  | 0x004C => pair x.cut.time
  | 0x0054 => word (x.cut.origin % 1024)
  | 0x0058 => word x.cut.waiting
  | 0x005C => word x.cut.ignored
  | 0x0060 => word (bit 0 (debugOn s))
  | 0x0100 => word (bit 0 s.fjr.recording + s.mm.journalMib / 64 * 0x10000)
  | 0x0104 => word s.fjr.seq
  | 0x0108 => pair s.fjr.next
  | 0x0110 => word s.fjr.gaps
  | _ => none

/-- The Observation window. -/
def obsAt (s : State) (o : Nat) : Option RegVal :=
  if 0x0300 ≤ o ∧ o < 0x0320 then word (cutPortWord s (finOf 8 ((o - 0x0300) / 4)))
  else if 0x0400 ≤ o ∧ o < 0x0500 then word (cutFlits s (finOf 8 ((o - 0x0400) / 0x20)) (finOf 8 (o % 0x20 / 4)))
  else if 0x2000 ≤ o ∧ o < 0x4000 then partBlockAt s ((o - 0x2000) / 0x40) (o % 0x40)
  else if 0x4000 ≤ o ∧ o < 0xC000 then boughBlockAt s (finOf 64 ((o - 0x4000) / 0x200)) (o % 0x200)
  else if 0xC000 ≤ o ∧ o < 0xE000 then word (ofLe (Mem.read 0 s.obs.maps o 4))
  else if 0xE000 ≤ o ∧ o < 0xE200 then word (dmValue s false ((o - 0xE000) / 4))
  else if 0xE200 ≤ o ∧ o < 0xE400 then word (dmValue s true ((o - 0xE200) / 4))
  else if 0xF000 ≤ o then rdbgAt s o
  else obsControlAt s o

/-! ### Port windows (04 Tables 4-11 to 4-13, 05 Table 5-8) -/

/-- The code of a lane's role. -/
def roleCode (r : LaneRole) : Nat :=
  match r with
  | .off => 0
  | .data => 1
  | .spareReady => 2
  | .retrain => 3
  | .retired => 4
  | .failed => 5

/-- SAP_PORT_STATE. -/
def portStateWord (s : State) (p : Fin 8) : Nat :=
  let x := (port s p).phys
  let spare := fun (l : Option (Fin 9)) => (l.map (·.val)).getD 0xF
  physState s p + 16 * (x.grade / 50) + 0x100 * spare (rxSpare s p) + 0x1000 * spare (txSpare s p) + 0x10000 * lanesUp s p

/-- SAP_LANE_STATE. -/
def laneStateWord (s : State) (p : Fin 8) (l : Fin 9) : Nat :=
  let r := rxLane s p l
  let x := txLane s p l
  let place := fun (role : LaneRole) (pos : Nat) => if role = .data then pos else 0
  roleCode r.role + 2 ^ 3 * place r.role r.position + bit 6 r.inverted + 2 ^ 7 * r.partner + 2 ^ 11 * roleCode x.role
    + 2 ^ 14 * place x.role x.position + 2 ^ 17 * (r.tableId % 4) + 2 ^ 19 * (x.tableId % 4) + 2 ^ 21 * sfCode r.sf + 2 ^ 23 * sfCode x.sf

/-- Two signed 16-bit values in a register, the lower bin first. -/
def binWord (l : List Int) (i : Nat) : Nat := unsignedOf 16 (l.getD (2 * i) 0) + 0x10000 * unsignedOf 16 (l.getD (2 * i + 1) 0)

/-- Four table bytes in a register, the lowest bin first. -/
def tableWord (t : List (BitVec 8)) (i : Nat) : Nat := u32At (t.map fun x => x) (4 * i)

/-- Registers of a lane. -/
def laneAt (s : State) (p : Fin 8) (l : Fin 9) (o : Nat) : Option RegVal :=
  let r := rxLane s p l
  let since := (vget s.cfg.ports p).retireUs * 1000
  match o with
  | 0x00 => word (laneStateWord s p l)
  | 0x04 => word (r.errTimes.filter fun t => decide (s.now < t + since)).length
  | 0x08 => pair r.errs
  | 0x10 => word (unsignedOf 16 r.margin)
  | _ => none

/-- Physical-layer registers of a port. -/
def physAt (s : State) (p : Fin 8) (o : Nat) : Option RegVal :=
  let x := (port s p).phys
  let c := vget s.cfg.ports p
  if 0x0100 ≤ o ∧ o < 0x0220 then laneAt s p (finOf 9 ((o - 0x0100) / 0x20)) (o % 0x20)
  else if 0x8000 ≤ o ∧ o < 0xA400 then word (binWord (rxLane s p (finOf 9 ((o - 0x8000) / 0x400))).noise (o % 0x400 / 4))
  else if 0xA400 ≤ o ∧ o < 0xC800 then word (binWord (rxLane s p (finOf 9 ((o - 0xA400) / 0x400))).snr (o % 0x400 / 4))
  else if 0xC800 ≤ o ∧ o < 0xDA00 then word (tableWord (txLane s p (finOf 9 ((o - 0xC800) / 0x200))).table (o % 0x200 / 4))
  else if 0xDA00 ≤ o ∧ o < 0xEC00 then word (tableWord (rxLane s p (finOf 9 ((o - 0xDA00) / 0x200))).table (o % 0x200 / 4))
  else match o with
    | 0x0000 => word (portStateWord s p)
    | 0x0004 => word (unsignedOf 8 c.energyThreshold + 2 ^ 8 * c.retireThreshold + 2 ^ 16 * (c.targetGrade / 10)
        + 2 ^ 24 * sfCode c.acquireSf)
    | 0x0008 => word c.retireUs
    | 0x000C => word (symTx s p)
    | 0x0010 => pair x.trainNs
    | 0x0018 => word x.falseWakes
    | 0x001C => word x.beacons
    | _ => none

/-- A byte map of the VCs for which `f` holds. -/
def vcMap (f : Fin 8 → Bool) : Nat := ((fins 8).map fun v => bit v.val (f v)).foldl (· + ·) 0

/-- SAP_LL_STATE. -/
def llStateWord (s : State) (p : Fin 8) : Nat :=
  let l := (port s p).link
  let st := match l.st with
    | .down => 0
    | .securing => 1
    | .up => 2
    | .low => 3
  let kid := fun (k : Option SessKey) => (k.map fun x => x.epoch % 4).getD 0
  let txKid := if l.mode = 0 then l.txEpoch % 4 else kid l.txKey
  let rxKid := if l.mode = 0 then (l.newest.map (·.1)).getD 0 % 4 else kid l.rxKey
  st + 2 ^ 2 * l.mode + 2 ^ 4 * txKid + 2 ^ 6 * rxKid + 2 ^ 8 * stallMap l
    + 2 ^ 16 * vcMap (fun v => (vget l.tx v).stallAt.isSome || (vget l.tx v).stalled) + 2 ^ 24 * wedgedMap l

/-- SAP_LL_BUNDLE. -/
def bundleWord (s : State) (p : Fin 8) : Nat :=
  match (fins 4).find? fun b => (vget s.txn.bundles b).testBit p.val with
  | some b => b.val + 4 + bit 3 (memberActive s b p)
  | none => 0

/-- Registers of a VC. -/
def vcAt (s : State) (p v : Fin 8) (o : Nat) : Option RegVal :=
  let r := vcRx s p v
  let x := vcTx s p v
  match o with
  | 0x00 => word (bit 0 r.stall + bit 1 (x.stallAt.isSome || x.stalled) + bit 2 r.wedged + bit 3 x.wedged + 2 ^ 8 * slotsUsed s p v)
  | 0x04 => word (ringSize s p v)
  | 0x08 => word (ringFill s p v)
  | 0x0C => word r.peak
  | 0x10 => pair r.accepted
  | 0x18 => pair r.spilled
  | 0x20 => word r.dropped
  | 0x24 => word r.wedges
  | _ => none

/-- Link-layer registers of a port. -/
def linkAt (s : State) (p : Fin 8) (o : Nat) : Option RegVal :=
  let l := (port s p).link
  if 0x1100 ≤ o ∧ o < 0x1300 then vcAt s p (finOf 8 ((o - 0x1100) / 0x40)) (o % 0x40)
  else match o with
    | 0x1000 => word (llStateWord s p)
    | 0x1004 => word (l.next + 2 ^ 16 * l.oldest)
    | 0x1008 => word (l.expected + bit 16 l.nakPending + 2 ^ 24 * vcMap fun v => (vget l.tx v).wedged)
    | 0x100C => word l.txCount
    | 0x1010 => word l.txEpoch
    | 0x1014 => word (vget s.cfg.ports p).downUs
    | 0x1018 => pair l.replayed
    | 0x1020 => word l.killed
    | 0x1024 => word l.tagFail
    | 0x1028 => word l.naks
    | 0x102C => word (l.lastDown + bit 8 l.lastDownSent)
    | 0x1030 => word (bundleWord s p)
    | _ => none

/-- A port's window. -/
def portAt (s : State) (p : Fin 8) (o : Nat) : Option RegVal := if 0x1000 ≤ o ∧ o < 0x8000 then linkAt s p o else physAt s p o

/-! ### Transactions, collectives, grove and twin (06 Table 6-4, 09 Table 9-5, 11 Table 11-3) -/

/-- The transaction engine's window. -/
def txnAt (s : State) (o : Nat) : Option RegVal :=
  let x := s.txn
  if 0x0050 ≤ o ∧ o < 0x006C then word (vget x.synth (finOf 7 ((o - 0x0050) / 4)))
  else if 0x1000 ≤ o ∧ o < 0x1000 + 4000 then word (x.routes.getD ((o - 0x1000) / 4) 0).toNat
  else match o with
    | 0x0000 => word x.txns.length
    | 0x0004 => word x.quarantine.length
    | 0x0008 => word s.cfg.remoteTimeoutUs
    | 0x000C => word x.routeGen
    | 0x0010 => word (match x.chip with
        | some c => c + 2 ^ 31
        | none => 0)
    | 0x0020 => pair x.issued
    | 0x0028 => pair x.served
    | 0x0030 => pair x.forwarded
    | 0x0038 => word x.denied
    | 0x003C => word x.lateDropped
    | 0x0040 => word x.holdDropped
    | 0x0044 => word x.prefetchIssued
    | 0x0048 => word x.prefetchUsed
    | _ => none

/-- Registers of a collective slot; a free slot reads as 0. -/
def slotAt (s : State) (k o : Nat) : Option RegVal :=
  match tget k s.col.slots with
  | none => if o = 0x08 then pair 0 else if o = 0x0C then none else word 0
  | some g =>
    match o with
    | 0x00 => word (groupWord g % 4 + 4 * g.algorithm + 2 ^ 8 * g.part + 2 ^ 15 + 2 ^ 16 * (groupWord g / 2 ^ 16))
    | 0x04 => word g.opSeq
    | 0x08 => pair g.id
    | 0x10 => word (g.members.length + 2 ^ 16 * g.self)
    | 0x14 => word g.laggard
    | 0x18 => word g.laggardNs
    | 0x1C => word g.segsIn
    | _ => none

/-- The collective sequencer's window. -/
def colAt (s : State) (o : Nat) : Option RegVal :=
  let c := s.col
  if 0x1000 ≤ o ∧ o < 0x3000 then slotAt s ((o - 0x1000) / 0x20) (o % 0x20)
  else match o with
    | 0x0000 => word c.slots.length
    | 0x0004 => word s.cfg.colTimeoutUs
    | 0x0008 => word c.unmatched
    | 0x000C => word c.late
    | 0x0010 => word c.parkExpired
    | 0x0014 => word c.abortsSent
    | 0x0018 => word c.abortsGot
    | 0x001C => word (c.staging / 4096)
    | _ => none

/-- A bundle that a member reports disagrees with what the peer reports (11 R327). Log entry 63 (DEDUCED). -/
def bundleMismatch (s : State) (c : Nat) (e : RegEntry) : Bool :=
  e.bundles.any fun b =>
    b.1 != 0xFFFF && !(match tget b.1 s.grv.reg with
      | some p => p.bundles.any fun x => x.1 == c && x.2 != 0 && x.2 == b.2
      | none => false)

/-- The registry entry of a chip, on the trunk. -/
def registryAt (s : State) (c o : Nat) : Option RegVal :=
  match if isTrunk s then tget c s.grv.reg else none with
  | none => if o = 0x08 ∨ o = 0x10 then pair 0 else none
  | some e =>
    let st := match e.st with
      | .empty => 0
      | .joined => 1
      | .silent => 2
      | .left => 3
    let half := fun (i : Nat) =>
      match e.bundles[i]? with
      | some (c, n) => if c = 0xFFFF then 0 else c % 1024 + 1024 * n + 0x8000
      | none => 0
    match o with
    | 0x00 => word (st + bit 2 (e.routeGen == s.txn.routeGen) + bit 3 (bundleMismatch s c e))
    | 0x04 => word e.routeGen
    | 0x08 => pair e.serial
    | 0x10 => pair e.beat
    | 0x18 => word (half 0 + 0x10000 * half 1)
    | 0x1C => word (half 2 + 0x10000 * half 3)
    | _ => none

/-- The grove's window. -/
def grvAt (s : State) (o : Nat) : Option RegVal :=
  let g := s.grv
  if 0x1000 ≤ o ∧ o < 0x2000 then
    word (match tget ((o - 0x1000) / 4) g.notices with
      | some (st, gen) => gen + 0x100 * st + 0x8000
      | none => 0)
  else if 0x2000 ≤ o ∧ o < 0xA000 then registryAt s ((o - 0x2000) / 0x20) (o % 0x20)
  else match o with
    | 0x0000 => word (ownChip s % 1024 * bit 0 s.txn.chip.isSome + bit 15 s.txn.chip.isSome + 2 ^ 16 * (g.trunk % 1024)
        + bit 30 (isTrunk s) + bit 31 g.registered)
    | 0x0004 => word (if isTrunk s then s.txn.routeGen else 0)
    | 0x0008 => word (if isTrunk s then (g.reg.filter fun e => e.2.st == .joined).length else 0)
    | 0x000C => word g.ignored
    | 0x0010 => word g.relayRefused
    | 0x0014 => word g.fwdDropped
    | _ => none

/-- Registers of a mirrored region's slot. -/
def regionRegs (s : State) (k o : Nat) : Option RegVal :=
  match tget k s.twn.regions with
  | none => if o = 0x08 ∨ o = 0x10 then pair 0 else none
  | some r =>
    let st := match r.st with
      | .syncing => 1
      | .inSync => 2
      | .detached => 3
      | .fenced => 4
      | .incomplete => 5
    match o with
    | 0x00 => word (st + bit 3 r.target + bit 4 r.async + 2 ^ 8 * r.part + 2 ^ 16 * r.maxLag)
    | 0x04 => word r.id
    | 0x08 => pair r.offset
    | 0x10 => pair r.length
    | 0x18 => word (r.copied / 0x10000)
    | 0x1C => word (regionLag s r)
    | _ => none

/-- SAP_TWN_STATE. -/
def twinWord (s : State) : Nat :=
  let st := match s.twn.st with
    | .none => 0
    | .pairing => 1
    | .paired => 2
    | .graftDown => 3
    | .lost => 4
    | .promoted => 5
  st + bit 3 s.cfg.autoFailover + 2 ^ 8 * s.twn.gen.toNat + 2 ^ 16 * (s.twn.chip % 1024)

/-- The twin's window. -/
def twnAt (s : State) (o : Nat) : Option RegVal :=
  if 0x1000 ≤ o ∧ o < 0x2000 then regionRegs s ((o - 0x1000) / 0x20) (o % 0x20)
  else match o with
    | 0x0000 => word (twinWord s)
    | 0x0004 => word s.twn.tagFail
    | 0x0008 => word (sumOf ((s.twn.regions.filter fun e => !e.2.target).map fun e => e.2.length) / 4096)
    | 0x0010 => pair s.twn.failoverAt
    | _ => none

/-! ### Crown, memory, token engine (08 Tables 8-2 and 8-3, 07 Table 7-5, 10 Table 10-6) -/

/-- CRN_BOUGH_STATE. -/
def boughWord (s : State) (b : Fin 64) : Nat :=
  let st := match (bough s b).st with
    | .free => 0
    | .active => 1
    | .inReset => 2
    | .retired => 3
  (match boughPart s b with
    | some n => n + 128
    | none => if s.cmb.quarantine = some b.val then (bough s b).owner + 128 else 0) + 256 * st

/-- Registers of a queue, but for its state. -/
def queueAt (s : State) (n q o : Nat) : Option RegVal :=
  match queue s n q with
  | none => none
  | some x =>
    match o with
    | 0x4 => word x.head.toNat
    | 0x8 => word x.tail.toNat
    | _ => none

/-- Crown's window. -/
def crnAt (s : State) (o : Nat) : Option RegVal :=
  if o < 0x8000 then queueAt s (o / 0x100) (o % 0x100 / 0x10) (o % 0x10)
  else if o < 0x8100 then word (boughWord s (finOf 64 ((o - 0x8000) / 4)))
  else none

/-- The lines of a partition that carry the FAULT poison code (07 R227). -/
def faultLines (s : State) (p : Partition) : Nat :=
  (s.mm.fault.filter fun l => p.pages.any fun e => e.2 == l / 32768).length

/-- A partition's memory block. Log entry 68 (DEDUCED). -/
def memPartAt (s : State) (n o : Nat) : Option RegVal :=
  match part s n with
  | none => word 0
  | some p =>
    match o with
    | 0x00 => word (p.mode + 256 * (genOf s n).toNat + bit 16 p.oldPair.isSome)
    | 0x04 => word p.quota
    | 0x08 => word p.pages.length
    | 0x0C => word p.tagPages.length
    | 0x10 => word (faultLines s p)
    | 0x14 => word p.poisonHits
    | 0x18 => word (p.sweep / 0x10000)
    | 0x1C => word p.overhang
    | _ => none

/-- The memory window. -/
def memAt (s : State) (o : Nat) : Option RegVal :=
  let m := s.mm
  if 0x1000 ≤ o ∧ o < 0x2000 then memPartAt s ((o - 0x1000) / 0x20) (o % 0x20)
  else match o with
    | 0x0000 => word totalGranules
    | 0x0004 => word (reservedGranules s)
    | 0x0008 => word (freeGranules s)
    | 0x000C => word (lentGranules s)
    | 0x0010 => word m.retiredRows
    | 0x0014 => word m.degradedRows
    | 0x0018 => word m.retired.length
    | 0x0020 => pair m.corrected
    | 0x0028 => word m.uncorrected
    | 0x002C => word m.scrubPasses
    | 0x0030 => word (match m.lending with
        | some n => n + 2 ^ 31
        | none => 0)
    | 0x0040 => word m.journalNext
    | _ => none

/-- Registers of a stream. -/
def streamAt (s : State) (id o : Nat) : Option RegVal :=
  match strm s id with
  | none => word 0
  | some x =>
    match o with
    | 0x0 => word (1 + bit 1 (x.grammar != 0) + bit 2 x.runAhead + 2 ^ 8 * (if x.stopReason = 0 then x.pendingStop.getD 0 else x.stopReason) + 2 ^ 16 * x.held.length
        + 2 ^ 24 * x.unpresented.length)
    | 0x4 => word x.conf.state
    | 0x8 => word (x.conf.stack.length + 2 ^ 16 * x.conf.stack.headD 0xFFFF)
    | 0xC => word x.tokens
    | _ => none

/-- The token engine's window. -/
def tkeAt (s : State) (o : Nat) : Option RegVal :=
  let k := s.tke
  if 0x1000 ≤ o ∧ o < 0x11000 then streamAt s ((o - 0x1000) / 0x10) (o % 0x10)
  else match o with
    | 0x0000 => word k.vocabs.length
    | 0x0004 => word k.grammars.length
    | 0x0008 => word k.streams.length
    | 0x000C => word (k.streams.filter fun e => e.2.grammar != 0).length
    | 0x0010 => pair k.textBytes
    | 0x0018 => word k.pieceMisses
    | 0x001C => word k.masks
    | 0x0020 => word k.masksLate
    | 0x0024 => word k.maskNsMax
    | 0x0028 => word k.raBuilt
    | 0x002C => word k.raUsed
    | 0x0030 => word k.raDiscarded
    | 0x0034 => word (bit 0 s.pwr.runAheadOff)
    | 0x0038 => word k.prefixHits
    | 0x003C => word k.prefixRefused
    | _ => none

/-! ### Cambium and Heartwood (13 Table 13-11, 14 Table 14-14, 15 R460, 03 Tables 3-8 and 3-9) -/

/-- CMB_POWER. -/
def cmbPower (s : State) : Nat :=
  let p := s.pwr
  powerCode p.st + 16 * p.wakeReason + bit 8 (vget p.enables 0) + bit 9 (vget p.enables 1) + bit 10 (vget p.enables 2)
    + bit 16 p.xtalFallback + bit 17 p.brdThrotLow

/-- CMB_THROTTLE. -/
def cmbThrottle (p : Pwr) : Nat := p.crownRate + bit 8 p.runAheadOff + bit 9 p.paced + 2 ^ 16 * p.causes

/-- CMB_BOOT. -/
def cmbBoot (b : Boot) : Nat :=
  b.stage + 16 * b.slot + bit 5 b.trial + 2 ^ 8 * b.slotA + 2 ^ 12 * b.slotB + 2 ^ 16 * b.failedStacks + 2 ^ 24 * b.recovery

/-- CMB_WDT. -/
def cmbWdt (c : Cmb) : Nat :=
  (match c.wdt with
    | .unarmed => 0
    | .armed => 1
    | .expired => 2) + 256 * (c.rootBeats % 2 ^ 24)

/-- The Cambium mirror. Log entry 126 (DEDUCED). -/
def cmbAt (s : State) (o : Nat) : Option RegVal :=
  let c := s.cmb
  if 0x0100 ≤ o ∧ o < 0x0200 then word (inWindow s (vget c.boughHist (finOf 64 ((o - 0x0100) / 4))))
  else if 0x0300 ≤ o ∧ o < 0x0330 then
    let i := finOf 12 ((o - 0x0300) / 4)
    word (unsignedOf 16 (vget s.pwr.temps i) + 2 ^ 16 * unsignedOf 16 (vget s.pwr.tempMax i))
  else match o with
    | 0x0000 => pair s.now
    | 0x0008 => word (cmbWdt c)
    | 0x000C => word ((c.log.head?.map (·.index)).getD c.logNext)
    | 0x0010 => word c.logNext
    | 0x0014 => word c.logLost
    | 0x0018 => word (c.last.scope + 16 * c.last.cause + 2 ^ 16 * c.last.bough)
    | 0x001C => word (c.crownLimit + 2 ^ 16 * c.boughLimit)
    | 0x0020 => word c.windowS
    | 0x0024 => word (inWindow s c.deviceHist)
    | 0x0028 => word (deviceState s)
    | 0x0030 => pair c.retired
    | 0x0040 => word (cmbPower s)
    | 0x0044 => word (cmbThrottle s.pwr)
    | 0x0048 => word s.pwr.limitMw
    | 0x004C => word s.pwr.avgMw
    | 0x0050 => word (s.pwr.trips.filter fun x => decide (s.now < x + 600000000000)).length
    | 0x0060 => word (cmbBoot s.boot)
    | 0x0064 => word s.boot.fwBuild
    | 0x0068 => pair s.boot.readyAt
    | _ => none

/-- HWD_STATE. -/
def hwdStateWord (s : State) : Nat :=
  (match s.hwd.fault with
    | .tamper => 2
    | .failed => 3
    | .none => if inProvision s then 1 else 0)
    + bit 2 s.hwd.owner1.isSome + bit 3 (s.hwd.counters.toList.any (·.erasing))

/-- The Heartwood window. -/
def hwdAt (s : State) (o : Nat) : Option RegVal :=
  let h := s.hwd
  if 0x0100 ≤ o ∧ o < 0x0164 then word (u32At (transportPub s) (o - 0x0100))
  else if 0x0200 ≤ o ∧ o < 0x0230 then word (u32At s.fuse.ownerHash (o - 0x0200))
  else match o with
    | 0x0000 => word (hwdStateWord s)
    | 0x0004 => word (h.slots.length + 2 ^ 16 * pinnedSlots s)
    | 0x0008 => word h.reg.length
    | 0x000C => word (h.counters.toList.filter fun c => c.binding == 0).length
    | 0x0010 => pair h.reloads
    | 0x0018 => word h.blobRefusals
    | 0x0240 => word s.fuse.rollback
    | _ => none

/-! ### Reads -/

/-- PF BAR0, but for channel 0's window and the values a read draws. -/
def pfAt (s : State) (off : Nat) : Option RegVal :=
  let o := off % 0x10000
  match off / 0x10000 with
  | 0x10 => obsAt s o
  | 0x20 | 0x21 | 0x22 | 0x23 | 0x24 | 0x25 | 0x26 | 0x27 => portAt s (finOf 8 (off / 0x10000)) o
  | 0x28 => txnAt s o
  | 0x29 => colAt s o
  | 0x2A => grvAt s o
  | 0x2B => twnAt s o
  | 0x30 => crnAt s o
  | 0x40 => memAt s o
  | 0x50 | 0x51 => tkeAt s (off - 0x500000)
  | 0x60 => cmbAt s o
  | 0x70 => hwdAt s o
  | _ => none

/-- Where a VF's offset lies in PF BAR0: its own counter and memory blocks, its queues, its boughs' counters. -/
def vfOffset (s : State) (n : Fin 128) (off : Nat) : Option Nat :=
  if 0x100000 ≤ off ∧ off < 0x100040 then some (0x102000 + 0x40 * n.val + (off - 0x100000))
  else if 0x104000 ≤ off ∧ off < 0x10C000 then
    if boughPart s (finOf 64 ((off - 0x104000) / 0x200)) = some n.val then some off else none
  else if 0x300000 ≤ off ∧ off < 0x300100 then some (0x300000 + 0x100 * n.val + (off - 0x300000))
  else if 0x401000 ≤ off ∧ off < 0x401020 then some (0x401000 + 0x20 * n.val + (off - 0x401000))
  else none

/-- The register that a requester reaches at an offset. Log entry 31 (DEDUCED). -/
def regAt (s : State) (r : Requester) (off : Nat) : Option RegVal :=
  if off < 0x4000 then
    chanAt s (match r with
      | .pf => 0
      | .smb => 1
      | .vf n => partChan n) off
  else match r with
    | .pf => pfAt s off
    | .vf n => (vfOffset s n off).bind fun o => pfAt s o
    | .smb => none

/-- A requester's latched high word of a pair; 0 before its first read of the low word (00 R6).
Log entry 32 (DEDUCED). -/
def latched (s : State) (r : Requester) (key : Nat) : Nat :=
  ((s.latch.find? fun e => e.1 == r && e.2.1 == key).map (·.2.2)).getD 0

/-- The latch of a pair set. Log entry 32 (DEDUCED). -/
def setLatch (r : Requester) (key v : Nat) (s : State) : State :=
  { s with latch := (r, key, v) :: s.latch.filter fun e => !(e.1 == r && e.2.1 == key) }

/-- The PF offset that a read reaches, outside the channel windows. -/
def pfOffset (s : State) (r : Requester) (off : Nat) : Option Nat :=
  if off < 0x4000 then none
  else match r with
    | .pf => some off
    | .vf n => vfOffset s n off
    | .smb => none

/-- What a read sets off before its value is taken: a bough's counters are brought up to now, and a Debug Module may run its
command again. -/
def beforeRead (s : State) (r : Requester) (off : Nat) : State :=
  match pfOffset s r off with
  | some o => if 0x104000 ≤ o ∧ o < 0x10C000 then growCounters ((o - 0x104000) / 0x200) s else s
  | none => s

/-- A register read (00 R5, R6, R9); `key` names the pair's latch. Log entry 30 (DEDUCED). -/
def readKeyed (r : Requester) (key off : Nat) (s : State) : Nat × State :=
  if off % 4 ≠ 0 then (0, s)
  else
    let s := beforeRead s r off
    let o := (pfOffset s r off).getD 0
    if 0x10E000 ≤ o ∧ o < 0x10E400 then dmRead (decide (0x10E200 ≤ o)) (o % 0x200 / 4) s
    else if 0x300000 ≤ o ∧ o < 0x308000 ∧ o % 0x10 = 0xC then
      let n := (o - 0x300000) / 0x100
      let q := o % 0x100 / 0x10
      let st := queueState s n q
      (st.1 + bit 8 (((queue s n q).map (·.dbReject)).getD false), st.2)
    else if 0x600200 ≤ o ∧ o < 0x600220 then
      let d := drawNat s
      (d.1 % 2 ^ 32, d.2)
    else
      match regAt s r off with
      | some (v, true) => (v % 2 ^ 32, setLatch r key (v / 2 ^ 32) s)
      | some (v, false) => (v, s)
      | none =>
        match regAt s r (off - 4) with
        | some (_, true) => (latched s r (key - 4), s)
        | _ => (0, s)

/-- A register read of a requester. Log entries 31 (DEDUCED), 132 (DESIGN CHOICE). -/
def readReg (r : Requester) (off : Nat) (s : State) : Nat × State := readKeyed r off off s

/-- SMBALERT_N is released once the BMC has read ROOT_MBX_STATUS (02 R33). Log entry 28 (DESIGN CHOICE). -/
def releaseAlert (s : State) : State := { s with root := { s.root with smbAlert := false } }

/-- An aligned 64-bit read (R5): both words of a pair from one instant, and no latch changes; of two registers that are no pair,
one after the other. Log entry 144 (DESIGN CHOICE). -/
def readWide (r : Requester) (off : Nat) (s : State) : Nat × State :=
  match regAt (beforeRead s r off) r off with
  | some (v, true) => (v, beforeRead s r off)
  | _ =>
    let lo := readReg r off s
    let hi := readReg r (off + 4) lo.2
    (lo.1 + 2 ^ 32 * hi.1, hi.2)

/-- The value of a read of 32 or of 64 bits goes to its requester; the BMC's read of ROOT_MBX_STATUS releases SMBALERT_N. -/
def answerRead (r : Requester) (off : Nat) (wide : Bool) (s : State) : State :=
  let x := if wide then readWide r off s else readReg r off s
  emit (.readData r off x.1) (if r = .smb ∧ off = 0x2004 then releaseAlert x.2 else x.2)

/-- A read toward the token engine, which is power-gated: it is held, in order, until the island runs (01 R23). -/
def readHeld (s : State) (r : Requester) (off : Nat) : Bool :=
  unitAsleep s 81 && ((pfOffset s r off).map fun o => o / 0x20000 == 0x28).getD false

/-- LOW_WORD_READ: the read of a register; that of a pair's low word latches its high word. `wide` is PCIe's aligned 64-bit
read. Log entries 132 (DESIGN CHOICE), 144 (DESIGN CHOICE). -/
def lowWordRead (t : Nat) (r : Requester) (off : Nat) (wide : Bool) (s : State) : State :=
  let s := s.at t
  if !reaches s r then s
  else if readHeld s r off then modPwr (fun p => { p with heldReads := p.heldReads ++ [(r, off, wide)] }) s
  else answerRead r off wide s

/-- NAP_EXIT (14 R438): HBM in service, twig cores loaded, scratchpads zero, the held reads answered in order (01 R23).
Log entry 26 (DEDUCED). -/
def napExit (t : Nat) (s : State) : State :=
  let s := s.at t
  if s.pwr.st ≠ .leaving ∨ s.pwr.phase ≠ 2 then s
  else
    let s := flushJournal s
    let s := (fins 64).foldl (fun s b => zeroScratch b s) (modObs (fun o => { o with harts := [] }) s)
    let s := backToRun 2 (wakeUp true s)
    s.pwr.heldReads.foldl (fun s x => answerRead x.1 x.2.1 x.2.2 s) (modPwr (fun p => { p with heldReads := [] }) s)

/-! ### Writes (00 R7, R8) -/

/-- A write of a channel's window (02 R34, R35, R46, Tables 2-3 to 2-5). -/
def writeChan (ch : Fin 130) (o v : Nat) (s : State) : State :=
  let b := BitVec.ofNat 32 v
  if o < 0x1000 then
    modChan ch (fun c => if c.st = .idle then { c with req := Mem.write 0 c.req o (leBytes 4 v) } else { c with lockHit := true }) s
  else match o with
    | 0x2000 =>
      if b.getLsbD 0 then goRelease ch (b.getLsbD 1) s else if b.getLsbD 1 then releaseChan ch s else s
    | 0x2004 => modChan ch (fun c => { c with overrun := c.overrun && !b.getLsbD 2, lockHit := c.lockHit && !b.getLsbD 3,
                                              evqReject := c.evqReject && !b.getLsbD 13 }) s
    | 0x201C => moveTail ch v s
    | 0x2020 => modChan ch (fun c => { c with doneEn := b.getLsbD 0, eventEn := b.getLsbD 1 }) s
    | _ => s

/-- The low or the high word of a 64-bit value replaced. -/
def setLow (old v : Nat) : Nat := old / 2 ^ 32 * 2 ^ 32 + v % 2 ^ 32
def setHigh (old v : Nat) : Nat := v * 2 ^ 32 + old % 2 ^ 32

/-- A write of the remote debug registers. -/
def writeRdbg (o v : Nat) (s : State) : State :=
  if !debugOn s then s
  else match o with
    | 0xF000 => modRdbg (fun r => { r with port := v % 8 }) s
    | 0xF004 => modRdbg (fun r => { r with offset := v }) s
    | 0xF008 => modRdbg (fun r => { r with data := v }) s
    | 0xF00C =>
      let s := modRdbg (fun r => { r with write := v.testBit 1 }) s
      if v.testBit 0 then rdbgStart s else s
    | _ => s

/-- A write of the Observation window (12 Table 12-10). Log entry 102 (DEDUCED). -/
def writeObs (o v : Nat) (s : State) : State :=
  if 0xC000 ≤ o ∧ o < 0xE000 then modObs (fun x => { x with maps := Mem.write 0 x.maps o (leBytes 4 v) }) s
  else if 0xE000 ≤ o ∧ o < 0xE200 then dmWrite false ((o - 0xE000) / 4) v s
  else if 0xE200 ≤ o ∧ o < 0xE400 then dmWrite true ((o - 0xE200) / 4) v s
  else if 0xF000 ≤ o then writeRdbg o v s
  else match o with
    | 0x0000 =>
      let s := if v.testBit 0 then armFreeze s else s
      let s := if v.testBit 1 then nowFreeze s else s
      if v.testBit 2 then armThaw s else s
    | 0x0008 => modObs (fun x => { x with freezeAt := setLow x.freezeAt v }) s
    | 0x000C => modObs (fun x => { x with freezeAt := setHigh x.freezeAt v }) s
    | 0x0010 => modObs (fun x => { x with syncInterval := v % 2 ^ 17 }) s
    | 0x0020 =>
      modObs (fun x => { x with exportOn := v.testBit 0, segUncopied := if v.testBit 0 then x.segUncopied else [] }) s
    | 0x0024 => modObs (fun x => { x with exportBase := setLow x.exportBase v }) s
    | 0x0028 => modObs (fun x => { x with exportBase := setHigh x.exportBase v }) s
    | 0x002C => modObs (fun x => { x with exportSize := v }) s
    | 0x0034 => modObs (fun x => { x with exportTail := v }) s
    | 0x0048 =>
      let s := modCut (fun c => { c with onBreak := v.testBit 1 }) s
      if v.testBit 0 then fireHere s else s
    | _ => s

/-- A doorbell, and the wake it gives (14 Table 14-8): an accepted one on a MATH or COLL queue ends QUIET, any ends NAP. -/
def ringDoorbell (n : Fin 128) (q : Fin 16) (v : BitVec 32) (s : State) : State :=
  let before := (queue s n q).map (·.tail)
  let s := doorbell n q v s
  if (queue s n q).map (·.tail) = before then s
  else if s.pwr.st = .quiet ∧ crownClass q = false then s
  else wakeDevice 1 s

/-- A write of a queue's registers. -/
def writeQueue (o v : Nat) (s : State) : State :=
  let n : Fin 128 := finOf 128 (o / 0x100)
  let q : Fin 16 := finOf 16 (o % 0x100 / 0x10)
  match o % 0x10 with
  | 0x0 => ringDoorbell n q (BitVec.ofNat 32 v) s
  | 0xC => if v.testBit 8 then modQueue n q (fun x => { x with dbReject := false }) s else s
  | _ => s

/-- A write of PF BAR0 outside the channel window. -/
def writePf (off v : Nat) (s : State) : State :=
  if 0x100000 ≤ off ∧ off < 0x110000 then writeObs (off - 0x100000) v s
  else if 0x300000 ≤ off ∧ off < 0x308000 then writeQueue (off - 0x300000) v s
  else s

/-- A register write of a requester. Log entries 30 (DEDUCED), 31 (DEDUCED). -/
def writeReg (r : Requester) (off v : Nat) (s : State) : State :=
  if off % 4 ≠ 0 then s
  else if off < 0x4000 then
    writeChan (match r with
      | .pf => 0
      | .smb => 1
      | .vf n => partChan n) off v s
  else match r with
    | .pf => writePf off v s
    | .vf n => if 0x300000 ≤ off ∧ off < 0x300100 then writeQueue (0x100 * n.val + (off - 0x300000)) v s else s
    | .smb => s

/-- REGISTER_WRITE. -/
def registerWrite (t : Nat) (r : Requester) (off : Nat) (v : BitVec 32) (s : State) : State :=
  let s := s.at t
  if reaches s r then writeReg r off v.toNat s else s

/-- A requester reaches the doorbells of a partition. -/
def mayRing (r : Requester) (n : Fin 128) : Bool :=
  match r with
  | .pf => true
  | .vf m => m == n
  | .smb => false

/-- DOORBELL. -/
def doorbellWrite (t : Nat) (r : Requester) (n : Fin 128) (q : Fin 16) (v : BitVec 32) (s : State) : State :=
  let s := s.at t
  if reaches s r && mayRing r n then ringDoorbell n q v s else s

/-! ### SMBus (02 R62, 14 R432, R433) -/

/-- The window offset advanced; where it would pass the window's end the spec does not say what it becomes. -/
def advanceWindow (n : Nat) (s : State) : State :=
  let o := s.root.smbOffset + n
  if o < 0x4000 then { s with root := { s.root with smbOffset := o } }
  else
    let d := drawNat s
    { d.2 with root := { d.2.root with smbOffset := d.1 % 0x4000 } }

/-- SMBUS_WINDOW_OFFSET. Log entry 29 (DEDUCED). -/
def smbWindow (t : Nat) (v : BitVec 16) (pec : BitVec 8) (s : State) : State :=
  let s := s.at t
  let ok := pec == pecOf (leBytes 1 (smbAddress s) ++ leBytes 1 0xA0 ++ leBytes 2 v.toNat)
  if ok && reaches s .smb && decide (v.toNat ≤ 0x3FFC) then { s with root := { s.root with smbOffset := v.toNat } } else s

/-- The bytes of a block written at the window offset: into the request buffer, or one register.
Log entry 29 (DEDUCED). -/
def smbStore (d : Bytes) (s : State) : State :=
  let o := s.root.smbOffset
  let n := min d.length (0x1000 - o)
  if o < 0x1000 then
    modChan 1 (fun c => if c.st = .idle then { c with req := Mem.write 0 c.req o (d.take n) } else { c with lockHit := true }) s
  else if 0x2000 ≤ o ∧ o % 4 = 0 ∧ d.length = 4 then writeChan 1 o (ofLe d) s
  else s

/-- SMBUS_BLOCK_WRITE. Log entry 29 (DEDUCED). -/
def smbBlockWrite (t : Nat) (d : Bytes) (pec : BitVec 8) (s : State) : State :=
  let s := s.at t
  let n := d.length
  let ok := pec == pecOf (leBytes 1 (smbAddress s) ++ leBytes 1 0xA1 ++ leBytes 1 n ++ d)
  if ok && reaches s .smb && decide (4 ≤ n ∧ n ≤ 32 ∧ n % 4 = 0) then advanceWindow n (smbStore d s) else s

/-- Words of the SMBus window read one after the other; beyond its end they are open. Log entry 29 (DEDUCED). -/
def smbWords : Nat → Nat → State → Bytes × State
  | 0, _, s => ([], s)
  | k + 1, o, s =>
    let x : Bytes × State :=
      if o < 0x4000 then
        let r := readReg .smb o s
        (leBytes 4 r.1, r.2)
      else drawBytes 4 s
    let rest := smbWords k (o + 4) x.2
    (x.1 ++ rest.1, rest.2)

/-- SMBUS_BLOCK_READ: 32 bytes, which the device ends with its own PEC. Log entry 29 (DEDUCED). -/
def smbBlockRead (t : Nat) (s : State) : State :=
  let s := s.at t
  if !reaches s .smb then s
  else
    let o := s.root.smbOffset
    let base := o / 4 * 4
    let r := smbWords (if o % 4 = 0 then 8 else 9) base s
    let s := if base ≤ 0x2004 ∧ 0x2004 < o + 32 then releaseAlert r.2 else r.2
    emit (.smbData (slice r.1 (o % 4) 32)) (advanceWindow 32 s)

/-- BMC_STATUS_READ. -/
def bmcStatusRead (t : Nat) (s : State) : State :=
  let s := s.at t
  if !reaches s .smb then s else emit (.readData .smb 0x2004 (mbxStatus s 1)) (releaseAlert s)

/-! ### The target of remote debug access (12 R372) -/

/-- A remote debug request of a VC7 message. -/
def isDebugRequest (m : InMsg) : Bool :=
  m.vc == 7 && m.typ == 1 && (u8At m.bytes 0 == 0x60 || u8At m.bytes 0 == 0x61)

/-- The status of a request, as the target decides it. -/
def debugVerdict (s : State) (p : Fin 8) (off : Nat) : Nat :=
  if !debugOn s || (port s p).link.mode == 0 || decide (0xF000 ≤ off) then stAccessDenied
  else if off % 4 ≠ 0 then stBadArg
  else stOk

/-- A debug request is ready to be answered: a denial 1.00 µs after it was accepted (R372). -/
def debugReady (s : State) (m : InMsg) : Bool :=
  match m.port with
  | some p => debugVerdict s p (u32At m.bytes 4) != stAccessDenied || decide (m.at_ + 1000 ≤ s.now)
  | none => true

/-- DEBUG_REQUEST: the answer, a denial's at 1.05 µs at the latest; a debug requester has latches of its own.
Log entry 32 (DEDUCED). -/
def debugRequest (t : Nat) (s : State) : State :=
  let s := s.at t
  match takeMsg (fun m => isDebugRequest m && debugReady s m) s with
  | none => s
  | some (m, s) =>
    match m.port with
    | none => s
    | some p =>
      let op := u8At m.bytes 0
      let off := u32At m.bytes 4
      let st := debugVerdict s p off
      let x : Nat × State :=
        if st ≠ stOk then (0, s)
        else if op = 0x60 then readKeyed .pf (0x100100000 + off) (0x100000 + off) s
        else (0, writePf (0x100000 + off) (u32At m.bytes 8) s)
      let b := debugMsg (op + 0x80) (u16At m.bytes 2) off x.1 st
      if st = stAccessDenied then { queueMsg p 7 1 0 none b { s with now := min s.now (m.at_ + 1050) } with now := s.now }
      else queueMsg p 7 1 0 none b x.2

/-- `REGISTER_WRITE`: 00 R7; also R8, R9, R35, R94, R360. -/
def execRegisterWrite (t : Nat) (r : Requester) (off : Nat) (v : BitVec 32) (s : State) : Outcome := .next (registerWrite t r off v s)
/-- `LOW_WORD_READ`: 00 R5; also R6. -/
def execLowWordRead (t : Nat) (r : Requester) (at_ : RegRead) (s : State) : Outcome :=
  .next (lowWordRead t r at_.off at_.wide s)
/-- `BMC_STATUS_READ`: 02 R33. -/
def execBmcStatusRead (t : Nat) (s : State) : Outcome := .next (bmcStatusRead t s)
/-- `SMBUS_WINDOW_OFFSET`: 02 R62; also R433. -/
def execSmbusWindowOffset (t : Nat) (v : BitVec 16) (pec : BitVec 8) (s : State) : Outcome := .next (smbWindow t v pec s)
/-- `SMBUS_BLOCK_WRITE`: 02 R62; also R35, R433. -/
def execSmbusBlockWrite (t : Nat) (data : List (BitVec 8)) (pec : BitVec 8) (s : State) : Outcome :=
  .next (smbBlockWrite t data pec s)
/-- `SMBUS_BLOCK_READ`: 02 R62; also R433. -/
def execSmbusBlockRead (t : Nat) (_pec : BitVec 8) (s : State) : Outcome := .next (smbBlockRead t s)
/-- `NAP_EXIT`: 14 R438; also R23, R25, R363, R437. -/
def execNapExit (t : Nat) (s : State) : Outcome := .next (napExit t s)
/-- `DOORBELL`: 08 R243; also R9, R15, R16, R244, R245, R406, R437. -/
def execDoorbell (t : Nat) (r : Requester) (n : Fin 128) (q : Fin 16) (v : BitVec 32) (s : State) : Outcome :=
  .next (doorbellWrite t r n q v s)
/-- `DEBUG_REQUEST`: 12 R372; also R366. -/
def execDebugRequest (t : Nat) (s : State) : Outcome := .next (debugRequest t s)

end Sys2Proof.Machine
end

