-- ==== Sys2Proof/Machine/Resets.lean ====
section
/-! DEFINITION. The crash dump, Root restarts and device warm resets (13 R385, R386, R395, R396, R400), reads of samples, dump and
journal (R399), the replay in quarantine (R409 to R411), and the end of long commands (02 R45). -/

namespace Sys2Proof.Machine

/-! ### The crash dump (R400, Table 13-6) -/

/-- Device memory copied without regard to lines: the bytes at `dst` become those at `src`.
Log entry 115 (DESIGN CHOICE). -/
def rawCopy (src dst n : Nat) (s : State) : State :=
  let m := s.mm.bytes
  let cells := m.filter fun e => decide (src ≤ e.1 ∧ e.1 < src + n)
  let bytes := cells.foldl (fun m e => Mem.write 0 m (dst + (e.1 - src)) [e.2]) (Mem.clear m dst n)
  { s with mm := { s.mm with bytes := bytes } }

/-- What the register snapshot holds of the register at an offset, if one is defined there: a queue's state and the rail voltages
are free. Log entries 115 (DESIGN CHOICE), 126 (DEDUCED). -/
def snapWord (s : State) (o : Nat) : Option Nat :=
  if (0x300000 ≤ o ∧ o < 0x308000 ∧ o % 0x10 = 0xC) ∨ (0x600200 ≤ o ∧ o < 0x600220) then
    some (Config.freeNat (s.free + o) % 2 ^ 32)
  else
    match regAt s .pf o with
    | some (v, _) => some (v % 2 ^ 32)
    | none =>
      match regAt s .pf (o - 4) with
      | some (v, true) => some (v / 2 ^ 32)
      | _ => none

/-- The windows of PF BAR0 in which registers are defined: offset and words. -/
def snapWindows : List (Nat × Nat) :=
  [(0, 0x1000), (0x100000, 0x4000), (0x200000, 0x30000), (0x300000, 0x2040), (0x400000, 0x800), (0x500000, 0x4400),
   (0x600000, 0x100), (0x700000, 0x100)]

/-- The pairs of the register snapshot. Log entry 115 (DESIGN CHOICE). -/
def snapshotBytes (s : State) : Bytes :=
  (snapWindows.map fun w => ((List.range w.2).filterMap fun i =>
    (snapWord s (w.1 + 4 * i)).map fun v => leBytes 4 (w.1 + 4 * i) ++ leBytes 4 v).flatten).flatten

/-- The journal tail, oldest first: the last 256 MiB of the region before the next record's place.
Log entry 115 (DESIGN CHOICE). -/
def dumpJournal (dst : Nat) (s : State) : State :=
  let size := journalBytes s
  let len := min size 0x10000000
  let next := s.fjr.next
  if len ≤ next then rawCopy (journalBase + next - len) dst len s
  else rawCopy journalBase (dst + (len - next)) next (rawCopy (journalBase + size - (len - next)) dst (len - next) s)

/-- The crash dump; none while the device is OUT_OF_SERVICE. Of the header only MAGIC is placed by the rule; Root's SRAM is no
state of the model. Log entries 115 (DESIGN CHOICE), 116 (DEDUCED). -/
def crashDump (s : State) : State :=
  if s.cmb.outOfService then s
  else
    let s := modCmb (fun c => { c with dumpCount := c.dumpCount + 1 }) s
    let h := drawBytes 4092 s
    let s := rawWrite crashBase (leBytes 4 0x31504443 ++ h.1) h.2
    let s := rawWrite (crashBase + 0x1000) ((snapshotBytes s).take 0x100000) { s with free := s.free + 0x800000 }
    let r := drawBytes 0x400000 s
    let s := rawWrite (crashBase + 0x101000) r.1 r.2
    let s := rawWrite (crashBase + 0x501000) (fit 0x10000 (s.cmb.log.map (·.bytes)).flatten) s
    let s := (List.range 82).foldl (fun s u => rawWrite (crashBase + 0x511000 + u * 0x1000) (ringEntries s u).flatten s) s
    let s := (List.range 82).foldl (fun s u =>
      rawWrite (crashBase + 0x563000 + u * 0x10000) (fit 0x10000 ((tgetD u [] s.obs.bufs).map (·.2)).flatten) s) s
    dumpJournal (crashBase + 0x4AC3000) s

/-! ### The device warm reset (R396) -/

/-- DEVICE_WARM_RESET: the steps of a reset at device scope that has begun, up to the boot.
Log entries 18 (DESIGN CHOICE), 33 (DEDUCED), 111 (DEDUCED), 116 (DEDUCED). -/
def deviceWarmReset (t : Nat) (s : State) : State :=
  let s := s.at t
  match s.cmb.devicePending with
  | none => s
  | some cause =>
    let s := logReset 32 4 cause 0xFF (inWindow s s.cmb.deviceHist) s
    let s := crashDump (journalReset 4 cause 0xFF none s)
    let s := (fins 8).foldl (fun s p => if (port s p).phys.st = 8 then linkGoesDown p 0 true s else s) s
    let s := (List.range 82).foldl (fun s u => traceRec u 0x10 4 0 s) s
    let s := islandsLost true s
    let s := { s with root := { s.root with bootCount := (s.root.bootCount + 1) % 2 ^ 32 } }
    let s := modCmb (fun c => { c with deviceAt := s.now, outOfService := c.outOfService || cause == 7 }) s
    modPwr (fun p => { p with st := .run, phase := 0 }) s

/-! ### The Root restart (R385, R386, R395) -/

/-- ROOT_HANG: an ARMED watchdog without a beat for three intervals. Log entry 112 (DEDUCED). -/
def rootHang (t : Nat) (s : State) : State :=
  let s := s.at t
  let c := s.cmb
  if c.wdt ≠ .armed ∨ s.now < c.lastRootBeat + 3000000 ∨ s.obs.rootHart.halted = true ∨ c.devicePending.isSome = true then s
  else
    let relapse := match c.restartEnd with
      | some e => decide (s.now < e + 10000000000)
      | none => false
    let s := logErr 0x0003 32 (leBytes 4 (sat32 (c.rootBeats - 3))) (rootStops s)
    let s := modCmb (fun c => { c with wdt := .expired }) s
    let counted := countDevice 3 s
    if relapse then startDevice 4 s
    else if deviceReached counted then startDevice 3 s
    else
      let s := noteReset 3 3 0xFF counted
      let s := crashDump (journalReset 3 3 0xFF none s)
      let s := traceRec 64 0x10 3 0 (modObs (fun o => { o with rootHart := HartState.reset }) s)
      modCmb (fun c => { c with restarting := true, restartAt := some s.now, rootBeats := 0 }) s

/-- A channel at the end of a Root restart. Log entries 27 (DEDUCED), 112 (DEDUCED). -/
def restartChan (s : State) (ch : Fin 130) : State :=
  let c := chan s ch
  match c.st, c.cur with
  | .taken, some r =>
    finishChannel ch (responseBytes ch { r with tagKey := none } stTimeout 0 s.now []) r.cmd stTimeout s
  | .posted, some r => setChan ch { c with cur := some { r with since := s.now } } s
  | _, _ => s

/-- The tickets of a channel at the end of a Root restart: those of running commands complete with TIMEOUT.
Log entry 112 (DEDUCED). -/
def restartTickets (s : State) (ch : Fin 130) : State :=
  (chan s ch).tickets.foldl (fun s k => finishTicket ch k.num stTimeout [] s) s

/-- The bough of a replay becomes FREE. Log entry 119 (DEDUCED). -/
def endQuarantine (b : Fin 64) (s : State) : State :=
  modBough b (fun x => { x with st := .free }) (zeroScratch b (modCmb (fun c => { c with quarantine := none }) s))

/-- ROOT_RESTART: the end of a Root restart. What Root itself was carrying out has ended with it: a replay, queries for exports,
an entry into a power state. Log entries 33 (DEDUCED), 112 (DEDUCED), 116 (DEDUCED). -/
def rootRestart (t : Nat) (s : State) : State :=
  let s := s.at t
  if s.cmb.restarting = false ∨ s.cmb.devicePending.isSome = true then s
  else
    let s := modTxn (fun x => { x with pendingImports := [] }) { s with twn := { s.twn with opening := [] } }
    let s := match s.cmb.quarantine with
      | some b => endQuarantine (finOf 64 b) s
      | none => s
    let s := if s.pwr.st = .entering then modPwr (fun p => { p with st := .run, phase := 0 }) s else s
    let s := (fins 130).foldl restartChan s
    let s := (fins 130).foldl restartTickets s
    let s := modCmb (fun c => { c with restarting := false, restartEnd := some s.now
                                       wdt := if c.wdt = .expired then .unarmed else c.wdt })
      { s with root := { s.root with refusals := [] } }
    if s.boot.stage = 5 then s else rootServes s

/-! ### CORE_SAMPLE_READ (R399) -/

/-- The object that CORE_SAMPLE_READ reads: its device address and length. -/
def sampleObject (s : State) (b : Nat) : Option (Nat × Nat) :=
  if b < 64 then some (sampleSlot b, 0x101000)
  else if b = 0xFF then some (crashBase, journalBase - crashBase)
  else if b = 0xFE then some (journalBase, journalBytes s)
  else none

/-- CORE_SAMPLE_READ. -/
def coreSampleRead (t : Nat) (ch : Fin 130) (s : State) : State :=
  onCmd 0x0905 t ch (parseArgs [1, 4, 2])
    (fun s a => (sampleObject s (a.headD 0)).isSome && decide (a.getD 2 0 ≤ 4032 ∧ a.getD 1 0 + a.getD 2 0 ≤ 2 ^ 32))
    (fun r a s =>
      let x := (sampleObject s (a.headD 0)).getD (0, 0)
      let n := min (a.getD 2 0) (x.2 - a.getD 1 0)
      answer ch r stOk (fit (a.getD 2 0) (rawRead s (x.1 + a.getD 1 0) n)) s) s

/-! ### The replay in quarantine (R409 to R411) -/

/-- The journal's record names a partition's reset at bough or Crown scope. Log entry 119 (DEDUCED). -/
def namesReset (n : Nat) (b : Bytes) : Bool := u8At b 12 == 7 && decide (u8At b 16 ≤ 2) && u8At b 19 == n

/-- The latest CHECKPOINT of a queue in records listed newest first, unless a GAP lies before it: its HEAD.
Log entry 119 (DEDUCED). -/
def checkpointBefore (n q : Nat) : List Bytes → Option Nat
  | [] => none
  | b :: rest =>
    if u8At b 12 = 8 then none
    else if u8At b 12 = 1 ∧ u8At b 16 = n ∧ u8At b 18 = q then some (u32At b 20)
    else checkpointBefore n q rest

/-- The range of a replay: the HEAD of the checkpoint and the record that the RESET names.
Log entry 118 (DESIGN CHOICE). -/
def replayRange (s : State) (n q : Nat) : Option (Nat × Nat) :=
  let h := (s.fjr.hist.map (·.2)).dropWhile fun b => !namesReset n b
  match h with
  | [] => none
  | b :: rest =>
    let last := u32At b (16 + 8 + 4 * q)
    if last = 0xFFFFFFFF then none else (checkpointBefore n q rest).map fun c => (c, last)

/-- The bytes that ranges cover, however they overlap: the ranges in ascending order, counted from `lo` onward.
Log entry 119 (DEDUCED). -/
def coverage : Nat → List (Nat × Nat) → Nat
  | _, [] => 0
  | lo, (a, n) :: rest => (a + n - max lo a) + coverage (max lo (a + n)) rest

/-- The shadow holds at most 64 MiB of partition memory. Log entry 119 (DEDUCED). -/
def shadowFull (ranges : List (Nat × Nat)) : Bool :=
  decide (0x4000000 < coverage 0 (ranges.mergeSort fun a b => decide (a.1 ≤ b.1)))

/-- The ranges of partition memory among a record's destinations. Log entry 119 (DEDUCED). -/
def partRanges (ds : List (Loc × Nat)) : List (Nat × Nat) :=
  ds.filterMap fun d => match d.1 with
    | .part o => some (o, d.2)
    | .scratch _ => none

/-- The copy on which the replay runs: the bough alone belongs to the partition; nothing else runs. -/
def replayCopy (n q mask : Nat) (s : State) : State :=
  let bs : Vector Bough 64 := Vector.ofFn fun i => if mask.testBit i.val then { st := .active, owner := n } else { st := .free, owner := 0 }
  let s := modPart n (fun p => { p with boughMask := mask }) { s with crn := { s.crn with boughs := bs }, col := Col.reset, twn := Twin.reset }
  modQueue n q (fun x => { x with running := [], held := false, faulted := false }) s

/-- The record is not executed in quarantine. Log entry 119 (DEDUCED). -/
def replayOmits (s : State) (n : Nat) (b : Bytes) : Bool :=
  u8At b 0 == 0x13 || (u8At b 0 == 0x10 && (recFlag b 4 || ((Matmul.of b).tensorB && (match planTensor s n (Matmul.of b).tensor with
    | some p => p.lent != 0
    | none => false))))

/-- The status that a record has once executed; none for one that has not ended. Log entry 119 (DEDUCED). -/
def replayStatus (n q num : Nat) (b : Bytes) (s : State) : Nat × State :=
  let body : RecBody := match u8At b 0 with
    | 0x10 => matmulBody
    | 0x11 => vecBody
    | 0x12 => attendBody
    | 0x14 => convertBody
    | _ => nopBody
  let s := body n q num b s
  (((running s n q num).map (·.status)).getD stOk, s)

/-- How far a replay has come: its verdict code once it ends, APPROXIMATE, the ranges in the shadow, the copy. -/
structure Replay where
  code : Option Nat
  approximate : Bool
  shadow : List (Nat × Nat)
  reached : Nat
  copy : State

/-- A record of the range in quarantine. Whether it hangs the bough again is free. Log entry 118 (DESIGN CHOICE). -/
def replayRecord (n q : Nat) (first : Bool) (num : Nat) (x : Replay) : Replay :=
  match x.code, queue x.copy n q with
  | none, some y =>
    let f := readRange (localWho x.copy n) n (recAddr y (BitVec.ofNat 32 num)) 64 x.copy
    let b := fit 64 f.2.1
    let h := drawNat f.2.2
    let x := { x with reached := num, copy := h.2 }
    let fails : Bool := f.1 != stOk || (first && (chainSkips { y with started := BitVec.ofNat 32 num } b).isSome)
      || !opcodeOk 0 (u8At b 0) || !headerOk 0 b
    if fails then { x with code := some 2 }
    else if h.1 % 2 = 1 then { x with code := some 1 }
    else
      let r := Running.fresh num x.copy.now b
      let s := modQueue n q (fun y => { y with running := [r] }) x.copy
      let ds := recordDests n q r s
      let shadow := x.shadow ++ partRanges ds
      if shadowFull shadow then { x with code := some 4 }
      else if replayOmits s n b then
        let s := ds.foldl (fun s d => if locOk s n d.1 d.2 then poisonLoc n d.1 d.2 s else s) s
        { x with approximate := true, shadow := shadow, copy := s }
      else
        let e := replayStatus n q num b s
        let wide := (replayStatus n q num b (replayCopy n q (2 ^ 64 - 1) s)).1
        let code : Option Nat := if e.1 = stAccessDenied ∧ wide ≠ stAccessDenied then some 4
          else if isSuccess e.1 then none else some 2
        { x with code := code, shadow := shadow, copy := e.2 }
  | _, _ => x

/-- The whole of a replay: its verdict, the record it reached, the state. The records of a ring in host memory are not known to the
model: the verdict on them is free. Log entry 118 (DESIGN CHOICE). -/
def replayVerdict (n q b : Nat) (s : State) : Nat × Nat × State :=
  let d := drawNat s
  match replayRange s n q, queue s n q with
  | some (lo, hi), some y =>
    let span := (hi + 2 ^ 32 - lo) % 2 ^ 32 + 1
    if y.entries < span then (3, d.1 % 2 ^ 32, d.2)
    else if y.host then
      let e := drawNat d.2
      (([0, 1, 2, 4] : List Nat).getD (e.1 % 4) 0 + 256 * (e.1 / 4 % 2), d.1 % 2 ^ 32, e.2)
    else
      let start : Replay := { code := none, approximate := false, shadow := [], reached := lo, copy := replayCopy n q (2 ^ b) s }
      let x := (List.range span).foldl (fun x i => replayRecord n q (i == 0) ((lo + i) % 2 ^ 32) x) start
      (x.code.getD 0 + 256 * bit 0 x.approximate, x.reached, { s with free := x.copy.free })
  | _, _ => (3, d.1 % 2 ^ 32, d.2)

/-- QUARANTINE_REPLAY. Log entry 118 (DESIGN CHOICE). -/
def quarantineReplay (t : Nat) (ch : Fin 130) (s : State) : State :=
  onCmd 0x0906 t ch (parseArgs [1, 4])
    (fun s a => decide (a.headD 0 < 64 ∧ a.getD 1 0 < 512) && (bough s (finOf 64 (a.headD 0))).st == .free
      && (part s (a.getD 1 0 % 128)).isSome && (queue s (a.getD 1 0 % 128) (a.getD 1 0 / 128)).isSome)
    (fun r a s =>
      let b := finOf 64 (a.headD 0)
      let n := a.getD 1 0 % 128
      if s.cmb.quarantine.isSome then answer ch r stBusy [] s
      else
        let v := replayVerdict n (a.getD 1 0 / 128) b.val s
        let s := modCmb (fun c => { c with quarantine := some b.val }) (modBough b (fun _ => { st := .active, owner := n }) v.2.2)
        acceptLong ch r (.replay b.val v.1 (a.getD 1 0) v.2.1) s) s

/-- The bough of a replay is declared hung as any bough is (R410 step 4): by its beats, or where it last reported ISSUE or ENGINE
perhaps for want of progress. Log entry 118 (DESIGN CHOICE). -/
def replayHung (b : Fin 64) (context reached : Nat) (s : State) : State :=
  let d := drawNat s
  let stall := (vget s.cmb.beats b).stall
  logHang b (if stall = 0 ∨ stall = 3 then 1 + d.1 % 2 else 1) reached (context / 128) d.2

/-- A replay ends: unless a Crown reset has ended it before, its verdict is the result.
Log entry 118 (DESIGN CHOICE). -/
def finishReplay (ch : Fin 130) (num b verdict context reached : Nat) (s : State) : State :=
  if s.cmb.quarantine ≠ some b then finishTicket ch num stPeerReset [] s
  else
    let s := if verdict % 256 = 1 then replayHung (finOf 64 b) context reached s else s
    let s := endQuarantine (finOf 64 b) s
    let s := logErr 0x0008 30 (leBytes 1 b ++ leBytes 1 verdict ++ leBytes 2 verdict ++ leBytes 4 context ++ leBytes 4 reached) s
    finishTicket ch num stOk (leBytes 2 verdict) s

/-! ### LONG_COMMAND_COMPLETE (02 R45) -/

/-- The catalogue's completion limit of a long command (02 R42, Tables 2-11 to 2-21), in µs.
Log entry 143 (DEDUCED). -/
def longLimitUs (code : Nat) : Nat :=
  if [0x0100, 0x0301, 0x0400].contains code then 10000
  else if [0x0101, 0x0600, 0x0901].contains code then 50000
  else if [0x0109, 0x0601].contains code then 20000
  else if [0x0401, 0x0405, 0x0705].contains code then 1000
  else if [0x0700, 0x0701, 0x0703, 0x0900].contains code then 5000
  else if code = 0x0B00 then 30000000 else 2000000

/-- A request that Root has accepted and whose object belongs to a partition has lost it (02 R208 step 3). -/
def endRequests (n : Nat) (s : State) : State :=
  (fins 130).foldl (fun s c =>
    match acceptedReq s c with
    | some r =>
      match (cmdRow r.cmd).bind fun row => targetOf s c.val row r.args with
      | some (_, some m) => if m = n then modChan c (fun x => { x with cur := some { r with ended := true } }) s else s
      | _ => s
    | none => s) s

/-- The end of PART_DESTROY: the steps of 07 R208. -/
def finishDestroy (ch : Fin 130) (num : Nat) (n : Fin 128) (s : State) : State :=
  finishTicket ch num stOk [] (destroyPart n (endRequests n.val s))

/-- LONG_COMMAND_COMPLETE: Root ends a long command whose end no other row reports; `testPasses` is the outcome of the self-test of
KEY_REPLACE (03 R80 step 2). Log entries 24 (DESIGN CHOICE), 34 (DESIGN CHOICE). -/
def longCommandComplete (t : Nat) (ch : Fin 130) (num : Nat) (testPasses : Bool) (s : State) : State :=
  let s := s.at t
  match findTicket s ch num with
  | none => s
  | some k =>
    if k.final.isSome || !served s ch || decide (k.since + longLimitUs k.cmd * 1000 < s.now) then s
    else match k.work with
      | .event => s
      | .plan .. => s
      | .planned st res => finishTicket ch num st res s
      | .keyReplace h x =>
        if !testPasses then finishTicket ch num stBadArg [] s
        else
          let r := replaceKey h x s
          finishTicket ch num r.1 [] r.2
      | .power target => finishPower ch num target s
      | .replay b v c m => finishReplay ch num b v c m s
      | .activate build => activateNow ch num build s
      | .destroy n => finishDestroy ch num n s

/-- `DEVICE_WARM_RESET`: 13 R396; also R6, R44, R61, R75, R88, R204, R205, R321, R388, R389, R390, R391. -/
def execDeviceWarmReset (t : Nat) (s : State) : Outcome := .next (deviceWarmReset t s)
/-- `ROOT_HANG`: 13 R385; also R16, R386, R387, R389, R390, R400. -/
def execRootHang (t : Nat) (s : State) : Outcome := .next (rootHang t s)
/-- `ROOT_RESTART`: 13 R395; also R41, R391. -/
def execRootRestart (t : Nat) (s : State) : Outcome := .next (rootRestart t s)
/-- `CORE_SAMPLE_READ`: 13 R399. -/
def execCoreSampleRead (t : Nat) (ch : Fin 130) (s : State) : Outcome := .next (coreSampleRead t ch s)
/-- `QUARANTINE_REPLAY`: 13 R410; also R409, R411. -/
def execQuarantineReplay (t : Nat) (ch : Fin 130) (s : State) : Outcome := .next (quarantineReplay t ch s)
/-- `LONG_COMMAND_COMPLETE`: 02 R45; also R33, R42, R47, R80, R410. -/
def execLongCommandComplete (t : Nat) (ch : Fin 130) (ticket : Nat) (testPasses : Bool) (s : State) : Outcome :=
  .next (longCommandComplete t ch ticket testPasses s)

end Sys2Proof.Machine
end

