-- ==== Sys2Proof/Machine/Dispatch.lean ====
section
/-! DEFINITION. The dispatch: each command of the table to its meaning. -/

namespace Sys2Proof.Machine

/-- The meaning of a command on everything but the queue. -/
def exec (i : Instr) (s : State) : Host.Outcome State Fault Refusal :=
  match i with
  | .getInfo t ch => Sys2Proof.Machine.execGetInfo t ch s
  | .getCommands t ch => Sys2Proof.Machine.execGetCommands t ch s
  | .ticketStatus t ch => Sys2Proof.Machine.execTicketStatus t ch s
  | .ticketResult t ch => Sys2Proof.Machine.execTicketResult t ch s
  | .timeGet t ch => Sys2Proof.Machine.execTimeGet t ch s
  | .echo t ch => Sys2Proof.Machine.execEcho t ch s
  | .partCreate t ch => Sys2Proof.Machine.execPartCreate t ch s
  | .partDestroy t ch => Sys2Proof.Machine.execPartDestroy t ch s
  | .partQuery t ch => Sys2Proof.Machine.execPartQuery t ch s
  | .memAlloc t ch => Sys2Proof.Machine.execMemAlloc t ch s
  | .memFree t ch => Sys2Proof.Machine.execMemFree t ch s
  | .windowExport t ch => Sys2Proof.Machine.execWindowExport t ch s
  | .windowImport t ch => Sys2Proof.Machine.execWindowImport t ch s
  | .windowRevoke t ch => Sys2Proof.Machine.execWindowRevoke t ch s
  | .lendOffer t ch => Sys2Proof.Machine.execLendOffer t ch s
  | .residencyPlan t ch => Sys2Proof.Machine.execResidencyPlan t ch s
  | .memStatus t ch => Sys2Proof.Machine.execMemStatus t ch s
  | .windowUnimport t ch => Sys2Proof.Machine.execWindowUnimport t ch s
  | .queueCreate t ch => Sys2Proof.Machine.execQueueCreate t ch s
  | .queueDestroy t ch => Sys2Proof.Machine.execQueueDestroy t ch s
  | .queueQuery t ch => Sys2Proof.Machine.execQueueQuery t ch s
  | .keyLoad t ch => Sys2Proof.Machine.execKeyLoad t ch s
  | .keyReplace t ch => Sys2Proof.Machine.execKeyReplace t ch s
  | .keyDestroy t ch => Sys2Proof.Machine.execKeyDestroy t ch s
  | .keyQuery t ch => Sys2Proof.Machine.execKeyQuery t ch s
  | .mbxKeySet t ch => Sys2Proof.Machine.execMbxKeySet t ch s
  | .linkTrain t ch => Sys2Proof.Machine.execLinkTrain t ch s
  | .linkRetrain t ch => Sys2Proof.Machine.execLinkRetrain t ch s
  | .linkDown t ch => Sys2Proof.Machine.execLinkDown t ch s
  | .linkStatus t ch => Sys2Proof.Machine.execLinkStatus t ch s
  | .linkSecuritySet t ch => Sys2Proof.Machine.execLinkSecuritySet t ch s
  | .linkRekey t ch => Sys2Proof.Machine.execLinkRekey t ch s
  | .routeSet t ch => Sys2Proof.Machine.execRouteSet t ch s
  | .bundleSet t ch => Sys2Proof.Machine.execBundleSet t ch s
  | .groupCreate t ch => Sys2Proof.Machine.execGroupCreate t ch s
  | .groupDestroy t ch => Sys2Proof.Machine.execGroupDestroy t ch s
  | .groupQuery t ch => Sys2Proof.Machine.execGroupQuery t ch s
  | .vocabLoad t ch => Sys2Proof.Machine.execVocabLoad t ch s
  | .grammarLoad t ch => Sys2Proof.Machine.execGrammarLoad t ch s
  | .grammarUnload t ch => Sys2Proof.Machine.execGrammarUnload t ch s
  | .streamOpen t ch => Sys2Proof.Machine.execStreamOpen t ch s
  | .streamClose t ch => Sys2Proof.Machine.execStreamClose t ch s
  | .groveJoin t ch => Sys2Proof.Machine.execGroveJoin t ch s
  | .groveLeave t ch => Sys2Proof.Machine.execGroveLeave t ch s
  | .peerNotify t ch => Sys2Proof.Machine.execPeerNotify t ch s
  | .twinPair t ch => Sys2Proof.Machine.execTwinPair t ch s
  | .mirrorSet t ch => Sys2Proof.Machine.execMirrorSet t ch s
  | .twinFailover t ch => Sys2Proof.Machine.execTwinFailover t ch s
  | .counterConfig t ch => Sys2Proof.Machine.execCounterConfig t ch s
  | .traceConfig t ch => Sys2Proof.Machine.execTraceConfig t ch s
  | .cutArm t ch => Sys2Proof.Machine.execCutArm t ch s
  | .cutRelease t ch => Sys2Proof.Machine.execCutRelease t ch s
  | .ringRead t ch => Sys2Proof.Machine.execRingRead t ch s
  | .journalConfig t ch => Sys2Proof.Machine.execJournalConfig t ch s
  | .resetBough t ch => Sys2Proof.Machine.execResetBough t ch s
  | .resetCrown t ch => Sys2Proof.Machine.execResetCrown t ch s
  | .resetDevice t ch => Sys2Proof.Machine.execResetDevice t ch s
  | .escalationSet t ch => Sys2Proof.Machine.execEscalationSet t ch s
  | .errlogRead t ch => Sys2Proof.Machine.execErrlogRead t ch s
  | .coreSampleRead t ch => Sys2Proof.Machine.execCoreSampleRead t ch s
  | .quarantineReplay t ch => Sys2Proof.Machine.execQuarantineReplay t ch s
  | .returnToService t ch => Sys2Proof.Machine.execReturnToService t ch s
  | .powerLimitSet t ch => Sys2Proof.Machine.execPowerLimitSet t ch s
  | .powerStateSet t ch => Sys2Proof.Machine.execPowerStateSet t ch s
  | .thermalQuery t ch => Sys2Proof.Machine.execThermalQuery t ch s
  | .fwStage t ch => Sys2Proof.Machine.execFwStage t ch s
  | .fwActivate t ch => Sys2Proof.Machine.execFwActivate t ch s
  | .rollbackAdvance t ch => Sys2Proof.Machine.execRollbackAdvance t ch s
  | .refusalLogRead t ch => Sys2Proof.Machine.execRefusalLogRead t ch s
  | .go t ch alsoRelease => Sys2Proof.Machine.execGo t ch alsoRelease s
  | .release t ch => Sys2Proof.Machine.execRelease t ch s
  | .evqTail t ch v => Sys2Proof.Machine.execEvqTail t ch v s
  | .registerWrite t r off v => Sys2Proof.Machine.execRegisterWrite t r off v s
  | .lowWordRead t r off => Sys2Proof.Machine.execLowWordRead t r off s
  | .bmcStatusRead t => Sys2Proof.Machine.execBmcStatusRead t s
  | .refusalResponse t ch => Sys2Proof.Machine.execRefusalResponse t ch s
  | .longCommandComplete t ch ticket testPasses => Sys2Proof.Machine.execLongCommandComplete t ch ticket testPasses s
  | .smbusWindowOffset t v pec => Sys2Proof.Machine.execSmbusWindowOffset t v pec s
  | .smbusBlockWrite t data pec => Sys2Proof.Machine.execSmbusBlockWrite t data pec s
  | .smbusBlockRead t pec => Sys2Proof.Machine.execSmbusBlockRead t pec s
  | .wake t pec => Sys2Proof.Machine.execWake t pec s
  | .powerStatus t pec => Sys2Proof.Machine.execPowerStatus t pec s
  | .doorbell t r n q v => Sys2Proof.Machine.execDoorbell t r n q v s
  | .nop t n q host => Sys2Proof.Machine.execNop t n q host s
  | .matmul t n q host => Sys2Proof.Machine.execMatmul t n q host s
  | .vec t n q host => Sys2Proof.Machine.execVec t n q host s
  | .attend t n q host => Sys2Proof.Machine.execAttend t n q host s
  | .sample t n q host => Sys2Proof.Machine.execSample t n q host s
  | .convert t n q host => Sys2Proof.Machine.execConvert t n q host s
  | .copy t n q host data => Sys2Proof.Machine.execCopy t n q host data s
  | .fill t n q host => Sys2Proof.Machine.execFill t n q host s
  | .remoteOp t n q host => Sys2Proof.Machine.execRemoteOp t n q host s
  | .prefetch t n q host => Sys2Proof.Machine.execPrefetch t n q host s
  | .collective t n q host => Sys2Proof.Machine.execCollective t n q host s
  | .tokenize t n q host => Sys2Proof.Machine.execTokenize t n q host s
  | .step t n q host => Sys2Proof.Machine.execStep t n q host s
  | .recordSkip t n q host => Sys2Proof.Machine.execRecordSkip t n q host s
  | .recordComplete t n q number => Sys2Proof.Machine.execRecordComplete t n q number s
  | .hostAccessFail t n q kind host data => Sys2Proof.Machine.execHostAccessFail t n q kind host data s
  | .maskReady t stream => Sys2Proof.Machine.execMaskReady t stream s
  | .runaheadBuild t stream => Sys2Proof.Machine.execRunaheadBuild t stream s
  | .remoteRequest t => Sys2Proof.Machine.execRemoteRequest t s
  | .denialReady t => Sys2Proof.Machine.execDenialReady t s
  | .remoteResponse t => Sys2Proof.Machine.execRemoteResponse t s
  | .messageForward t => Sys2Proof.Machine.execMessageForward t s
  | .remoteTimeout t tag => Sys2Proof.Machine.execRemoteTimeout t tag s
  | .messageHoldExpire t => Sys2Proof.Machine.execMessageHoldExpire t s
  | .tagQuarantineExpire t tag => Sys2Proof.Machine.execTagQuarantineExpire t tag s
  | .readAheadExpire t => Sys2Proof.Machine.execReadAheadExpire t s
  | .flitCompose t p => Sys2Proof.Machine.execFlitCompose t p s
  | .flitReceive t p slices => Sys2Proof.Machine.execFlitReceive t p slices s
  | .nakResend t p => Sys2Proof.Machine.execNakResend t p s
  | .ackTimer t p => Sys2Proof.Machine.execAckTimer t p s
  | .replayTimer t p => Sys2Proof.Machine.execReplayTimer t p s
  | .keepaliveNull t p => Sys2Proof.Machine.execKeepaliveNull t p s
  | .linkDownTimeout t p => Sys2Proof.Machine.execLinkDownTimeout t p s
  | .landingSpill t p v => Sys2Proof.Machine.execLandingSpill t p v s
  | .flitDeliver t p v => Sys2Proof.Machine.execFlitDeliver t p v s
  | .stallTakeEffect t p v => Sys2Proof.Machine.execStallTakeEffect t p v s
  | .wedgeClear t p v => Sys2Proof.Machine.execWedgeClear t p v s
  | .epochAdvance t p => Sys2Proof.Machine.execEpochAdvance t p s
  | .rekeyStart t p => Sys2Proof.Machine.execRekeyStart t p s
  | .secHello t p => Sys2Proof.Machine.execSecHello t p s
  | .secProof t p => Sys2Proof.Machine.execSecProof t p s
  | .secFinish t p => Sys2Proof.Machine.execSecFinish t p s
  | .secAbort t p => Sys2Proof.Machine.execSecAbort t p s
  | .handshakeTimeout t p => Sys2Proof.Machine.execHandshakeTimeout t p s
  | .prevKeyZeroise t p => Sys2Proof.Machine.execPrevKeyZeroise t p s
  | .energyDetect t p lane => Sys2Proof.Machine.execEnergyDetect t p lane s
  | .laneQualify t p lane partner pattern inverted => Sys2Proof.Machine.execLaneQualify t p lane partner pattern inverted s
  | .falseWake t p lane => Sys2Proof.Machine.execFalseWake t p lane s
  | .hello t p m => Sys2Proof.Machine.execHello t p m s
  | .phase t p state grade at_symbol => Sys2Proof.Machine.execPhase t p state grade at_symbol s
  | .bitTable t p m ackEndSymbol => Sys2Proof.Machine.execBitTable t p m ackEndSymbol s
  | .tableAck t p lane tableId result swapSymbol => Sys2Proof.Machine.execTableAck t p lane tableId result swapSymbol s
  | .spareSwap t p position leaving => Sys2Proof.Machine.execSpareSwap t p position leaving s
  | .retrain t p lane step at_symbol => Sys2Proof.Machine.execRetrain t p lane step at_symbol s
  | .lowEnter t p beaconMs => Sys2Proof.Machine.execLowEnter t p beaconMs s
  | .lowAck t p beaconMs => Sys2Proof.Machine.execLowAck t p beaconMs s
  | .down t p reason => Sys2Proof.Machine.execDown t p reason s
  | .verifyResult t p ownMask peerMask => Sys2Proof.Machine.execVerifyResult t p ownMask peerMask s
  | .trainingTimeout t p => Sys2Proof.Machine.execTrainingTimeout t p s
  | .quietComplete t p noise => Sys2Proof.Machine.execQuietComplete t p noise s
  | .probeComplete t p snr => Sys2Proof.Machine.execProbeComplete t p snr s
  | .listenPilot t p => Sys2Proof.Machine.execListenPilot t p s
  | .snrWindowEnd t p lane snr => Sys2Proof.Machine.execSnrWindowEnd t p lane snr s
  | .tableSwap t p lane symbol => Sys2Proof.Machine.execTableSwap t p lane symbol s
  | .tableAdopt t p lane tableId symbol => Sys2Proof.Machine.execTableAdopt t p lane tableId symbol s
  | .tableSwapLapse t p lane symbol => Sys2Proof.Machine.execTableSwapLapse t p lane symbol s
  | .laneRetire t p lane => Sys2Proof.Machine.execLaneRetire t p lane s
  | .spareTakeover t p position => Sys2Proof.Machine.execSpareTakeover t p position s
  | .laneRetrainDone t p lane passed peerPassed => Sys2Proof.Machine.execLaneRetrainDone t p lane passed peerPassed s
  | .laneRetrainRetry t p lane => Sys2Proof.Machine.execLaneRetrainRetry t p lane s
  | .beaconSend t p => Sys2Proof.Machine.execBeaconSend t p s
  | .beaconLoss t p => Sys2Proof.Machine.execBeaconLoss t p s
  | .linkEnergyWake t p lanes sinceNs => Sys2Proof.Machine.execLinkEnergyWake t p lanes sinceNs s
  | .autoRetrain t p => Sys2Proof.Machine.execAutoRetrain t p s
  | .seg t => Sys2Proof.Machine.execSeg t s
  | .counts t => Sys2Proof.Machine.execCounts t s
  | .abort t => Sys2Proof.Machine.execAbort t s
  | .colTimeout t slot => Sys2Proof.Machine.execColTimeout t slot s
  | .parkExpire t => Sys2Proof.Machine.execParkExpire t s
  | .grvId t => Sys2Proof.Machine.execGrvId t s
  | .grvJoin t => Sys2Proof.Machine.execGrvJoin t s
  | .grvJoinAck t => Sys2Proof.Machine.execGrvJoinAck t s
  | .joinTimeout t => Sys2Proof.Machine.execJoinTimeout t s
  | .grvBeat t => Sys2Proof.Machine.execGrvBeat t s
  | .grvBeatTimer t => Sys2Proof.Machine.execGrvBeatTimer t s
  | .grvMemberSilent t chip => Sys2Proof.Machine.execGrvMemberSilent t chip s
  | .grvLeave t => Sys2Proof.Machine.execGrvLeave t s
  | .grvNotify t => Sys2Proof.Machine.execGrvNotify t s
  | .twinHello t => Sys2Proof.Machine.execTwinHello t s
  | .twinProof t => Sys2Proof.Machine.execTwinProof t s
  | .pairTimeout t => Sys2Proof.Machine.execPairTimeout t s
  | .graftBeat t => Sys2Proof.Machine.execGraftBeat t s
  | .graftBeatTimer t => Sys2Proof.Machine.execGraftBeatTimer t s
  | .graftBeatLoss t => Sys2Proof.Machine.execGraftBeatLoss t s
  | .twinProbe t => Sys2Proof.Machine.execTwinProbe t s
  | .twinProbeAck t => Sys2Proof.Machine.execTwinProbeAck t s
  | .probeTimeout t => Sys2Proof.Machine.execProbeTimeout t s
  | .twinYield t => Sys2Proof.Machine.execTwinYield t s
  | .twinYieldAck t => Sys2Proof.Machine.execTwinYieldAck t s
  | .yieldTimeout t => Sys2Proof.Machine.execYieldTimeout t s
  | .twinStale t => Sys2Proof.Machine.execTwinStale t s
  | .twinUnpair t => Sys2Proof.Machine.execTwinUnpair t s
  | .mirrorOpen t => Sys2Proof.Machine.execMirrorOpen t s
  | .mirrorReply t => Sys2Proof.Machine.execMirrorReply t s
  | .mirrorClose t => Sys2Proof.Machine.execMirrorClose t s
  | .mirrorWrite t => Sys2Proof.Machine.execMirrorWrite t s
  | .mirrorWriteAnswer t => Sys2Proof.Machine.execMirrorWriteAnswer t s
  | .mirrorSyncDone t region => Sys2Proof.Machine.execMirrorSyncDone t region s
  | .twigBeat t b seq tiles stall => Sys2Proof.Machine.execTwigBeat t b seq tiles stall s
  | .beatCheck t => Sys2Proof.Machine.execBeatCheck t s
  | .rootBeat t => Sys2Proof.Machine.execRootBeat t s
  | .rootHang t => Sys2Proof.Machine.execRootHang t s
  | .rootRestart t => Sys2Proof.Machine.execRootRestart t s
  | .bootTimeout t => Sys2Proof.Machine.execBootTimeout t s
  | .boughReset t b regs => Sys2Proof.Machine.execBoughReset t b regs s
  | .crownReset t => Sys2Proof.Machine.execCrownReset t s
  | .islandStall t sender receiver => Sys2Proof.Machine.execIslandStall t sender receiver s
  | .islandStallEscalate t sender receiver => Sys2Proof.Machine.execIslandStallEscalate t sender receiver s
  | .deviceWarmReset t => Sys2Proof.Machine.execDeviceWarmReset t s
  | .resetDelayExpire t => Sys2Proof.Machine.execResetDelayExpire t s
  | .journalGap t => Sys2Proof.Machine.execJournalGap t s
  | .traceDrain t unit => Sys2Proof.Machine.execTraceDrain t unit s
  | .traceExport t => Sys2Proof.Machine.execTraceExport t s
  | .pcSample t unit pc stall => Sys2Proof.Machine.execPcSample t unit pc stall s
  | .syncTx t p => Sys2Proof.Machine.execSyncTx t p s
  | .syncRx t => Sys2Proof.Machine.execSyncRx t s
  | .freezeArm t => Sys2Proof.Machine.execFreezeArm t s
  | .freezeNow t => Sys2Proof.Machine.execFreezeNow t s
  | .thaw t => Sys2Proof.Machine.execThaw t s
  | .freezeTimeReached t b => Sys2Proof.Machine.execFreezeTimeReached t b s
  | .fire t => Sys2Proof.Machine.execFire t s
  | .marker t => Sys2Proof.Machine.execMarker t s
  | .cutTaken t => Sys2Proof.Machine.execCutTaken t s
  | .triggerFire t h regs => Sys2Proof.Machine.execTriggerFire t h regs s
  | .haltRequest t h regs => Sys2Proof.Machine.execHaltRequest t h regs s
  | .resumeRequest t h => Sys2Proof.Machine.execResumeRequest t h s
  | .debugModuleAccess t rootModule addr write => Sys2Proof.Machine.execDebugModuleAccess t rootModule addr write s
  | .rdbgGo t => Sys2Proof.Machine.execRdbgGo t s
  | .debugRequest t => Sys2Proof.Machine.execDebugRequest t s
  | .debugAnswer t => Sys2Proof.Machine.execDebugAnswer t s
  | .rdbgTimeout t => Sys2Proof.Machine.execRdbgTimeout t s
  | .powerMeasure t milliwatts => Sys2Proof.Machine.execPowerMeasure t milliwatts s
  | .brdThrotN t high => Sys2Proof.Machine.execBrdThrotN t high s
  | .tempSample t readings => Sys2Proof.Machine.execTempSample t readings s
  | .tripRecovery t => Sys2Proof.Machine.execTripRecovery t s
  | .supplyWarn t monitor millivolts => Sys2Proof.Machine.execSupplyWarn t monitor millivolts s
  | .supplyFault t monitor millivolts => Sys2Proof.Machine.execSupplyFault t monitor millivolts s
  | .supplyGlitch t monitor => Sys2Proof.Machine.execSupplyGlitch t monitor s
  | .clockFault t absent ppm => Sys2Proof.Machine.execClockFault t absent ppm s
  | .xtalFallback t ppm => Sys2Proof.Machine.execXtalFallback t ppm s
  | .pcieRefclkLoss t => Sys2Proof.Machine.execPcieRefclkLoss t s
  | .powerUp t straps => Sys2Proof.Machine.execPowerUp t straps s
  | .railGroupInRange t group => Sys2Proof.Machine.execRailGroupInRange t group s
  | .seqFail t monitor => Sys2Proof.Machine.execSeqFail t monitor s
  | .perstFall t => Sys2Proof.Machine.execPerstFall t s
  | .perstRise t => Sys2Proof.Machine.execPerstRise t s
  | .pfFlr t => Sys2Proof.Machine.execPfFlr t s
  | .vfFlr t n => Sys2Proof.Machine.execVfFlr t n s
  | .napExit t => Sys2Proof.Machine.execNapExit t s
  | .quietExit t => Sys2Proof.Machine.execQuietExit t s
  | .bootRom t probe => Sys2Proof.Machine.execBootRom t probe s
  | .bootReady t => Sys2Proof.Machine.execBootReady t s
  | .trialConfirm t => Sys2Proof.Machine.execTrialConfirm t s
  | .activateReset t => Sys2Proof.Machine.execActivateReset t s
  | .granuleZeroised t granule => Sys2Proof.Machine.execGranuleZeroised t granule s
  | .scrubPass t errors => Sys2Proof.Machine.execScrubPass t errors s
  | .rowRetire t row repairLeft => Sys2Proof.Machine.execRowRetire t row repairLeft s
  | .sweepDone t n => Sys2Proof.Machine.execSweepDone t n s
  | .bankEraseDone t counter => Sys2Proof.Machine.execBankEraseDone t counter s
  | .exportQuery t chip partition exportId => Sys2Proof.Machine.execExportQuery t chip partition exportId s
  | .exportQueryAnswer t ch answer => Sys2Proof.Machine.execExportQueryAnswer t ch answer s
  | .mirrorOpenTimeout t => Sys2Proof.Machine.execMirrorOpenTimeout t s
  | .coldPowerLoss t => Sys2Proof.Machine.execColdPowerLoss t s
  | .pcieWakeRelease t => Sys2Proof.Machine.execPcieWakeRelease t s
  | .smbusClockLowTimeout t lowUs => Sys2Proof.Machine.execSmbusClockLowTimeout t lowUs s

end Sys2Proof.Machine
end

