-- ==== Sys2Proof/Machine/Step.lean ====
section
/-! DEFINITION. One step of the block: the command at the front of the queue, or nothing on an empty queue. -/

namespace Sys2Proof.Machine

/-- A command put at the front of the queue. Log entry 1 (DESIGN CHOICE). -/
def State.withCommand (s : State) (i : Instr) : State := { s with pending := i :: s.pending }

/-- The state with the command that a word spells at the front of its queue; unchanged where it spells none.
Log entry 6 (DESIGN CHOICE). -/
def State.withFetchWord (s : State) (nbits w : Nat) : State :=
  match Sys2Proof.decodeTableWord nbits w with
  | some i => s.withCommand i
  | none => s

/-- One step: run the front command with the queue's rest; an empty queue idles.
Log entries 1 (DESIGN CHOICE), 3 (DESIGN CHOICE). -/
def step (s : State) : Host.Outcome State Fault Refusal :=
  match s.pending with
  | [] => .next s
  | i :: rest => exec i { s with pending := rest }

end Sys2Proof.Machine
end

