-- ==== Sys2Proof/Safety.lean ====
section
/-! DEFINITION. What claims are stated in: the canonical form of the sparse memories, when Root may run a command of the catalogue, when
a record may start, and which commands of the model the catalogue's codes stand for. -/

namespace Sys2Proof.Machine

/-- Every sparse memory of the state is in canonical form: addresses rising, no entry equal to what an unlisted address reads as. -/
def State.memsOk (s : State) : Bool :=
  Mem.wf 0 s.mm.bytes && Mem.wf 0 s.crn.scratch && Mem.wf 0 s.obs.maps && Mem.wf 0xFF s.flash
    && s.root.chans.toList.all fun c => Mem.wf 0 c.req

/-- Root may run the command of a code that the request `r` of a channel asks for: the request is accepted and its turn has come, the
units that the command needs are awake, no command that runs holds its object, and a ticket is free where it takes one (02 R43, R44,
R53; 12 R380; 14 Table 14-8). -/
def rootRuns (code : Nat) (ch : Fin 130) (r : Request) (s : State) : Bool :=
  match cmdRow code with
  | some row =>
    acceptedReq s ch == some r && r.cmd == code && !r.ended && withinLimit s r && served s ch && !waitsFor s ch r row && !(row.needs && unitsAsleep s)
      && !objectBusy s ch r row && !(row.long && decide (16 ≤ (chan s ch).tickets.length))
      && !(row.cutBusy && s.obs.cut.st != .idle)
  | none => false

/-- At instant `t` the device is `s`, and Root may run a command on a channel. -/
def Ready (code t : Nat) (ch : Fin 130) (r : Request) (s₀ s : State) : Prop := s = s₀.at t ∧ rootRuns code ch r s = true

/-- The command of the model that a code of the catalogue stands for. -/
def commandOf (t : Nat) (ch : Fin 130) (code : Nat) : Option Instr :=
  match code with
  | 0x0001 => some (.getInfo t ch)
  | 0x0002 => some (.getCommands t ch)
  | 0x0003 => some (.ticketStatus t ch)
  | 0x0004 => some (.ticketResult t ch)
  | 0x0005 => some (.timeGet t ch)
  | 0x0006 => some (.echo t ch)
  | 0x0100 => some (.partCreate t ch)
  | 0x0101 => some (.partDestroy t ch)
  | 0x0102 => some (.partQuery t ch)
  | 0x0103 => some (.memAlloc t ch)
  | 0x0104 => some (.memFree t ch)
  | 0x0105 => some (.windowExport t ch)
  | 0x0106 => some (.windowImport t ch)
  | 0x0107 => some (.windowRevoke t ch)
  | 0x0108 => some (.lendOffer t ch)
  | 0x0109 => some (.residencyPlan t ch)
  | 0x010A => some (.memStatus t ch)
  | 0x010B => some (.windowUnimport t ch)
  | 0x0200 => some (.queueCreate t ch)
  | 0x0201 => some (.queueDestroy t ch)
  | 0x0202 => some (.queueQuery t ch)
  | 0x0300 => some (.keyLoad t ch)
  | 0x0301 => some (.keyReplace t ch)
  | 0x0302 => some (.keyDestroy t ch)
  | 0x0303 => some (.keyQuery t ch)
  | 0x0304 => some (.mbxKeySet t ch)
  | 0x0400 => some (.linkTrain t ch)
  | 0x0401 => some (.linkRetrain t ch)
  | 0x0402 => some (.linkDown t ch)
  | 0x0403 => some (.linkStatus t ch)
  | 0x0404 => some (.linkSecuritySet t ch)
  | 0x0405 => some (.linkRekey t ch)
  | 0x0406 => some (.routeSet t ch)
  | 0x0407 => some (.bundleSet t ch)
  | 0x0500 => some (.groupCreate t ch)
  | 0x0501 => some (.groupDestroy t ch)
  | 0x0502 => some (.groupQuery t ch)
  | 0x0600 => some (.vocabLoad t ch)
  | 0x0601 => some (.grammarLoad t ch)
  | 0x0602 => some (.grammarUnload t ch)
  | 0x0603 => some (.streamOpen t ch)
  | 0x0604 => some (.streamClose t ch)
  | 0x0700 => some (.groveJoin t ch)
  | 0x0701 => some (.groveLeave t ch)
  | 0x0702 => some (.peerNotify t ch)
  | 0x0703 => some (.twinPair t ch)
  | 0x0704 => some (.mirrorSet t ch)
  | 0x0705 => some (.twinFailover t ch)
  | 0x0800 => some (.counterConfig t ch)
  | 0x0801 => some (.traceConfig t ch)
  | 0x0802 => some (.cutArm t ch)
  | 0x0803 => some (.cutRelease t ch)
  | 0x0804 => some (.ringRead t ch)
  | 0x0805 => some (.journalConfig t ch)
  | 0x0900 => some (.resetBough t ch)
  | 0x0901 => some (.resetCrown t ch)
  | 0x0902 => some (.resetDevice t ch)
  | 0x0903 => some (.escalationSet t ch)
  | 0x0904 => some (.errlogRead t ch)
  | 0x0905 => some (.coreSampleRead t ch)
  | 0x0906 => some (.quarantineReplay t ch)
  | 0x0907 => some (.returnToService t ch)
  | 0x0A00 => some (.powerLimitSet t ch)
  | 0x0A01 => some (.powerStateSet t ch)
  | 0x0A02 => some (.thermalQuery t ch)
  | 0x0B00 => some (.fwStage t ch)
  | 0x0B01 => some (.fwActivate t ch)
  | 0x0B02 => some (.rollbackAdvance t ch)
  | 0x0B03 => some (.refusalLogRead t ch)
  | _ => none

/-- No asynchronous mirrored region stands at its bound, so no write has to wait for the twin's answers (11 R339). -/
def LagClear (s : State) : Prop := ∀ e ∈ s.twn.regions, e.2.async = true → e.2.live = true → regionLag s e.2 < e.2.maxLag

/-- A record starts: the queue `x` of partition `n`, whose next record has the bytes `b` once fetched (leaving `s'`), may start it
under the row of its opcode, it passes the header's checks (08 R245, R246), and no write waits for the twin (11 R339). -/
def RecordStarts (op : Nat) (n : Fin 128) (q : Fin 16) (host b : Bytes) (x : Queue) (s s' : State) : Prop :=
  queue s n q = some x ∧ x.started ≠ x.tail ∧ fetchRec n x host s = (stOk, b, s') ∧ startMet s n q x b = true
    ∧ chainSkips x b = none ∧ u8At b 0 = op ∧ opcodeOk (q / 4) op = true ∧ headerOk (q / 4) b = true ∧ LagClear s

/-- A control message of a code has come whole: the message `m` taken out of the inbox leaves `s'` (11 R317, R319). -/
def CtrlArrives (code path len : Nat) (s : State) (m : InMsg) (s' : State) : Prop :=
  takeMsg (fun m => m.typ == 2 && ctrlCode m == code && !isGroveTransit s m) s = some (m, s') ∧ ctrlOk m path len = true

/-- A tagged message of the twin has come over port 7 and its tag holds (11 R333). -/
def TaggedArrives (code len : Nat) (s : State) (m : InMsg) (s' : State) : Prop :=
  CtrlArrives code 2 (len + 16) s m s' ∧ m.port = some 7 ∧ ctrlSrc m = s'.twn.chip ∧ s'.twn.st ≠ .none
    ∧ ∃ k, s'.twn.kGraft = some k ∧ twinTag k ((m.bytes.drop 1).take (8 + len)) = (ctrlFields m).drop len

/-- A probe message of the twin has come and its tag holds (11 R341). -/
def ProbeArrives (code path len : Nat) (s : State) (m : InMsg) (s' : State) : Prop :=
  CtrlArrives code path (len + 16) s m s' ∧ ctrlSrc m = s'.twn.chip
    ∧ ∃ k, s'.twn.kProbe = some k ∧ twinTag k ((m.bytes.drop 1).take (8 + len)) = (ctrlFields m).drop len

end Sys2Proof.Machine
end

