-- ==== Sys2Proof/Certificates/Slice0/Obligations.lean ====
section
/-! DEFINITION. The statements for the provers: what a step does, what reset leaves, what every command and event of the table answers and
leaves, and rules of the whole device. Nothing is proved here. -/

open Sys2Proof Sys2Proof.Machine

/-! ### The step and the queue -/

/-- A step runs the command at the front of the queue with the queue's rest, and on an empty queue changes nothing (design choice, log
entry 3). -/
def Obligations.StepRunsTheFrontCommand : Prop :=
  (∀ (s : State) (c : Instr) (rest : List Instr), s.pending = c :: rest → step s = exec c { s with pending := rest })
    ∧ (∀ s : State, s.pending = [] → step s = .next s)

/-- Every command and event answers a next state: no command of the table faults or is refused. -/
def Obligations.EveryCommandAnswers : Prop := ∀ (c : Instr) (s : State), ∃ s' : State, exec c s = .next s'

/-! ### What reset leaves -/

/-- The state after reset is cold power before the power-up sequence, as 13 R389 and R391, 11 R333 and 05 R160 give its values. -/
def Obligations.ResetLeavesColdPower : Prop :=
  State.reset.pending = [] ∧ State.reset.cmb.crownLimit = 4 ∧ State.reset.cmb.boughLimit = 16
    ∧ State.reset.cmb.windowS = 600 ∧ State.reset.cmb.log = [] ∧ State.reset.mm.parts = [] ∧ State.reset.crn.queues = []
    ∧ State.reset.txn.chip = none ∧ State.reset.twn.st = .none
    ∧ (∀ p : Fin 8, (port State.reset p).phys.st = 0 ∧ (port State.reset p).link.st = .down ∧ (port State.reset p).link.mode = 2)
    ∧ (∀ b : Fin 64, (bough State.reset b).st = .free)
    ∧ (∀ ch : Fin 130, (chan State.reset ch).st = .idle ∧ (chan State.reset ch).nextTicket = 1)

/-- Reset memory is in canonical form. -/
def Obligations.ResetMemoriesAreCanonical : Prop := State.reset.memsOk = true

/-- Every step keeps every sparse memory in canonical form. -/
def Obligations.StepKeepsMemoriesCanonical : Prop :=
  ∀ s s' : State, s.memsOk = true → step s = .next s' → s'.memsOk = true

/-! ### Mailbox commands: what each answers and leaves -/

/-- The general commands (02 Table 2-10). -/
def Obligations.GeneralCommandsAnswer : Prop :=
  ∀ (t : Nat) (ch : Fin 130) (r : Request) (s₀ s : State),
    (Ready 0x0001 t ch r s₀ s → noArgs r.args = some () →
      exec (.getInfo t ch) s₀ = .next (respond ch r stOk 0 (packArgs [(2, 3), (2, s.boot.gcsMinor), (1, 0xB0), (1, ch.val), (2, ownChip s),
        (4, s.boot.fwBuild), (4, s.root.bootCount), (4, deviceState s), (8, s.fuse.serial), (8, 0)]) s))
    ∧ (Ready 0x0002 t ch r s₀ s → noArgs r.args = some () →
      exec (.getCommands t ch) s₀ = .next (respond ch r stOk 0 (commandMap s ch.val) s))
    ∧ (∀ (num : Nat) (k : Ticket), Ready 0x0003 t ch r s₀ s → parseArgs [4] r.args = some [num] → findTicket s ch num = some k →
      exec (.ticketStatus t ch) s₀
        = .next (respond ch r stOk 0 (packArgs [(2, k.final.getD stAccepted), (2, k.cmd), (8, k.doneAt)]) s))
    ∧ (∀ (num st : Nat) (k : Ticket), Ready 0x0004 t ch r s₀ s → parseArgs [4] r.args = some [num] →
      findTicket s ch num = some k → k.final = some st →
      exec (.ticketResult t ch) s₀ = .next (respond ch r st 0 k.result
        (modChan ch (fun c => { c with tickets := c.tickets.filter fun x => x.num ≠ k.num }) s)))
    ∧ (Ready 0x0005 t ch r s₀ s → noArgs r.args = some () →
      exec (.timeGet t ch) s₀ = .next (respond ch r stOk 0 (leBytes 8 s.now)
        (journal 0x04 30 (leBytes 1 64 ++ zeros 1 ++ leBytes 2 ch.val ++ zeros 4 ++ leBytes 8 s.now) s)))
    ∧ (Ready 0x0006 t ch r s₀ s → exec (.echo t ch) s₀ = .next (respond ch r stOk 0 r.args s))

/-- Partitions and their memory (02 Table 2-11; 07 R206 to R213): a new partition is as PART_CREATE's arguments say and its generation is
the result; PART_DESTROY is accepted, and the partition goes as it completes; MEM_ALLOC answers the offset of the granules it maps. -/
def Obligations.PartitionCommandsComplete : Prop :=
  ∀ (t : Nat) (ch : Fin 130) (r : Request) (s₀ s : State),
    (∀ n k quota mask cmd floor : Nat, Ready 0x0100 t ch r s₀ s →
      parseArgs [1, 1, 1, 4, 8, 4, 4, 8] r.args = some [n, 0, k, quota, mask, cmd, 0, floor] →
      partCreateOk s [n, 0, k, quota, mask, cmd, 0, floor] = true → thas n s.mm.parts = false →
      quotaSum s + lentGranules s + quota ≤ usableGranules s →
      exec (.partCreate t ch) s₀ = .next (acceptLong ch r
        (.planned stOk (leBytes 1 (genOf (makePart [n, 0, k, quota, mask, cmd, 0, floor] none s) n).toNat))
        (makePart [n, 0, k, quota, mask, cmd, 0, floor] none s)))
    ∧ (∀ (n k quota mask cmd seal_ floor : Nat) (e : KeyEntry) (xts : Bytes) (s' : State), Ready 0x0100 t ch r s₀ s →
      parseArgs [1, 1, 1, 4, 8, 4, 4, 8] r.args = some [n, 1, k, quota, mask, cmd, seal_, floor] →
      partCreateOk s [n, 1, k, quota, mask, cmd, seal_, floor] = true → thas n s.mm.parts = false →
      keyEntry s seal_ = some e → useRefused s e = false → quotaSum s + lentGranules s + quota ≤ usableGranules s →
      useKey seal_ useSeal s = (some xts, s') →
      exec (.partCreate t ch) s₀ = .next (acceptLong ch r
        (.planned stOk (leBytes 1 (genOf (makePart [n, 1, k, quota, mask, cmd, seal_, floor] (some xts) s') n).toNat))
        (makePart [n, 1, k, quota, mask, cmd, seal_, floor] (some xts) s')))
    ∧ (∀ n : Nat, Ready 0x0101 t ch r s₀ s → parseArgs [1] r.args = some [n] → ownPart s n = true →
      exec (.partDestroy t ch) s₀ = .next (acceptLong ch r (.destroy (finOf 128 n)) s))
    ∧ (∀ (n : Nat) (p : Partition), Ready 0x0102 t ch r s₀ s → parseArgs [1] r.args = some [n] → part s n = some p →
      exec (.partQuery t ch) s₀ = .next (respond ch r stOk 0 (packArgs [(1, p.mode - 1), (1, (genOf s n).toNat),
        (4, p.used), (4, p.quota), (8, p.boughMask)]) s))
    ∧ (∀ (n k o : Nat) (s' : State), Ready 0x0103 t ch r s₀ s → parseArgs [1, 4] r.args = some [n, k] → ownPart s n = true →
      k ≠ 0 → allocRun n k s = some (o, s') →
      exec (.memAlloc t ch) s₀ = .next (respond ch r stOk 0 (leBytes 8 (o * 0x200000)) s'))
    ∧ (∀ (n o k : Nat) (p : Partition), Ready 0x0104 t ch r s₀ s → parseArgs [1, 8, 4] r.args = some [n, o * 0x200000, k] →
      ownPart s n = true → part s n = some p → runAllocated p o k = true → runMirrored s n o k = false →
      exec (.memFree t ch) s₀ = .next (respond ch r stOk 0 [] (unmapRun n o k s)))
    ∧ (Ready 0x010A t ch r s₀ s → noArgs r.args = some () →
      exec (.memStatus t ch) s₀ = .next (respond ch r stOk 0
        (packArgs [(4, 73728), (4, reservedGranules s), (4, freeGranules s), (4, s.mm.retiredRows)]) s))

/-- Windows and the planner (02 Table 2-11; 06 R172 to R175, 07 R231 to R237). -/
def Obligations.WindowCommandsComplete : Prop :=
  ∀ (t : Nat) (ch : Fin 130) (r : Request) (s₀ s : State),
    (∀ (n o len rights chip imp id : Nat) (s' : State), Ready 0x0105 t ch r s₀ s →
      parseArgs [1, 8, 8, 4, 2, 1] r.args = some [n, o, len, rights, chip, imp] → exportOk s [n, o, len, rights, chip, imp] = true →
      addExport { part := n, gen := genOf s n, offset := o, length := len, rights := rights, impChip := chip, impPart := imp } s
        = some (id, s') →
      exec (.windowExport t ch) s₀ = .next (respond ch r stOk 0 (leBytes 4 id) s'))
    ∧ (∀ n chip remote id : Nat, Ready 0x0106 t ch r s₀ s → parseArgs [1, 2, 1, 4] r.args = some [n, chip, remote, id] →
      ownPart s n = true → chip ≤ 1023 → remote ≤ 127 → (s.txn.pendingImports.any fun p => p.ch == ch && p.ticket == 0) = false →
      s.txn.chip ≠ some chip → importPath s chip = stOk →
      exec (.windowImport t ch) s₀ = .next (emit (.exportQuery chip n id) (modTxn (fun x => { x with pendingImports :=
        x.pendingImports ++ [{ ch := ch, ticket := 0, part := n, chip := chip, remote := remote, id := id }] }) s)))
    ∧ (∀ (n id : Nat) (e : Export), Ready 0x0107 t ch r s₀ s → parseArgs [1, 4] r.args = some [n, id] →
      tget id s.txn.exports = some e → e.part = n → s.mm.lending ≠ some n →
      exec (.windowRevoke t ch) s₀ = .next (respond ch r stOk 0 [] (modTxn (fun x => { x with exports := tdel id x.exports }) s)))
    ∧ (∀ (chip imp k n id : Nat) (p : Partition) (s' : State), Ready 0x0108 t ch r s₀ s →
      parseArgs [2, 1, 4] r.args = some [chip, imp, k] → (chip ≤ 1023 ∨ chip = 0xFFFF) → (imp ≤ 127 ∨ imp = 0xFF) → k ≠ 0 →
      s.mm.lending = some n → part s n = some p → p.pages = [] → k ≤ freeGranules s → s.txn.exports.length < 4096 →
      addExport { part := n, gen := genOf (mapRun n 0 k s) n, offset := 0, length := k * granuleBytes, rights := 11,
                  impChip := chip, impPart := imp } (mapRun n 0 k s) = some (id, s') →
      exec (.lendOffer t ch) s₀ = .next (respond ch r stOk 0 (leBytes 4 id) s'))
    ∧ (∀ (n k table lender id : Nat) (b : Bytes) (s' : State) (ts : List Tensor), Ready 0x0109 t ch r s₀ s →
      parseArgs [1, 4, 8, 2, 4] r.args = some [n, k, table, lender, id] → ownPart s n = true → 1 ≤ k → k ≤ 65536 →
      table + 48 * k ≤ 2 ^ 47 → allocated s n table (48 * k) = true → readRange (localWho s n) n table (48 * k) s = (stOk, b, s') →
      allSome ((List.range k).map fun i => Tensor.of (slice b (48 * i) 48)) = some ts →
      exec (.residencyPlan t ch) s₀ = .next (planTable ch r n table lender id ts s'))
    ∧ (∀ (n k : Nat) (i : Import), Ready 0x010B t ch r s₀ s → parseArgs [1, 4] r.args = some [n, k] →
      tget k s.txn.imports = some i → i.part = n → i.plan = false →
      exec (.windowUnimport t ch) s₀ = .next (respond ch r stOk 0 [] (modTxn (fun x => { x with
        imports := tdel k x.imports, readAhead := x.readAhead.filter fun e => e.slot != k }) s)))

/-- Queues (02 Table 2-12; 08 R241, R242, R250): a new queue is empty, in the state its arguments give. -/
def Obligations.QueueCommandsComplete : Prop :=
  ∀ (t : Nat) (ch : Fin 130) (r : Request) (s₀ s : State) (n cls idx : Nat),
    (∀ (k base vec : Nat) (s' : State), Ready 0x0200 t ch r s₀ s →
      parseArgs [1, 1, 1, 1, 4, 8, 2] r.args = some [n, cls, idx, 1, k, base, vec] →
      queueCreateOk s [n, cls, idx, 1, k, base, vec] = true → queue s n (4 * cls + idx) = none →
      zeroSlots n (Queue.fresh true k base vec) s = s' →
      exec (.queueCreate t ch) s₀ = .next (respond ch r stOk 0 (leBytes 4 (0x300000 + 0x10 * (4 * cls + idx)))
        (checkpoint n (4 * cls + idx) true { s' with crn := { s'.crn with
          queues := tset (qKey n (4 * cls + idx)) (Queue.fresh true k base vec) s'.crn.queues } })))
    ∧ (∀ (k base vec : Nat) (s' : State), Ready 0x0200 t ch r s₀ s →
      parseArgs [1, 1, 1, 1, 4, 8, 2] r.args = some [n, cls, idx, 0, k, base, vec] →
      queueCreateOk s [n, cls, idx, 0, k, base, vec] = true → queue s n (4 * cls + idx) = none →
      zeroSlots n (Queue.fresh false k base vec) s = s' → base + 128 * k ≤ 2 ^ 47 →
      allocated s n base (128 * k) = true →
      exec (.queueCreate t ch) s₀ = .next (respond ch r stOk 0 (leBytes 4 (0x300000 + 0x10 * (4 * cls + idx)))
        (checkpoint n (4 * cls + idx) true { s' with crn := { s'.crn with
          queues := tset (qKey n (4 * cls + idx)) (Queue.fresh false k base vec) s'.crn.queues } })))
    ∧ (Ready 0x0201 t ch r s₀ s → parseArgs [1, 1, 1] r.args = some [n, cls, idx] → queueArg s [n, cls, idx] = true →
      exec (.queueDestroy t ch) s₀ = .next (respond ch r stOk 0 [] (stopQueue n (4 * cls + idx) s)))
    ∧ (∀ x : Queue, Ready 0x0202 t ch r s₀ s → parseArgs [1, 1, 1] r.args = some [n, cls, idx] → queueArg s [n, cls, idx] = true →
      queue s n (4 * cls + idx) = some x →
      exec (.queueQuery t ch) s₀ = .next (respond ch r stOk 0 (packArgs [(4, x.head.toNat), (4, x.tail.toNat),
        (4, (queueState s n (4 * cls + idx)).1)]) (queueState s n (4 * cls + idx)).2))

/-- Keys (02 Table 2-13; 03 R71, R80, R82, R87, R74, 02 R52): the floor of the channel of MBX_KEY_SET rises by 1. -/
def Obligations.KeyCommandsComplete : Prop :=
  ∀ (t : Nat) (ch : Fin 130) (r : Request) (s₀ s : State) (st : Staged),
    (∀ i : Nat, Ready 0x0300 t ch r s₀ s → blobArgsOk 0x0300 0 r.args = some r.args → r.staged = some st → stagedLive s st = true →
      (s.hwd.reg.find? fun e => e.2.channel == ch.val && e.2.keyId == blobId st.blob && e.2.gen == blobGen st.blob) = none →
      tfree s.hwd.reg 3 4093 = some i → loadFits s st.blob false = true →
      exec (.keyLoad t ch) s₀ = .next (respond ch r stOk 0
        (leBytes 4 (handleOf (registerKey i ch.val st (modHwd (fun h => { h with uniq := tset i (nextUniq s i) h.uniq }) s)) i))
        (registerKey i ch.val st (modHwd (fun h => { h with uniq := tset i (nextUniq s i) h.uniq }) s))))
    ∧ (Ready 0x0301 t ch r s₀ s → blobArgsOk 0x0301 0 r.args = some r.args → keyReplaceOk s ch.val r.args = true →
      r.staged = some st → sweeps s (u32At r.args 0) = false →
      loadFits s st.blob (((keyEntry s (u32At r.args 0)).map (·.pinned)).getD false) = true →
      exec (.keyReplace t ch) s₀ = .next (acceptLong ch r (.keyReplace (u32At r.args 0) st) s))
    ∧ (∀ (h : Nat) (e : KeyEntry), Ready 0x0302 t ch r s₀ s → parseArgs [4] r.args = some [h] → mayModify s ch.val h = true →
      keyEntry s h = some e → (sweeps s h = true → exec (.keyDestroy t ch) s₀ = .next (respond ch r stBusy 0 [] s))
      ∧ (∀ s₁ : State, sweeps s h = false →
        s₁ = writeGen e.keyId (storedGen s e.keyId + 1) (respond ch r stOk 0 (leBytes 4 (storedGen s e.keyId + 1)) s) →
        exec (.keyDestroy t ch) s₀ = .next (releaseCounter e.keyId (withdraw (if h = 1 then deriveLog (setOwner 0 none s₁)
          else if h = 2 then setOwner 1 none s₁ else s₁)))))
    ∧ (∀ (h : Nat) (e : KeyEntry), Ready 0x0303 t ch r s₀ s → parseArgs [4] r.args = some [h] → mayQuery s ch.val h = true →
      keyEntry s h = some e →
      (e.counted = false ∨ counterOf s e.keyId = none →
        exec (.keyQuery t ch) s₀ = .next (respond ch r stOk 0 (packArgs [(2, e.kind), (2, e.gen), (8, e.uses)]) s))
      ∧ (∀ c : Fin 64, e.counted = true → counterOf s e.keyId = some c → exec (.keyQuery t ch) s₀
        = .next (respond ch r stOk 0 (packArgs [(2, e.kind), (2, e.gen), (8, (vget s.hwd.counters c).value)]) s)))
    ∧ (∀ c : Fin 2, Ready 0x0304 t ch r s₀ s → blobArgsOk 0x0304 193 r.args = some r.args → u8At r.args 0 = c.val →
      r.staged = some st → hwdDead s = false → storedGen s (blobId st.blob) ≤ blobGen st.blob →
      pinnedSlots s + bit 0 (slotMaterial s (.key (c.val + 1))).isNone + bit 0 (slotMaterial s (.command c.val)).isNone ≤ 64 →
      ∃ s' : State, exec (.mbxKeySet t ch) s₀ = .next s' ∧
        (∃ s'' : State, s' = withdraw (respond ch r stOk 0 [] s'')
          ∧ (chan s'' (finOf 130 c.val)).floor = (chan s (finOf 130 c.val)).floor + 1))

/-- Links, routes and bundles (02 Table 2-14; 04 R118, R119, R131; 05 R149, R158, R160, R166, R167, R170; 06 R199): for every state of the
port, what each command answers, records and begins. LINK_TRAIN takes a linked port down first and answers ACCESS_DENIED without an
identity key and NO_RESOURCE without Sink Reserve; LINK_RETRAIN first hands a data lane's position to the spare, is BUSY while a retrain
runs and NO_RESOURCE without a spare; LINK_SECURITY_SET is BUSY outside DISABLED, DETECT and FAILED. The status of LINK_RETRAIN on a port
that is not LINKED and of LINK_REKEY on a port without a session is a free value (log entry 61). -/
def Obligations.LinkCommandsComplete : Prop :=
  ∀ (t : Nat) (ch : Fin 130) (r : Request) (s₀ s : State) (p : Fin 8),
    (∀ (g sf grade : Nat) (s₁ : State), Ready 0x0400 t ch r s₀ s → parseArgs [1, 1, 1] r.args = some [p.val, g, sf] →
      g ∈ gradesDown → sf ∈ [1, 4, 16, 64] →
      s₁ = (if 8 ≤ (port s p).phys.st ∧ (port s p).phys.st ≤ 10 then linkGoesDown p 0 true s else s) →
      (hasIdentity s p = true → admitGrade s₁ p g = some grade →
        exec (.linkTrain t ch) s₀ = .next (beginTraining p grade sf (reviveLanes p (acceptLong ch r .event (modPhys p (fun x =>
          { x with last := some (g, sf), ticket := some (ch, (chan s₁ ch).nextTicket) }) s₁)))))
      ∧ (hasIdentity s p = true → admitGrade s₁ p g = none →
        exec (.linkTrain t ch) s₀ = .next (respond ch r stNoResource 0 [] s₁))
      ∧ (hasIdentity s p = false → exec (.linkTrain t ch) s₀ = .next (respond ch r stAccessDenied 0 [] s)))
    ∧ (∀ l : Fin 9, Ready 0x0401 t ch r s₀ s → parseArgs [1, 1] r.args = some [p.val, l.val] →
      ((port s p).phys.st = 8 → (rxLane s p l).role ≠ .retrain → (rxLane s p l).leaving = false → (port s p).phys.retrain = none →
        (rxLane s p l).partner ≠ 0xF → ∀ s₁ : State, s₁ = modPhys p (fun y =>
          { y with retrain := some { lane := l.val, ticket := some (ch, (chan s ch).nextTicket) } }) (acceptLong ch r .event s) →
        ((rxLane s p l).role ≠ .data → exec (.linkRetrain t ch) s₀ = .next (askRetrain p l (startRetrain p l s₁)))
        ∧ ((rxLane s p l).role = .data → (rxSpare s p).isSome = true → exec (.linkRetrain t ch) s₀ = .next (askSpareSwap p l s₁)))
      ∧ ((port s p).phys.st = 8 → (rxLane s p l).role = .retrain ∨ (rxLane s p l).leaving = true ∨ (port s p).phys.retrain.isSome = true →
        exec (.linkRetrain t ch) s₀ = .next (respond ch r stBusy 0 [] s))
      ∧ ((port s p).phys.st = 8 → (rxLane s p l).role ≠ .retrain → (rxLane s p l).leaving = false → (port s p).phys.retrain = none →
        ((rxLane s p l).role = .data ∧ rxSpare s p = none) ∨ (rxLane s p l).partner = 0xF →
        exec (.linkRetrain t ch) s₀ = .next (respond ch r stNoResource 0 [] s))
      ∧ ((port s p).phys.st ≠ 8 → exec (.linkRetrain t ch) s₀ = .next (respond ch r (freeStatus s).1 0 [] (freeStatus s).2)))
    ∧ (Ready 0x0402 t ch r s₀ s → parseArgs [1] r.args = some [p.val] →
      exec (.linkDown t ch) s₀ = .next (respond ch r stOk 0 []
        (if (port s p).phys.st = 0 then modPhys p (fun x => { x with autoAt := none, bootWait := false }) s
         else linkGoesDown p 0 (decide (2 ≤ (port s p).phys.st ∧ (port s p).phys.st ≤ 10)) s)))
    ∧ (Ready 0x0403 t ch r s₀ s → parseArgs [1] r.args = some [p.val] →
      exec (.linkStatus t ch) s₀ = .next (respond ch r stOk 0 (packArgs [(1, physState s p), (1, (port s p).phys.grade),
        (1, if (port s p).link.mode = 0 then 0
            else if (port s p).link.st = .up ∨ (port s p).link.st = .low then (port s p).link.mode else 3),
        (1, if (rxSpare s p).isSome then 0
            else if ∃ l : Fin 9, (rxLane s p l).role = .retrain ∧ (rxLane s p l).relieved = true then 1 else 2),
        (4, sat32 (((fins 9).map fun l => (rxLane s p l).errs).foldl (· + ·) 0)), (8, (port s p).link.replayed)]) s))
    ∧ (∀ (mode peer key : Nat) (s₁ : State), Ready 0x0404 t ch r s₀ s → parseArgs [1, 1, 2, 4] r.args = some [p.val, mode, peer, key] →
      securitySetOk s [p.val, mode, peer, key] = true →
      s₁ = respond ch r stOk 0 [] (modLink p (fun l => { l with mode := mode, peerExpect := peer, identity := key }) s) →
      (((port s p).phys.st = 0 ∨ (port s p).phys.st = 1 ∨ (port s p).phys.st = 11) →
        (port s₁ p).link.mode = mode ∧ (port s₁ p).link.peerExpect = peer ∧ (port s₁ p).link.identity = key
        ∧ exec (.linkSecuritySet t ch) s₀
          = .next (if (port s p).phys.bootWait = true ∧ hasIdentity s₁ p = true then bootTrain p s₁ else s₁))
      ∧ ((port s p).phys.st ≠ 0 → (port s p).phys.st ≠ 1 → (port s p).phys.st ≠ 11 →
        exec (.linkSecuritySet t ch) s₀ = .next (respond ch r stBusy 0 [] s)))
    ∧ (Ready 0x0405 t ch r s₀ s → parseArgs [1] r.args = some [p.val] →
      ((port s p).link.mode ≠ 0 → (port s p).link.txKey.isSome = true → (port s p).link.st ≠ .down → (port s p).link.st ≠ .securing →
        exec (.linkRekey t ch) s₀ = .next (acceptLong ch r .event (modLink p (fun l => { l with
          rekeyWait := some ((match (port s p).link.shake with | some h => h.epoch | none => (port s p).link.txEpoch + 1),
            ch, (chan s ch).nextTicket) }) s)))
      ∧ ((port s p).link.mode = 0 ∨ (port s p).link.txKey = none ∨ (port s p).link.st = .down ∨ (port s p).link.st = .securing →
        exec (.linkRekey t ch) s₀ = .next (respond ch r (freeStatus s).1 0 [] (freeStatus s).2)))
    ∧ (∀ (g : Nat) (es : List Nat), Ready 0x0406 t ch r s₀ s → routeArgs r.args = some (g, es) →
      (s.txn.routeGen < g → es.all routeEntryOk = true →
        exec (.routeSet t ch) s₀ = .next (respond ch r stOk 0 []
          (pump (modTxn (fun x => { x with routes := es.map (BitVec.ofNat 32), routeGen := g }) s))))
      ∧ (g ≤ s.txn.routeGen ∨ es.all routeEntryOk = false → exec (.routeSet t ch) s₀ = .next (respond ch r stBadArg 0 [] s)))
    ∧ (∀ (b : Fin 4) (mask : Nat), Ready 0x0407 t ch r s₀ s → parseArgs [1, 1] r.args = some [b.val, mask] →
      (bundleSetOk s [b.val, mask] = true → exec (.bundleSet t ch) s₀ = .next (respond ch r stOk 0 [] (pump (modTxn (fun x =>
        { x with
          bundles := vset x.bundles b mask
          bundlePeer := vset x.bundlePeer b (((fins 8).filter fun q => mask.testBit q.val && (port s q).phys.st == 8).findSome?
            fun q => (port s q).link.peer) }) s))))
      ∧ (bundleSetOk s [b.val, mask] = false → exec (.bundleSet t ch) s₀ = .next (respond ch r stBadArg 0 [] s)))

/-- Collective groups (02 Table 2-15; 09 R270, R272): a new group takes the lowest free slot. -/
def Obligations.GroupCommandsComplete : Prop :=
  ∀ (t : Nat) (ch : Fin 130) (r : Request) (s₀ s : State),
    (∀ (n alg m table : Nat) (b : Bytes) (s' : State), Ready 0x0500 t ch r s₀ s →
      parseArgs [1, 1, 2, 8] r.args = some [n, alg, m, table] → ownPart s n = true → alg ≤ 1 → 2 ≤ m → m ≤ 1024 →
      allocated s n table (8 + 4 * m) = true → readTableOf n table (8 + 4 * m) s = (stOk, b, s') →
      exec (.groupCreate t ch) s₀ = .next (makeGroup ch r n alg m b s'))
    ∧ (∀ (k : Nat) (g : Group), Ready 0x0501 t ch r s₀ s → parseArgs [2] r.args = some [k] → slotArg s ch [k] = true →
      slotOf s k = some g → g.op = none →
      exec (.groupDestroy t ch) s₀ = .next (respond ch r stOk 0 [] (modCol (fun c => { c with slots := tdel k c.slots }) s)))
    ∧ (∀ (k : Nat) (g : Group), Ready 0x0502 t ch r s₀ s → parseArgs [2] r.args = some [k] → slotArg s ch [k] = true →
      slotOf s k = some g →
      exec (.groupQuery t ch) s₀
        = .next (respond ch r stOk 0 (packArgs [(4, groupWord g), (2, g.laggard), (2, 0), (8, g.laggardNs)]) s))
    ∧ (∀ (n alg m k : Nat) (b : Bytes) (g : Group), memberTableOk b m = true → s.txn.chip.isSome = true →
      ((List.range m).map (memberAt b)).findIdx (fun e => s.txn.chip == some e.1 && e.2 == n) < m →
      tfree s.col.slots 0 256 = some k → slotById s (groupId alg m b) = none →
      g = { part := n, algorithm := alg, id := groupId alg m b, members := (List.range m).map (memberAt b),
            self := ((List.range m).map (memberAt b)).findIdx (fun e => s.txn.chip == some e.1 && e.2 == n), opSeq := 0, broken := none,
            laggard := 0xFFFF, laggardNs := 0, segsIn := 0, lastGen := [], firstAt := [], op := none } →
      makeGroup ch r n alg m b s = respond ch r stOk 0 (packArgs [(2, k)]) (modCol (fun c => { c with slots := tset k g c.slots }) s))

/-- The objects of the token engine (02 Table 2-16; 10 R295, R298, R305, R306, R311): an image read whole is checked and registered;
unloading and closing leave no object of the number. -/
def Obligations.TokenCommandsComplete : Prop :=
  ∀ (t : Nat) (ch : Fin 130) (r : Request) (s₀ s : State),
    (∀ (n o len : Nat) (b : Bytes) (s' : State) (i : Image), Ready 0x0600 t ch r s₀ s → parseArgs [1, 8, 8] r.args = some [n, o, len] →
      ownPart s n = true → len ≤ 0x4000000 → allocated s n o len = true → readTableOf n o len s = (stOk, b, s') →
      i = { part := n, vocab := (takeTkeId s').1, kind := 0, offset := o, length := len, hdr := b.take 64 } →
      vocabOk b = true → (s'.tke.vocabs.filter fun e => e.2.part == n).length < 4 → s'.tke.vocabs.length < 64 →
      exec (.vocabLoad t ch) s₀ = .next (acceptLong ch r (.planned stOk (packArgs [(4, (takeTkeId s').1)]))
        (modTke (fun k => { k with vocabs := tset (takeTkeId s').1 i k.vocabs }) (takeTkeId s').2)))
    ∧ (∀ (v kind o len : Nat) (x y i : Image) (b : Bytes) (s₁ s' : State), Ready 0x0601 t ch r s₀ s →
      parseArgs [4, 1, 8, 8] r.args = some [v, kind, o, len] → vocabArg s ch v = some x → kind ≤ 1 → len ≤ 0x10000000 →
      allocated s x.part o len = true → readHdr x s = (stOk, y, s₁) → readTableOf x.part o len s₁ = (stOk, b, s') →
      grammarOk kind b y.hdr = true → i = { part := y.part, vocab := v, kind := kind, offset := o, length := len, hdr := b.take 64 } →
      s'.tke.grammars.length < 256 →
      exec (.grammarLoad t ch) s₀ = .next (acceptLong ch r (.planned stOk (packArgs [(4, (takeTkeId s').1)]))
        (modTke (fun k => { k with grammars := tset (takeTkeId s').1 i k.grammars }) (takeTkeId s').2)))
    ∧ (∀ (g : Nat) (x : Image), Ready 0x0602 t ch r s₀ s → parseArgs [4] r.args = some [g] → grammarOf s g = some x →
      mayName ch x.part = true → (s.tke.streams.any fun e => e.2.grammar == g) = false →
      exec (.grammarUnload t ch) s₀ = .next (respond ch r stOk 0 [] (modTke (fun k => { k with grammars := tdel g k.grammars }) s)))
    ∧ (∀ (v g mode k o seed : Nat) (x : Image) (b : Bytes) (s' : State), Ready 0x0603 t ch r s₀ s →
      parseArgs [4, 4, 1, 1, 8, 8] r.args = some [v, g, mode, k, o, seed] → vocabArg s ch v = some x →
      (g ≠ 0 → mode ≤ 1 ∧ ∃ y : Image, grammarOf s g = some y ∧ y.vocab = v) → k ≤ 16 →
      (k ≠ 0 → allocated s x.part o (136 * k) = true ∧ readTableOf x.part o (136 * k) s = (stOk, b, s')) →
      (k = 0 → b = [] ∧ s' = s) →
      exec (.streamOpen t ch) s₀ = .next (openStream ch r x [v, g, mode, k, o, seed] b s'))
    ∧ (∀ (id : Nat) (x : Stream), Ready 0x0604 t ch r s₀ s → parseArgs [2] r.args = some [id] → strm s id = some x →
      mayName ch x.part = true → streamNamed s id = false →
      exec (.streamClose t ch) s₀ = .next (respond ch r stOk 0 [] (modTke (fun k => { k with streams := tdel id k.streams })
        (dropReadAhead (fun o => o == .stream id) (dropBuilt id s)))))

/-- Grove and twin (02 Table 2-17; 11 R318, R320, R329, R331, R334, R344): a joining chip takes its ID and sends its join, or as the trunk
enters itself; a leaving one tells the trunk and ends what used the grove; a notice acts here and is relayed; a pairing begins or ends;
a mirrored region is opened at the twin or removed; a failover asks a paired twin to yield and else fails over at once. A source region's
ID is the model's numbering (log entry 15). -/
def Obligations.GroveAndTwinCommandsComplete : Prop :=
  ∀ (t : Nat) (ch : Fin 130) (r : Request) (s₀ s : State),
    (∀ (c trunk : Nat) (s₁ : State), Ready 0x0700 t ch r s₀ s → parseArgs [2, 2, 4] r.args = some [c, trunk, s.txn.routeGen] → c < 1024 →
      trunk < 1024 → (s.txn.chip = none ∨ s.txn.chip = some c) → s₁ = takeChipId c trunk s →
      (isTrunk s₁ = false → exec (.groveJoin t ch) s₀ = .next (sendJoin (acceptLong ch r .event (modGrv (fun g => { g with
        registered := false
        joining := some { since := s₁.now, ticket := some (ch, (chan s₁ ch).nextTicket) } }) s₁))))
      ∧ (isTrunk s₁ = true → exec (.groveJoin t ch) s₀ = .next (acceptLong ch r (.planned stOk []) (enterMember c s₁.fuse.serial
        s₁.txn.routeGen none (modGrv (fun g => { g with registered := true, joining := none }) s₁)))))
    ∧ (∀ s₁ s₂ s₃ : State, Ready 0x0701 t ch r s₀ s → noArgs r.args = some () →
      s₁ = (if s.txn.chip.isSome then sendRouted 0x84 s.grv.trunk 0 (leBytes 8 s.fuse.serial) s else s) →
      s₂ = synthesiseAll stNoRoute (fun _ => true) s₁ → s₃ = s₂.col.slots.foldl (fun s e => breakGroup e.1 stNoRoute s) s₂ →
      exec (.groveLeave t ch) s₀ = .next (pump (acceptLong ch r (.planned stOk []) (modGrv (fun g => { g with reg := [] })
        (unassign (endTwin s₃))))))
    ∧ (∀ c st g : Nat, Ready 0x0702 t ch r s₀ s → parseArgs [2, 1, 1] r.args = some [c, st, g] → c < 1024 → st ≤ 2 →
      s.txn.chip ≠ some c →
      exec (.peerNotify t ch) s₀ = .next (relayNotice c st g (respond ch r stOk 0 [] (applyNotice c st g s))))
    ∧ (∀ c key : Nat, Ready 0x0703 t ch r s₀ s → parseArgs [2, 4] r.args = some [c, key] →
      (c ≠ 0xFFFF → pairOk s c key = true → s.twn.st = .none ∨ s.twn.st = .promoted →
        exec (.twinPair t ch) s₀ = .next (startSession (acceptLong ch r .event (modTwn (fun x => { x with
          st := .pairing, chip := c, pairKey := key
          pairing := some { since := s.now, nonce := 0, ticket := some (ch, (chan s ch).nextTicket) } }) s))))
      ∧ (c = 0xFFFF → exec (.twinPair t ch) s₀ = .next (acceptLong ch r (.planned stOk []) (endTwin s))))
    ∧ (∀ n mode lag o len : Nat, Ready 0x0704 t ch r s₀ s → parseArgs [1, 1, 2, 8, 8] r.args = some [n, mode, lag, o, len] →
      mirrorSetOk s [n, mode, lag, o, len] = true → openingOf s ch = false →
      (∀ x : Region, len ≠ 0 → sumOf ((sourceRegions s).map (·.length)) + len ≤ 0x400000000 → (sourceRegions s).length < 64 →
        x = Region.make (regionId s s.twn.nextRegion) n lag o len false (mode == 1) →
        exec (.mirrorSet t ch) s₀ = .next (sendTagged 0x93 (leBytes 4 x.id ++ leBytes 1 n ++ leBytes 1 (((part s n).map (·.mode)).getD 1 - 1)
            ++ leBytes 2 lag ++ leBytes 8 o ++ leBytes 8 len)
          (modTwn (fun w => { w with nextRegion := w.nextRegion % (2 ^ 31 - 1) + 1, opening := w.opening ++ [(s.now, x, (ch, r))] }) s)))
      ∧ (len = 0 → exec (.mirrorSet t ch) s₀ = .next (mirrorRemove ch r n o s)))
    ∧ (Ready 0x0705 t ch r s₀ s → noArgs r.args = some () →
      (s.twn.st = .paired → exec (.twinFailover t ch) s₀ = .next (sendTagged 0x96 (leBytes 1 s.twn.gen.toNat ++ zeros 3)
        (acceptLong ch r .event (modTwn (fun x => { x with
          yielding := some { since := s.now, nonce := 0, ticket := some (ch, (chan s ch).nextTicket) } }) s))))
      ∧ (∀ s₁ : State, s.twn.st = .lost ∨ s.twn.st = .graftDown →
        s₁ = (if s.twn.st = .graftDown then sendStale (failover s) else failover s) →
        exec (.twinFailover t ch) s₀ = .next (acceptLong ch r (.planned stOk (pad4 (leBytes 1 s₁.twn.gen.toNat))) s₁)))

/-- Observation commands (02 Table 2-18; 12 R352, R358, R362, R375, R381; 07 R204). -/
def Obligations.ObservationCommandsComplete : Prop :=
  ∀ (t : Nat) (ch : Fin 130) (r : Request) (s₀ s : State),
    (∀ (b mode mask : Nat) (sel : List Nat), Ready 0x0800 t ch r s₀ s → counterArgs r.args = some (b, mode, mask, sel) → b < 64 → mode ≤ 2 →
      sel.all selectOk = true →
      exec (.counterConfig t ch) s₀
        = .next (respond ch r stOk 0 [] (modBoughCtr b (configCounters mode mask sel) (growCounters b s))))
    ∧ (∀ i on k rest : Nat, Ready 0x0801 t ch r s₀ s → parseArgs [1, 1, 2] r.args = some [i, on, k] → tracedIsland i = true → 8 ≤ k →
      k ≤ 16 → rest = (if s.obs.traceMask.testBit i = true then s.obs.traceMask - 2 ^ i else s.obs.traceMask) →
      exec (.traceConfig t ch) s₀ = .next (respond ch r stOk 0 [] (modObs (fun o => { o with
        traceMask := rest + (if on ≠ 0 then 2 ^ i else 0), traceK := k, traceKs := tset i k o.traceKs }) s)))
    ∧ (∀ id scope map : Nat, Ready 0x0802 t ch r s₀ s → parseArgs [4, 1, 8] r.args = some [id, scope, map] →
      cutArmOk s [id, scope, map] = true → s.obs.cut.st = .idle →
      exec (.cutArm t ch) s₀ = .next (respond ch r stOk 0 [] (modCut (fun c => { Cut.reset with
        st := .armed, scope := scope, id := id, map := (if scope = 1 then cutMap s map else 0)
        onBreak := c.onBreak, time := c.time, ignored := c.ignored }) s)))
    ∧ (∀ id : Nat, Ready 0x0803 t ch r s₀ s → parseArgs [4] r.args = some [id] → s.obs.cut.st = .firing ∨ s.obs.cut.st = .taken →
      s.obs.cut.id = id → exec (.cutRelease t ch) s₀ = .next (respond ch r stOk 0 [] (releaseCut s)))
    ∧ (∀ id : Nat, Ready 0x0803 t ch r s₀ s → parseArgs [4] r.args = some [id] → s.obs.cut.st = .armed → s.obs.cut.id = id →
      exec (.cutRelease t ch) s₀ = .next (respond ch r stOk 0 [] (modCut (fun c => { c with st := .idle }) s)))
    ∧ (∀ u first count : Nat, Ready 0x0804 t ch r s₀ s → parseArgs [1, 2, 2] r.args = some [u, first, count] → u ≤ 81 → 1 ≤ count →
      count ≤ 128 → first + count ≤ 256 →
      exec (.ringRead t ch) s₀ = .next (respond ch r stOk 0 (((ringEntries s u).drop first).take count).flatten s))
    ∧ (∀ mib : Nat, Ready 0x0805 t ch r s₀ s → parseArgs [4] r.args = some [mib] → 256 ≤ mib → mib ≤ 4096 →
      exec (.journalConfig t ch) s₀ = .next (respond ch r stOk 0 [] (modMm (fun m => { m with journalNext := mib }) s)))

/-- Resets and diagnosis (02 Table 2-19; 13 R389, R392, R394, R399, R404, R409, R415, 02 R61). -/
def Obligations.FaultCommandsComplete : Prop :=
  ∀ (t : Nat) (ch : Fin 130) (r : Request) (s₀ s : State),
    (∀ b : Fin 64, Ready 0x0900 t ch r s₀ s → parseArgs [1] r.args = some [b.val] → (bough s b).st = .active →
      thas b.val s.cmb.boughPending = false → s.cmb.crownPending = none → s.cmb.devicePending = none →
      exec (.resetBough t ch) s₀ = .next (acceptLong ch r .event (startBough b 0 s)))
    ∧ (Ready 0x0901 t ch r s₀ s → noArgs r.args = some () → s.cmb.crownPending = none → s.cmb.devicePending = none →
      exec (.resetCrown t ch) s₀ = .next (acceptLong ch r .event (startCrown 0 s)))
    ∧ (∀ ms : Nat, Ready 0x0902 t ch r s₀ s → parseArgs [4] r.args = some [ms] → ms ≤ 1000 → ∃ s' : State,
      exec (.resetDevice t ch) s₀ = .next s'
        ∧ s'.root.resetAt = some (min (s.now + ms * 1000000) (s.root.resetAt.getD (s.now + ms * 1000000))) ∧ (chan s' ch).st = .done)
    ∧ (∀ crown bough_ window : Nat, Ready 0x0903 t ch r s₀ s → parseArgs [2, 2, 4] r.args = some [crown, bough_, window] → crown ≤ 16 →
      bough_ ≤ 64 → 60 ≤ window → window ≤ 86400 →
      exec (.escalationSet t ch) s₀ = .next (respond ch r stOk 0 [] (modCmb (fun c => { c with
        crownLimit := crown, boughLimit := bough_, windowS := window, deviceHist := keepLast crown c.deviceHist
        boughHist := c.boughHist.map fun h => keepLast bough_ h }) s)))
    ∧ (∀ first count : Nat, Ready 0x0904 t ch r s₀ s → parseArgs [4, 2] r.args = some [first, count] → 1 ≤ count → count ≤ 126 →
      exec (.errlogRead t ch) s₀ = .next (respond ch r stOk 0
        (((s.cmb.log.filter fun e => decide (first ≤ e.index)).take count).map (·.bytes)).flatten s))
    ∧ (∀ b off len base size : Nat, Ready 0x0905 t ch r s₀ s → parseArgs [1, 4, 2] r.args = some [b, off, len] →
      sampleObject s b = some (base, size) → len ≤ 4032 → off + len ≤ size → size ≤ 2 ^ 32 →
      exec (.coreSampleRead t ch) s₀ = .next (respond ch r stOk 0 (fit len (rawRead s (base + off) len)) s))
    ∧ (∀ (b : Fin 64) (n : Fin 128) (q : Fin 4), Ready 0x0906 t ch r s₀ s → parseArgs [1, 4] r.args = some [b.val, 128 * q.val + n.val] →
      (bough s b).st = .free → (part s n.val).isSome = true → (queue s n.val q.val).isSome = true → s.cmb.quarantine = none →
      exec (.quarantineReplay t ch) s₀ = .next (acceptLong ch r
        (.replay b.val (replayVerdict n.val q.val b.val s).1 (128 * q.val + n.val) (replayVerdict n.val q.val b.val s).2.1)
        (modCmb (fun c => { c with quarantine := some b.val })
          (modBough b (fun _ => { st := .active, owner := n.val }) (replayVerdict n.val q.val b.val s).2.2))))
    ∧ (Ready 0x0907 t ch r s₀ s → noArgs r.args = some () → s.cmb.outOfService = false → (∀ b : Fin 64, (bough s b).st ≠ .retired) →
      exec (.returnToService t ch) s₀ = .next (respond ch r stOk 0 [] (logErr 0x0007 30 [] (modCmb (fun c =>
        { c with deviceHist := [], boughHist := Vector.replicate 64 [], retired := 0 }) s))))

/-- Power, firmware and the refusal log (02 Tables 2-20 and 2-21; 01 R26, 14 R436, R443, 15 R457, 02 R55). -/
def Obligations.PowerAndFirmwareCommandsComplete : Prop :=
  ∀ (t : Nat) (ch : Fin 130) (r : Request) (s₀ s : State),
    (∀ mw : Nat, Ready 0x0A00 t ch r s₀ s → parseArgs [4] r.args = some [mw] → 50000 ≤ mw → mw ≤ 150000 →
      exec (.powerLimitSet t ch) s₀ = .next (respond ch r stOk 0 [] (modPwr (fun p => { p with limitMw := mw }) s)))
    ∧ (∀ target : Nat, Ready 0x0A01 t ch r s₀ s → parseArgs [1] r.args = some [target] → 1 ≤ target → target ≤ 3 → s.pwr.st = .run →
      (target = 2 → napBusy s = false) → (target = 3 → s.mm.parts = []) →
      exec (.powerStateSet t ch) s₀ = .next (beginEntry target (acceptLong ch r (.power target) s)))
    ∧ (∀ target : Nat, Ready 0x0A01 t ch r s₀ s → parseArgs [1] r.args = some [target] → target = powerCode s.pwr.st → target ≤ 3 →
      exec (.powerStateSet t ch) s₀ = .next (acceptLong ch r (.planned stOk []) s))
    ∧ (Ready 0x0A01 t ch r s₀ s → parseArgs [1] r.args = some [0] → s.pwr.st = .quiet ∨ s.pwr.st = .nap →
      exec (.powerStateSet t ch) s₀ = .next (wakeDevice 6 (acceptLong ch r (.power 0) s)))
    ∧ (Ready 0x0A02 t ch r s₀ s → noArgs r.args = some () →
      exec (.thermalQuery t ch) s₀ = .next (respond ch r stOk 0
        ((s.pwr.temps.toList.map fun x => leBytes 2 (unsignedOf 16 x)).flatten ++ leBytes 4 s.pwr.avgMw) s))
    ∧ (∀ (off : Nat) (d : Bytes), Ready 0x0B00 t ch r s₀ s → stageArgs r.args = some (off, d) → off + d.length ≤ slotBytes → off ≠ 0 →
      s.boot.stagedAny = true → off = s.boot.staged → ∃ s' : State,
      exec (.fwStage t ch) s₀ = .next s' ∧ s'.boot.staged = off + d.length
        ∧ s'.flash = Mem.write 0xFF s.flash (slotBase (stagingSlot s) + off) d)
    ∧ (∀ d : Bytes, Ready 0x0B00 t ch r s₀ s → stageArgs r.args = some (0, d) → d.length ≤ slotBytes → ∃ s' : State,
      exec (.fwStage t ch) s₀ = .next s' ∧ s'.boot.staged = d.length
        ∧ s'.flash = Mem.write 0xFF (Mem.clear s.flash (slotBase (stagingSlot s)) slotBytes) (slotBase (stagingSlot s)) d)
    ∧ (Ready 0x0B01 t ch r s₀ s → noArgs r.args = some () → slotResult s (stagingSlot s) false = 1 →
      exec (.fwActivate t ch) s₀ = .next (acceptLong ch r (.activate (u32At (flashRead s (slotBase (stagingSlot s)) 512) 12)) s))
    ∧ (∀ v : Nat, Ready 0x0B02 t ch r s₀ s → parseArgs [1] r.args = some [v] → s.fuse.rollback < v → v ≤ s.boot.rollback →
      s.boot.trial = false →
      exec (.rollbackAdvance t ch) s₀ = .next (respond ch r stOk 0 [] { s with fuse := { s.fuse with rollback := v } }))
    ∧ (∀ first count oldest d skip : Nat, Ready 0x0B03 t ch r s₀ s → parseArgs [4, 2] r.args = some [first, count] → 1 ≤ count →
      count ≤ 63 → oldest = (s.root.refusals.head?.map (·.1)).getD s.root.refusalNext →
      d = (first + 2 ^ 32 - oldest % 2 ^ 32) % 2 ^ 32 → skip = (if d < 2 ^ 31 then d else 0) →
      exec (.refusalLogRead t ch) s₀ = .next (respond ch r stOk 0 ((if s.root.refusalNext - oldest ≤ skip then []
        else (s.root.refusals.drop skip).take count).map (·.2)).flatten s))

/-! ### Mailbox commands: rules over the whole catalogue -/

/-- A command that Root serves for no request of its code, or past the 2 ms of Table 2-8, leaves everything but the time as it was. -/
def Obligations.CommandsNeedAcceptedRequests : Prop :=
  ∀ (t code : Nat) (ch : Fin 130) (i : Instr) (s : State), commandOf t ch code = some i →
    (∀ r : Request, acceptedReq (s.at t) ch = some r → r.cmd ≠ code ∨ served (s.at t) ch = false ∨ withinLimit (s.at t) r = false) →
      exec i s = .next (s.at t)

/-- A command whose object a running long command holds or whose partition was destroyed before its turn, a long command with 16 tickets
in use, and a command that changes a stopping
unit's objects during a cut are answered BUSY, or BAD_ARG where their arguments are out of order, and have no other effect. -/
def Obligations.BusyCommandsChangeNothing : Prop :=
  ∀ (t code : Nat) (ch : Fin 130) (r : Request) (row : CmdRow) (i : Instr) (s₀ s : State), s = s₀.at t →
    commandOf t ch code = some i → cmdRow code = some row → acceptedReq s ch = some r → r.cmd = code → served s ch = true →
    withinLimit s r = true → waitsFor s ch r row = false → (row.needs && unitsAsleep s) = false → openingOf s ch = false →
    (r.ended || objectBusy s ch r row || (row.long && decide (16 ≤ (chan s ch).tickets.length)) || (row.cutBusy && s.obs.cut.st != .idle)) = true →
    exec i s₀ = .next (respond ch r stBusy 0 [] s) ∨ exec i s₀ = .next (respond ch r stBadArg 0 [] s)

/-- A command that needs Crown, the token engine or HBM wakes the device from NAP and waits for it. -/
def Obligations.CommandsWakeTheDevice : Prop :=
  ∀ (t code : Nat) (ch : Fin 130) (r : Request) (row : CmdRow) (i : Instr) (s₀ s : State), s = s₀.at t →
    commandOf t ch code = some i → cmdRow code = some row → acceptedReq s ch = some r → r.cmd = code → served s ch = true →
    withinLimit s r = true → waitsFor s ch r row = false → row.needs = true → unitsAsleep s = true → openingOf s ch = false →
    exec i s₀ = .next (wakeDevice 8 s)

/-! ### Channel registers, SMBus and doorbells -/

/-- The writes of a channel's control registers and what Root does on a channel of itself (02 R34, R38, R46, R54, R45): GO copies the
request into an idle channel, which Root takes where it serves the channel, and is an overrun otherwise, RELEASE frees an answered
channel, EVQ_TAIL takes entries or is rejected, a
refused request is answered after the constant time, a long command finishes by its completion limit with what it was to do. -/
def Obligations.ChannelEventsComplete : Prop :=
  ∀ (t : Nat) (ch : Fin 130) (s₀ s : State), s = s₀.at t →
    (∀ (both : Bool) (s₁ : State), reaches s (chanRequester ch) = true → (chan s ch).st = .idle →
      s₁ = setChan ch { chan s ch with
        st := .posted
        cur := some { t0 := s.now, since := s.now, bytes := Mem.read 0 (chan s ch).req 0 4096, refusal := none, tagKey := none,
                      staged := none, ended := false } } s →
      exec (.go t ch both) s₀ = .next (if served s₁ ch = true then takeRequest ch s₁ else s₁))
    ∧ (∀ both : Bool, reaches s (chanRequester ch) = true → (chan s ch).st ≠ .idle → both = false ∨ (chan s ch).st ≠ .done →
      exec (.go t ch both) s₀ = .next (setChan ch { chan s ch with overrun := true } s))
    ∧ (reaches s (chanRequester ch) = true → (chan s ch).st = .done →
      exec (.go t ch true) s₀ = .next (setChan ch { chan s ch with overrun := true, st := .idle, rsp := [], cur := none } s)
      ∧ exec (.release t ch) s₀ = .next (setChan ch { chan s ch with st := .idle, rsp := [], cur := none } s))
    ∧ (reaches s (chanRequester ch) = true → (chan s ch).st ≠ .done → exec (.release t ch) s₀ = .next s)
    ∧ (∀ v : BitVec 32, reaches s (chanRequester ch) = true → v.toNat < 64 → (chan s ch).held = [] →
      (v.toNat + 64 - (chan s ch).tail) % 64 ≤ ((chan s ch).head + 64 - (chan s ch).tail) % 64 →
      exec (.evqTail t ch v) s₀ = .next (setChan ch { chan s ch with tail := v.toNat } s))
    ∧ (∀ v : BitVec 32, reaches s (chanRequester ch) = true →
      (64 ≤ v.toNat ∨ ((chan s ch).head + 64 - (chan s ch).tail) % 64 < (v.toNat + 64 - (chan s ch).tail) % 64) →
      exec (.evqTail t ch v) s₀ = .next (setChan ch { chan s ch with evqReject := true } s))
    ∧ (∀ r : Request, (chan s ch).cur = some r → (chan s ch).st = .taken → r.refusal.isSome = true → s.root.alive = true →
      r.since + 500000 ≤ s.now → s.now ≤ r.since + 505000 →
      exec (.refusalResponse t ch) s₀ = .next (finishChannel ch (refusedBytes r) r.cmd stAuthRefused s))
    ∧ (∀ (num : Nat) (k : Ticket) (passes : Bool), findTicket s ch num = some k → k.final = none → served s ch = true →
      s.now ≤ k.since + longLimitUs k.cmd * 1000 →
      (∀ (status : Nat) (result : Bytes), k.work = .planned status result →
        exec (.longCommandComplete t ch num passes) s₀ = .next (finishTicket ch num status result s))
      ∧ (∀ (h : Nat) (st : Staged), k.work = .keyReplace h st →
        exec (.longCommandComplete t ch num true) s₀ = .next (finishTicket ch num (replaceKey h st s).1 [] (replaceKey h st s).2)
        ∧ exec (.longCommandComplete t ch num false) s₀ = .next (finishTicket ch num stBadArg [] s))
      ∧ (∀ n : Fin 128, k.work = .destroy n → exec (.longCommandComplete t ch num passes) s₀
        = .next (finishTicket ch num stOk [] (destroyPart n (endRequests n.val s))))
      ∧ (∀ target : Nat, k.work = .power target → exec (.longCommandComplete t ch num passes) s₀ = .next (finishPower ch num target s))
      ∧ (∀ b v c m : Nat, k.work = .replay b v c m →
        exec (.longCommandComplete t ch num passes) s₀ = .next (finishReplay ch num b v c m s))
      ∧ (∀ build : Nat, k.work = .activate build →
        exec (.longCommandComplete t ch num passes) s₀ = .next (activateNow ch num build s)))

/-- A 32-bit write reaches the register at its offset; a read of 32 bits, or of an aligned pair of 64, answers it, and one toward the
power-gated token engine is held until the wake; the BMC's read of MBX_STATUS also releases SMBALERT (00 R5, R7; 01 R23; 02 R28, R33).
Nothing happens where the requester does not reach the device. -/
def Obligations.RegisterAccessesComplete : Prop :=
  ∀ (t : Nat) (r : Requester) (off : Nat) (v : BitVec 32) (s₀ s : State), s = s₀.at t →
    (reaches s r = true → exec (.registerWrite t r off v) s₀ = .next (writeReg r off v.toNat s))
    ∧ (∀ (wide : Bool) (x : Nat × State), reaches s r = true → readHeld s r off = false →
      x = (if wide = true then readWide r off s else readReg r off s) →
      exec (.lowWordRead t r ⟨off, wide⟩) s₀ = .next (emit (.readData r off x.1)
        (if r = .smb ∧ off = 0x2004 then { x.2 with root := { x.2.root with smbAlert := false } } else x.2)))
    ∧ (∀ wide : Bool, reaches s r = true → readHeld s r off = true →
      exec (.lowWordRead t r ⟨off, wide⟩) s₀ = .next (modPwr (fun p => { p with heldReads := p.heldReads ++ [(r, off, wide)] }) s))
    ∧ (∀ wide : Bool, reaches s r = false →
      exec (.registerWrite t r off v) s₀ = .next s ∧ exec (.lowWordRead t r ⟨off, wide⟩) s₀ = .next s)
    ∧ (reaches s .smb = true → exec (.bmcStatusRead t) s₀ = .next (emit (.readData .smb 0x2004 (mbxStatus s 1))
        { s with root := { s.root with smbAlert := false } }))

/-- A request page takes a write only while its channel is idle, and any other write of it is marked (02 R35). -/
def Obligations.RequestPageTakesWritesWhileIdle : Prop :=
  ∀ (t off : Nat) (ch : Fin 130) (v : BitVec 32) (s₀ s : State), s = s₀.at t → reaches s (chanRequester ch) = true →
    off < 0x1000 → off % 4 = 0 →
    ((chan s ch).st = .idle → exec (.registerWrite t (chanRequester ch) off v) s₀
      = .next (setChan ch { chan s ch with req := Mem.write 0 (chan s ch).req off (leBytes 4 v.toNat) } s))
    ∧ ((chan s ch).st ≠ .idle → exec (.registerWrite t (chanRequester ch) off v) s₀
      = .next (setChan ch { chan s ch with lockHit := true } s))

/-- The SMBus target's commands with the right PEC: the window offset is set, data in the request page is stored while channel 1 is
idle and the window moves on, a block read answers 32 bytes, WAKE wakes a sleeping device, POWER_STATUS answers the power word
(02 R62; 14 R432, Table 14-7). -/
def Obligations.SmbusCommandsComplete : Prop :=
  ∀ (t : Nat) (s₀ s : State), s = s₀.at t →
    (∀ v : BitVec 16, reaches s .smb = true → v.toNat ≤ 0x3FFC →
      exec (.smbusWindowOffset t v (pecOf (leBytes 1 (smbAddress s) ++ leBytes 1 0xA0 ++ leBytes 2 v.toNat))) s₀
        = .next { s with root := { s.root with smbOffset := v.toNat } })
    ∧ (∀ d : List (BitVec 8), reaches s .smb = true → (chan s 1).st = .idle → 4 ≤ d.length → d.length ≤ 32 → d.length % 4 = 0 →
      s.root.smbOffset + d.length ≤ 0x1000 →
      exec (.smbusBlockWrite t d (pecOf (leBytes 1 (smbAddress s) ++ leBytes 1 0xA1 ++ leBytes 1 d.length ++ d))) s₀
        = .next (setChan 1 { chan s 1 with req := Mem.write 0 (chan s 1).req s.root.smbOffset d }
            { s with root := { s.root with smbOffset := s.root.smbOffset + d.length } }))
    ∧ (∀ d : List (BitVec 8), reaches s .smb = true → 4 ≤ d.length → d.length ≤ 32 → d.length % 4 = 0 →
      exec (.smbusBlockWrite t d (pecOf (leBytes 1 (smbAddress s) ++ leBytes 1 0xA1 ++ leBytes 1 d.length ++ d))) s₀
        = .next (advanceWindow d.length (smbStore d s)))
    ∧ (∀ (pec : BitVec 8) (o base : Nat) (x : Bytes × State), reaches s .smb = true → o = s.root.smbOffset → base = o / 4 * 4 →
      x = smbWords (if o % 4 = 0 then 8 else 9) base s →
      exec (.smbusBlockRead t pec) s₀ = .next (emit (.smbData (slice x.1 (o % 4) 32)) (advanceWindow 32
        (if base ≤ 0x2004 ∧ 0x2004 < o + 32 then { x.2 with root := { x.2.root with smbAlert := false } } else x.2))))
    ∧ (s.pwr.st = .quiet ∨ s.pwr.st = .nap →
      exec (.wake t (pecOf (leBytes 1 (smbAddress s) ++ leBytes 1 0xA3))) s₀ = .next (modPwr (fun x => { x with
        st := .leaving, phase := (if s.pwr.st = .quiet then 1 else 2), phaseAt := s.now, wakeReason := 4 }) s))
    ∧ (s.pwr.st = .deep ∨ s.pwr.st = .hold →
      exec (.wake t (pecOf (leBytes 1 (smbAddress s) ++ leBytes 1 0xA3))) s₀ = .next (startUp 4 0 s))
    ∧ (∀ pec : BitVec 8, exec (.powerStatus t pec) s₀ = .next (emit (.smbData (leBytes 2 (powerWord s))) s))
    ∧ (∀ us : Nat, exec (.smbusClockLowTimeout t us) s₀ = .next s)

/-- A doorbell write is accepted where both 0 < d(TAIL, V) and d(HEAD, V) ≤ ENTRIES hold: TAIL becomes V and the journal records it; V
equal to TAIL has no effect, any other is ignored and marked, and one of a queue that does not exist is ignored (08 R243). -/
def Obligations.DoorbellFollowsTheRule : Prop :=
  ∀ (t : Nat) (r : Requester) (n : Fin 128) (q : Fin 16) (v : BitVec 32) (s₀ s : State), s = s₀.at t → reaches s r = true →
    mayRing r n = true →
    (∀ (x : Queue) (s₁ : State), queue s n q = some x → 0 < numDist x.tail v → numDist x.head v ≤ x.entries → v ≠ x.tail →
      s₁ = journal 0x03 34 (leBytes 1 n ++ leBytes 1 q ++ leBytes 2 0 ++ leBytes 4 v.toNat ++ zeros 8)
        (modQueue n q (fun x => { x with tail := v }) s) →
      (queue s₁ n q).map (·.tail) = some v
      ∧ exec (.doorbell t r n q v) s₀ = .next (if s.pwr.st = .quiet ∧ crownClass q = false then s₁ else wakeDevice 1 s₁))
    ∧ (∀ x : Queue, queue s n q = some x → v = x.tail → exec (.doorbell t r n q v) s₀ = .next s)
    ∧ (∀ x : Queue, queue s n q = some x → v ≠ x.tail → ¬ (0 < numDist x.tail v ∧ numDist x.head v ≤ x.entries) →
      exec (.doorbell t r n q v) s₀ = .next (modQueue n q (fun x => { x with dbReject := true }) s))
    ∧ (queue s n q = none → exec (.doorbell t r n q v) s₀ = .next s)

/-! ### Records: what each opcode does when its record starts -/

/-- MATH and COLLECTIVE records (08 R254 to R257, R265 to R267; 09 R274 to R276): a record whose header is in order and that passes its
checks leaves its queue's waiting part and does its opcode's work; a group without a broken state begins its collective, and an
all-to-all reads its counts first, whose failing read breaks the group. -/
def Obligations.MathAndCollectiveRecordsStart : Prop :=
  ∀ (t num : Nat) (n : Fin 128) (q : Fin 16) (host b : Bytes) (x : Queue) (s₀ s s' s₁ : State), s = s₀.at t →
    queue s n q = some x → s₁ = beginRecord n q x b s' → num = x.started.toNat →
    (RecordStarts 0 n q host b x s s' → zeroAt b 16 48 = true → (q.val / 4 = 0 → (activeBoughs s₁ n).isEmpty = false) →
      exec (.nop t n q host) s₀ = .next (endRecord n q num stOk [] s₁))
    ∧ (RecordStarts 0x10 n q host b x s s' → recFlag b 4 = false → matmulReserved b = true → matmulRanges s₁ n b = true →
      matmulOperands s₁ n b = true → (activeBoughs s₁ n).isEmpty = false →
      exec (.matmul t n q host) s₀ = .next (tallyHbm n q num s₁ (matmulWork n q num b s₁)))
    ∧ (∀ g : Group, RecordStarts 0x10 n q host b x s s' → recFlag b 4 = true → slotFree s b = true →
      slotOf s₁ (u16At b 12) = some g → g.part = n.val → suffixOk b g = true → matmulReserved b = true → matmulRanges s₁ n b = true →
      matmulOperands s₁ n b = true → (activeBoughs s₁ n).isEmpty = false →
      exec (.matmul t n q host) s₀ = .next (tallyHbm n q num s₁ (suffixWork (u16At b 12) g n q num b s₁)))
    ∧ (RecordStarts 0x11 n q host b x s s' → zeroAt b 18 2 = true → zeroAt b 60 4 = true → vecRanges b = true →
      vecOperands s₁ n b = true → (activeBoughs s₁ n).isEmpty = false →
      exec (.vec t n q host) s₀ = .next (tallyHbm n q num s₁ (vecWork n q num b s₁)))
    ∧ (RecordStarts 0x12 n q host b x s s' → u8At b 49 ≤ 1 → zeroAt b 50 2 = true → zeroAt b 60 4 = true → attendRanges b = true →
      attendOperands s₁ n b = true → (activeBoughs s₁ n).isEmpty = false →
      exec (.attend t n q host) s₀ = .next (tallyHbm n q num s₁ (attendWork n q num b s₁)))
    ∧ (RecordStarts 0x13 n q host b x s s' → zeroAt b 47 1 = true → zeroAt b 60 4 = true → sampleRanges b = true →
      sampleOperands s₁ n b = true → (activeBoughs s₁ n).isEmpty = false →
      exec (.sample t n q host) s₀ = .next (tallyHbm n q num s₁ (sampleWork n q num b s₁)))
    ∧ (RecordStarts 0x14 n q host b x s s' → zeroAt b 41 3 = true → zeroAt b 48 16 = true → convertRanges b = true →
      convertOperands s₁ n b = true → (activeBoughs s₁ n).isEmpty = false →
      exec (.convert t n q host) s₀ = .next (tallyHbm n q num s₁ (convertWork n q num b s₁)))
    ∧ (∀ (c : Collective) (g : Group), RecordStarts 0x30 n q host b x s s' → c = Collective.of b → zeroAt b 21 1 = true →
      zeroAt b 56 8 = true → slotFree s b = true → slotOf s₁ c.slot = some g → g.part = n.val → collectiveFields c g = true →
      (c.kind ≠ 4 → collectiveSizes c g [] = true → locOk s₁ n (locAt c.dst) (c.dstElems g.size * fmtBytes c.fmt) = true →
        (usesSrc c g = true → locOk s₁ n (locAt c.src) (c.srcElems g.size [] * fmtBytes c.fmt) = true) →
        (c.kind ≤ 1 → (activeBoughs s₁ n).isEmpty = false) →
        exec (.collective t n q host) s₀ = .next (tallyHbm n q num s₁ (collectiveStart c.slot g c [] n q num b s₁)))
      ∧ (c.kind = 4 → c.dstElems g.size * fmtBytes c.fmt ≤ 64 * 2 ^ 30 → locOk s₁ n (locAt c.counts) (8 * g.size) = true →
        (∀ st : Nat, g.broken = some st →
          exec (.collective t n q host) s₀ = .next (tallyHbm n q num s₁ (endBroken n q num st s₁)))
        ∧ (∀ (k : Nat × Bytes × State) (sends : List Nat), g.broken = none → k = readLoc n (locAt c.counts) (4 * g.size) s₁ →
          (k.1 = stOk → sends = (List.range g.size).map (fun j => u32At k.2.1 (4 * j)) → collectiveSizes c g sends = true →
            locOk k.2.2 n (locAt c.dst) (c.dstElems g.size * fmtBytes c.fmt) = true →
            locOk k.2.2 n (locAt c.src) (c.srcElems g.size sends * fmtBytes c.fmt) = true →
            exec (.collective t n q host) s₀ = .next (tallyHbm n q num s₁ (collectiveStart c.slot g c sends n q num b k.2.2)))
          ∧ (k.1 ≠ stOk → exec (.collective t n q host) s₀ = .next (tallyHbm n q num s₁
            (breakGroup c.slot k.1 (colEnter c.slot g (Collective.op c n q num []) k.2.2)))))))

/-- MOVE records (08 R254, R258 to R260; 06 R180, R181, R185): a COPY between local ends, from, to or between host memory ends with its
bytes counted, and one with a far end begins its chunks; a FILL ends with its pattern written; a REMOTE_OP reads its local source and
sends its transaction, or without its source ends with the status of the line; a PREFETCH sends its reads, or without the right ends
with ACCESS_DENIED. -/
def Obligations.MoveRecordsStart : Prop :=
  ∀ (t num : Nat) (n : Fin 128) (q : Fin 16) (host data b : Bytes) (x : Queue) (s₀ s s' s₁ : State), s = s₀.at t →
    s₁ = beginRecord n q x b s' → num = x.started.toNat →
    (RecordStarts 0x20 n q host b x s s' → copyReserved b = true → copyRanges b = true → copyOperands s₁ n b = true →
      (∀ r : Running, isBulk b = true → running s₁ n q num = some r → exec (.copy t n q host data) s₀
        = .next (tallyHbm n q num s₁ (finishBulk n q num (pump (issueChunk n q num r s₁)))))
      ∧ (isBulk b = false → u8At b 36 = 3 → u8At b 37 = 3 → exec (.copy t n q host data) s₀
        = .next (endRecord n q num stOk (leBytes 8 (copyLen b)) (emit (.hostWrite n (copyDst b) (fit (copyLen b) data)) s₁)))
      ∧ (∀ w : Nat × State, isBulk b = false → u8At b 36 = 3 → u8At b 37 ≠ 3 →
        w = writeLoc n (moveLoc (u8At b 37) (copyDst b)) (fit (copyLen b) data) s₁ → exec (.copy t n q host data) s₀
        = .next (tallyHbm n q num s₁ (endRecord n q num w.1 (leBytes 8 (if w.1 = stOk then copyLen b else 0)) w.2)))
      ∧ (isBulk b = false → u8At b 36 ≠ 3 → u8At b 37 = 3 → exec (.copy t n q host data) s₀
        = .next (tallyHbm n q num s₁ (copyToHost n q num (moveLoc (u8At b 36) (copySrc b)) (copyDst b) (copyLen b) s₁)))
      ∧ (isBulk b = false → u8At b 36 ≠ 3 → u8At b 37 ≠ 3 → exec (.copy t n q host data) s₀
        = .next (tallyHbm n q num s₁ (copyLocalEnds n q num (moveLoc (u8At b 36) (copySrc b)) (moveLoc (u8At b 37) (copyDst b))
          (copyLen b) s₁))))
    ∧ (∀ w : Nat × State, RecordStarts 0x21 n q host b x s s' → zeroAt b 25 3 = true → zeroAt b 36 28 = true → u8At b 24 ≤ 1 →
      4 ≤ u32At b 32 → u32At b 32 ≤ 2 ^ 30 → u32At b 32 % 4 = 0 → rec64 b 16 % 4 = 0 →
      locOk s₁ n (moveLoc (u8At b 24) (rec64 b 16)) (u32At b 32) = true →
      w = writeLoc n (moveLoc (u8At b 24) (rec64 b 16)) (List.replicate (u32At b 32 / 4) (slice b 28 4)).flatten s₁ →
      exec (.fill t n q host) s₀ = .next (tallyHbm n q num s₁ (endRecord n q num w.1 [] w.2)))
    ∧ (∀ op len : Nat, RecordStarts 0x22 n q host b x s s' → op = u8At b 16 → len = u32At b 20 →
      (op = 1 ∨ op = 2 ∨ isAtomic op = true) → u8At b 17 ≤ 1 → zeroAt b 18 2 = true → zeroAt b 48 16 = true →
      (isAtomic op = false → rec64 b 40 = 0) → txnSizeOk op (rec64 b 24) len = true →
      ((remoteLocals b).all fun l => locOk s₁ n (moveLoc (u8At b 17) l.1) l.2) = true →
      (op = 1 → exec (.remoteOp t n q host) s₀ = .next (tallyHbm n q num s₁
        (pump (issueTxn (Txn.make 1 0 n (rec64 b 24) len 0 [] (.record n q num)) s₁))))
      ∧ (∀ d : Nat × Bytes × State, op ≠ 1 → d = readLoc n (moveLoc (u8At b 17) (rec64 b 32)) (reqDataLen op len) s₁ →
        (d.1 = stOk → exec (.remoteOp t n q host) s₀ = .next (tallyHbm n q num s₁
          (pump (issueTxn (Txn.make op 0 n (rec64 b 24) len 0 d.2.1 (.record n q num)) d.2.2))))
        ∧ (d.1 ≠ stOk → exec (.remoteOp t n q host) s₀ = .next (tallyHbm n q num s₁ (endRecord n q num d.1 []
          (if isAtomic op = true then poisonLoc n (moveLoc (u8At b 17) (rec64 b 40)) len d.2.2 else d.2.2))))))
    ∧ (RecordStarts 0x23 n q host b x s s' → zeroAt b 28 36 = true → rec64 b 16 % 4096 = 0 →
      4096 ≤ u32At b 24 → u32At b 24 ≤ 0x400000 → u32At b 24 % 4096 = 0 →
      (∀ (sl : Nat) (i : Import), governing s₁ n (rec64 b 16) = some (sl, i) →
        slotGrants i (rec64 b 16) (u32At b 24) (needRights 1 1) = true →
        exec (.prefetch t n q host) s₀ = .next (tallyHbm n q num s₁ (pump ((List.range (u32At b 24 / 4096)).foldl (fun s i =>
          issueTxn (Txn.make 1 1 n (rec64 b 16 + 4096 * i) 4096 0 [] (.readAhead (.queue (qKey n q) num))) s)
          (modRunning n q num (fun r => { r with txnsLeft := u32At b 24 / 4096 }) s₁)))))
      ∧ ((∀ e : Nat × Import, governing s₁ n (rec64 b 16) = some e →
          slotGrants e.2 (rec64 b 16) (u32At b 24) (needRights 1 1) = false) →
        exec (.prefetch t n q host) s₀
          = .next (tallyHbm n q num s₁ (endRemote n q num (statusWord stAccessDenied true (ownChip s₁)) [] (countSynth stAccessDenied s₁)))))

/-- TOKEN records (10 R302, R307): TOKENIZE answers the tokens of the readable text, cut at MAX, and an empty text at once; STEP runs its
entries in order, or fails with a line of its entries. -/
def Obligations.TokenRecordsStart : Prop :=
  ∀ (t num : Nat) (n : Fin 128) (q : Fin 16) (host b : Bytes) (x : Queue) (s₀ s s' s₁ : State), s = s₀.at t →
    s₁ = beginRecord n q x b s' → num = x.started.toNat →
    (∀ (k : Tokenize) (v : Image), RecordStarts 0x40 n q host b x s s' → k = Tokenize.of b → zeroAt b 36 4 = true → zeroAt b 48 16 = true →
      tokenizeRanges s₁ n b = true → locOk s₁ n (locAt k.text) k.len = true → locOk s₁ n (locAt k.out) (4 * k.max) = true →
      vocabOf s₁ k.vocab = some v →
      (k.len = 0 → exec (.tokenize t n q host) s₀ = .next (endRecord n q num stOk (zeros 8) s₁))
      ∧ (k.len ≠ 0 → exec (.tokenize t n q host) s₀ = .next (tallyHbm n q num s₁ (tokenizeWork n q num b s₁))))
    ∧ (∀ (k : StepRec) (r : Nat × Bytes × State) (es : List (Nat × Nat × Nat)) (f : Nat × Nat × State),
      RecordStarts 0x41 n q host b x s s' → k = StepRec.of b → zeroAt b 18 6 = true → zeroAt b 44 4 = true → zeroAt b 56 8 = true →
      1 ≤ k.count → k.count ≤ 256 → 256 ≤ k.cap → k.cap ≤ 65536 → (taggedLoc k.inp).isSome = true → (taggedLoc k.text).isSome = true →
      (taggedLoc k.out).isSome = true → locOk s₁ n (locAt k.inp) (8 * k.count) = true →
      locOk s₁ n (locAt k.text) (k.count * k.cap) = true → locOk s₁ n (locAt k.out) (8 * k.count) = true →
      r = readLoc n (locAt k.inp) (8 * k.count) s₁ →
      (r.1 = stOk → es = (List.range k.count).map (fun i => (i, u16At r.2.1 (8 * i), u32At r.2.1 (8 * i + 4))) →
        ((List.range k.count).all fun i => zeroAt r.2.1 (8 * i + 2) 2) = true →
        (es.all fun e => ((strm r.2.2 e.2.1).map (·.part)) == some n.val) = true →
        f = stepLoop n k es [] stOk (modRunning n q num (fun y => { y with streams := es.map fun e => e.2.1 }) r.2.2) →
        exec (.step t n q host) s₀ = .next (tallyHbm n q num s₁ (sampleAll (endRecord n q num (firstFail f.1 f.2.1) [] f.2.2))))
      ∧ (r.1 ≠ stOk → exec (.step t n q host) s₀ = .next (tallyHbm n q num s₁ (endRecord n q num r.1 []
        (poisonLoc n (locAt k.out) (8 * k.count) (poisonLoc n (locAt k.text) (k.count * k.cap) r.2.2))))))

/-- A write into an asynchronous region that stands at its bound waits, whatever makes it: a record that would so write does not start
and nothing has happened; once the twin has answered enough, it starts (11 R339; that the whole command waits is the model's reading, log
entry 96). -/
def Obligations.WritesAtTheBoundWait : Prop :=
  (∀ (t num : Nat) (n : Fin 128) (q : Fin 16) (host data b : Bytes) (x : Queue) (s₀ s s' s₁ : State), s = s₀.at t →
    queue s n q = some x → x.started ≠ x.tail → fetchRec n x host s = (stOk, b, s') → startMet s n q x b = true →
    chainSkips x b = none → opcodeOk (q / 4) (u8At b 0) = true → headerOk (q / 4) b = true → s₁ = beginRecord n q x b s' →
    num = x.started.toNat →
    (u8At b 0 = 0x11 → lagBlocks s (tallyHbm n q num s₁ (vecBody n q num b s₁)) = true → exec (.vec t n q host) s₀ = .next s)
    ∧ (u8At b 0 = 0x12 → lagBlocks s (tallyHbm n q num s₁ (attendBody n q num b s₁)) = true → exec (.attend t n q host) s₀ = .next s)
    ∧ (u8At b 0 = 0x13 → lagBlocks s (tallyHbm n q num s₁ (sampleBody n q num b s₁)) = true → exec (.sample t n q host) s₀ = .next s)
    ∧ (u8At b 0 = 0x14 → lagBlocks s (tallyHbm n q num s₁ (convertBody n q num b s₁)) = true → exec (.convert t n q host) s₀ = .next s)
    ∧ (u8At b 0 = 0x20 → lagBlocks s (tallyHbm n q num s₁ (copyBody data n q num b s₁)) = true →
      exec (.copy t n q host data) s₀ = .next s)
    ∧ (u8At b 0 = 0x21 → lagBlocks s (tallyHbm n q num s₁ (fillBody n q num b s₁)) = true → exec (.fill t n q host) s₀ = .next s)
    ∧ (u8At b 0 = 0x40 → lagBlocks s (tallyHbm n q num s₁ (tokenizeBody n q num b s₁)) = true → exec (.tokenize t n q host) s₀ = .next s)
    ∧ (u8At b 0 = 0x41 → lagBlocks s (tallyHbm n q num s₁ (stepBody n q num b s₁)) = true → exec (.step t n q host) s₀ = .next s)
    ∧ (slotFree s b = true →
      (u8At b 0 = 0x10 → lagBlocks s (tallyHbm n q num s₁ (matmulBody n q num b s₁)) = true → exec (.matmul t n q host) s₀ = .next s)
      ∧ (u8At b 0 = 0x30 → lagBlocks s (tallyHbm n q num s₁ (collectiveBody n q num b s₁)) = true →
        exec (.collective t n q host) s₀ = .next s)))
  ∧ (∀ (s s' : State) (a : Nat × Region) (r : Region), lagBlocks s s' = false → s'.twn.regions ≠ s.twn.regions → a ∈ s.twn.regions →
    a.2.async = true → a.2.live = true →
    tget a.1 s'.twn.regions = some r → a.2.captured + a.2.late < r.captured + r.late → regionLag s a.2 < a.2.maxLag)

/-- The other events of a record (08 R247, R248, R259): a CHAIN record whose predecessor failed completes skipped with that word and does
nothing; a record that has ended, and whose mirrored writes are answered, completes, whatever has become of its queue's fetches; a host
ring that cannot be read faults its queue, and a COPY whose host source fails ends so. -/
def Obligations.RecordEventsComplete : Prop :=
  ∀ (t : Nat) (n : Fin 128) (q : Fin 16) (host b : Bytes) (x : Queue) (s₀ s : State), s = s₀.at t → queue s n q = some x →
    (∀ (word : Nat) (s' : State), x.started ≠ x.tail → fetchRec n x host s = (stOk, b, s') → startMet s n q x b = true →
      chainSkips x b = some word →
      exec (.recordSkip t n q host) s₀ = .next (completeRecord n q { Running.fresh x.started.toNat (takeRecord n q x b s').now b with
        skipped := true } word (takeRecord n q x b s')))
    ∧ (∀ (num : BitVec 32) (r : Running), x.held = false → planeRuns s = true → boughHalted s n q = false →
      running s n q num.toNat = some r → r.done = true → mirrorsDone s r.mirrors = true → LagClear s →
      exec (.recordComplete t n q num) s₀ = .next (completeRecord n q r (recordWord r) s))
    ∧ (∀ (kind : HostFail) (data : Bytes), x.host = true → x.started ≠ x.tail → x.faulted = false → planeRuns s = true →
      exec (.hostAccessFail t n q kind [] data) s₀ = .next (fetchFault n q x kind s))
    ∧ (∀ (kind : HostFail) (data : Bytes) (num : Nat) (s' s₁ : State), RecordStarts 0x20 n q host b x s s' → (x.host = true → host ≠ []) →
      num = x.started.toNat → s₁ = beginRecord n q x b s' → copyReserved b = true → copyRanges b = true → copyOperands s₁ n b = true →
      u8At b 36 = 3 →
      exec (.hostAccessFail t n q kind host data) s₀ = .next (tallyHbm n q num s₁ (copyHostFail kind data n q num b s₁)))

/-! ### Events of the token engine and of remote transactions -/

/-- The token engine's own work (10 R315, R316): one of the first eight streams whose mask is due gets its mask, and a stream that runs
ahead gets the masks of its successors, while the plane runs; a mask that cannot be built for want of a table line stops its stream. -/
def Obligations.MaskEventsComplete : Prop :=
  ∀ (t id : Nat) (x : Stream) (g v : Image) (m : Nat × Nat × State) (s₀ s : State), s = s₀.at t → strm s id = some x →
    strmTables s x = some (g, v) → planeRuns s = true →
    (∀ s₁ : State, inBuild s id = true → m = confMask g v x.conf s → s₁ = modTke (fun k => { k with
          masks := sat32 (k.masks + 1)
          masksLate := if x.maskAt + maskDeadline g < s.now then sat32 (k.masksLate + 1) else k.masksLate
          maskNsMax := max k.maskNsMax (sat32 (s.now - x.maskAt)) }) m.2.2 →
      (m.1 = stOk → exec (.maskReady t id) s₀ = .next (sampleAll (modStrm id (fun y => { y with mask := m.2.1, maskReady := true }) s₁)))
      ∧ (m.1 ≠ stOk → exec (.maskReady t id) s₀ = .next (sampleAll (stopStream id 8 0 s₁))))
    ∧ (∀ (c : AutoConf) (s' : State), x.runAhead = true → x.maskReady = true → x.halted = false → s.pwr.runAheadOff = false →
      (s.tke.streams.any fun y => buildsMask y.2) = false → successors g x.conf s = ([c], s') →
      (x.built.any fun b => b.1 == c) = false → m = confMask g v c s' → m.1 = stOk →
      exec (.runaheadBuild t id) s₀ = .next (modStrm id (fun y => { y with built := y.built ++ [(c, m.2.1)] })
        (modTke (fun t => { t with raBuilt := sat32 (t.raBuilt + 1) }) m.2.2)))

/-- Transactions (06 R189 to R198, R200, 11 R328): the first message of its kind in the inbox is served, answered, or forwarded; a
transaction without an answer for T is completed here with TIMEOUT; every message held longer than T goes, whatever its VC and wherever it
waits, while no cut suspends it; a quarantined tag is free after 32 T; read-ahead data goes after 100 us. -/
def Obligations.TransactionEventsComplete : Prop :=
  ∀ (t : Nat) (s₀ s : State), s = s₀.at t →
    (∀ (m : InMsg) (s' : State), cutStopped s = false →
      takeMsg (fun m => isTxnMsg m && !isResponse m && !isTransit s m) s = some (m, s') →
      (s.txn.chip.isSome = true → LagClear s → exec (.remoteRequest t) s₀ = .next (pump (serveRequest m s')))
      ∧ (s.txn.chip = none → exec (.remoteRequest t) s₀ = .next (dropHeld s')))
    ∧ (∀ (h : HeldRsp) (s₁ : State), (s.txn.held.find? fun h => h.denial && decide (h.acceptedAt + 1000 ≤ s.now)) = some h →
      s₁ = sendResponse (TxnHdr.of h.bytes) 1 [] (modTxn (fun x => { x with held := x.held.erase h })
        { s with now := min s.now (h.acceptedAt + 1050) }) →
      exec (.denialReady t) s₀ = .next { s₁ with now := s.now })
    ∧ (∀ (m : InMsg) (s' : State), cutStopped s = false →
      takeMsg (fun m => isTxnMsg m && isResponse m && !isTransit s m) s = some (m, s') →
      (s.txn.chip.isSome = true → LagClear s → exec (.remoteResponse t) s₀ = .next (pump (acceptResponse m s')))
      ∧ (s.txn.chip = none → exec (.remoteResponse t) s₀ = .next (dropHeld s')))
    ∧ (∀ (m : InMsg) (s' : State) (c : Nat), takeMsg (fun m => isBadGrove m || isGroveTransit s m
        || (!cutStopped s && isTransit s m && !transitBlocked s m)) s = some (m, s') →
      (isBadGrove m = true → exec (.messageForward t) s₀ = .next (dropGrove s'))
        ∧ (isBadGrove m = false → m.typ = 2 → exec (.messageForward t) s₀ = .next (forwardGrove m s'))
        ∧ (isBadGrove m = false → m.typ ≠ 2 → msgDest m = some c → exec (.messageForward t) s₀ = .next (forwardData m c s')))
    ∧ (∀ (tag t0 : Nat) (x : Txn), tget tag s.txn.txns = some x → x.sentAt = some t0 → t0 + remoteT s ≤ s.now → cutStopped s = false →
      exec (.remoteTimeout t tag) s₀ = .next (pump (settle x (statusWord stTimeout true (ownChip s)) []
        (countSynth stTimeout (retire tag true s)))))
    ∧ (∀ lim : Nat, lim = s.now - remoteT s → cutStopped s = false → ∃ s' : State, exec (.messageHoldExpire t) s₀ = .next s'
      ∧ s'.txn.inbox = s.txn.inbox.filter (fun m => !(m.port.isSome && decide (m.at_ < lim)))
      ∧ (∀ p v : Fin 8, (vcTx s' p v).queue = (vcTx s p v).queue.filter
          (fun m => !(m.tag.isNone && m.sent == 0 && decide (m.since < lim)))
        ∧ (vcRx s' p v).flits = (holdLanded (vcRx s p v).flits.length lim (vcRx s p v).flits).2))
    ∧ (∀ m : InMsg, cutStopped s = false → s.txn.inbox = [m] → m.port.isSome = true → m.at_ < s.now - remoteT s →
      (∀ p v : Fin 8, (vcTx s p v).queue = [] ∧ (vcRx s p v).flits = []) →
      exec (.messageHoldExpire t) s₀ = .next (dropHeld (modTxn (fun x => { x with inbox := [] }) s)))
    ∧ (cutStopped s = true → exec (.messageHoldExpire t) s₀ = .next s)
    ∧ (∀ tag t0 : Nat, tget tag s.txn.quarantine = some t0 → t0 + 32 * remoteT s ≤ s.now →
      exec (.tagQuarantineExpire t tag) s₀ = .next (pump (modTxn (fun x => { x with quarantine := tdel tag x.quarantine }) s)))
    ∧ exec (.readAheadExpire t) s₀
      = .next (modTxn (fun x => { x with readAhead := x.readAhead.filter fun e => s.now ≤ e.at_ + 100000 }) s)

/-! ### Link layer -/

/-- Flits (05 R135 to R158), for every state of the port: a composing port sends the next flit by priority, or resends the one its replay
stands at, or a NULL flit where one is wanted, and traffic for a port in LOW sends the WAKE pilot; a flit without a bad slice is taken
under the key that authenticates it and a bad one wants a NAK; a NAK, an acknowledgement, a replay, a keepalive and the link-down limit
come at their times; landed flits spill, deliver and stall; a drained VC is no longer wedged. -/
def Obligations.FlitEventsComplete : Prop :=
  ∀ (t : Nat) (p v : Fin 8) (l : Link) (s₀ s : State), s = s₀.at t → l = (port s p).link →
    ((port s p).phys.st = 9 → ((fins 8).any fun v => !(vcTx s p v).queue.isEmpty) = true →
      exec (.flitCompose t p) s₀ = .next (emit (.pilot p .wake) s))
    ∧ (composes s p = true → (l.resend.bind fun a => l.replay.find? fun f => f.seq == a) = none →
      (∀ (w : Fin 8) (turn : Nat) (m : TxMsg), seqDist l.oldest l.next < 2048 → pickVc s p = some (w, turn) → nextMsg l w = some m →
        exec (.flitCompose t p) s₀ = .next (composeMsg p w m (modLink p (fun l => { l with wrrTurn := turn }) s)))
      ∧ (2048 ≤ seqDist l.oldest l.next ∨ (pickVc s p = none ∧ (l.needNull = true ∨ l.nakDue = true)) →
        exec (.flitCompose t p) s₀ = .next (sendFlit p 0 0 0 [] none s)))
    ∧ (∀ f : SentFlit, composes s p = true → (l.resend.bind fun a => l.replay.find? fun f => f.seq == a) = some f →
      (l.sinceNull < 256 → exec (.flitCompose t p) s₀ = .next (resendFlit p f s))
      ∧ (256 ≤ l.sinceNull → exec (.flitCompose t p) s₀ = .next (sendFlit p 0 0 0 [] none s)))
    ∧ (∀ (w : Bytes) (laneErrs : List (Fin 9)) (s₁ s₂ : State) (h : FlitHdr), (port s p).phys.st = 8 →
      s₁ = laneErrs.foldl (fun s l => symbolError p l s) s → composes s₁ p = true → w.length = 272 → h = FlitHdr.of (unstripe w) →
      (badSlices w ≠ [] → exec (.flitReceive t p ⟨w, laneErrs⟩) s₀ = .next (askLow p (modLink p (fun l =>
        needNak s.now { l with killed := sat32 (l.killed + 1) }) ((badSlices w).foldl (fun s k => laneError p k s) s₁))))
      ∧ (badSlices w = [] →
        (∀ pl : Bytes, authFlit l s.now (unstripe w) = .clear pl →
          exec (.flitReceive t p ⟨w, laneErrs⟩) s₀ = .next (askLow p (intact p 4 h pl s₁)))
        ∧ (∀ pl : Bytes, authFlit l s.now (unstripe w) = .current pl ∨ authFlit l s.now (unstripe w) = .previous pl →
          exec (.flitReceive t p ⟨w, laneErrs⟩) s₀ = .next (askLow p (intact p h.kid h pl s₁)))
        ∧ (∀ pl : Bytes, authFlit l s.now (unstripe w) = .next pl →
          exec (.flitReceive t p ⟨w, laneErrs⟩) s₀ = .next (askLow p (intact p h.kid h pl (rotateRx p s₁))))
        ∧ (∀ recent : List Nat, authFlit l s.now (unstripe w) = .bad →
          recent = l.tagFailTimes.filter (fun t => decide (s.now < t + 1000000)) ++ [s.now] →
          s₂ = modLink p (fun l => needNak s.now { l with killed := sat32 (l.killed + 1) })
            (modLink p (fun l => { l with tagFail := sat32 (l.tagFail + 1), tagFailTimes := recent }) s₁) →
          exec (.flitReceive t p ⟨w, laneErrs⟩) s₀
            = .next (askLow p (if 4 ≤ recent.length then linkGoesDown p 4 true s₂ else s₂)))))
    ∧ (l.nakPending = true → l.nakDue = false → l.nakAt + 4000 ≤ s.now →
      exec (.nakResend t p) s₀ = .next (composeOne true p (modLink p (fun l => { l with nakDue := true }) s)))
    ∧ (64 ≤ l.ackCount ∨ (0 < l.ackCount ∧ l.ackFirst + 500 ≤ s.now) →
      exec (.ackTimer t p) s₀ = .next (composeOne true p s))
    ∧ (composes s p = true → l.replay ≠ [] → l.timer + 10000 ≤ s.now → l.replays < 16 →
      exec (.replayTimer t p) s₀ = .next (modLink p (fun l => { l with
        resend := some l.oldest, replays := l.replays + 1, timer := s.now, sinceNull := 0 }) s))
    ∧ (composes s p = true → l.replay ≠ [] → l.timer + 10000 ≤ s.now → 16 ≤ l.replays →
      exec (.replayTimer t p) s₀ = .next (linkGoesDown p 3 true s))
    ∧ (composes s p = true → l.lastSent + 1000 ≤ s.now → exec (.keepaliveNull t p) s₀ = .next (sendFlit p 0 0 0 [] none s))
    ∧ (composes s p = true → l.lastIntact + (vget s.cfg.ports p).downUs * 1000 ≤ s.now →
      exec (.linkDownTimeout t p) s₀ = .next (linkGoesDown p 3 true s))
    ∧ (∀ f : LandFlit, ((vcRx s p v).flits.find? fun f => !f.ring) = some f → (f.at_ + 2000 ≤ s.now ∨ 192 ≤ slotsUsed s p v) →
      (ringFill s p v < ringSize s p v → ∀ x : LandFlit × State, x = spillFlit p v f s →
        exec (.landingSpill t p v) s₀ = .next (askLow p (afterTake p v (modRx p v (fun r => { r with
          flits := replaceSlot x.1 r.flits, spilled := r.spilled + 1 }) x.2))))
      ∧ (ringSize s p v ≤ ringFill s p v → (vcRx s p v).wedged = false → l.st ≠ .down →
        exec (.landingSpill t p v) s₀ = .next (wedgeVc p v s)))
    ∧ (∀ (f : LandFlit) (rest : List LandFlit) (b : Bytes), (vcRx s p v).flits = f :: rest → v ≠ 4 →
      b = (vcRx s p v).asm ++ landedPayload s p v f →
      (v = 7 ∨ (cutStopped s = false ∧ (s.txn.inbox.any fun m => m.port == some p && m.vc == v.val) = false
        ∧ (isTransit s { port := some p, vc := v.val, typ := f.typ, bytes := b, at_ := f.at_ }
          && transitBlocked s { port := some p, vc := v.val, typ := f.typ, bytes := b, at_ := f.at_ }) = false)) →
      (f.last = true → exec (.flitDeliver t p v) s₀ = .next (askLow p (pushInbox
        { port := some p, vc := v.val, typ := f.typ, bytes := b, at_ := f.at_ }
        (afterTake p v (modRx p v (fun r => { r with flits := rest, asm := [] }) s)))))
      ∧ (f.last = false → exec (.flitDeliver t p v) s₀ = .next (askLow p
        (afterTake p v (modRx p v (fun r => { r with flits := rest, asm := b }) s)))))
    ∧ (∀ (f : LandFlit) (rest : List LandFlit) (a : Option CtrlAsm) (s₁ : State), (vcRx s p 4).flits = f :: rest →
      s₁ = modRx p 4 (fun r => { r with flits := rest }) s →
      (∀ b : Bytes, takeCtrl (port s₁ p).link.ctrlAsm (landedPayload s₁ p 4 f) = some (a, some b) →
        exec (.flitDeliver t p 4) s₀ = .next (askLow p (pushInbox { port := some p, vc := 4, typ := 2, bytes := b, at_ := f.at_ }
          (afterTake p 4 (modLink p (fun l => { l with ctrlAsm := a }) s₁)))))
      ∧ (takeCtrl (port s₁ p).link.ctrlAsm (landedPayload s₁ p 4 f) = some (a, none) →
        exec (.flitDeliver t p 4) s₀ = .next (askLow p (afterTake p 4 (modLink p (fun l => { l with ctrlAsm := a }) s₁))))
      ∧ (takeCtrl (port s₁ p).link.ctrlAsm (landedPayload s₁ p 4 f) = none → l.st ≠ .down →
        exec (.flitDeliver t p 4) s₀ = .next (askLow p (linkGoesDown p 2 true (afterTake p 4 s₁)))))
    ∧ (∀ t0 : Nat, (vcTx s p v).stallAt = some t0 → t0 + 1000 ≤ s.now →
      exec (.stallTakeEffect t p v) s₀ = .next (modTx p v (fun q => { q with stalled := true }) s))
    ∧ ((vcRx s p v).wedged = true → s.root.alive = true → (vcRx s p v).flits = [] → parkedFlits s p v = 0 →
      (vcRx s p v).emptyAt + 200000 ≤ s.now →
      exec (.wedgeClear t p v) s₀ = .next (modRx p v (fun r => { r with wedged := false, left := 0, asm := [] }) s))
    ∧ (composes s p = true → l.mode = 0 → 0x80000000 ≤ l.txCount →
      exec (.epochAdvance t p) s₀ = .next (modLink p (fun l => { l with txEpoch := l.txEpoch + 1, txCount := 0 }) s))

/-- The handshake (05 R164 to R166): a rekey that is due starts one while Root runs; a peer's hello is answered with the proof, by the
handshake under way or by one it starts; a proof that verifies makes the session keys and is answered SEC_FINISH, one that does not
aborts; a finish of the epoch lets the port switch; a message out of place, an abort or 10 ms without an end takes the link down. -/
def Obligations.HandshakeEventsComplete : Prop :=
  ∀ (t : Nat) (p : Fin 8) (l : Link) (b : Bytes) (s₀ s s' : State), s = s₀.at t → l = (port s p).link →
    (composes s p = true → s.root.alive = true → l.mode ≠ 0 → l.txKey.isSome = true → l.shake = none → l.epochAt + 1000000 ≤ s.now →
      (l.rekeyDue = true ∨ l.rekeyWait.isSome = true ∨ 0x80000000 ≤ l.txCount ∨ (∃ k c : Nat, l.newest = some (k, c) ∧ k ≠ 4
        ∧ 0x80000000 ≤ c)
        ∨ l.epochAt + 24 * 3600 * 1000000000 ≤ s.now) →
      exec (.rekeyStart t p) s₀ = .next (startShake (l.txEpoch + 1) p s))
    ∧ (takeShake p 1 s = some (b, s') → composes s' p = true →
      (l.shake.isSome = true ∨ l.txKey = none ∨ (s.root.alive = true ∧ l.epochAt + 1000000 ≤ s.now)) →
      (b.length = 140 → zeroAt b 137 3 = true → l.mode ≠ 0 →
        (∀ h : Handshake, l.shake.isSome = true → (port s' p).link.shake = some h → h.peer = none →
          exec (.secHello t p) s₀ = .next (withdraw (takeHello p h b s')))
        ∧ (∀ (h : Handshake) (e : Nat), l.shake = none → e = (if l.txKey.isSome then l.txEpoch + 1 else 0) → u32At b 4 = e →
          (port (startShake e p s') p).link.shake = some h →
          exec (.secHello t p) s₀ = .next (withdraw (takeHello p h b (startShake e p s')))))
      ∧ (b.length ≠ 140 ∨ zeroAt b 137 3 = false → exec (.secHello t p) s₀ = .next (linkGoesDown p 2 true s'))
      ∧ (b.length = 140 → zeroAt b 137 3 = true → l.mode = 0 → exec (.secHello t p) s₀ = .next (abortShake 1 p s')))
    ∧ (∀ h : Handshake, takeShake p 2 s = some (b, s') → composes s' p = true → (port s' p).link.shake = some h →
      (h.peer.isSome = true → h.proofOk = false → b.length = 304 →
        (∀ q : Nat × Nat, checkCert s' (b.take 208) = some q →
          (ecdsaVerify q (ascii "SAP-PROOF" ++ leBytes 1 (1 - shakeRole s' p) ++ h.th) (b.drop 208) = true →
            exec (.secProof t p) s₀ = .next (sendCtrl p 3 (leBytes 4 h.epoch) (modLink p (fun l => { l with
              nextRx := some (sessionKey h (1 - shakeRole s' p))
              shake := some { h with proofOk := true, newTx := some (sessionKey h (shakeRole s' p)) } }) s')))
          ∧ (ecdsaVerify q (ascii "SAP-PROOF" ++ leBytes 1 (1 - shakeRole s' p) ++ h.th) (b.drop 208) = false →
            exec (.secProof t p) s₀ = .next (abortShake 4 p s')))
        ∧ (checkCert s' (b.take 208) = none → exec (.secProof t p) s₀ = .next (abortShake 3 p s')))
      ∧ (h.peer = none ∨ h.proofOk = true ∨ b.length ≠ 304 → exec (.secProof t p) s₀ = .next (linkGoesDown p 2 true s')))
    ∧ (∀ h : Handshake, takeShake p 3 s = some (b, s') → composes s' p = true → (port s' p).link.shake = some h →
      (b.length = 4 → ofLe b = h.epoch → exec (.secFinish t p) s₀
        = .next (trySwitch p (modLink p (fun l => { l with shake := some { h with finishGot := true } }) s')))
      ∧ (b.length = 4 → ofLe b ≠ h.epoch → exec (.secFinish t p) s₀ = .next (abortShake 1 p s'))
      ∧ (b.length ≠ 4 → exec (.secFinish t p) s₀ = .next (linkGoesDown p 2 true s')))
    ∧ (takeShake p 4 s = some (b, s') →
      exec (.secAbort t p) s₀ = .next (if (port s' p).link.st = .down then s' else linkGoesDown p 4 true s'))
    ∧ (∀ h : Handshake, l.shake = some h → h.start + 10000000 ≤ s.now → exec (.handshakeTimeout t p) s₀ = .next (abortShake 5 p s))
    ∧ (∀ z : Nat, l.zeroiseAt = some z → z ≤ s.now →
      exec (.prevKeyZeroise t p) s₀ = .next (modLink p (fun l => { l with prevRx := none, zeroiseAt := none }) s))

/-! ### Lanes -/

/-- Training (04 R102, R106 to R118, R126; 05 R159), for every state of the port: energy and qualification bring it to ACQUIRE; the
messages with an intact, new SEQ and the measurements move it on; a state that outlasts its limit goes back to DETECT, or in DETECT to
listening; eight lanes that verify in each direction link the port, or it goes back. `s` is the port at the instant `t`, QUIET and HELLO
already due (log entry 145). -/
def Obligations.TrainingEventsComplete : Prop :=
  ∀ (t : Nat) (p : Fin 8) (ln : Fin 9) (f : Frame) (ph : Phys) (s₀ s s₁ : State), s = atPort t p s₀ → ph = (port s p).phys →
    s₁ = noteFrame p f s →
    (ph.st ≠ 0 → ph.st ≠ 11 → ∀ s₂ : State, s₂ = modRxLane p ln (fun r => { r with energyAt := some (r.energyAt.getD s.now) }) s →
      exec (.energyDetect t p ln) s₀ = .next (if ph.st = 1 ∧ ph.listening = false then enterPhys p 2 0 s₂ else s₂))
    ∧ (∀ (partner : Fin 9) (pat : Pilot) (inv : Bool) (timing : Nat) (mark : State → State), mark = modRxLane p ln (fun r => { r with
        partner := partner.val, inverted := inv, qualified := true, qualifiedAt := s.now, energyAt := none, timing := timing }) →
      (1 ≤ ph.st → ph.st ≤ 3 → (ph.st = 1 → ph.listening = true → pat ≠ .train) → ∀ s₂ : State,
        s₂ = mark (if ph.st = 1 then enterPhys p 2 0 s else s) →
        exec (.laneQualify t p ln partner pat ⟨inv, timing⟩) s₀ = .next (if (port s₂ p).phys.st = 2 ∧ (qualifiedLanes s₂ p).length = 9
          then enterAcquire p s₂ else s₂))
      ∧ (∀ g sf g' : Nat, ph.st = 1 → ph.listening = true → pat = .train → ph.last = some (g, sf) → admitGrade s p g = some g' →
        exec (.laneQualify t p ln partner pat ⟨inv, timing⟩) s₀ = .next (modRxLane p ln (fun r => { r with
          partner := partner.val, inverted := inv, qualified := true, qualifiedAt := (enterPhys p 2 0 (beginTraining p g' sf s)).now
          energyAt := none, timing := timing }) (enterPhys p 2 0 (beginTraining p g' sf s))))
      ∧ (ph.st = 9 → pat = .beacon → exec (.laneQualify t p ln partner pat ⟨inv, timing⟩) s₀ = .next
        (modRxLane p ln (fun r => { r with energyAt := none })
          (modPhys p (fun x => { x with beacons := sat32 (x.beacons + 1), lastBeacon := s.now }) s)))
      ∧ (ph.st = 9 → pat ≠ .beacon → exec (.laneQualify t p ln partner pat ⟨inv, timing⟩) s₀ = .next
        (enterResume p (wakeFromNap (modRxLane p ln (fun r => { r with energyAt := none }) s)))))
    ∧ (∀ t0 : Nat, (rxLane (s₀.at t) p ln).energyAt = some t0 → t0 + 20000 ≤ (s₀.at t).now →
      exec (.falseWake t p ln) s₀ = .next (modRxLane p ln (fun r => { r with energyAt := none })
        (modPhys p (fun x => { x with falseWakes := sat32 (x.falseWakes + 1) }) (s₀.at t))))
    ∧ (∀ (m : Hello) (keep : State → State), frameNew s p f = true →
      keep = (fun s => modPhys p (fun x => { x with peerHello := some m, rxSym := symDist (symBase s) (m.symbol + 16 * f.sf) }) s) →
      (ph.st = 3 → exec (.hello t ⟨p, f⟩ m) s₀
        = .next (meetHellos p (modPhys p (fun x => { x with rx := x.rx.map fun r => { r with sf := f.sf } }) (keep s₁))))
      ∧ (ph.st = 9 → exec (.hello t ⟨p, f⟩ m) s₀ = .next (keep (enterResume p s₁)))
      ∧ (ph.st = 10 → exec (.hello t ⟨p, f⟩ m) s₀ = .next (keep s₁)))
    ∧ (∀ grade symbol : Nat, frameNew s p f = true → ph.st = 3 → ph.initiator = false → ph.peerHello.isSome = true → ph.quietAt = none →
      exec (.phase t ⟨p, f⟩ 4 grade symbol) s₀ = .next (duePhase p (setQuiet p (symRx s₁ p) symbol s₁)))
    ∧ (∀ grade symbol : Nat, frameNew s p f = true → (ph.st = 4 ∨ ph.st = 5) →
      exec (.phase t ⟨p, f⟩ 6 grade symbol) s₀ = .next (if grade = 0 then noGrade p s₁
        else enterTable p (modPhys p (fun x => { x with peerGrade := some grade }) s₁)))
    ∧ (∀ (own peer : BitVec 9) (s₂ : State), frameNew s p f = true → s₂ = sendMgmt p 0x0A (leBytes 2 own.toNat ++ zeros 2) s₁ →
      (8 ≤ ((List.range 9).filter fun i => own.getLsbD i).length → 8 ≤ ((List.range 9).filter fun i => peer.getLsbD i).length →
        (ph.st = 7 → exec (.verifyResult t ⟨p, f⟩ own peer) s₀ = .next (enterLinked p (dropFailedTx p peer (dropFailedLanes p own s₂))))
        ∧ (ph.st = 10 → exec (.verifyResult t ⟨p, f⟩ own peer) s₀ = .next (resumeLinked p (dropFailedTx p peer (dropFailedLanes p own s₂)))))
      ∧ (((List.range 9).filter fun i => own.getLsbD i).length < 8 ∨ ((List.range 9).filter fun i => peer.getLsbD i).length < 8 →
        (ph.st = 7 → exec (.verifyResult t ⟨p, f⟩ own peer) s₀ = .next (backToDetect p s₂))
        ∧ (ph.st = 10 → exec (.verifyResult t ⟨p, f⟩ own peer) s₀ = .next (enterQuiet p (symTx s₂ p) (leaveLow p s₂)))))
    ∧ (ph.st = 1 → ph.listening = false → ph.since + 8000000 ≤ s.now → exec (.trainingTimeout t p) s₀ = .next
      (finishRef ph.ticket stLinkDown [] (modPhys p (fun x => { x with listening := true, ticket := none, lastPilot := s.now }) s)))
    ∧ (ph.st = 2 → (8 ≤ (qualifiedLanes s p).length →
        ((qualifiedLanes s p).map fun l => (rxLane s p l).qualifiedAt).min?.getD s.now + 20000 ≤ s.now →
        exec (.trainingTimeout t p) s₀ = .next (enterAcquire p s))
      ∧ ((qualifiedLanes s p).length < 8 → ph.since + 20000 ≤ s.now → exec (.trainingTimeout t p) s₀ = .next (backToDetect p s)))
    ∧ (3 ≤ ph.st → ph.st ≤ 7 → ph.since + trainLimit ph.st ≤ s.now → exec (.trainingTimeout t p) s₀ = .next (backToDetect p s))
    ∧ (ph.st = 10 → ph.since + 150000 ≤ s.now → exec (.trainingTimeout t p) s₀ = .next (backToDetect p (leaveLow p s)))
    ∧ (∀ noise : List (List Int), (ph.st = 4 →
        exec (.quietComplete t p noise) s₀ = .next (enterPhys p 5 0 (takeReports p noise (fun x r => { r with noise := x, table := probeTable })
          (modPhys p (fun x => { x with tx := x.tx.map fun y => { y with table := probeTable } }) s))))
      ∧ (ph.st = 8 → ∀ s₂ : State, s₂ = modPhys p (fun x => { x with
          tx := x.tx.map fun y => if y.role = .retrain then { y with table := probeTable } else y }) s →
        exec (.quietComplete t p noise) s₀ = .next ((retraining s₂ p).foldl (fun s l => modRxLane p l (fun r => { r with
          noise := noise.getD l.val [], table := probeTable }) s) s₂)))
    ∧ (∀ (snr : List (List Int)) (s₂ : State) (g : Nat), s₂ = takeReports p snr (fun x r => { r with snr := x }) s →
      g = ((gradesDown.find? fun g => decide (g ≤ min ph.target ((ph.peerHello.map (·.targetGrade)).getD ph.target)
        ∧ 8 ≤ (meeting s₂ p g).length)).getD 0) →
      (∀ s₃ : State, ph.st = 5 → ph.ownGrade = none →
        s₃ = sendMgmt p 0x02 (leBytes 1 6 ++ leBytes 1 g ++ zeros 2 ++ leBytes 4 (symTx s₂ p)) s₂ →
        exec (.probeComplete t p snr) s₀
          = .next (if g = 0 then noGrade p s₃ else enterTable p (modPhys p (fun x => { x with ownGrade := some g }) s₃)))
      ∧ (ph.st = 8 → exec (.probeComplete t p snr) s₀
        = .next ((retraining s p).foldl (fun s l => retable p l (snr.getD l.val []) s) s)))
    ∧ (∀ s₂ : State, s₂ = s₀.at t → (port s₂ p).phys.st = 1 → (port s₂ p).phys.listening = true →
      (port s₂ p).phys.lastPilot + 1000000 ≤ s₂.now →
      exec (.listenPilot t p) s₀ = .next (emit (.pilot p .train) (modPhys p (fun x => { x with lastPilot := s₂.now }) s₂)))
    ∧ (∀ (s₂ s₃ : State) (g sf g' : Nat), s₂ = s₀.at t → (port s₂ p).phys.st = 0 → (port s₂ p).phys.autoAt.isSome = true →
      s₂.root.alive = true → (port s₂ p).phys.last = some (g, sf) → s₃ = modPhys p (fun x => { x with autoAt := none }) s₂ →
      (admitGrade s₃ p g = some g' → exec (.autoRetrain t p) s₀ = .next (beginTraining p g' sf s₃))
      ∧ (admitGrade s₃ p g = none → exec (.autoRetrain t p) s₀ = .next s₃))

/-- Bit tables and the spare lane (04 R111 to R114, R119 to R124), for every state of the lanes: a table that is valid, in time and not
too soon is accepted, any other is answered with its reason; an answered proposal is adopted, proposed again or dropped; tables swap at
their symbol; a lane with too many errors gives its position to the spare, or is retrained, or without a spare is degraded; a retrained
lane is ready or has failed, and its command ends. -/
def Obligations.LaneUpkeepEventsComplete : Prop :=
  ∀ (t : Nat) (p : Fin 8) (ln : Fin 9) (f : Frame) (s₀ s a a₁ : State), s = s₀.at t → a = atPort t p s₀ → a₁ = noteFrame p f a →
    (∀ (m : BitTable) (ackEnd : Nat) (x : TxLane) (reply : Nat → State → State), frameNew a p f = true →
      tablesLive (port a p).phys.st = true → x = txLane a p m.lane →
      reply = (fun r => sendLaneMgmt p m.lane.val 0x04 (leBytes 1 m.lane.val ++ leBytes 1 m.tableId ++ leBytes 1 r ++ zeros 1
        ++ leBytes 4 m.swapSymbol)) →
      (tableValid (port a p).phys.grade x.tableId m = true → x.pend = none → (∀ l : Nat, x.lastAccepted = some l → l + 1000000 ≤ a.now) →
        (symLater ackEnd m.swapSymbol = true → 256 ≤ symDist ackEnd m.swapSymbol →
          exec (.bitTable t ⟨p, f⟩ m ackEnd) s₀ = .next (reply 0 (modTxLane p m.lane (fun x => { x with
            pend := some { id := m.tableId, sf := m.runningSf, grade := m.grade, entries := m.entries, swapSymbol := m.swapSymbol,
                           accepted := true }
            lastAccepted := some a.now }) a₁)))
        ∧ (symLater ackEnd m.swapSymbol = false ∨ symDist ackEnd m.swapSymbol < 256 →
          exec (.bitTable t ⟨p, f⟩ m ackEnd) s₀ = .next (reply 1 a₁)))
      ∧ (tableValid (port a p).phys.grade x.tableId m = true →
        (x.pend.isSome = true ∨ ∃ l : Nat, x.lastAccepted = some l ∧ a.now < l + 1000000) →
        exec (.bitTable t ⟨p, f⟩ m ackEnd) s₀ = .next (reply 3 a₁))
      ∧ (∀ recent : List Nat, tableValid (port a p).phys.grade x.tableId m = false →
        recent = (port a p).phys.nakInvalid.filter (fun t => decide (a.now < t + 1000000000)) ++ [a.now] → recent.length < 16 →
        exec (.bitTable t ⟨p, f⟩ m ackEnd) s₀ = .next (reply 2 (modPhys p (fun x => { x with nakInvalid := recent }) a₁))))
    ∧ (∀ (l : Fin 9) (q : PendingTable), frameNew a p f = true → hearing a p ln.val = some l → (rxLane a p l).pend = some q →
      exec (.tableAck t ⟨p, f⟩ ln q.id .ack q.swapSymbol) s₀
          = .next (modRxLane p l (fun x => { x with pend := some { q with accepted := true }, swappedAt := some a.now }) a₁)
      ∧ exec (.tableAck t ⟨p, f⟩ ln q.id .nakLate q.swapSymbol) s₀ = .next (proposeTable p l q.grade q.entries q.sf a₁)
      ∧ (∀ r : TableResult, r ≠ .ack → r ≠ .nakLate →
        exec (.tableAck t ⟨p, f⟩ ln q.id r q.swapSymbol) s₀ = .next (modRxLane p l (fun x => { x with pend := none }) a₁)))
    ∧ (∀ (position : Fin 8) (m : Fin 9), frameNew a p f = true → txSpare a p = some m → (port a p).phys.st = 8 →
      (txLane a p ln).role = .data → (txLane a p ln).position = position.val →
      exec (.spareSwap t ⟨p, f⟩ position ln) s₀ = .next (modTxLane p m (fun y => { y with copy := some position.val })
        (modTxLane p ln (fun y => { y with pend := none }) a₁)))
    ∧ (∀ symbol : Nat, frameNew a p f = true → (port a p).phys.st = 8 →
      exec (.retrain t ⟨p, f⟩ ln 1 symbol) s₀ = .next (noteExchange p ln (retrainTx p ln a₁))
      ∧ (∀ s₂ : State, s₂ = noteExchange p ln (retrainRx p ln (retrainTx p ln a₁)) →
        exec (.retrain t ⟨p, f⟩ ln 0 symbol) s₀ = .next (sendLaneMgmt p ln.val 0x06 (leBytes 1 ln.val ++ leBytes 1 1 ++ zeros 2
          ++ leBytes 4 ((symTx s₂ p + 512) % 2 ^ 32)) s₂)))
    ∧ (∀ (snr : List Int) (s₂ : State) (margin : Int), (port s p).phys.st = 8 → ((rxLane s p ln).role = .data
      ∨ (rxLane s p ln).role = .spareReady) →
      margin = (tableMargin snr (rxLane s p ln).table).getD 0 →
      s₂ = modRxLane p ln (fun r => { r with snr := snr, margin := marginQuarters margin, fresh := false, untrimmed := untrimmedOf snr }) s →
      (candidate s₂ p ln = none → exec (.snrWindowEnd t p ln snr) s₀ = .next s₂)
      ∧ (∀ c : List (BitVec 8), candidate s₂ p ln = some c →
        ((rxLane s p ln).fresh = true ∨ margin < 6 * quarterDb ∨ margin + 4 * quarterDb ≤ (tableMargin snr c).getD 0 →
          exec (.snrWindowEnd t p ln snr) s₀ = .next (proposeTable p ln (port s p).phys.grade c (runningSf snr) s₂))
        ∧ ((rxLane s p ln).fresh = false → 6 * quarterDb ≤ margin → (tableMargin snr c).getD 0 < margin + 4 * quarterDb →
          exec (.snrWindowEnd t p ln snr) s₀ = .next s₂)))
    ∧ (∀ (q : PendingTable) (symbol : Nat), (txLane s p ln).pend = some q → symLater q.swapSymbol symbol = true →
      exec (.tableSwap t p ln symbol) s₀ = .next (tryVerify p (modTxLane p ln (fun x => { x with
        tableId := q.id, sf := q.sf, table := q.entries, pend := none, retabled := true }) s)))
    ∧ (∀ (q : PendingTable) (symbol : Nat), (rxLane s p ln).pend = some q → symDist q.swapSymbol symbol ≤ 15 →
      exec (.tableAdopt t p ln q.id symbol) s₀ = .next (tryVerify p (modRxLane p ln (fun x => { x with
        tableId := q.id, sf := q.sf, table := q.entries, pend := none, retabled := true }) s)))
    ∧ (∀ (q : PendingTable) (symbol : Nat), (rxLane s p ln).pend = some q → symLater (q.swapSymbol + 16) symbol = true →
      exec (.tableSwapLapse t p ln symbol) s₀ = .next (tryVerify p (modRxLane p ln (fun x => { x with pend := none }) s)))
    ∧ ((port s p).phys.st = 8 → (rxLane s p ln).leaving = false → (vget s.cfg.ports p).retireThreshold
        ≤ ((rxLane s p ln).errTimes.filter fun t => decide (s.now < t + (vget s.cfg.ports p).retireUs * 1000)).length →
      ((rxLane s p ln).role = .data → (rxSpare s p).isSome = true → exec (.laneRetire t p ln) s₀ = .next (askSpareSwap p ln s))
        ∧ ((rxLane s p ln).role = .data → rxSpare s p = none → exec (.laneRetire t p ln) s₀ = .next (degradeLane p ln s))
        ∧ ((rxLane s p ln).role = .spareReady → s.root.alive = true → exec (.laneRetire t p ln) s₀
          = .next (askRetrain p ln (startRetrain p ln (modRxLane p ln (fun r => { r with errTimes := [] }) s)))))
    ∧ (∀ (position : Fin 8) (m l : Fin 9), rxSpare s p = some m → ((fins 9).find? fun l => (rxLane s p l).leaving
        && (rxLane s p l).role == .data && (rxLane s p l).position == position.val) = some l →
      exec (.spareTakeover t p position) s₀ = .next (askRetrain p l (modRxLane p l (fun r => { r with relieved := true }) (startRetrain p l
        (modRxLane p m (fun r => { r with role := .data, position := position.val, fresh := true }) s)))))
    ∧ (∀ (passed peerPassed : Bool) (x : RxLane) (y : TxLane) (partner : Fin 9) (s₂ : State), (port s p).phys.st = 8 → x = rxLane s p ln →
      x.role = .retrain →
      partner = finOf 9 x.partner → y = txLane s p partner →
      s₂ = (if passed = true ∧ peerPassed = true ∧ x.retabled = true ∧ s.now ≤ x.retrainBy then
          retrainTxDone p partner .spareReady (modRxLane p ln (fun r => { r with role := .spareReady, fresh := true, errTimes := [] }) s)
        else retrainFailed p ln partner s) →
      ((∀ w : Retrain, (port s p).phys.retrain = some w → w.lane ≠ ln.val) → exec (.laneRetrainDone t p ln passed peerPassed) s₀ = .next s₂)
      ∧ (∀ w : Retrain, (port s p).phys.retrain = some w → w.lane = ln.val → exec (.laneRetrainDone t p ln passed peerPassed) s₀
        = .next (finishRef w.ticket stOk (leBytes 2 x.untrimmed) (modPhys p (fun x => { x with retrain := none }) s₂))))
    ∧ (∀ d : Nat, (rxLane s p ln).retryAt = some d → d ≤ s.now → (port s p).phys.st = 8 → (rxLane s p ln).role = .retired →
      s.root.alive = true → exec (.laneRetrainRetry t p ln) s₀ = .next (askRetrain p ln (startRetrain p ln s)))

/-- The lanes' low-power state and a partner's DOWN (04 R115, R117, R125; 14 R427): asked or answered LOW is entered from LINKED, a DOWN
ends the link from QUALIFY onwards, beacons are sent each period, three missed take the link down, and energy on six lanes wakes a device
in DEEP. -/
def Obligations.LanePowerEventsComplete : Prop :=
  ∀ (t : Nat) (p : Fin 8) (f : Frame) (ph : Phys) (s₀ s a a₁ : State), s = s₀.at t → ph = (port s p).phys → a = atPort t p s₀ →
    a₁ = noteFrame p f a →
    (∀ ms : Nat, frameNew a p f = true → (port a p).phys.st = 8 →
      exec (.lowEnter t ⟨p, f⟩ ms) s₀ = .next (enterLow p ms (sendMgmt p 0x08 (leBytes 4 ms) a₁)))
    ∧ (∀ ms : Nat, frameNew a p f = true → (port a p).phys.st = 8 → (port a p).phys.lowAsked = true →
      exec (.lowAck t ⟨p, f⟩ ms) s₀ = .next (enterLow p ms a₁))
    ∧ (∀ reason : Nat, frameNew a p f = true → ¬ ((port a p).phys.st = 11 ∧ reason = 1) →
      exec (.down t ⟨p, f⟩ reason) s₀ = .next (linkGoesDown p reason false a₁))
    ∧ (frameNew a p f = false → (∀ ms : Nat, exec (.lowEnter t ⟨p, f⟩ ms) s₀ = .next a ∧ exec (.lowAck t ⟨p, f⟩ ms) s₀ = .next a)
      ∧ (∀ reason : Nat, exec (.down t ⟨p, f⟩ reason) s₀ = .next a))
    ∧ (ph.st = 9 → ph.lastBeaconSent + ph.lowMs * 1000000 ≤ s.now →
      exec (.beaconSend t p) s₀ = .next (emit (.pilot p .beacon) (modPhys p (fun x => { x with lastBeaconSent := s.now }) s)))
    ∧ (ph.st = 9 → ph.lastBeacon + 3 * ph.lowMs * 1000000 ≤ s.now → exec (.beaconLoss t p) s₀ = .next (linkGoesDown p 3 true s))
    ∧ (∀ (lanes : BitVec 9) (since : Nat), s.pwr.st = .deep → (vget s.cfg.ports p).wakeOnLink = true →
      6 ≤ ((List.range 9).filter fun i => lanes.getLsbD i).length → 50000 ≤ since →
      exec (.linkEnergyWake t p lanes since) s₀ = .next (startUp 3 0 s))

/-! ### Collectives, grove and twin -/

/-- Collectives (09 R280, R284, R288, R291): the first message of its kind in the inbox goes to its group; an ABORT breaks its group and
fails its operation, and one that names no group or a broken one is counted as unmatched; an operation that waits for T with everything
sent breaks its group with TIMEOUT; parked messages go after T. -/
def Obligations.CollectiveEventsComplete : Prop :=
  ∀ (t : Nat) (m : InMsg) (s₀ s s' : State), s = s₀.at t → cutStopped s = false →
    (takeMsg (isColMsg s 0x40) s = some (m, s') → LagClear s → exec (.seg t) s₀ = .next (colReceive m s'))
    ∧ (takeMsg (isColMsg s 0x41) s = some (m, s') → LagClear s → exec (.counts t) s₀ = .next (colReceive m s'))
    ∧ (takeMsg (isColMsg s 0x42) s = some (m, s') →
      (slotById s' (u64At m.bytes 16) = none → exec (.abort t) s₀ = .next (colUnmatched s'))
      ∧ (∀ (k : Nat) (g : Group) (s₁ : State), slotById s' (u64At m.bytes 16) = some (k, g) →
        s₁ = modSlot k (fun g => { g with broken := some (u16At m.bytes 48) })
          (modCol (fun c => { c with abortsGot := sat32 (c.abortsGot + 1) }) s') →
        (g.broken.isSome = true → exec (.abort t) s₀ = .next (colUnmatched s'))
        ∧ (g.broken = none → g.op = none → exec (.abort t) s₀ = .next s₁)
        ∧ (∀ o : ColOp, g.broken = none → g.op = some o →
          exec (.abort t) s₀ = .next (colFailOp k g o (u16At m.bytes 48) (u16At m.bytes 4 % 1024) s₁))))
    ∧ (∀ (k : Fin 256) (g : Group) (o : ColOp), slotOf s k.val = some g → g.op = some o → o.ready = true →
      (((colExpects g o).any fun x => (o.have x.1 x.2.1 x.2.2.1).isNone) = true ∨ (o.kind = 4 ∧ recvCounts g o = none)) →
      colUnsent s (colTag k.val o.opseq) = false → colFinished s k.val g o = false → o.timer + colT s ≤ s.now →
      exec (.colTimeout t k) s₀ = .next (breakGroup k.val stTimeout s))
    ∧ exec (.parkExpire t) s₀ = .next (setParked (·.filter fun m => !decide (m.at_ + colT s ≤ s.now)) (modCol (fun c => { c with
        parkExpired := sat32 (c.parkExpired + (c.parked.filter fun m => decide (m.at_ + colT s ≤ s.now)).length) }) s))

/-- The grove's messages and timers (11 R318, R319, R325, R326, R330): a port records its peer, the trunk enters and acknowledges its
members and marks the silent and the leaving ones, a member is registered by any acknowledgement of success and gives its chip ID up at
any other, beats each 10 ms with the join that is not yet acknowledged, and takes notices of the trunk alone, over a secured port. -/
def Obligations.GroveEventsComplete : Prop :=
  ∀ (t : Nat) (m : InMsg) (s₀ s s' : State), s = s₀.at t →
    (∀ p : Fin 8, CtrlArrives 0x80 1 4 s m s' → m.port = some p →
      (u16At (ctrlFields m) 0 < 1024 → exec (.grvId t) s₀ = .next (recordPeer p (u16At (ctrlFields m) 0) s'))
      ∧ (1024 ≤ u16At (ctrlFields m) 0 → exec (.grvId t) s₀ = .next (dropGrove s')))
    ∧ (CtrlArrives 0x81 0 12 s m s' →
      (isTrunk s' = true → tget (ctrlSrc m) s'.grv.reg = none →
        exec (.grvJoin t) s₀ = .next (sendRouted 0x82 (ctrlSrc m) 0 (leBytes 2 stOk ++ zeros 2 ++ leBytes 4
            (enterMember (ctrlSrc m) (u64At (ctrlFields m) 0) (u32At (ctrlFields m) 8) none s').txn.routeGen)
          (enterMember (ctrlSrc m) (u64At (ctrlFields m) 0) (u32At (ctrlFields m) 8) none s')))
      ∧ (∀ e : RegEntry, isTrunk s' = true → tget (ctrlSrc m) s'.grv.reg = some e → e.st = .joined ∨ e.st = .silent →
        e.serial ≠ u64At (ctrlFields m) 0 →
        exec (.grvJoin t) s₀
          = .next (sendRouted 0x82 (ctrlSrc m) 0 (leBytes 2 stBadArg ++ zeros 2 ++ leBytes 4 s'.txn.routeGen) s'))
      ∧ (isTrunk s' = false → exec (.grvJoin t) s₀ = .next s'))
    ∧ (CtrlArrives 0x82 0 8 s m s' → ctrlSrc m = s'.grv.trunk → s'.grv.registered = false →
      (∀ j : Joining, s'.grv.joining = some j →
        (isSuccess (u16At (ctrlFields m) 0) = true → exec (.grvJoinAck t) s₀ = .next (finishRef j.ticket stOk []
          (modGrv (fun g => { g with registered := true }) (modGrv (fun g => { g with joining := none }) s'))))
        ∧ (isSuccess (u16At (ctrlFields m) 0) = false → exec (.grvJoinAck t) s₀
          = .next (finishRef j.ticket stBadArg [] (unassign (modGrv (fun g => { g with joining := none }) s')))))
      ∧ (s'.grv.joining = none → isSuccess (u16At (ctrlFields m) 0) = true →
        exec (.grvJoinAck t) s₀ = .next (modGrv (fun g => { g with registered := true }) s')))
    ∧ (∀ j : Joining, s.grv.joining = some j → j.since + 4000000 ≤ s.now →
      exec (.joinTimeout t) s₀ = .next (finishRef j.ticket stTimeout [] (modGrv (fun g => { g with joining := none }) s)))
    ∧ (CtrlArrives 0x83 0 28 s m s' → isTrunk s' = true →
      (∀ e : RegEntry, tget (ctrlSrc m) s'.grv.reg = some e → e.serial = u64At (ctrlFields m) 0) →
      exec (.grvBeat t) s₀ = .next (enterMember (ctrlSrc m) (u64At (ctrlFields m) 0) (u32At (ctrlFields m) 8)
        (some ((List.range 4).map fun b => (u16At (ctrlFields m) (12 + 4 * b), u8At (ctrlFields m) (14 + 4 * b)))) s'))
    ∧ (∀ s₁ : State, s.txn.chip.isSome = true → s.grv.lastBeat + 10000000 ≤ s.now →
      s₁ = (if s.grv.registered = true then modGrv (fun g => { g with lastBeat := s.now }) s
        else sendJoin (modGrv (fun g => { g with lastBeat := s.now }) s)) →
      exec (.grvBeatTimer t) s₀ = .next (sendRouted 0x83 s₁.grv.trunk 0 (leBytes 8 s₁.fuse.serial ++ leBytes 4 s₁.txn.routeGen
        ++ ((bundleReport s₁).map fun x => leBytes 2 x.1 ++ leBytes 1 x.2 ++ [0]).flatten) s₁))
    ∧ (∀ (c : Fin 1024) (e : RegEntry), tget c.val s.grv.reg = some e → isTrunk s = true → e.st = .joined → e.heard + 30000000 ≤ s.now →
      exec (.grvMemberSilent t c) s₀ = .next (logErr 0x0030 30 (leBytes 2 c.val)
        (modGrv (fun g => { g with reg := tset c.val { e with st := .silent } g.reg }) s)))
    ∧ (∀ e : RegEntry, CtrlArrives 0x84 0 8 s m s' → tget (ctrlSrc m) s'.grv.reg = some e → isTrunk s' = true →
      e.serial = u64At (ctrlFields m) 0 →
      exec (.grvLeave t) s₀ = .next (modGrv (fun g => { g with reg := tset (ctrlSrc m) { e with st := .left } g.reg }) s'))
    ∧ (∀ p : Fin 8, CtrlArrives 0x85 0 4 s m s' → m.port = some p →
      ((port s' p).link.mode ≠ 0 → s'.txn.chip.isSome = true → isTrunk s' = false → ctrlSrc m = s'.grv.trunk →
        u16At (ctrlFields m) 0 ≤ 1023 → u8At (ctrlFields m) 2 ≤ 2 → s'.txn.chip ≠ some (u16At (ctrlFields m) 0) →
        exec (.grvNotify t) s₀ = .next (applyNotice (u16At (ctrlFields m) 0) (u8At (ctrlFields m) 2) (u8At (ctrlFields m) 3) s'))
      ∧ ((port s' p).link.mode = 0 ∨ isTrunk s' = true ∨ ctrlSrc m ≠ s'.grv.trunk →
        exec (.grvNotify t) s₀ = .next (modGrv (fun g => { g with relayRefused := sat32 (g.relayRefused + 1) }) s')))

/-- Pairing and the pair's life (11 R331 to R333, R341, R344, R345): a hello is answered and its proof sent, proofs that agree pair the
chips and one that does not ends the session; beats of the pair's generation keep it, their loss loses it; probes are answered; every
message of an earlier generation is answered TWIN_STALE and a later one declares the twin lost; a yield and its answer, a staler
generation and an unpairing end a role. -/
def Obligations.TwinEventsComplete : Prop :=
  ∀ (t : Nat) (m : InMsg) (s₀ s s' : State), s = s₀.at t →
    (∀ (k : Bytes) (e : KeyEntry) (s₁ s₂ : State), CtrlArrives 0x90 2 48 s m s' → m.port = some 7 → ctrlSrc m = s'.twn.chip →
      s'.twn.st ≠ .none → s'.twn.st ≠ .promoted → (s'.twn.st = .pairing → (u8At (ctrlFields m) 13).testBit 0 = true) →
      s₁ = modTwn (fun w => { w with
        peerNonce := some ((ctrlFields m).drop 16), peerSerial := u64At (ctrlFields m) 0
        gen := if genLater w.gen (BitVec.ofNat 8 (u8At (ctrlFields m) 12)) then BitVec.ofNat 8 (u8At (ctrlFields m) 12) else w.gen }) s' →
      s₂ = (if s'.twn.peerNonce = none ∧ s₁.twn.ownNonce ≠ [] then sendHello (s'.twn.st == .pairing) s₁ else s₁) →
      keyEntry s₂ s₂.twn.pairKey = some e → (pairBranch s₂).1 = some k →
      (e.keyId = u16At (ctrlFields m) 8 → e.gen = u16At (ctrlFields m) 10 →
        exec (.twinHello t) s₀ = .next (withdraw (modTwn (fun w => { w with proofSent := true })
          (if s'.twn.peerNonce = none then sendGraft (ctrlMsg 0x91 (pairBranch s₂).2.twn.chip (ownChip (pairBranch s₂).2) 2
            (twinProofOf (pairBranch s₂).2 k (if twinLow (pairBranch s₂).2 then 0 else 1))) (pairBranch s₂).2 else (pairBranch s₂).2))))
      ∧ (e.keyId ≠ u16At (ctrlFields m) 8 ∨ e.gen ≠ u16At (ctrlFields m) 10 →
        exec (.twinHello t) s₀ = .next (withdraw (sessionFails (pairBranch s₂).2))))
    ∧ (CtrlArrives 0x91 2 32 s m s' → m.port = some 7 → ctrlSrc m = s'.twn.chip → s'.twn.proofSent = true → s'.twn.proofOk = false →
      (∀ k : Bytes, (pairBranch s').1 = some k →
        (ctrlFields m = twinProofOf (pairBranch s').2 k (if twinLow (pairBranch s').2 then 1 else 0) → exec (.twinProof t) s₀
          = .next (withdraw (sessionDone k (modTwn (fun w => { w with proofOk := true }) (pairBranch s').2))))
        ∧ (ctrlFields m ≠ twinProofOf (pairBranch s').2 k (if twinLow (pairBranch s').2 then 1 else 0) →
          exec (.twinProof t) s₀ = .next (withdraw (sessionFails (pairBranch s').2))))
      ∧ ((pairBranch s').1 = none → exec (.twinProof t) s₀ = .next (withdraw (sessionFails (pairBranch s').2))))
    ∧ (∀ w : TwinWait, s.twn.pairing = some w → w.since + 8000000 ≤ s.now →
      exec (.pairTimeout t) s₀ = .next (finishRef w.ticket stTimeout [] (modTwn (fun x => { x with
        pairing := none, st := if x.st = .pairing then .none else x.st }) s)))
    ∧ (∀ g : BitVec 8, TaggedArrives 0x92 16 s m s' → g = BitVec.ofNat 8 (u8At ((ctrlFields m).take 16) 0) →
      (g = s'.twn.gen → exec (.graftBeat t) s₀ = .next (modTwn (fun w => { w with lastBeat := s'.now }) s'))
      ∧ (genLater s'.twn.gen g = true → exec (.graftBeat t) s₀ = .next (declareLost s'))
      ∧ (g ≠ s'.twn.gen → genLater s'.twn.gen g = false → exec (.graftBeat t) s₀ = .next (answerStale s')))
    ∧ (∀ k : Bytes, s.twn.st = .paired → s.twn.lastBeatSent + 100000 ≤ s.now → s.twn.kGraft = some k →
      exec (.graftBeatTimer t) s₀ = .next (modTwn (fun w => { w with beatCount := (w.beatCount + 1) % 2 ^ 32, lastBeatSent := s.now })
        (sendTagged 0x92 (leBytes 1 s.twn.gen.toNat ++ leBytes 1 s.twn.st.code ++ zeros 2 ++ leBytes 4 s.twn.beatCount
          ++ leBytes 8 s.now) s)))
    ∧ (s.twn.st = .paired → s.twn.lastBeat + 300000 ≤ s.now → exec (.graftBeatLoss t) s₀ = .next (declareLost s))
    ∧ (∀ (g : BitVec 8) (s₁ : State), ProbeArrives 0x98 3 20 s m s' → g = BitVec.ofNat 8 (u8At ((ctrlFields m).take 20) 0) →
      s₁ = sendProbeKind 0x99 0 (leBytes 1 s'.twn.gen.toNat ++ zeros 3 ++ ((ctrlFields m).take 20).drop 4) s' → s₁.twn.gen = s'.twn.gen →
      (g = s'.twn.gen → exec (.twinProbe t) s₀ = .next s₁)
      ∧ (genLater s'.twn.gen g = true → exec (.twinProbe t) s₀ = .next (declareLost s₁))
      ∧ (g ≠ s'.twn.gen → genLater s'.twn.gen g = false → exec (.twinProbe t) s₀ = .next (answerStale s')))
    ∧ (∀ (w : TwinWait) (g : BitVec 8), ProbeArrives 0x99 0 20 s m s' → g = BitVec.ofNat 8 (u8At ((ctrlFields m).take 20) 0) →
      (g = s'.twn.gen ∨ genLater s'.twn.gen g = true → s'.twn.probing = some w → w.nonce = ofLe (((ctrlFields m).take 20).drop 4) →
        exec (.twinProbeAck t) s₀ = .next (logErr 0x0032 30 (leBytes 2 s'.twn.chip)
          (modTwn (fun x => { x with probing := none, st := .graftDown }) s')))
      ∧ (g ≠ s'.twn.gen → genLater s'.twn.gen g = false → exec (.twinProbeAck t) s₀ = .next (answerStale s')))
    ∧ (∀ (w : TwinWait) (s₁ : State), s.twn.probing = some w → w.since + 500000 ≤ s.now →
      s₁ = logErr 0x0033 30 (leBytes 2 s.twn.chip) (modTwn (fun x => { x with probing := none, st := .lost }) s) →
      exec (.probeTimeout t) s₀ = .next (if s.cfg.autoFailover = true then failover s₁ else s₁))
    ∧ (TaggedArrives 0x96 4 s m s' → BitVec.ofNat 8 (u8At ((ctrlFields m).take 4) 0) = s'.twn.gen → s'.twn.st = .paired →
      (s'.twn.yielding = none ∨ twinLow s' = false → exec (.twinYield t) s₀ = .next (mirrorResume (tryYieldAck (modTwn
        (fun w => { w with ackOwed := true }) (modRegions (fun r => !r.target) (fun r => { r with st := .fenced }) (finishYield stBusy [] s'))))))
      ∧ (s'.twn.yielding.isSome = true → twinLow s' = true → exec (.twinYield t) s₀ = .next s'))
    ∧ (TaggedArrives 0x97 4 s m s' → BitVec.ofNat 8 (u8At ((ctrlFields m).take 4) 0) = s'.twn.gen → s'.twn.yielding.isSome = true →
      exec (.twinYieldAck t) s₀ = .next (finishYield stOk (leBytes 1 (failover s').twn.gen.toNat) (failover s')))
    ∧ (∀ w : TwinWait, s.twn.yielding = some w → w.since + 500000 ≤ s.now →
      exec (.yieldTimeout t) s₀ = .next (finishYield stTimeout [] s))
    ∧ (∀ g : BitVec 8, ProbeArrives 0x9A 0 4 s m s' → g = BitVec.ofNat 8 (u8At ((ctrlFields m).take 4) 0) →
      (g = s'.twn.gen → exec (.twinStale t) s₀ = .next s')
      ∧ (g ≠ s'.twn.gen → genLater s'.twn.gen g = true → exec (.twinStale t) s₀ = .next (mirrorResume
        (modTwn (fun w => { w with st := .none, probing := none, kGraft := none, ackOwed := false })
        (modRegions (fun _ => true) (fun r => { r with st := .incomplete })
          (modTwn (fun w => { w with regions := w.regions.filter fun e => e.2.target }) s')))))
      ∧ (g ≠ s'.twn.gen → genLater s'.twn.gen g = false → exec (.twinStale t) s₀ = .next (answerStale s')))
    ∧ (TaggedArrives 0x9B 4 s m s' → exec (.twinUnpair t) s₀ = .next (endPairing false s'))

/-- Mirrored regions (11 R334, R335, R338, R339, R345): an opening is answered with its status and a region that may be opened is held; a
close removes the region on this side; a write in sequence is applied and answered, any other is answered with its status, detaches its
region and is logged; an answered write is no longer awaited and the copy goes on, an answer of failure detaches; a copy that is complete
is in sync. -/
def Obligations.MirrorEventsComplete : Prop :=
  ∀ (t : Nat) (m : InMsg) (f : Bytes) (s₀ s s' : State), s = s₀.at t →
    (∀ st : Nat, TaggedArrives 0x93 24 s m s' → f = (ctrlFields m).take 24 →
      st = openStatus s' (u8At f 4) (u8At f 5) (u64At f 8) (u64At f 16) →
      (st ≠ stOk → exec (.mirrorOpen t) s₀ = .next (sendTagged 0x94 (leBytes 4 (u32At f 0) ++ leBytes 2 st ++ zeros 2) s'))
      ∧ (∀ (k : Nat) (s₁ : State), st = stOk →
        addRegion (Region.make (u32At f 0) (u8At f 4) (u16At f 6) (u64At f 8) (u64At f 16) true (u16At f 6 != 0)) s' = some (k, s₁) →
        exec (.mirrorOpen t) s₀ = .next (sendTagged 0x94 (leBytes 4 (u32At f 0) ++ leBytes 2 stOk ++ zeros 2) s₁)))
    ∧ (∀ e : Nat × Region × (Fin 130 × Request), TaggedArrives 0x94 8 s m s' → f = (ctrlFields m).take 8 →
      (s'.twn.opening.find? fun e => e.2.1.id == u32At f 0) = some e →
      (∀ (k : Nat) (s₁ : State), isSuccess (u16At f 4) = true → addRegion e.2.1 s' = some (k, s₁) →
        exec (.mirrorReply t) s₀ = .next (finishOpening e stOk (copyRegion k s₁)))
      ∧ (isSuccess (u16At f 4) = false → exec (.mirrorReply t) s₀ = .next (finishOpening e (u16At f 4) s')))
    ∧ (TaggedArrives 0x95 8 s m s' → f = (ctrlFields m).take 8 → exec (.mirrorClose t) s₀ = .next (mirrorResume (tryYieldAck
        (modTwn (fun w => { w with regions := w.regions.filter fun e => e.2.id != u32At f 0 }) s'))))
    ∧ (∀ (b : Bytes) (n off : Nat) (lines : List (Nat × Bool)) (answer : Nat → State → State), cutStopped s = false →
      takeMsg (isMirror 0x50) s = some (m, s') → b = m.bytes → n = u16At b 2 → off = u64At b 16 → 1 ≤ n → n ≤ 64 → m.vc = 5 →
      off % 64 = 0 → off % 4096 + 64 * n ≤ 4096 → lines = (List.range n).map (fun i => (off + 64 * i, (u64At b 24).testBit i)) →
      b.length = 32 + 64 * (lines.filter fun l => !l.2).length → answer = (fun st s => withGen (u8At b 1) (fun s => s) (queueMsg 7 1 1 0
        none (leBytes 1 0xD0 ++ leBytes 1 s.twn.gen.toNat ++ leBytes 2 st ++ leBytes 4 (u32At b 4) ++ slice b 8 8 ++ zeros 16) s)) →
      (∀ (k : Nat) (r : Region), (s'.twn.regions.find? fun e => e.2.target && e.2.id == u32At b 4) = some (k, r) →
        (BitVec.ofNat 8 (u8At b 1) = s'.twn.gen → r.st = .syncing ∨ r.st = .inSync → r.offset ≤ off →
          off + 64 * n ≤ r.offset + r.length →
          (r.seq = u64At b 8 → exec (.mirrorWrite t) s₀ = .next (answer stOk (applyMirror r.part lines (b.drop 32)
            (setRegion k ({ r with seq := r.seq + 1 }.advance off n) s'))))
          ∧ (r.seq ≠ u64At b 8 → exec (.mirrorWrite t) s₀ = .next (answer stBadArg (logErr 0x0035 30 (leBytes 4 (u32At b 4)
            ++ leBytes 2 stBadArg) (setRegion k { r with st := .detached } s')))))
        ∧ (BitVec.ofNat 8 (u8At b 1) = s'.twn.gen → ¬ ((r.st = .syncing ∨ r.st = .inSync) ∧ r.offset ≤ off
            ∧ off + 64 * n ≤ r.offset + r.length) →
          exec (.mirrorWrite t) s₀ = .next (answer stAccessDenied (logErr 0x0035 30 (leBytes 4 (u32At b 4) ++ leBytes 2 stAccessDenied)
            (setRegion k { r with st := .detached } s'))))
        ∧ (BitVec.ofNat 8 (u8At b 1) ≠ s'.twn.gen → exec (.mirrorWrite t) s₀ = .next (answer stPeerReset (logErr 0x0035 30
            (leBytes 4 (u32At b 4) ++ leBytes 2 stPeerReset) (setRegion k { r with st := .detached } s')))))
      ∧ ((s'.twn.regions.find? fun e => e.2.target && e.2.id == u32At b 4) = none → BitVec.ofNat 8 (u8At b 1) = s'.twn.gen →
        exec (.mirrorWrite t) s₀
          = .next (answer stAccessDenied (logErr 0x0035 30 (leBytes 4 (u32At b 4) ++ leBytes 2 stAccessDenied) s'))))
    ∧ (∀ g : BitVec 8, cutStopped s = false → takeMsg (isMirror 0xD0) s = some (m, s') → g = BitVec.ofNat 8 (u8At m.bytes 1) →
      (∀ (k : Nat) (r : Region) (e : MirrorSent) (rest : List MirrorSent), g = s'.twn.gen →
        (s'.twn.regions.find? fun e => !e.2.target && e.2.id == u32At m.bytes 4) = some (k, r) → r.sent = e :: rest →
        e.seq = u64At m.bytes 8 →
        (isSuccess (u16At m.bytes 2) = true → exec (.mirrorWriteAnswer t) s₀ = .next (mirrorResume (tryYieldAck (copyRegion k
          (setRegion k { r with sent := rest, answered := if e.copy then r.answered else r.answered + e.lines } s')))))
        ∧ (isSuccess (u16At m.bytes 2) = false → exec (.mirrorWriteAnswer t) s₀ = .next (mirrorResume (tryYieldAck (logErr 0x0035 30
          (leBytes 4 r.id ++ leBytes 2 (u16At m.bytes 2)) (setRegion k r.detach s'))))))
      ∧ (g ≠ s'.twn.gen → genLater s'.twn.gen g = true → exec (.mirrorWriteAnswer t) s₀ = .next (declareLost s'))
      ∧ (g ≠ s'.twn.gen → genLater s'.twn.gen g = false → exec (.mirrorWriteAnswer t) s₀ = .next (answerStale s')))
    ∧ (∀ (k : Nat) (r : Region), tget k s.twn.regions = some r → r.st = .syncing → r.carried = r.length →
      exec (.mirrorSyncDone t k) s₀ = .next (setRegion k { r with st := .inSync } s))

/-! ### Heartbeats and resets -/

/-- Heartbeats (13 R383 to R386): a beat of an active bough is noted, the check declares none hung when none has missed, Root's beat arms
its watchdog, whose expiry restarts Root or resets the device. -/
def Obligations.BeatEventsComplete : Prop :=
  ∀ (t : Nat) (s₀ s : State), s = s₀.at t →
    (∀ (b : Fin 64) (seq tiles stall : Nat), (bough s b).st = .active → crownAwake s = true → (hartState s (.twig b)).halted = false →
      s.root.alive = true →
      exec (.twigBeat t b seq tiles stall) s₀ = .next (modCmb (fun c => { c with beats := vmod c.beats b fun x =>
        { lastBeat := s.now, tiles := tiles, stall := stall, sinceReset := min 3 (x.sinceReset + 1)
          tilesAt := if tiles = x.tiles ∧ (stall = 0 ∨ stall = 3) then x.tilesAt else s.now } }) s))
    ∧ ((∀ b : Fin 64, countsMisses s b = true → s.now < (vget s.cmb.beats b).lastBeat + 300000
        ∧ s.now < (vget s.cmb.beats b).tilesAt + s.cfg.progressMs * 1000000) →
      exec (.beatCheck t) s₀ = .next s)
    ∧ (∀ b : Fin 64, s.root.alive = true → crownAwake s = true → s.obs.cut.st ≠ .taken → s.cmb.crownPending = none →
      s.cmb.devicePending = none → countsMisses s b = true → s.now < (vget s.cmb.beats b).lastBeat + 300000 →
      (boughRecord s b).1 ≠ 0xFFFFFFFF → (vget s.cmb.beats b).tilesAt + s.cfg.progressMs * 1000000 ≤ s.now →
      (∀ c : Fin 64, c ≠ b → countsMisses s c = false) →
      exec (.beatCheck t) s₀ = .next (declareHung b 2 s))
    ∧ (∀ (n : Nat) (s₁ : State), 5 ≤ s.boot.stage → s.obs.rootHart.halted = false → s.cmb.devicePending = none →
      n = s.cmb.rootBeats + 1 →
      s₁ = modCmb (fun c => { c with rootBeats := n, lastRootBeat := s.now, wdt := if 3 ≤ n then .armed else .unarmed }) s →
      exec (.rootBeat t) s₀ = .next (if 3 ≤ n ∧ s.cmb.wdt ≠ .armed then
        { s₁ with boot := { s₁.boot with armedAt := some s.now } } else s₁))
    ∧ (∀ (e : Nat) (s₁ : State), s.cmb.wdt = .armed → s.cmb.lastRootBeat + 3000000 ≤ s.now → s.obs.rootHart.halted = false →
      s.cmb.devicePending = none →
      s₁ = modCmb (fun c => { c with wdt := .expired }) (logErr 0x0003 32 (leBytes 4 (sat32 (s.cmb.rootBeats - 3)))
        { s with root := { s.root with alive := false, downAt := s.now } }) →
      (s.cmb.restartEnd = some e → s.now < e + 10000000000 → exec (.rootHang t) s₀ = .next (startDevice 4 s₁))
      ∧ ((∀ e : Nat, s.cmb.restartEnd = some e → e + 10000000000 ≤ s.now) → deviceReached (countDevice 3 s₁) = true →
        exec (.rootHang t) s₀ = .next (startDevice 3 s₁))
      ∧ ((∀ e : Nat, s.cmb.restartEnd = some e → e + 10000000000 ≤ s.now) → deviceReached (countDevice 3 s₁) = false →
        exec (.rootHang t) s₀ = .next (modCmb (fun c => { c with
            restarting := true
            restartAt := some (traceRec 64 0x10 3 0 (modObs (fun o => { o with rootHart := HartState.reset })
              (crashDump (journalReset 3 3 0xFF none (noteReset 3 3 0xFF (countDevice 3 s₁)))))).now
            rootBeats := 0 })
          (traceRec 64 0x10 3 0 (modObs (fun o => { o with rootHart := HartState.reset })
            (crashDump (journalReset 3 3 0xFF none (noteReset 3 3 0xFF (countDevice 3 s₁)))))))))
    ∧ (∀ sa sb sc s₂ s₃ : State, s.cmb.restarting = true → s.cmb.devicePending = none →
      sa = modTxn (fun x => { x with pendingImports := [] }) { s with twn := { s.twn with opening := [] } } →
      (s.cmb.quarantine = none → sb = sa) → (∀ b : Nat, s.cmb.quarantine = some b → sb = endQuarantine (finOf 64 b) sa) →
      sc = (if sb.pwr.st = .entering then modPwr (fun p => { p with st := .run, phase := 0 }) sb else sb) →
      s₂ = (fins 130).foldl restartTickets ((fins 130).foldl restartChan sc) →
      s₃ = modCmb (fun c => { c with
          restarting := false, restartEnd := some s₂.now, wdt := if c.wdt = .expired then .unarmed else c.wdt })
        { s₂ with root := { s₂.root with refusals := [] } } →
      exec (.rootRestart t) s₀ = .next (if s₃.boot.stage = 5 then s₃ else rootServes s₃))
    ∧ (∀ r : Nat, s.cmb.restartAt = some r → r + 100000000 ≤ s.now → s.cmb.wdt ≠ .armed → s.boot.stage = 5 →
      s.obs.rootHart.halted = false →
      exec (.bootTimeout t) s₀ = .next (startDevice 5 s))
    ∧ (s.cmb.restartAt = none → s.boot.armedAt = none → s.cmb.deviceAt + 5000000000 ≤ s.now → s.cmb.wdt ≠ .armed →
      s.boot.stage ≠ 0 → s.boot.stage ≠ 7 → s.obs.rootHart.halted = false →
      exec (.bootTimeout t) s₀ = .next (startDevice 5 s))

/-- A bough's silence of three beats is a hang: the bough is logged hung and its reset begins (13 R384). -/
def Obligations.MissedBeatsResetTheBough : Prop :=
  ∀ (t : Nat) (b : Fin 64) (s₀ s : State), s = s₀.at t → s.root.alive = true → crownAwake s = true → s.obs.cut.st ≠ .taken →
    s.cmb.crownPending = none → s.cmb.devicePending = none → countsMisses s b = true →
    (vget s.cmb.beats b).lastBeat + 300000 ≤ s.now → (∀ c : Fin 64, c ≠ b → countsMisses s c = false) →
    exec (.beatCheck t) s₀ = .next (declareHung b 1 s)

/-- Resets under way (13 R392, R394, R396, R408; 02 R61): a bough's and Crown's reset end with their boughs serving again, a device reset
leaves the sequence at its start with one boot more, a stalled crossing is logged and escalates, a journal gap is recorded. -/
def Obligations.ResetEventsComplete : Prop :=
  ∀ (t : Nat) (s₀ s : State), s = s₀.at t →
    (∀ (b : Fin 64) (cause : Nat) (regs : Option CoreRegs) (s₁ sr s₂ : State), tget b.val s.cmb.boughPending = some cause →
      s₁ = modCmb (fun c => { c with boughPending := tdel b.val c.boughPending }) (coreSample b 1 cause regs s) →
      (∀ n : Nat, boughPart s b = some n → sr = if resetUnderWay s₁ n = true then s₁ else failRecords n s₁) →
      (boughPart s b = none → sr = s₁) → s₂ = retireBough b cause (reviveBough b 1 sr) →
      exec (.boughReset t b regs) s₀ = .next (pump ((ticketsOn s₂ 0x0900 (.bough b.val)).foldl
        (fun s k => finishTicket k.1 k.2 stOk [] s) s₂)))
    ∧ (∀ (cause : Nat) (s₁ s₂ s₃ : State), s.cmb.crownPending = some cause →
      s₁ = modCmb (fun c => { c with crownPending := none, boughPending := [] })
        ((crownBoughs s).foldl (fun s b => crownSample b cause s) s) →
      s₂ = (crownParts s₁).foldl (fun s n => failRecords n s) s₁ →
      s₃ = (crownBoughs s).foldl (fun s b => reviveBough b 2 s) ((fins 64).foldl (fun s b => zeroScratch b s) s₂) →
      exec (.crownReset t) s₀ = .next (pump ((runningTickets s₃ 0x0901 ++ runningTickets s₃ 0x0900).foldl
        (fun s k => finishTicket k.1 k.2 stOk [] s) s₃)))
    ∧ (∀ sender receiver : Fin 40, islandGated s receiver.val = true → exec (.islandStall t sender receiver) s₀ = .next s)
    ∧ (∀ sender receiver : Fin 40, islandGated s receiver.val = false → ∃ s' : State,
      exec (.islandStall t sender receiver) s₀ = .next (logErr 0x0001 sender.val (leBytes 1 receiver.val) s') ∧
      s' = { s with stalls := (s.stalls.filter fun y => !(y.sender == sender.val && y.receiver == receiver.val)) ++
        [{ sender := sender.val, receiver := receiver.val, since := s.now - min s.now 100000 }] })
    ∧ (∀ sender receiver : Fin 40, receiver.val < 16 → s.root.alive = true → (s.stalls.any fun x =>
        x.sender == sender.val && x.receiver == receiver.val && decide (x.since + 10000000 ≤ s.now)) = true →
      exec (.islandStallEscalate t sender receiver) s₀
        = .next (startCrown 6 { s with stalls := s.stalls.filter fun x => decide (16 ≤ x.receiver) }))
    ∧ (∀ cause : Nat, s.cmb.devicePending = some cause → ∃ s' : State,
      exec (.deviceWarmReset t) s₀ = .next s' ∧ s'.cmb.deviceAt = s.now ∧ s'.pwr.st = .run
        ∧ (cause = 7 → s'.cmb.outOfService = true))
    ∧ (∀ x : Nat, s.root.resetAt = some x → x ≤ s.now → exec (.resetDelayExpire t) s₀ = .next (startDevice 0 s))
    ∧ (0 < s.fjr.lost → (s.fjr.held = true → s.fjr.buffer.flatten.length + 32 ≤ 0x40000) →
      exec (.journalGap t) s₀ = .next (logErr 0x0040 35 (leBytes 4 (sat32 s.fjr.lost))
        (journal 0x08 35 (leBytes 4 (sat32 s.fjr.lost) ++ zeros 4 ++ leBytes 8 s.fjr.lostTime)
          { s with fjr := { s.fjr with lost := 0, gaps := sat32 (s.fjr.gaps + 1) } })))

/-! ### Observation and debug -/

/-- Tracing and time (12 R354, R357, R359, R360, R364, R365): a full or old trace buffer drains, segments go out while there is room, a
sample is traced, sync messages are sent and traced, counters freeze at their instant. -/
def Obligations.ObservationEventsComplete : Prop :=
  ∀ (t : Nat) (s₀ s : State), s = s₀.at t →
    (∀ u : Fin 82, hbmOpen s = true → 1024 ≤ (tgetD u.val [] s.obs.bufs).length →
      exec (.traceDrain t u) s₀ = .next (drainUnit u.val s))
    ∧ (∀ (u : Fin 82) (e : Nat × Bytes) (rest : List (Nat × Bytes)), hbmOpen s = true → tgetD u.val [] s.obs.bufs = e :: rest →
      e.1 + 100000 ≤ s.now → exec (.traceDrain t u) s₀ = .next (drainUnit u.val s))
    ∧ (s.obs.exportOn = true → s.pwr.pcieUp = true →
      exec (.traceExport t) s₀ = .next ((s.obs.segUncopied.take (exportRoom s.obs)).foldl (fun s e => exportOne e.2.2 s)
        (modObs (fun o => { o with segUncopied := o.segUncopied.drop (exportRoom s.obs) }) s)))
    ∧ (∀ (u : Fin 82) (pc : BitVec 32) (stall : Nat) (h : Hart), unitHart u.val = some h →
      s.obs.traceMask.testBit (unitIsland u.val) = true → unitAsleep s u.val = false →
      ((hartState s h).halted = true ∨ stallOk u.val stall = true) →
      (∀ x : Nat, tget u.val s.obs.sampledAt = some x → x + sampleNs s u.val ≤ s.now) →
      exec (.pcSample t u pc stall) s₀ = .next (traceRec u.val 0x01
        (sampleAux s u.val (if (hartState s h).halted = true then 10 else stall)) pc.toNat
        (modObs (fun o => { o with sampledAt := tset u.val s.now o.sampledAt }) s)))
    ∧ (∀ (u : Fin 82) (pc : BitVec 32) (stall x : Nat), tget u.val s.obs.sampledAt = some x → s.now < x + sampleNs s u.val →
      exec (.pcSample t u pc stall) s₀ = .next s)
    ∧ (∀ p : Fin 8, (port s p).phys.st = 8 → (port s p).link.st = .up → s.obs.syncInterval ≠ 0 →
      (port s p).link.lastSync + s.obs.syncInterval * 1000 ≤ s.now →
      exec (.syncTx t p) s₀ = .next (queueMsg p 7 4 0 none (leBytes 2 (ownChip s) ++ leBytes 1 p.val ++ zeros 1
          ++ leBytes 4 (port s p).link.syncSeq ++ leBytes 8 s.now)
        (modLink p (fun l => { l with lastSync := s.now, syncSeq := (l.syncSeq + 1) % 2 ^ 32 }) s)))
    ∧ (∀ (m : InMsg) (p : Fin 8) (s' : State), takeMsg (fun m => m.typ == 4) s = some (m, s') → m.port = some p →
      exec (.syncRx t) s₀ = .next (traceAt (u64At m.bytes 8) (65 + p.val) 0x0F (u32At m.bytes 4 % 65536) 0
        (traceAt m.at_ (65 + p.val) 0x0E (u32At m.bytes 4 % 65536) (u16At m.bytes 0 % 1024 + (if m.suspect = true then 2 ^ 31 else 0)) s')))
    ∧ exec (.freezeArm t) s₀ = .next (modObs (fun o => { o with freezeTime := some (max o.freezeAt s.now) }) s)
    ∧ exec (.freezeNow t) s₀ = .next (modObs (fun o => { o with freezeAt := s.now + 2000, freezeTime := some (max (s.now + 2000) s.now) }) s)
    ∧ exec (.thaw t) s₀ = .next (modObs (fun o => { o with
        thawTime := some (max o.freezeAt s.now), freezeTime := o.freezeTime.filter fun f => decide (f ≤ s.now) }) s)
    ∧ (∀ b : Fin 64, (vget s.obs.boughs b).frozen ≠ frozenNow s →
      exec (.freezeTimeReached t b) s₀ = .next (modBoughCtr b.val (fun c => { c with frozen := frozenNow s }) (growCounters b.val s)))

/-- Cuts (12 R375 to R377): FIRE fires an armed cut, the marker that closed its channel fires it, and the cut is taken, 50 µs later at
the latest, with its markers sent to the participants; a marker of no such cut is counted. -/
def Obligations.CutEventsComplete : Prop :=
  ∀ (t : Nat) (m : InMsg) (p : Fin 8) (s₀ s s' : State), s = s₀.at t →
    exec (.fire t) s₀ = .next (fireHere s)
    ∧ (takeMsg (fun m => m.typ == 3) s = some (m, s') → m.port = some p → s'.obs.cut.st ≠ .idle → s'.obs.cut.id = u32At m.bytes 0 →
      peerInMap s' p = true → vget s'.obs.cut.received p = false → channelClosed s' p = true →
      exec (.marker t) s₀ = .next (fireCut (u16At m.bytes 4 % 1024) (u8At m.bytes 16 + 1)
        (modCut (fun c => { c with received := vset c.received p true }) s')))
    ∧ (takeMsg (fun m => m.typ == 3) s = some (m, s') → m.port = some p →
      (s'.obs.cut.st = .idle ∨ s'.obs.cut.id ≠ u32At m.bytes 0 ∨ peerInMap s' p = false ∨ vget s'.obs.cut.received p = true
        ∨ channelClosed s' p = false) →
      exec (.marker t) s₀ = .next (modCut (fun c => { c with ignored := sat32 (c.ignored + 1) }) s'))
    ∧ (∀ s₁ : State, s.obs.cut.st = .firing →
      s₁ = modCut (fun c => { c with st := .taken, time := min s.now (c.firedAt + 50000), waiting := 0 }) s →
      exec (.cutTaken t) s₀ = .next ((fins 8).foldl (fun x q =>
        if (port x q).phys.st = 8 ∧ peerInMap x q = true then
          queueMsg q 7 3 0 none (leBytes 4 s₁.obs.cut.id ++ leBytes 2 s₁.obs.cut.origin ++ leBytes 2 (ownChip s₁)
            ++ leBytes 8 s₁.obs.cut.time ++ leBytes 1 s₁.obs.cut.hops ++ zeros 7)
            (modCut (fun c => { c with sent := vset c.sent q true }) x)
        else x) s₁))

/-- Debug (12 R367 to R373): a hart that debug reaches halts and resumes, and no other halts, the module's registers are written and read, a debug request of
a port is answered by its verdict, and the RDBG registers hold the answer or TIMEOUT. -/
def Obligations.DebugEventsComplete : Prop :=
  ∀ (t : Nat) (s₀ s : State), s = s₀.at t →
    (∀ (h : Hart) (regs : CoreRegs) (s₁ : State), mayHalt s h = true → triggerSet (hartState s h) = true → s₁ = haltHart h 2 2 regs s →
      exec (.triggerFire t h regs) s₀ = .next (if s₁.obs.cut.onBreak = true then fireHere s₁ else s₁))
    ∧ (∀ (h : Hart) (regs : CoreRegs), mayHalt s h = false →
      exec (.triggerFire t h regs) s₀ = .next s ∧ exec (.haltRequest t h regs) s₀ = .next s)
    ∧ (∀ (h : Hart) (regs : CoreRegs), mayHalt s h = true → (hartState s h).dcsr.testBit 2 = true →
      exec (.haltRequest t h regs) s₀ = .next (haltHart h 4 4 regs s))
    ∧ (∀ (h : Hart) (regs : CoreRegs), mayHalt s h = true → (hartState s h).dcsr.testBit 2 = false →
      exec (.haltRequest t h regs) s₀ = .next (haltHart h 1 3 regs s))
    ∧ (∀ h : Hart, debugOn s = true → hartSealed s h = false → exec (.resumeRequest t h) s₀ = .next (resumeHart h s))
    ∧ (∀ (root : Bool) (a : BitVec 7) (v : BitVec 32), reaches s .pf = true →
      exec (.debugModuleAccess t root a (some v)) s₀ = .next (dmWrite root a.toNat v.toNat s))
    ∧ (∀ (root : Bool) (a : BitVec 7), reaches s .pf = true →
      exec (.debugModuleAccess t root a none) s₀ = .next (emit (.readData .pf (0x10E000 + (if root then 0x200 else 0) + 4 * a.toNat)
        (dmRead root a.toNat s).1) (dmRead root a.toNat s).2))
    ∧ exec (.rdbgGo t) s₀ = .next (rdbgStart s)
    ∧ (∀ (m : InMsg) (p : Fin 8) (s' : State), takeMsg (fun m => isDebugRequest m && debugReady s m) s = some (m, s') →
      m.port = some p →
      (debugVerdict s' p (u32At m.bytes 4) = stBadArg → exec (.debugRequest t) s₀ = .next (queueMsg p 7 1 0 none
        (debugMsg (u8At m.bytes 0 + 0x80) (u16At m.bytes 2) (u32At m.bytes 4) 0 stBadArg) s'))
      ∧ (debugVerdict s' p (u32At m.bytes 4) = stAccessDenied → exec (.debugRequest t) s₀ = .next { queueMsg p 7 1 0 none
        (debugMsg (u8At m.bytes 0 + 0x80) (u16At m.bytes 2) (u32At m.bytes 4) 0 stAccessDenied)
        { s' with now := min s'.now (m.at_ + 1050) } with now := s'.now })
      ∧ (debugVerdict s' p (u32At m.bytes 4) = stOk → u8At m.bytes 0 ≠ 0x60 →
        exec (.debugRequest t) s₀ = .next (queueMsg p 7 1 0 none
          (debugMsg (u8At m.bytes 0 + 0x80) (u16At m.bytes 2) (u32At m.bytes 4) 0 stOk)
          (writePf (0x100000 + u32At m.bytes 4) (u32At m.bytes 8) s')))
      ∧ (∀ x : Nat × State, debugVerdict s' p (u32At m.bytes 4) = stOk → u8At m.bytes 0 = 0x60 →
        x = readKeyed .pf (0x100100000 + u32At m.bytes 4) (0x100000 + u32At m.bytes 4) s' →
        exec (.debugRequest t) s₀ = .next (queueMsg p 7 1 0 none
          (debugMsg 0xE0 (u16At m.bytes 2) (u32At m.bytes 4) x.1 stOk) x.2)))
    ∧ (∀ (m : InMsg) (tag at_ : Nat) (s' : State), takeMsg isDebugAnswer s = some (m, s') → s'.obs.rdbg.waiting = some (tag, at_) →
      tag = u16At m.bytes 2 → m.port = some (finOf 8 s'.obs.rdbg.port) →
      exec (.debugAnswer t) s₀ = .next (modRdbg (fun r => { r with
        done := true, status := u16At m.bytes 12, waiting := none
        data := if u8At m.bytes 0 = 0xE0 then u32At m.bytes 8 else r.data }) s'))
    ∧ (∀ tag since : Nat, s.obs.rdbg.waiting = some (tag, since) → since + 100000 ≤ s.now →
      exec (.rdbgTimeout t) s₀ = .next (modRdbg (fun r => { r with done := true, status := stTimeout, waiting := none }) s))

/-! ### Power, clocks, PCIe, boot and memory upkeep -/

/-- Measurements and supplies (01 R27; 14 R423 to R429, R443 to R446): a measured power enters the average of the last 1 ms, at most once
in 100 µs, a throttle pin
and temperatures are noted, a warm device trips, supplies and clocks out of their windows are logged and take the device down. -/
def Obligations.PowerEventsComplete : Prop :=
  ∀ (t : Nat) (s₀ s : State), s = s₀.at t →
    (∀ (mw : Nat) (l : List (Nat × Nat)), s.root.alive = true →
      (∀ x : Nat × Nat, s.pwr.samples.getLast? = some x → x.1 + 100000 ≤ s.now) →
      l = (s.pwr.samples.filter fun x => decide (s.now < x.1 + 1000000)) ++ [(s.now, mw)] →
      exec (.powerMeasure t mw) s₀ = .next (throttle (modPwr (fun p => { p with
        samples := l, avgMw := (l.map (·.2)).foldl (· + ·) 0 / l.length }) s)))
    ∧ (∀ (mw : Nat) (x : Nat × Nat), s.pwr.samples.getLast? = some x → s.now < x.1 + 100000 →
      exec (.powerMeasure t mw) s₀ = .next s)
    ∧ (∀ high : Bool, exec (.brdThrotN t high) s₀ = .next (modPwr (fun p => { p with
        brdThrotLow := !high, brdHighSince := if p.brdThrotLow && high then s.now else p.brdHighSince }) s))
    ∧ (∀ v : List Int, v.length = 12 → (∀ x ∈ v, x < 420) → ∃ s' : State,
      exec (.tempSample t v) s₀ = .next s' ∧ s'.pwr.temps.toList = v
        ∧ s'.pwr.coolSince = (if (∀ x ∈ v, x < 340) then some (s.pwr.coolSince.getD s.now) else none) ∧ s'.pwr.st = s.pwr.st)
    ∧ (∀ (v : List Int) (i : Nat), v.length = 12 → (v.findIdx? fun x => decide (420 ≤ x)) = some i → s.pwr.st ≠ .tripped →
      ∃ s' : State, exec (.tempSample t v) s₀ = .next (thermalTrip i (v.getD i 0) s') ∧ s'.pwr.temps.toList = v
        ∧ s'.pwr.st = s.pwr.st)
    ∧ (∀ c : Nat, s.pwr.coolSince = some c → s.pwr.st = .tripped → s.pwr.stuckTripped = false → c + 10000000000 ≤ s.now →
      exec (.tripRecovery t) s₀ = .next (startUp 7 8 s))
    ∧ (∀ (m : Fin 8) (mv : Nat), monitorOn s m = true → outside m mv 5 = true →
      (∀ w : Nat, vget s.pwr.lastWarn m = some w → w + 1000000000 ≤ s.now) →
      exec (.supplyWarn t m mv) s₀ = .next (logErr 0x0050 32 (supplyData m mv)
        (modPwr (fun p => { p with lastWarn := vset p.lastWarn m (some s.now) }) s)))
    ∧ (∀ (m : Fin 8) (mv : Nat), monitorOn s m = true → outside m mv 8 = true →
      exec (.supplyFault t m mv) s₀ = .next (faultDown (logErr 0x0051 32 (supplyData m mv) s)))
    ∧ (∀ (m : Option (Fin 8)) (s₁ : State), (∀ x : Fin 8, m = some x → x.val ≤ 1 ∧ monitorOn s x = true) →
      s₁ = logErr 0x0052 32 (leBytes 1 ((m.map (·.val)).getD 0xFE)) s →
      exec (.supplyGlitch t m) s₀ = .next (if vget s.pwr.enables 1 = true then tamper s₁ else s₁))
    ∧ (∀ (absent : Bool) (ppm limit : Int), (s.pwr.enables.toList.any id) = true →
      limit = (if s.pwr.xtalFallback = true then 30000 else 1000) → (absent = true ∨ limit < ppm ∨ ppm < -limit) →
      exec (.clockFault t absent ppm) s₀ = .next (faultDown (logErr 0x0054 32
        (leBytes 1 (if absent = true then 0 else 1) ++ zeros 3 ++ leBytes 4 (unsignedOf 32 ppm)) s)))
    ∧ (∀ (ppm limit : Int), limit = (if s.pwr.xtalFallback = true then 30000 else 1000) → ppm ≤ limit → -limit ≤ ppm →
      exec (.clockFault t false ppm) s₀ = .next s)
    ∧ (∀ ppm : Int, s.pwr.xtalFallback = false →
      exec (.xtalFallback t ppm) s₀ = .next (logErr 0x0054 32 (leBytes 1 2 ++ zeros 3 ++ leBytes 4 (unsignedOf 32 ppm))
        (modPwr (fun p => { p with xtalFallback := true }) s)))
    ∧ exec (.pcieRefclkLoss t) s₀ = .next (modPwr (fun p => { p with pcieUp := false }) s)

/-- The power-up sequence and the power states (14 R422, R431, R438 to R440; 01 R23; 07 R207): the groups come up in order, the last
starts the boot; a
group that does not come up takes the device down; PERST and function-level resets act on the endpoint; the sleeping states
are left, and reads held in NAP are answered. -/
def Obligations.SequenceEventsComplete : Prop :=
  ∀ (t : Nat) (s₀ s : State), s = s₀.at t →
    (∀ x : Straps, s.pwr.st = .leaving → s.pwr.phase = 0 →
      exec (.powerUp t x) s₀ = .next (modPwr (fun p => { p with
        straps := x, phase := 3, phaseAt := s.now, enables := vset p.enables 0 x.testN }) (drawGens s)))
    ∧ (∀ g : Fin 3, s.pwr.st = .leaving → s.pwr.phase = 3 → s.pwr.groupsUp = g.val → vget s.pwr.enables g = true → ∃ s' : State,
      exec (.railGroupInRange t g) s₀ = .next s' ∧ s'.pwr.groupsUp = g.val + 1
        ∧ (g.val = 2 → s'.pwr.st = .run ∧ s'.boot.stage = 1 ∧ s'.cmb.deviceAt = s.now)
        ∧ (∀ h : g.val + 1 < 3, vget s'.pwr.enables ⟨g.val + 1, h⟩ = true))
    ∧ (∀ m : Fin 8, s.pwr.st = .leaving → s.pwr.phase = 3 → s.pwr.groupsUp = (railGroup m).val → vget s.pwr.enables (railGroup m) = true →
      s.pwr.phaseAt + 10000000 ≤ s.now →
      exec (.seqFail t m) s₀ = .next (faultDown (logErr 0x0053 32 (leBytes 1 m.val) s)))
    ∧ (∀ s' : State, s' = modPwr (fun p => { p with perstHigh := false, pcieUp := false }) s → endpointPowered s' = true →
      exec (.perstFall t) s₀ = .next (startDevice 0 (logPcie 1 0 s')))
    ∧ (∀ s' : State, s' = modPwr (fun p => { p with perstHigh := false, pcieUp := false }) s → endpointPowered s' = false →
      exec (.perstFall t) s₀ = .next s')
    ∧ (∀ s' : State, s' = modPwr (fun p => { p with perstHigh := true, pcieWakeAt := none }) s → endpointPowered s' = true →
      exec (.perstRise t) s₀ = .next (modPwr (fun p => { p with pcieUp := true }) s'))
    ∧ (∀ s' : State, s' = modPwr (fun p => { p with perstHigh := true, pcieWakeAt := none }) s → endpointPowered s' = false →
      exec (.perstRise t) s₀ = .next (wakePowered 5 s'))
    ∧ (s.pwr.pcieUp = true → exec (.pfFlr t) s₀ = .next (startDevice 0 (logPcie 2 0 s)))
    ∧ (∀ n : Fin 128, s.pwr.pcieUp = true →
      exec (.vfFlr t n) s₀ = .next (logPcie 3 n.val (modTxn (fun x => { x with
          pendingImports := x.pendingImports.filter fun e => e.ch != partChan n || e.ticket != 0 })
        (setChan (partChan n) { chan s (partChan n) with
          st := .idle, rsp := [], cur := none, evq := [], head := 0, tail := 0, held := [] } s))))
    ∧ (∀ s₁ : State, s.pwr.st = .leaving → s.pwr.phase = 2 →
      s₁ = backToRun 2 (wakeUp true ((fins 64).foldl (fun s b => zeroScratch b s)
        (modObs (fun o => { o with harts := [] }) (flushJournal s)))) →
      exec (.napExit t) s₀ = .next (s₁.pwr.heldReads.foldl (fun s x => answerRead x.1 x.2.1 x.2.2 s)
        (modPwr (fun p => { p with heldReads := [] }) s₁)))
    ∧ (s.pwr.st = .leaving → s.pwr.phase = 1 → exec (.quietExit t) s₀ = .next (backToRun 1 (wakeUp false s)))
    ∧ (∀ w : Nat, s.pwr.pcieWakeAt = some w → s.pwr.perstHigh = true → w + 100000 ≤ s.now →
      exec (.pcieWakeRelease t) s₀ = .next (modPwr (fun p => { p with pcieWakeAt := none }) s))
    ∧ (∃ s' : State, exec (.coldPowerLoss t) s₀ = .next s' ∧ s'.flash = s₀.flash ∧ s'.fuse = s₀.fuse ∧ s'.pwr = State.reset.pwr
        ∧ s'.mm = State.reset.mm ∧ s'.cmb = State.reset.cmb ∧ s'.crn = State.reset.crn ∧ s'.txn = State.reset.txn
        ∧ s'.hwd = { s₀.hwd.kept with fault := .none, uniq := [] } ∧ (chan s' 0).floor = s₀.hwd.water0 ∧ (chan s' 1).floor = s₀.hwd.water1)

/-- Boot (15 R452, R457, R458): a flash without its parameters, a stack that fails and no good image mean recovery, the preferred slot's good
image starts, else the other's, BOOT_READY serves with the journal
recording, a trial image is confirmed after 60 s and an activation resets the device. -/
def Obligations.BootEventsComplete : Prop :=
  ∀ (t : Nat) (s₀ s : State), s = s₀.at t →
    (∀ (x : BootProbe) (sh : State), s.boot.stage = 1 → s.pwr.st = .run →
      sh = modPwr (fun p => { p with pcieUp := p.perstHigh }) (hwdReset (!x.heartwoodPasses) s) →
      (x.sfdpValid = false ∨ x.quadMode = false) →
      exec (.bootRom t x) s₀ = .next (enterRecovery 2 (if x.heartwoodPasses = true then sh else logErr 0x0041 31 (leBytes 1 3) sh)))
    ∧ (∀ (x : BootProbe) (sh s₁ sd s₂ : State) (a b : Nat), s.boot.stage = 1 → s.pwr.st = .run →
      x.sfdpValid = true → x.quadMode = true →
      sh = modPwr (fun p => { p with pcieUp := p.perstHigh }) (hwdReset (!x.heartwoodPasses) s) →
      s₁ = (if x.heartwoodPasses = true then sh else logErr 0x0041 31 (leBytes 1 3) sh) →
      sd = (if s₁.boot.trialFault = true ∧ (directory s₁).trial = true then updateDirectory (1 - (directory s₁).slot) false s₁ else s₁) →
      s₂ = { sd with boot := { sd.boot with
        trial := (directory sd).trial, trialFault := false, failedStacks := x.stacksFailed.toNat } } →
      a = slotResult s₂ 0 x.spiErrorA → b = slotResult s₂ 1 x.spiErrorB →
      (x.stacksFailed ≠ 0 → exec (.bootRom t x) s₀ = .next (enterRecovery 3 s₂))
      ∧ (x.stacksFailed = 0 → (directory sd).slot = 0 → a = 1 →
        exec (.bootRom t x) s₀ = .next (startImage 0 { s₂ with boot := { s₂.boot with slotA := 1, slotB := 0 } }))
      ∧ (x.stacksFailed = 0 → (directory sd).slot = 0 → a ≠ 1 → b = 1 →
        exec (.bootRom t x) s₀ = .next (startImage 1 { s₂ with boot := { s₂.boot with slotA := a, slotB := 1 } }))
      ∧ (x.stacksFailed = 0 → (directory sd).slot = 1 → b = 1 →
        exec (.bootRom t x) s₀ = .next (startImage 1 { s₂ with boot := { s₂.boot with slotA := 0, slotB := 1 } }))
      ∧ (x.stacksFailed = 0 → (directory sd).slot = 1 → b ≠ 1 → a = 1 →
        exec (.bootRom t x) s₀ = .next (startImage 0 { s₂ with boot := { s₂.boot with slotA := 1, slotB := b } }))
      ∧ (x.stacksFailed = 0 → a ≠ 1 → b ≠ 1 → ∃ reason : Nat, (reason = 1 ∨ reason = 4) ∧
        exec (.bootRom t x) s₀ = .next (enterRecovery reason { s₂ with boot := { s₂.boot with slotA := a, slotB := b } })))
    ∧ (∀ (d e : Bytes × State) (s₁ s₂ s₃ s₄ : State), s.boot.stage = 5 → d = drawBytes 64 s → e = drawBytes 64 d.2 →
      s₁ = modMm (fun m => { m with lendKey := d.1, spillKey := e.1, spillGranules := spillGranulesOf s.cfg }) e.2 →
      s₂ = modCmb (fun c => { c with inReset := false }) { s₁ with boot := { s₁.boot with stage := 6, readyAt := s₁.now } } →
      s₃ = { s₂ with fjr := { s₂.fjr with recording := true, seq := 0, held := false } } →
      s₄ = journal 0x09 30 (leBytes 4 s₃.root.bootCount ++ leBytes 4 s₃.mm.journalMib ++ zeros 8) s₃ →
      exec (.bootReady t) s₀ = .next (rootServes (modPwr (fun p => { p with energyBoot := false })
        (if s₄.cmb.outOfService = true then s₄ else (fins 8).foldl (fun s p => bootPort p s) s₄))))
    ∧ (∀ a : Nat, s.boot.armedAt = some a → s.boot.stage = 6 → s.boot.trial = true → s.boot.trialFault = false →
      s.boot.activateAt = none → s.cmb.wdt = .armed → a + 60000000000 ≤ s.now → ∃ s' : State,
      exec (.trialConfirm t) s₀ = .next s' ∧ s'.boot.trial = false
        ∧ s'.flash = (updateDirectory (directory s).slot false s).flash)
    ∧ (∀ a : Nat, s.boot.activateAt = some a → a ≤ s.now →
      exec (.activateReset t) s₀ = .next (startDevice 0 { s with boot := { s.boot with activateAt := none } }))

/-- Memory upkeep and the windows' queries (03 R86; 06 R174; 07 R208, R214 to R218, R223; 11 R334). -/
def Obligations.UpkeepEventsComplete : Prop :=
  ∀ (t : Nat) (s₀ s : State), s = s₀.at t →
    (∀ g : Nat, memoryRuns s = true → s.mm.zeroing.contains g = true → exec (.granuleZeroised t g) s₀ = .next (zeroGranule g s))
    ∧ (∀ (es : List ScrubError) (bad soft : List Nat) (s₁ : State), memoryRuns s = true → bad = s.mm.eccBad.filter (scrubbed s) →
      soft = (s.mm.eccSoft.filter fun dl => scrubbed s dl && !bad.contains dl) →
      s₁ = soft.foldl (fun s dl => correctLine dl s) (bad.foldl (fun s dl => lineUncorrectable dl s) s) →
      exec (.scrubPass t es) s₀ = .next (modMm (fun m => { m with scrubPasses := sat32 (m.scrubPasses + 1) })
        (es.foldl (fun s e => scrubError e s) s₁)))
    ∧ (∀ (row : Nat) (s₁ : State), memoryRuns s = true → s.cfg.rowErrors ≤ (tgetD row [] (countRow row 0 s).mm.rowErrors).length →
      s₁ = modMm (fun m => { m with rowErrors := tdel row m.rowErrors }) (countRow row 0 s) →
      exec (.rowRetire t row true) s₀ = .next (modMm (fun m => { m with retiredRows := sat32 (m.retiredRows + 1) }) s₁)
      ∧ (∀ h : Nat, freeGranules s₁ ≠ 0 → ((takeGranules s₁ 2).find? fun h => h != row / 2048) = some h →
        exec (.rowRetire t row false) s₀ = .next (modMm (fun m => { m with retiredRows := sat32 (m.retiredRows + 1) })
          (retireGranule (row / 2048) h s₁)))
      ∧ (freeGranules s₁ = 0 → exec (.rowRetire t row false) s₀ = .next (logErr 0x0021 30 (leBytes 4 (rowStart row))
          (modMm (fun m => { m with degradedRows := sat32 (m.degradedRows + 1) }) s₁))))
    ∧ (∀ (n : Fin 128) (p : Partition) (upTo lim : Nat) (s₁ : State), part s n = some p → p.oldPair.isSome = true →
      memoryRuns s = true → lim = max p.sweep (upTo / 64 * 64) →
      s₁ = ((writtenLines s p).filter fun o => decide (p.sweep ≤ o ∧ o < lim)).foldl (sweepLine n) s →
      ((p.pages.any fun e => decide (lim < (e.1 + 1) * granuleBytes)) = true →
        exec (.sweepDone t ⟨n, upTo⟩) s₀ = .next (modPart n (fun p => { p with sweep := lim }) s₁))
      ∧ ((p.pages.any fun e => decide (lim < (e.1 + 1) * granuleBytes)) = false →
        exec (.sweepDone t ⟨n, upTo⟩) s₀ = .next (modPart n (fun p => { p with oldPair := none, sweep := 0 }) s₁)))
    ∧ (∀ c : Fin 64, (vget s.hwd.counters c).erasing = true → ∃ s' : State,
      exec (.bankEraseDone t c) s₀ = .next s' ∧ (vget s'.hwd.counters c).erasing = false
        ∧ ((vget s.hwd.counters c).high % 2 = 0 → (vget s'.hwd.counters c).bankB = 0)
        ∧ ((vget s.hwd.counters c).high % 2 ≠ 0 → (vget s'.hwd.counters c).bankA = 0))
    ∧ (∀ chip n id : Nat, s.root.alive = true →
      exec (.exportQuery t chip n id) s₀ = .next (emit (.exportAnswer chip n id (exportFor s id chip n)) s))
    ∧ (∀ (ch : Fin 130) (e : Option ExportInfo) (p : PendingImport) (r : Request), s.root.alive = true →
      (s.txn.pendingImports.find? fun p => p.ch == ch) = some p → p.ticket = 0 → acceptedReq s ch = some r → r.cmd = 0x0106 →
      exec (.exportQueryAnswer t ch e) s₀ = .next (importDone ch r p.part p.chip p.remote e
        (modTxn (fun x => { x with pendingImports := x.pendingImports.erase p }) s)))
    ∧ (∀ e : Nat × Region × (Fin 130 × Request), (s.twn.opening.find? fun e => decide (e.1 + 2000000 ≤ s.now)) = some e →
      exec (.mirrorOpenTimeout t) s₀ = .next (finishOpening e stTimeout s))

/-! ### Rules of the whole device -/

/-- A byte memory holds what was last stored in it and nothing else changes: for every memory in canonical form, a store keeps the form,
the stored bytes are read back, and every other byte reads as before. -/
def Obligations.MemoryReadsBackWhatWasStored : Prop :=
  ∀ (d : BitVec 8) (m : Mem) (a : Nat) (b : Bytes), Mem.wf d m = true →
    Mem.wf d (Mem.write d m a b) = true
    ∧ Mem.read d (Mem.write d m a b) a b.length = b
    ∧ (∀ x : Nat, x < a ∨ a + b.length ≤ x → Mem.get d (Mem.write d m a b) x = Mem.get d m x)
    ∧ (∀ n : Nat, Mem.wf d (Mem.clear m a n) = true ∧ (∀ x : Nat, a ≤ x → x < a + n → Mem.get d (Mem.clear m a n) x = d)
      ∧ (∀ x : Nat, x < a ∨ a + n ≤ x → Mem.get d (Mem.clear m a n) x = Mem.get d m x))

/-- A write of EVQ_TAIL moves TAIL only forward within the events that have been written, frees the slots it passes over and leaves every
unread event as it was; any other value leaves the queue as it was and sets EVQ_REJECT (02 R46). -/
def Obligations.EventTailMovesOnlyOverWrittenEvents : Prop :=
  ∀ (t : Nat) (ch : Fin 130) (v : BitVec 32) (s₀ s : State), s = s₀.at t → reaches s (chanRequester ch) = true →
    (v.toNat < 64 ∧ (v.toNat + 64 - (chan s ch).tail) % 64 ≤ ((chan s ch).head + 64 - (chan s ch).tail) % 64 →
      (chan s ch).head < 64 → ∃ s' : State, exec (.evqTail t ch v) s₀ = .next s' ∧ (chan s' ch).tail = v.toNat
        ∧ (chan s' ch).evqReject = (chan s ch).evqReject
        ∧ (∀ k : Nat, k < ((chan s ch).head + 64 - v.toNat) % 64 →
          tget ((v.toNat + k) % 64) (chan s' ch).evq = tget ((v.toNat + k) % 64) (chan s ch).evq))
    ∧ (¬ (v.toNat < 64 ∧ (v.toNat + 64 - (chan s ch).tail) % 64 ≤ ((chan s ch).head + 64 - (chan s ch).tail) % 64) →
      exec (.evqTail t ch v) s₀ = .next (setChan ch { chan s ch with evqReject := true } s))

/-- Each requester holds a latch of its own for each 64-bit pair: a read of one offset changes no other latch, and every latch is 0
after reset (02 R5, R6). -/
def Obligations.LatchesStandApart : Prop :=
  (∀ (r : Requester) (k : Nat), latched State.reset r k = 0)
    ∧ (∀ (t off : Nat) (r : Requester) (wide : Bool) (s₀ s : State), s = s₀.at t → ∃ s' : State,
      exec (.lowWordRead t r ⟨off, wide⟩) s₀ = .next s'
      ∧ (∀ (r' : Requester) (k : Nat), r' ≠ r ∨ (k ≠ off ∧ (wide = false ∨ k ≠ off + 4)) → latched s' r' k = latched s r' k))

/-- A reset of the device returns every channel to IDLE without tickets or events, restarts ticket numbers and counts one boot more;
RESET_DEVICE is answered first and the reset begins at its delay, or at the instant of an earlier one still waiting (02 R61). -/
def Obligations.DeviceResetClearsTheChannels : Prop :=
  ∀ (t : Nat) (s₀ s : State), s = s₀.at t →
    (∀ (ch : Fin 130) (r : Request) (ms : Nat) (s₁ : State), Ready 0x0902 t ch r s₀ s → parseArgs [4] r.args = some [ms] → ms ≤ 1000 →
      s₁ = respond ch r stOk 0 [] s →
      exec (.resetDevice t ch) s₀ = .next { s₁ with root := { s₁.root with
        resetAt := some (min (s₁.now + ms * 1000000) (s₁.root.resetAt.getD (s₁.now + ms * 1000000))) } })
    ∧ (∀ x : Nat, s.root.resetAt = some x → x ≤ s.now → s.cmb.devicePending = none → ∃ s' : State,
      exec (.resetDelayExpire t) s₀ = .next s' ∧ s'.cmb.devicePending = some 0)
    ∧ (∀ cause : Nat, s.cmb.devicePending = some cause → ∃ s' : State, exec (.deviceWarmReset t) s₀ = .next s'
      ∧ (∀ ch : Fin 130, (chan s' ch).st = .idle ∧ (chan s' ch).tickets = [] ∧ (chan s' ch).evq = [] ∧ (chan s' ch).held = []
        ∧ (chan s' ch).head = (chan s' ch).tail ∧ (chan s' ch).nextTicket = 1)
      ∧ s'.root.bootCount = (s.root.bootCount + 1) % 2 ^ 32)

/-- RETURN_TO_SERVICE clears the histories and the retirements and logs itself: in READY the retired boughs become FREE and nothing else
changes but the partitions' masks of those boughs (the model's choice, log entry 41); out of service a device warm reset with cause
COMMAND begins at once, after which the device serves (13 R404). -/
def Obligations.ReturnToServiceClearsHistories : Prop :=
  ∀ (t : Nat) (ch : Fin 130) (r : Request) (s₀ s : State), Ready 0x0907 t ch r s₀ s → noArgs r.args = some () →
    (s.cmb.outOfService = false → ∃ s₁ : State,
      exec (.returnToService t ch) s₀ = .next (respond ch r stOk 0 [] (logErr 0x0007 30 [] s₁))
      ∧ s₁.cmb = { s.cmb with deviceHist := [], boughHist := Vector.replicate 64 [], retired := 0 }
      ∧ (∀ b : Fin 64, ((bough s b).st = .retired → (bough s₁ b).st = .free) ∧ ((bough s b).st ≠ .retired → bough s₁ b = bough s b))
      ∧ s₁ = { s with cmb := s₁.cmb, crn := { s.crn with boughs := s₁.crn.boughs }, mm := { s.mm with parts := s₁.mm.parts } })
    ∧ (s.cmb.outOfService = true → s.cmb.devicePending = none → ∃ s' : State,
      exec (.returnToService t ch) s₀ = .next s' ∧ (chan s' ch).st = .done ∧ s'.cmb.devicePending = some 0
        ∧ s'.cmb.outOfService = false ∧ s'.cmb.deviceHist = [] ∧ s'.cmb.retired = 0)
    ∧ (∀ u₀ u : State, u = u₀.at t → u.cmb.devicePending = some 0 → u.cmb.outOfService = false → ∃ u' : State,
      exec (.deviceWarmReset t) u₀ = .next u' ∧ u'.cmb.outOfService = false ∧ u'.cmb.devicePending = none)

/-- The trunk answers a join with BAD_ARG where the member's entry is JOINED or SILENT under another serial, and otherwise with OK and
an entry JOINED with the serial and the route generation; it discards a beat of another serial (11 R326). -/
def Obligations.TrunkRegistersMembers : Prop :=
  ∀ (t : Nat) (m : InMsg) (s₀ s s' : State), s = s₀.at t → isTrunk s' = true →
    (CtrlArrives 0x81 0 12 s m s' →
      ((∃ e : RegEntry, tget (ctrlSrc m) s'.grv.reg = some e ∧ (e.st = .joined ∨ e.st = .silent) ∧ e.serial ≠ u64At (ctrlFields m) 0) →
        exec (.grvJoin t) s₀
          = .next (sendRouted 0x82 (ctrlSrc m) 0 (leBytes 2 stBadArg ++ zeros 2 ++ leBytes 4 s'.txn.routeGen) s'))
      ∧ ((∀ e : RegEntry, tget (ctrlSrc m) s'.grv.reg = some e → e.st = .joined ∨ e.st = .silent → e.serial = u64At (ctrlFields m) 0) →
        ∃ (e : RegEntry) (s₁ : State), tget (ctrlSrc m) s₁.grv.reg = some e ∧ e.st = .joined ∧ e.serial = u64At (ctrlFields m) 0
          ∧ e.routeGen = u32At (ctrlFields m) 8 ∧ exec (.grvJoin t) s₀
            = .next (sendRouted 0x82 (ctrlSrc m) 0 (leBytes 2 stOk ++ zeros 2 ++ leBytes 4 s'.txn.routeGen) s₁)))
    ∧ (∀ e : RegEntry, CtrlArrives 0x83 0 28 s m s' → tget (ctrlSrc m) s'.grv.reg = some e → e.serial ≠ u64At (ctrlFields m) 0 →
      exec (.grvBeat t) s₀ = .next s')

/-- While a cut fires or is taken no record starts, ends, completes or is skipped, whatever its queue and opcode (12 R376, step 1). -/
def Obligations.CutsStopRecords : Prop :=
  ∀ (t : Nat) (n : Fin 128) (q : Fin 16) (host data : Bytes) (number : BitVec 32) (kind : HostFail) (s₀ s : State), s = s₀.at t →
    cutStopped s = true →
    exec (.nop t n q host) s₀ = .next s ∧ exec (.matmul t n q host) s₀ = .next s ∧ exec (.vec t n q host) s₀ = .next s
    ∧ exec (.attend t n q host) s₀ = .next s ∧ exec (.sample t n q host) s₀ = .next s ∧ exec (.convert t n q host) s₀ = .next s
    ∧ exec (.copy t n q host data) s₀ = .next s ∧ exec (.fill t n q host) s₀ = .next s ∧ exec (.remoteOp t n q host) s₀ = .next s
    ∧ exec (.prefetch t n q host) s₀ = .next s ∧ exec (.collective t n q host) s₀ = .next s ∧ exec (.tokenize t n q host) s₀ = .next s
    ∧ exec (.step t n q host) s₀ = .next s ∧ exec (.recordSkip t n q host) s₀ = .next s
    ∧ exec (.recordComplete t n q number) s₀ = .next s ∧ exec (.hostAccessFail t n q kind host data) s₀ = .next s

/-- No register beyond the mailbox windows changes what only commands change: partitions, windows, routes and bundles, keys, collective
groups, token-engine tables, the grove's and the twin's state, power limits, and each link's security (02 R30). Root's core is not halted
for debug: a resume of it lets Root serve the requests that wait. -/
def Obligations.RegistersChangeNoCommandState : Prop :=
  ∀ (t off : Nat) (r : Requester) (v : BitVec 32) (s₀ s s' : State), s = s₀.at t → 0x4000 ≤ off →
    s.obs.rootHart.halted = false → exec (.registerWrite t r off v) s₀ = .next s' →
    s'.mm.parts = s.mm.parts ∧ s'.txn.exports = s.txn.exports ∧ s'.txn.imports = s.txn.imports ∧ s'.txn.routes = s.txn.routes
      ∧ s'.txn.bundles = s.txn.bundles ∧ s'.hwd = s.hwd ∧ s'.col = s.col ∧ s'.tke = s.tke ∧ s'.grv = s.grv ∧ s'.twn = s.twn
      ∧ s'.pwr.limitMw = s.pwr.limitMw
      ∧ (∀ p : Fin 8, (port s' p).link.mode = (port s p).link.mode ∧ (port s' p).link.txKey = (port s p).link.txKey)

/-- A write to the buffers of a channel that is not idle changes neither the request page nor the request that Root took at its t0
(02 R34, R35). -/
def Obligations.TheRequestIsTheContentAtCapture : Prop :=
  ∀ (t off : Nat) (ch : Fin 130) (v : BitVec 32) (r : Request) (s₀ s : State), s = s₀.at t → reaches s (chanRequester ch) = true →
    (chan s ch).st ≠ .idle → (chan s ch).cur = some r → off < 0x2000 → ∃ s' : State,
    exec (.registerWrite t (chanRequester ch) off v) s₀ = .next s' ∧ (chan s' ch).cur = some r
      ∧ (chan s' ch).req = (chan s ch).req ∧ (chan s' ch).st = (chan s ch).st
end

