-- ==== Sys2Proof/Laws/Mem.lean ====
section
/-! SUPPORT. The canonical form of the sparse memories: what it says entry by entry, and that every operation that changes a memory
keeps it. -/

namespace Sys2Proof.Machine

/-- The canonical form entry by entry: addresses strictly rising, no entry equal to what an unlisted address reads as. -/
theorem Mem.wf_iff (d : BitVec 8) (m : Mem) :
    Mem.wf d m = true ↔ m.Pairwise (fun a b => a.1 < b.1) ∧ ∀ e ∈ m, e.2 ≠ d := by
  induction m with
  | nil => simp [Mem.wf]
  | cons e t ih =>
    obtain ⟨k, v⟩ := e
    cases t with
    | nil => simp [Mem.wf]
    | cons e' t =>
      obtain ⟨k', v'⟩ := e'
      simp only [Mem.wf, Bool.and_eq_true, bne_iff_ne, decide_eq_true_eq, ih]
      constructor
      · rintro ⟨⟨hv, hk⟩, hp, ha⟩
        refine ⟨List.pairwise_cons.2 ⟨?_, hp⟩, ?_⟩
        · intro x hx
          rcases List.mem_cons.1 hx with rfl | hx
          · exact hk
          · exact lt_trans hk ((List.pairwise_cons.1 hp).1 x hx)
        · intro x hx
          rcases List.mem_cons.1 hx with rfl | hx
          · exact hv
          · exact ha x hx
      · rintro ⟨hp, ha⟩
        obtain ⟨h1, h2⟩ := List.pairwise_cons.1 hp
        exact ⟨⟨ha (k, v) (by simp), h1 (k', v') (by simp)⟩, h2, fun x hx => ha x (by simp [hx])⟩

/-- The entries of stored bytes lie in the bytes' range and differ from `d`. -/
theorem Mem.entries_mem {d : BitVec 8} {a : Nat} {b : Bytes} {e : Nat × BitVec 8} (h : e ∈ Mem.entries d a b) :
    a ≤ e.1 ∧ e.1 < a + b.length ∧ e.2 ≠ d := by
  induction b generalizing a with
  | nil => simp [Mem.entries] at h
  | cons x b ih =>
    simp only [Mem.entries] at h
    split at h
    · have := ih h
      simp only [List.length_cons]
      exact ⟨by omega, by omega, this.2.2⟩
    · rcases List.mem_cons.1 h with rfl | h
      · simp only [List.length_cons]
        exact ⟨le_refl _, by omega, ‹_›⟩
      · have := ih h
        simp only [List.length_cons]
        exact ⟨by omega, by omega, this.2.2⟩

/-- The entries of stored bytes rise. -/
theorem Mem.entries_pairwise (d : BitVec 8) (a : Nat) (b : Bytes) : (Mem.entries d a b).Pairwise (fun x y => x.1 < y.1) := by
  induction b generalizing a with
  | nil => simp [Mem.entries]
  | cons x b ih =>
    simp only [Mem.entries]
    split
    · exact ih _
    · refine List.pairwise_cons.2 ⟨?_, ih _⟩
      intro e he
      have := Mem.entries_mem he
      show a < e.1
      omega

/-- A memory with fewer entries keeps the form. -/
theorem Mem.wf_filter {d : BitVec 8} {m : Mem} (p : Nat × BitVec 8 → Bool) (h : Mem.wf d m = true) :
    Mem.wf d (m.filter p) = true := by
  rw [Mem.wf_iff] at h ⊢
  exact ⟨h.1.filter _, fun e he => h.2 e (List.mem_filter.1 he).1⟩

/-- A store keeps the form. -/
theorem Mem.wf_write {d : BitVec 8} {m : Mem} (a : Nat) (b : Bytes) (h : Mem.wf d m = true) : Mem.wf d (Mem.write d m a b) = true := by
  rw [Mem.wf_iff] at h ⊢
  unfold Mem.write
  constructor
  · refine List.pairwise_append.2 ⟨List.pairwise_append.2 ⟨h.1.filter _, Mem.entries_pairwise d a b, ?_⟩, h.1.filter _, ?_⟩
    · intro x hx y hy
      have h1 := (List.mem_filter.1 hx).2
      have h2 := Mem.entries_mem hy
      simp only [decide_eq_true_eq] at h1
      omega
    · intro x hx y hy
      have h2 := (List.mem_filter.1 hy).2
      simp only [decide_eq_true_eq] at h2
      rcases List.mem_append.1 hx with hx | hx
      · have h1 := (List.mem_filter.1 hx).2
        simp only [decide_eq_true_eq] at h1
        omega
      · have h1 := Mem.entries_mem hx
        omega
  · intro e he
    rcases List.mem_append.1 he with he | he
    · rcases List.mem_append.1 he with he | he
      · exact h.2 e (List.mem_filter.1 he).1
      · exact (Mem.entries_mem he).2.2
    · exact h.2 e (List.mem_filter.1 he).1

/-- Clearing a range keeps the form. -/
theorem Mem.wf_clear {d : BitVec 8} {m : Mem} (a n : Nat) (h : Mem.wf d m = true) : Mem.wf d (Mem.clear m a n) = true :=
  Mem.wf_filter _ h

/-- An empty memory has the form. -/
@[simp] theorem Mem.wf_nil (d : BitVec 8) : Mem.wf d [] = true := rfl

end Sys2Proof.Machine
end

