-- ==== Sys2Proof/Laws/State.lean ====
section
/-! SUPPORT. What each named update of the state leaves in each of its fields, so that no proof unfolds a record update. -/

namespace Sys2Proof.Machine

/-! Time. -/

@[simp] theorem State.at_now (s : State) (t : Nat) : (s.at t).now = max s.now t := rfl
@[simp] theorem State.at_free (s : State) (t : Nat) : (s.at t).free = s.free := rfl
@[simp] theorem State.at_out (s : State) (t : Nat) : (s.at t).out = s.out := rfl
@[simp] theorem State.at_latch (s : State) (t : Nat) : (s.at t).latch = s.latch := rfl
@[simp] theorem State.at_root (s : State) (t : Nat) : (s.at t).root = s.root := rfl
@[simp] theorem State.at_hwd (s : State) (t : Nat) : (s.at t).hwd = s.hwd := rfl
@[simp] theorem State.at_mm (s : State) (t : Nat) : (s.at t).mm = s.mm := rfl
@[simp] theorem State.at_cmb (s : State) (t : Nat) : (s.at t).cmb = s.cmb := rfl
@[simp] theorem State.at_fjr (s : State) (t : Nat) : (s.at t).fjr = s.fjr := rfl
@[simp] theorem State.at_obs (s : State) (t : Nat) : (s.at t).obs = s.obs := rfl
@[simp] theorem State.at_ports (s : State) (t : Nat) : (s.at t).ports = s.ports := rfl
@[simp] theorem State.at_txn (s : State) (t : Nat) : (s.at t).txn = s.txn := rfl
@[simp] theorem State.at_crn (s : State) (t : Nat) : (s.at t).crn = s.crn := rfl
@[simp] theorem State.at_col (s : State) (t : Nat) : (s.at t).col = s.col := rfl
@[simp] theorem State.at_tke (s : State) (t : Nat) : (s.at t).tke = s.tke := rfl
@[simp] theorem State.at_grv (s : State) (t : Nat) : (s.at t).grv = s.grv := rfl
@[simp] theorem State.at_twn (s : State) (t : Nat) : (s.at t).twn = s.twn := rfl
@[simp] theorem State.at_pwr (s : State) (t : Nat) : (s.at t).pwr = s.pwr := rfl
@[simp] theorem State.at_boot (s : State) (t : Nat) : (s.at t).boot = s.boot := rfl
@[simp] theorem State.at_cfg (s : State) (t : Nat) : (s.at t).cfg = s.cfg := rfl
@[simp] theorem State.at_fuse (s : State) (t : Nat) : (s.at t).fuse = s.fuse := rfl
@[simp] theorem State.at_flash (s : State) (t : Nat) : (s.at t).flash = s.flash := rfl
@[simp] theorem State.at_stalls (s : State) (t : Nat) : (s.at t).stalls = s.stalls := rfl
@[simp] theorem State.at_pending (s : State) (t : Nat) : (s.at t).pending = s.pending := rfl

/-! Output. -/

@[simp] theorem emit_now (e : Emit) (s : State) : (emit e s).now = s.now := rfl
@[simp] theorem emit_free (e : Emit) (s : State) : (emit e s).free = s.free := rfl
@[simp] theorem emit_out (e : Emit) (s : State) : (emit e s).out = s.out ++ [e] := rfl
@[simp] theorem emit_latch (e : Emit) (s : State) : (emit e s).latch = s.latch := rfl
@[simp] theorem emit_root (e : Emit) (s : State) : (emit e s).root = s.root := rfl
@[simp] theorem emit_hwd (e : Emit) (s : State) : (emit e s).hwd = s.hwd := rfl
@[simp] theorem emit_mm (e : Emit) (s : State) : (emit e s).mm = s.mm := rfl
@[simp] theorem emit_cmb (e : Emit) (s : State) : (emit e s).cmb = s.cmb := rfl
@[simp] theorem emit_fjr (e : Emit) (s : State) : (emit e s).fjr = s.fjr := rfl
@[simp] theorem emit_obs (e : Emit) (s : State) : (emit e s).obs = s.obs := rfl
@[simp] theorem emit_ports (e : Emit) (s : State) : (emit e s).ports = s.ports := rfl
@[simp] theorem emit_txn (e : Emit) (s : State) : (emit e s).txn = s.txn := rfl
@[simp] theorem emit_crn (e : Emit) (s : State) : (emit e s).crn = s.crn := rfl
@[simp] theorem emit_col (e : Emit) (s : State) : (emit e s).col = s.col := rfl
@[simp] theorem emit_tke (e : Emit) (s : State) : (emit e s).tke = s.tke := rfl
@[simp] theorem emit_grv (e : Emit) (s : State) : (emit e s).grv = s.grv := rfl
@[simp] theorem emit_twn (e : Emit) (s : State) : (emit e s).twn = s.twn := rfl
@[simp] theorem emit_pwr (e : Emit) (s : State) : (emit e s).pwr = s.pwr := rfl
@[simp] theorem emit_boot (e : Emit) (s : State) : (emit e s).boot = s.boot := rfl
@[simp] theorem emit_cfg (e : Emit) (s : State) : (emit e s).cfg = s.cfg := rfl
@[simp] theorem emit_fuse (e : Emit) (s : State) : (emit e s).fuse = s.fuse := rfl
@[simp] theorem emit_flash (e : Emit) (s : State) : (emit e s).flash = s.flash := rfl
@[simp] theorem emit_stalls (e : Emit) (s : State) : (emit e s).stalls = s.stalls := rfl
@[simp] theorem emit_pending (e : Emit) (s : State) : (emit e s).pending = s.pending := rfl

/-! `modCmb`. -/

@[simp] theorem modCmb_now (f : Cmb → Cmb) (s : State) : (modCmb f s).now = s.now := rfl
@[simp] theorem modCmb_free (f : Cmb → Cmb) (s : State) : (modCmb f s).free = s.free := rfl
@[simp] theorem modCmb_out (f : Cmb → Cmb) (s : State) : (modCmb f s).out = s.out := rfl
@[simp] theorem modCmb_latch (f : Cmb → Cmb) (s : State) : (modCmb f s).latch = s.latch := rfl
@[simp] theorem modCmb_root (f : Cmb → Cmb) (s : State) : (modCmb f s).root = s.root := rfl
@[simp] theorem modCmb_hwd (f : Cmb → Cmb) (s : State) : (modCmb f s).hwd = s.hwd := rfl
@[simp] theorem modCmb_mm (f : Cmb → Cmb) (s : State) : (modCmb f s).mm = s.mm := rfl
@[simp] theorem modCmb_cmb (f : Cmb → Cmb) (s : State) : (modCmb f s).cmb = f s.cmb := rfl
@[simp] theorem modCmb_fjr (f : Cmb → Cmb) (s : State) : (modCmb f s).fjr = s.fjr := rfl
@[simp] theorem modCmb_obs (f : Cmb → Cmb) (s : State) : (modCmb f s).obs = s.obs := rfl
@[simp] theorem modCmb_ports (f : Cmb → Cmb) (s : State) : (modCmb f s).ports = s.ports := rfl
@[simp] theorem modCmb_txn (f : Cmb → Cmb) (s : State) : (modCmb f s).txn = s.txn := rfl
@[simp] theorem modCmb_crn (f : Cmb → Cmb) (s : State) : (modCmb f s).crn = s.crn := rfl
@[simp] theorem modCmb_col (f : Cmb → Cmb) (s : State) : (modCmb f s).col = s.col := rfl
@[simp] theorem modCmb_tke (f : Cmb → Cmb) (s : State) : (modCmb f s).tke = s.tke := rfl
@[simp] theorem modCmb_grv (f : Cmb → Cmb) (s : State) : (modCmb f s).grv = s.grv := rfl
@[simp] theorem modCmb_twn (f : Cmb → Cmb) (s : State) : (modCmb f s).twn = s.twn := rfl
@[simp] theorem modCmb_pwr (f : Cmb → Cmb) (s : State) : (modCmb f s).pwr = s.pwr := rfl
@[simp] theorem modCmb_boot (f : Cmb → Cmb) (s : State) : (modCmb f s).boot = s.boot := rfl
@[simp] theorem modCmb_cfg (f : Cmb → Cmb) (s : State) : (modCmb f s).cfg = s.cfg := rfl
@[simp] theorem modCmb_fuse (f : Cmb → Cmb) (s : State) : (modCmb f s).fuse = s.fuse := rfl
@[simp] theorem modCmb_flash (f : Cmb → Cmb) (s : State) : (modCmb f s).flash = s.flash := rfl
@[simp] theorem modCmb_stalls (f : Cmb → Cmb) (s : State) : (modCmb f s).stalls = s.stalls := rfl
@[simp] theorem modCmb_pending (f : Cmb → Cmb) (s : State) : (modCmb f s).pending = s.pending := rfl

/-! `modGrv`. -/

@[simp] theorem modGrv_now (f : Grove → Grove) (s : State) : (modGrv f s).now = s.now := rfl
@[simp] theorem modGrv_free (f : Grove → Grove) (s : State) : (modGrv f s).free = s.free := rfl
@[simp] theorem modGrv_out (f : Grove → Grove) (s : State) : (modGrv f s).out = s.out := rfl
@[simp] theorem modGrv_latch (f : Grove → Grove) (s : State) : (modGrv f s).latch = s.latch := rfl
@[simp] theorem modGrv_root (f : Grove → Grove) (s : State) : (modGrv f s).root = s.root := rfl
@[simp] theorem modGrv_hwd (f : Grove → Grove) (s : State) : (modGrv f s).hwd = s.hwd := rfl
@[simp] theorem modGrv_mm (f : Grove → Grove) (s : State) : (modGrv f s).mm = s.mm := rfl
@[simp] theorem modGrv_cmb (f : Grove → Grove) (s : State) : (modGrv f s).cmb = s.cmb := rfl
@[simp] theorem modGrv_fjr (f : Grove → Grove) (s : State) : (modGrv f s).fjr = s.fjr := rfl
@[simp] theorem modGrv_obs (f : Grove → Grove) (s : State) : (modGrv f s).obs = s.obs := rfl
@[simp] theorem modGrv_ports (f : Grove → Grove) (s : State) : (modGrv f s).ports = s.ports := rfl
@[simp] theorem modGrv_txn (f : Grove → Grove) (s : State) : (modGrv f s).txn = s.txn := rfl
@[simp] theorem modGrv_crn (f : Grove → Grove) (s : State) : (modGrv f s).crn = s.crn := rfl
@[simp] theorem modGrv_col (f : Grove → Grove) (s : State) : (modGrv f s).col = s.col := rfl
@[simp] theorem modGrv_tke (f : Grove → Grove) (s : State) : (modGrv f s).tke = s.tke := rfl
@[simp] theorem modGrv_grv (f : Grove → Grove) (s : State) : (modGrv f s).grv = f s.grv := rfl
@[simp] theorem modGrv_twn (f : Grove → Grove) (s : State) : (modGrv f s).twn = s.twn := rfl
@[simp] theorem modGrv_pwr (f : Grove → Grove) (s : State) : (modGrv f s).pwr = s.pwr := rfl
@[simp] theorem modGrv_boot (f : Grove → Grove) (s : State) : (modGrv f s).boot = s.boot := rfl
@[simp] theorem modGrv_cfg (f : Grove → Grove) (s : State) : (modGrv f s).cfg = s.cfg := rfl
@[simp] theorem modGrv_fuse (f : Grove → Grove) (s : State) : (modGrv f s).fuse = s.fuse := rfl
@[simp] theorem modGrv_flash (f : Grove → Grove) (s : State) : (modGrv f s).flash = s.flash := rfl
@[simp] theorem modGrv_stalls (f : Grove → Grove) (s : State) : (modGrv f s).stalls = s.stalls := rfl
@[simp] theorem modGrv_pending (f : Grove → Grove) (s : State) : (modGrv f s).pending = s.pending := rfl

/-! `modTwn`. -/

@[simp] theorem modTwn_now (f : Twin → Twin) (s : State) : (modTwn f s).now = s.now := rfl
@[simp] theorem modTwn_free (f : Twin → Twin) (s : State) : (modTwn f s).free = s.free := rfl
@[simp] theorem modTwn_out (f : Twin → Twin) (s : State) : (modTwn f s).out = s.out := rfl
@[simp] theorem modTwn_latch (f : Twin → Twin) (s : State) : (modTwn f s).latch = s.latch := rfl
@[simp] theorem modTwn_root (f : Twin → Twin) (s : State) : (modTwn f s).root = s.root := rfl
@[simp] theorem modTwn_hwd (f : Twin → Twin) (s : State) : (modTwn f s).hwd = s.hwd := rfl
@[simp] theorem modTwn_mm (f : Twin → Twin) (s : State) : (modTwn f s).mm = s.mm := rfl
@[simp] theorem modTwn_cmb (f : Twin → Twin) (s : State) : (modTwn f s).cmb = s.cmb := rfl
@[simp] theorem modTwn_fjr (f : Twin → Twin) (s : State) : (modTwn f s).fjr = s.fjr := rfl
@[simp] theorem modTwn_obs (f : Twin → Twin) (s : State) : (modTwn f s).obs = s.obs := rfl
@[simp] theorem modTwn_ports (f : Twin → Twin) (s : State) : (modTwn f s).ports = s.ports := rfl
@[simp] theorem modTwn_txn (f : Twin → Twin) (s : State) : (modTwn f s).txn = s.txn := rfl
@[simp] theorem modTwn_crn (f : Twin → Twin) (s : State) : (modTwn f s).crn = s.crn := rfl
@[simp] theorem modTwn_col (f : Twin → Twin) (s : State) : (modTwn f s).col = s.col := rfl
@[simp] theorem modTwn_tke (f : Twin → Twin) (s : State) : (modTwn f s).tke = s.tke := rfl
@[simp] theorem modTwn_grv (f : Twin → Twin) (s : State) : (modTwn f s).grv = s.grv := rfl
@[simp] theorem modTwn_twn (f : Twin → Twin) (s : State) : (modTwn f s).twn = f s.twn := rfl
@[simp] theorem modTwn_pwr (f : Twin → Twin) (s : State) : (modTwn f s).pwr = s.pwr := rfl
@[simp] theorem modTwn_boot (f : Twin → Twin) (s : State) : (modTwn f s).boot = s.boot := rfl
@[simp] theorem modTwn_cfg (f : Twin → Twin) (s : State) : (modTwn f s).cfg = s.cfg := rfl
@[simp] theorem modTwn_fuse (f : Twin → Twin) (s : State) : (modTwn f s).fuse = s.fuse := rfl
@[simp] theorem modTwn_flash (f : Twin → Twin) (s : State) : (modTwn f s).flash = s.flash := rfl
@[simp] theorem modTwn_stalls (f : Twin → Twin) (s : State) : (modTwn f s).stalls = s.stalls := rfl
@[simp] theorem modTwn_pending (f : Twin → Twin) (s : State) : (modTwn f s).pending = s.pending := rfl

/-! `modCol`. -/

@[simp] theorem modCol_now (f : Col → Col) (s : State) : (modCol f s).now = s.now := rfl
@[simp] theorem modCol_free (f : Col → Col) (s : State) : (modCol f s).free = s.free := rfl
@[simp] theorem modCol_out (f : Col → Col) (s : State) : (modCol f s).out = s.out := rfl
@[simp] theorem modCol_latch (f : Col → Col) (s : State) : (modCol f s).latch = s.latch := rfl
@[simp] theorem modCol_root (f : Col → Col) (s : State) : (modCol f s).root = s.root := rfl
@[simp] theorem modCol_hwd (f : Col → Col) (s : State) : (modCol f s).hwd = s.hwd := rfl
@[simp] theorem modCol_mm (f : Col → Col) (s : State) : (modCol f s).mm = s.mm := rfl
@[simp] theorem modCol_cmb (f : Col → Col) (s : State) : (modCol f s).cmb = s.cmb := rfl
@[simp] theorem modCol_fjr (f : Col → Col) (s : State) : (modCol f s).fjr = s.fjr := rfl
@[simp] theorem modCol_obs (f : Col → Col) (s : State) : (modCol f s).obs = s.obs := rfl
@[simp] theorem modCol_ports (f : Col → Col) (s : State) : (modCol f s).ports = s.ports := rfl
@[simp] theorem modCol_txn (f : Col → Col) (s : State) : (modCol f s).txn = s.txn := rfl
@[simp] theorem modCol_crn (f : Col → Col) (s : State) : (modCol f s).crn = s.crn := rfl
@[simp] theorem modCol_col (f : Col → Col) (s : State) : (modCol f s).col = f s.col := rfl
@[simp] theorem modCol_tke (f : Col → Col) (s : State) : (modCol f s).tke = s.tke := rfl
@[simp] theorem modCol_grv (f : Col → Col) (s : State) : (modCol f s).grv = s.grv := rfl
@[simp] theorem modCol_twn (f : Col → Col) (s : State) : (modCol f s).twn = s.twn := rfl
@[simp] theorem modCol_pwr (f : Col → Col) (s : State) : (modCol f s).pwr = s.pwr := rfl
@[simp] theorem modCol_boot (f : Col → Col) (s : State) : (modCol f s).boot = s.boot := rfl
@[simp] theorem modCol_cfg (f : Col → Col) (s : State) : (modCol f s).cfg = s.cfg := rfl
@[simp] theorem modCol_fuse (f : Col → Col) (s : State) : (modCol f s).fuse = s.fuse := rfl
@[simp] theorem modCol_flash (f : Col → Col) (s : State) : (modCol f s).flash = s.flash := rfl
@[simp] theorem modCol_stalls (f : Col → Col) (s : State) : (modCol f s).stalls = s.stalls := rfl
@[simp] theorem modCol_pending (f : Col → Col) (s : State) : (modCol f s).pending = s.pending := rfl

/-! `modObs`. -/

@[simp] theorem modObs_now (f : Obs → Obs) (s : State) : (modObs f s).now = s.now := rfl
@[simp] theorem modObs_free (f : Obs → Obs) (s : State) : (modObs f s).free = s.free := rfl
@[simp] theorem modObs_out (f : Obs → Obs) (s : State) : (modObs f s).out = s.out := rfl
@[simp] theorem modObs_latch (f : Obs → Obs) (s : State) : (modObs f s).latch = s.latch := rfl
@[simp] theorem modObs_root (f : Obs → Obs) (s : State) : (modObs f s).root = s.root := rfl
@[simp] theorem modObs_hwd (f : Obs → Obs) (s : State) : (modObs f s).hwd = s.hwd := rfl
@[simp] theorem modObs_mm (f : Obs → Obs) (s : State) : (modObs f s).mm = s.mm := rfl
@[simp] theorem modObs_cmb (f : Obs → Obs) (s : State) : (modObs f s).cmb = s.cmb := rfl
@[simp] theorem modObs_fjr (f : Obs → Obs) (s : State) : (modObs f s).fjr = s.fjr := rfl
@[simp] theorem modObs_obs (f : Obs → Obs) (s : State) : (modObs f s).obs = f s.obs := rfl
@[simp] theorem modObs_ports (f : Obs → Obs) (s : State) : (modObs f s).ports = s.ports := rfl
@[simp] theorem modObs_txn (f : Obs → Obs) (s : State) : (modObs f s).txn = s.txn := rfl
@[simp] theorem modObs_crn (f : Obs → Obs) (s : State) : (modObs f s).crn = s.crn := rfl
@[simp] theorem modObs_col (f : Obs → Obs) (s : State) : (modObs f s).col = s.col := rfl
@[simp] theorem modObs_tke (f : Obs → Obs) (s : State) : (modObs f s).tke = s.tke := rfl
@[simp] theorem modObs_grv (f : Obs → Obs) (s : State) : (modObs f s).grv = s.grv := rfl
@[simp] theorem modObs_twn (f : Obs → Obs) (s : State) : (modObs f s).twn = s.twn := rfl
@[simp] theorem modObs_pwr (f : Obs → Obs) (s : State) : (modObs f s).pwr = s.pwr := rfl
@[simp] theorem modObs_boot (f : Obs → Obs) (s : State) : (modObs f s).boot = s.boot := rfl
@[simp] theorem modObs_cfg (f : Obs → Obs) (s : State) : (modObs f s).cfg = s.cfg := rfl
@[simp] theorem modObs_fuse (f : Obs → Obs) (s : State) : (modObs f s).fuse = s.fuse := rfl
@[simp] theorem modObs_flash (f : Obs → Obs) (s : State) : (modObs f s).flash = s.flash := rfl
@[simp] theorem modObs_stalls (f : Obs → Obs) (s : State) : (modObs f s).stalls = s.stalls := rfl
@[simp] theorem modObs_pending (f : Obs → Obs) (s : State) : (modObs f s).pending = s.pending := rfl

/-! `modHwd`. -/

@[simp] theorem modHwd_now (f : Hwd → Hwd) (s : State) : (modHwd f s).now = s.now := rfl
@[simp] theorem modHwd_free (f : Hwd → Hwd) (s : State) : (modHwd f s).free = s.free := rfl
@[simp] theorem modHwd_out (f : Hwd → Hwd) (s : State) : (modHwd f s).out = s.out := rfl
@[simp] theorem modHwd_latch (f : Hwd → Hwd) (s : State) : (modHwd f s).latch = s.latch := rfl
@[simp] theorem modHwd_root (f : Hwd → Hwd) (s : State) : (modHwd f s).root = s.root := rfl
@[simp] theorem modHwd_hwd (f : Hwd → Hwd) (s : State) : (modHwd f s).hwd = f s.hwd := rfl
@[simp] theorem modHwd_mm (f : Hwd → Hwd) (s : State) : (modHwd f s).mm = s.mm := rfl
@[simp] theorem modHwd_cmb (f : Hwd → Hwd) (s : State) : (modHwd f s).cmb = s.cmb := rfl
@[simp] theorem modHwd_fjr (f : Hwd → Hwd) (s : State) : (modHwd f s).fjr = s.fjr := rfl
@[simp] theorem modHwd_obs (f : Hwd → Hwd) (s : State) : (modHwd f s).obs = s.obs := rfl
@[simp] theorem modHwd_ports (f : Hwd → Hwd) (s : State) : (modHwd f s).ports = s.ports := rfl
@[simp] theorem modHwd_txn (f : Hwd → Hwd) (s : State) : (modHwd f s).txn = s.txn := rfl
@[simp] theorem modHwd_crn (f : Hwd → Hwd) (s : State) : (modHwd f s).crn = s.crn := rfl
@[simp] theorem modHwd_col (f : Hwd → Hwd) (s : State) : (modHwd f s).col = s.col := rfl
@[simp] theorem modHwd_tke (f : Hwd → Hwd) (s : State) : (modHwd f s).tke = s.tke := rfl
@[simp] theorem modHwd_grv (f : Hwd → Hwd) (s : State) : (modHwd f s).grv = s.grv := rfl
@[simp] theorem modHwd_twn (f : Hwd → Hwd) (s : State) : (modHwd f s).twn = s.twn := rfl
@[simp] theorem modHwd_pwr (f : Hwd → Hwd) (s : State) : (modHwd f s).pwr = s.pwr := rfl
@[simp] theorem modHwd_boot (f : Hwd → Hwd) (s : State) : (modHwd f s).boot = s.boot := rfl
@[simp] theorem modHwd_cfg (f : Hwd → Hwd) (s : State) : (modHwd f s).cfg = s.cfg := rfl
@[simp] theorem modHwd_fuse (f : Hwd → Hwd) (s : State) : (modHwd f s).fuse = s.fuse := rfl
@[simp] theorem modHwd_flash (f : Hwd → Hwd) (s : State) : (modHwd f s).flash = s.flash := rfl
@[simp] theorem modHwd_stalls (f : Hwd → Hwd) (s : State) : (modHwd f s).stalls = s.stalls := rfl
@[simp] theorem modHwd_pending (f : Hwd → Hwd) (s : State) : (modHwd f s).pending = s.pending := rfl

/-! `modMm`. -/

@[simp] theorem modMm_now (f : MemState → MemState) (s : State) : (modMm f s).now = s.now := rfl
@[simp] theorem modMm_free (f : MemState → MemState) (s : State) : (modMm f s).free = s.free := rfl
@[simp] theorem modMm_out (f : MemState → MemState) (s : State) : (modMm f s).out = s.out := rfl
@[simp] theorem modMm_latch (f : MemState → MemState) (s : State) : (modMm f s).latch = s.latch := rfl
@[simp] theorem modMm_root (f : MemState → MemState) (s : State) : (modMm f s).root = s.root := rfl
@[simp] theorem modMm_hwd (f : MemState → MemState) (s : State) : (modMm f s).hwd = s.hwd := rfl
@[simp] theorem modMm_mm (f : MemState → MemState) (s : State) : (modMm f s).mm = f s.mm := rfl
@[simp] theorem modMm_cmb (f : MemState → MemState) (s : State) : (modMm f s).cmb = s.cmb := rfl
@[simp] theorem modMm_fjr (f : MemState → MemState) (s : State) : (modMm f s).fjr = s.fjr := rfl
@[simp] theorem modMm_obs (f : MemState → MemState) (s : State) : (modMm f s).obs = s.obs := rfl
@[simp] theorem modMm_ports (f : MemState → MemState) (s : State) : (modMm f s).ports = s.ports := rfl
@[simp] theorem modMm_txn (f : MemState → MemState) (s : State) : (modMm f s).txn = s.txn := rfl
@[simp] theorem modMm_crn (f : MemState → MemState) (s : State) : (modMm f s).crn = s.crn := rfl
@[simp] theorem modMm_col (f : MemState → MemState) (s : State) : (modMm f s).col = s.col := rfl
@[simp] theorem modMm_tke (f : MemState → MemState) (s : State) : (modMm f s).tke = s.tke := rfl
@[simp] theorem modMm_grv (f : MemState → MemState) (s : State) : (modMm f s).grv = s.grv := rfl
@[simp] theorem modMm_twn (f : MemState → MemState) (s : State) : (modMm f s).twn = s.twn := rfl
@[simp] theorem modMm_pwr (f : MemState → MemState) (s : State) : (modMm f s).pwr = s.pwr := rfl
@[simp] theorem modMm_boot (f : MemState → MemState) (s : State) : (modMm f s).boot = s.boot := rfl
@[simp] theorem modMm_cfg (f : MemState → MemState) (s : State) : (modMm f s).cfg = s.cfg := rfl
@[simp] theorem modMm_fuse (f : MemState → MemState) (s : State) : (modMm f s).fuse = s.fuse := rfl
@[simp] theorem modMm_flash (f : MemState → MemState) (s : State) : (modMm f s).flash = s.flash := rfl
@[simp] theorem modMm_stalls (f : MemState → MemState) (s : State) : (modMm f s).stalls = s.stalls := rfl
@[simp] theorem modMm_pending (f : MemState → MemState) (s : State) : (modMm f s).pending = s.pending := rfl

/-! `modTxn`. -/

@[simp] theorem modTxn_now (f : TxnState → TxnState) (s : State) : (modTxn f s).now = s.now := rfl
@[simp] theorem modTxn_free (f : TxnState → TxnState) (s : State) : (modTxn f s).free = s.free := rfl
@[simp] theorem modTxn_out (f : TxnState → TxnState) (s : State) : (modTxn f s).out = s.out := rfl
@[simp] theorem modTxn_latch (f : TxnState → TxnState) (s : State) : (modTxn f s).latch = s.latch := rfl
@[simp] theorem modTxn_root (f : TxnState → TxnState) (s : State) : (modTxn f s).root = s.root := rfl
@[simp] theorem modTxn_hwd (f : TxnState → TxnState) (s : State) : (modTxn f s).hwd = s.hwd := rfl
@[simp] theorem modTxn_mm (f : TxnState → TxnState) (s : State) : (modTxn f s).mm = s.mm := rfl
@[simp] theorem modTxn_cmb (f : TxnState → TxnState) (s : State) : (modTxn f s).cmb = s.cmb := rfl
@[simp] theorem modTxn_fjr (f : TxnState → TxnState) (s : State) : (modTxn f s).fjr = s.fjr := rfl
@[simp] theorem modTxn_obs (f : TxnState → TxnState) (s : State) : (modTxn f s).obs = s.obs := rfl
@[simp] theorem modTxn_ports (f : TxnState → TxnState) (s : State) : (modTxn f s).ports = s.ports := rfl
@[simp] theorem modTxn_txn (f : TxnState → TxnState) (s : State) : (modTxn f s).txn = f s.txn := rfl
@[simp] theorem modTxn_crn (f : TxnState → TxnState) (s : State) : (modTxn f s).crn = s.crn := rfl
@[simp] theorem modTxn_col (f : TxnState → TxnState) (s : State) : (modTxn f s).col = s.col := rfl
@[simp] theorem modTxn_tke (f : TxnState → TxnState) (s : State) : (modTxn f s).tke = s.tke := rfl
@[simp] theorem modTxn_grv (f : TxnState → TxnState) (s : State) : (modTxn f s).grv = s.grv := rfl
@[simp] theorem modTxn_twn (f : TxnState → TxnState) (s : State) : (modTxn f s).twn = s.twn := rfl
@[simp] theorem modTxn_pwr (f : TxnState → TxnState) (s : State) : (modTxn f s).pwr = s.pwr := rfl
@[simp] theorem modTxn_boot (f : TxnState → TxnState) (s : State) : (modTxn f s).boot = s.boot := rfl
@[simp] theorem modTxn_cfg (f : TxnState → TxnState) (s : State) : (modTxn f s).cfg = s.cfg := rfl
@[simp] theorem modTxn_fuse (f : TxnState → TxnState) (s : State) : (modTxn f s).fuse = s.fuse := rfl
@[simp] theorem modTxn_flash (f : TxnState → TxnState) (s : State) : (modTxn f s).flash = s.flash := rfl
@[simp] theorem modTxn_stalls (f : TxnState → TxnState) (s : State) : (modTxn f s).stalls = s.stalls := rfl
@[simp] theorem modTxn_pending (f : TxnState → TxnState) (s : State) : (modTxn f s).pending = s.pending := rfl

/-! `modTke`. -/

@[simp] theorem modTke_now (f : Tke → Tke) (s : State) : (modTke f s).now = s.now := rfl
@[simp] theorem modTke_free (f : Tke → Tke) (s : State) : (modTke f s).free = s.free := rfl
@[simp] theorem modTke_out (f : Tke → Tke) (s : State) : (modTke f s).out = s.out := rfl
@[simp] theorem modTke_latch (f : Tke → Tke) (s : State) : (modTke f s).latch = s.latch := rfl
@[simp] theorem modTke_root (f : Tke → Tke) (s : State) : (modTke f s).root = s.root := rfl
@[simp] theorem modTke_hwd (f : Tke → Tke) (s : State) : (modTke f s).hwd = s.hwd := rfl
@[simp] theorem modTke_mm (f : Tke → Tke) (s : State) : (modTke f s).mm = s.mm := rfl
@[simp] theorem modTke_cmb (f : Tke → Tke) (s : State) : (modTke f s).cmb = s.cmb := rfl
@[simp] theorem modTke_fjr (f : Tke → Tke) (s : State) : (modTke f s).fjr = s.fjr := rfl
@[simp] theorem modTke_obs (f : Tke → Tke) (s : State) : (modTke f s).obs = s.obs := rfl
@[simp] theorem modTke_ports (f : Tke → Tke) (s : State) : (modTke f s).ports = s.ports := rfl
@[simp] theorem modTke_txn (f : Tke → Tke) (s : State) : (modTke f s).txn = s.txn := rfl
@[simp] theorem modTke_crn (f : Tke → Tke) (s : State) : (modTke f s).crn = s.crn := rfl
@[simp] theorem modTke_col (f : Tke → Tke) (s : State) : (modTke f s).col = s.col := rfl
@[simp] theorem modTke_tke (f : Tke → Tke) (s : State) : (modTke f s).tke = f s.tke := rfl
@[simp] theorem modTke_grv (f : Tke → Tke) (s : State) : (modTke f s).grv = s.grv := rfl
@[simp] theorem modTke_twn (f : Tke → Tke) (s : State) : (modTke f s).twn = s.twn := rfl
@[simp] theorem modTke_pwr (f : Tke → Tke) (s : State) : (modTke f s).pwr = s.pwr := rfl
@[simp] theorem modTke_boot (f : Tke → Tke) (s : State) : (modTke f s).boot = s.boot := rfl
@[simp] theorem modTke_cfg (f : Tke → Tke) (s : State) : (modTke f s).cfg = s.cfg := rfl
@[simp] theorem modTke_fuse (f : Tke → Tke) (s : State) : (modTke f s).fuse = s.fuse := rfl
@[simp] theorem modTke_flash (f : Tke → Tke) (s : State) : (modTke f s).flash = s.flash := rfl
@[simp] theorem modTke_stalls (f : Tke → Tke) (s : State) : (modTke f s).stalls = s.stalls := rfl
@[simp] theorem modTke_pending (f : Tke → Tke) (s : State) : (modTke f s).pending = s.pending := rfl

/-! `modPwr`. -/

@[simp] theorem modPwr_now (f : Pwr → Pwr) (s : State) : (modPwr f s).now = s.now := rfl
@[simp] theorem modPwr_free (f : Pwr → Pwr) (s : State) : (modPwr f s).free = s.free := rfl
@[simp] theorem modPwr_out (f : Pwr → Pwr) (s : State) : (modPwr f s).out = s.out := rfl
@[simp] theorem modPwr_latch (f : Pwr → Pwr) (s : State) : (modPwr f s).latch = s.latch := rfl
@[simp] theorem modPwr_root (f : Pwr → Pwr) (s : State) : (modPwr f s).root = s.root := rfl
@[simp] theorem modPwr_hwd (f : Pwr → Pwr) (s : State) : (modPwr f s).hwd = s.hwd := rfl
@[simp] theorem modPwr_mm (f : Pwr → Pwr) (s : State) : (modPwr f s).mm = s.mm := rfl
@[simp] theorem modPwr_cmb (f : Pwr → Pwr) (s : State) : (modPwr f s).cmb = s.cmb := rfl
@[simp] theorem modPwr_fjr (f : Pwr → Pwr) (s : State) : (modPwr f s).fjr = s.fjr := rfl
@[simp] theorem modPwr_obs (f : Pwr → Pwr) (s : State) : (modPwr f s).obs = s.obs := rfl
@[simp] theorem modPwr_ports (f : Pwr → Pwr) (s : State) : (modPwr f s).ports = s.ports := rfl
@[simp] theorem modPwr_txn (f : Pwr → Pwr) (s : State) : (modPwr f s).txn = s.txn := rfl
@[simp] theorem modPwr_crn (f : Pwr → Pwr) (s : State) : (modPwr f s).crn = s.crn := rfl
@[simp] theorem modPwr_col (f : Pwr → Pwr) (s : State) : (modPwr f s).col = s.col := rfl
@[simp] theorem modPwr_tke (f : Pwr → Pwr) (s : State) : (modPwr f s).tke = s.tke := rfl
@[simp] theorem modPwr_grv (f : Pwr → Pwr) (s : State) : (modPwr f s).grv = s.grv := rfl
@[simp] theorem modPwr_twn (f : Pwr → Pwr) (s : State) : (modPwr f s).twn = s.twn := rfl
@[simp] theorem modPwr_pwr (f : Pwr → Pwr) (s : State) : (modPwr f s).pwr = f s.pwr := rfl
@[simp] theorem modPwr_boot (f : Pwr → Pwr) (s : State) : (modPwr f s).boot = s.boot := rfl
@[simp] theorem modPwr_cfg (f : Pwr → Pwr) (s : State) : (modPwr f s).cfg = s.cfg := rfl
@[simp] theorem modPwr_fuse (f : Pwr → Pwr) (s : State) : (modPwr f s).fuse = s.fuse := rfl
@[simp] theorem modPwr_flash (f : Pwr → Pwr) (s : State) : (modPwr f s).flash = s.flash := rfl
@[simp] theorem modPwr_stalls (f : Pwr → Pwr) (s : State) : (modPwr f s).stalls = s.stalls := rfl
@[simp] theorem modPwr_pending (f : Pwr → Pwr) (s : State) : (modPwr f s).pending = s.pending := rfl

/-! `setChan`. -/

@[simp] theorem setChan_now (ch : Fin 130) (c : Chan) (s : State) : (setChan ch c s).now = s.now := rfl
@[simp] theorem setChan_free (ch : Fin 130) (c : Chan) (s : State) : (setChan ch c s).free = s.free := rfl
@[simp] theorem setChan_out (ch : Fin 130) (c : Chan) (s : State) : (setChan ch c s).out = s.out := rfl
@[simp] theorem setChan_latch (ch : Fin 130) (c : Chan) (s : State) : (setChan ch c s).latch = s.latch := rfl
@[simp] theorem setChan_root (ch : Fin 130) (c : Chan) (s : State) : (setChan ch c s).root = { s.root with chans := vset s.root.chans ch c } := rfl
@[simp] theorem setChan_hwd (ch : Fin 130) (c : Chan) (s : State) : (setChan ch c s).hwd = s.hwd := rfl
@[simp] theorem setChan_mm (ch : Fin 130) (c : Chan) (s : State) : (setChan ch c s).mm = s.mm := rfl
@[simp] theorem setChan_cmb (ch : Fin 130) (c : Chan) (s : State) : (setChan ch c s).cmb = s.cmb := rfl
@[simp] theorem setChan_fjr (ch : Fin 130) (c : Chan) (s : State) : (setChan ch c s).fjr = s.fjr := rfl
@[simp] theorem setChan_obs (ch : Fin 130) (c : Chan) (s : State) : (setChan ch c s).obs = s.obs := rfl
@[simp] theorem setChan_ports (ch : Fin 130) (c : Chan) (s : State) : (setChan ch c s).ports = s.ports := rfl
@[simp] theorem setChan_txn (ch : Fin 130) (c : Chan) (s : State) : (setChan ch c s).txn = s.txn := rfl
@[simp] theorem setChan_crn (ch : Fin 130) (c : Chan) (s : State) : (setChan ch c s).crn = s.crn := rfl
@[simp] theorem setChan_col (ch : Fin 130) (c : Chan) (s : State) : (setChan ch c s).col = s.col := rfl
@[simp] theorem setChan_tke (ch : Fin 130) (c : Chan) (s : State) : (setChan ch c s).tke = s.tke := rfl
@[simp] theorem setChan_grv (ch : Fin 130) (c : Chan) (s : State) : (setChan ch c s).grv = s.grv := rfl
@[simp] theorem setChan_twn (ch : Fin 130) (c : Chan) (s : State) : (setChan ch c s).twn = s.twn := rfl
@[simp] theorem setChan_pwr (ch : Fin 130) (c : Chan) (s : State) : (setChan ch c s).pwr = s.pwr := rfl
@[simp] theorem setChan_boot (ch : Fin 130) (c : Chan) (s : State) : (setChan ch c s).boot = s.boot := rfl
@[simp] theorem setChan_cfg (ch : Fin 130) (c : Chan) (s : State) : (setChan ch c s).cfg = s.cfg := rfl
@[simp] theorem setChan_fuse (ch : Fin 130) (c : Chan) (s : State) : (setChan ch c s).fuse = s.fuse := rfl
@[simp] theorem setChan_flash (ch : Fin 130) (c : Chan) (s : State) : (setChan ch c s).flash = s.flash := rfl
@[simp] theorem setChan_stalls (ch : Fin 130) (c : Chan) (s : State) : (setChan ch c s).stalls = s.stalls := rfl
@[simp] theorem setChan_pending (ch : Fin 130) (c : Chan) (s : State) : (setChan ch c s).pending = s.pending := rfl

/-! `modChan`. -/

@[simp] theorem modChan_now (ch : Fin 130) (f : Chan → Chan) (s : State) : (modChan ch f s).now = s.now := rfl
@[simp] theorem modChan_free (ch : Fin 130) (f : Chan → Chan) (s : State) : (modChan ch f s).free = s.free := rfl
@[simp] theorem modChan_out (ch : Fin 130) (f : Chan → Chan) (s : State) : (modChan ch f s).out = s.out := rfl
@[simp] theorem modChan_latch (ch : Fin 130) (f : Chan → Chan) (s : State) : (modChan ch f s).latch = s.latch := rfl
@[simp] theorem modChan_root (ch : Fin 130) (f : Chan → Chan) (s : State) : (modChan ch f s).root = { s.root with chans := vset s.root.chans ch (f (chan s ch)) } := rfl
@[simp] theorem modChan_hwd (ch : Fin 130) (f : Chan → Chan) (s : State) : (modChan ch f s).hwd = s.hwd := rfl
@[simp] theorem modChan_mm (ch : Fin 130) (f : Chan → Chan) (s : State) : (modChan ch f s).mm = s.mm := rfl
@[simp] theorem modChan_cmb (ch : Fin 130) (f : Chan → Chan) (s : State) : (modChan ch f s).cmb = s.cmb := rfl
@[simp] theorem modChan_fjr (ch : Fin 130) (f : Chan → Chan) (s : State) : (modChan ch f s).fjr = s.fjr := rfl
@[simp] theorem modChan_obs (ch : Fin 130) (f : Chan → Chan) (s : State) : (modChan ch f s).obs = s.obs := rfl
@[simp] theorem modChan_ports (ch : Fin 130) (f : Chan → Chan) (s : State) : (modChan ch f s).ports = s.ports := rfl
@[simp] theorem modChan_txn (ch : Fin 130) (f : Chan → Chan) (s : State) : (modChan ch f s).txn = s.txn := rfl
@[simp] theorem modChan_crn (ch : Fin 130) (f : Chan → Chan) (s : State) : (modChan ch f s).crn = s.crn := rfl
@[simp] theorem modChan_col (ch : Fin 130) (f : Chan → Chan) (s : State) : (modChan ch f s).col = s.col := rfl
@[simp] theorem modChan_tke (ch : Fin 130) (f : Chan → Chan) (s : State) : (modChan ch f s).tke = s.tke := rfl
@[simp] theorem modChan_grv (ch : Fin 130) (f : Chan → Chan) (s : State) : (modChan ch f s).grv = s.grv := rfl
@[simp] theorem modChan_twn (ch : Fin 130) (f : Chan → Chan) (s : State) : (modChan ch f s).twn = s.twn := rfl
@[simp] theorem modChan_pwr (ch : Fin 130) (f : Chan → Chan) (s : State) : (modChan ch f s).pwr = s.pwr := rfl
@[simp] theorem modChan_boot (ch : Fin 130) (f : Chan → Chan) (s : State) : (modChan ch f s).boot = s.boot := rfl
@[simp] theorem modChan_cfg (ch : Fin 130) (f : Chan → Chan) (s : State) : (modChan ch f s).cfg = s.cfg := rfl
@[simp] theorem modChan_fuse (ch : Fin 130) (f : Chan → Chan) (s : State) : (modChan ch f s).fuse = s.fuse := rfl
@[simp] theorem modChan_flash (ch : Fin 130) (f : Chan → Chan) (s : State) : (modChan ch f s).flash = s.flash := rfl
@[simp] theorem modChan_stalls (ch : Fin 130) (f : Chan → Chan) (s : State) : (modChan ch f s).stalls = s.stalls := rfl
@[simp] theorem modChan_pending (ch : Fin 130) (f : Chan → Chan) (s : State) : (modChan ch f s).pending = s.pending := rfl

/-! `setPort`. -/

@[simp] theorem setPort_now (p : Fin 8) (x : Port) (s : State) : (setPort p x s).now = s.now := rfl
@[simp] theorem setPort_free (p : Fin 8) (x : Port) (s : State) : (setPort p x s).free = s.free := rfl
@[simp] theorem setPort_out (p : Fin 8) (x : Port) (s : State) : (setPort p x s).out = s.out := rfl
@[simp] theorem setPort_latch (p : Fin 8) (x : Port) (s : State) : (setPort p x s).latch = s.latch := rfl
@[simp] theorem setPort_root (p : Fin 8) (x : Port) (s : State) : (setPort p x s).root = s.root := rfl
@[simp] theorem setPort_hwd (p : Fin 8) (x : Port) (s : State) : (setPort p x s).hwd = s.hwd := rfl
@[simp] theorem setPort_mm (p : Fin 8) (x : Port) (s : State) : (setPort p x s).mm = s.mm := rfl
@[simp] theorem setPort_cmb (p : Fin 8) (x : Port) (s : State) : (setPort p x s).cmb = s.cmb := rfl
@[simp] theorem setPort_fjr (p : Fin 8) (x : Port) (s : State) : (setPort p x s).fjr = s.fjr := rfl
@[simp] theorem setPort_obs (p : Fin 8) (x : Port) (s : State) : (setPort p x s).obs = s.obs := rfl
@[simp] theorem setPort_ports (p : Fin 8) (x : Port) (s : State) : (setPort p x s).ports = vset s.ports p x := rfl
@[simp] theorem setPort_txn (p : Fin 8) (x : Port) (s : State) : (setPort p x s).txn = s.txn := rfl
@[simp] theorem setPort_crn (p : Fin 8) (x : Port) (s : State) : (setPort p x s).crn = s.crn := rfl
@[simp] theorem setPort_col (p : Fin 8) (x : Port) (s : State) : (setPort p x s).col = s.col := rfl
@[simp] theorem setPort_tke (p : Fin 8) (x : Port) (s : State) : (setPort p x s).tke = s.tke := rfl
@[simp] theorem setPort_grv (p : Fin 8) (x : Port) (s : State) : (setPort p x s).grv = s.grv := rfl
@[simp] theorem setPort_twn (p : Fin 8) (x : Port) (s : State) : (setPort p x s).twn = s.twn := rfl
@[simp] theorem setPort_pwr (p : Fin 8) (x : Port) (s : State) : (setPort p x s).pwr = s.pwr := rfl
@[simp] theorem setPort_boot (p : Fin 8) (x : Port) (s : State) : (setPort p x s).boot = s.boot := rfl
@[simp] theorem setPort_cfg (p : Fin 8) (x : Port) (s : State) : (setPort p x s).cfg = s.cfg := rfl
@[simp] theorem setPort_fuse (p : Fin 8) (x : Port) (s : State) : (setPort p x s).fuse = s.fuse := rfl
@[simp] theorem setPort_flash (p : Fin 8) (x : Port) (s : State) : (setPort p x s).flash = s.flash := rfl
@[simp] theorem setPort_stalls (p : Fin 8) (x : Port) (s : State) : (setPort p x s).stalls = s.stalls := rfl
@[simp] theorem setPort_pending (p : Fin 8) (x : Port) (s : State) : (setPort p x s).pending = s.pending := rfl

/-! `modPort`. -/

@[simp] theorem modPort_now (p : Fin 8) (f : Port → Port) (s : State) : (modPort p f s).now = s.now := rfl
@[simp] theorem modPort_free (p : Fin 8) (f : Port → Port) (s : State) : (modPort p f s).free = s.free := rfl
@[simp] theorem modPort_out (p : Fin 8) (f : Port → Port) (s : State) : (modPort p f s).out = s.out := rfl
@[simp] theorem modPort_latch (p : Fin 8) (f : Port → Port) (s : State) : (modPort p f s).latch = s.latch := rfl
@[simp] theorem modPort_root (p : Fin 8) (f : Port → Port) (s : State) : (modPort p f s).root = s.root := rfl
@[simp] theorem modPort_hwd (p : Fin 8) (f : Port → Port) (s : State) : (modPort p f s).hwd = s.hwd := rfl
@[simp] theorem modPort_mm (p : Fin 8) (f : Port → Port) (s : State) : (modPort p f s).mm = s.mm := rfl
@[simp] theorem modPort_cmb (p : Fin 8) (f : Port → Port) (s : State) : (modPort p f s).cmb = s.cmb := rfl
@[simp] theorem modPort_fjr (p : Fin 8) (f : Port → Port) (s : State) : (modPort p f s).fjr = s.fjr := rfl
@[simp] theorem modPort_obs (p : Fin 8) (f : Port → Port) (s : State) : (modPort p f s).obs = s.obs := rfl
@[simp] theorem modPort_ports (p : Fin 8) (f : Port → Port) (s : State) : (modPort p f s).ports = vset s.ports p (f (port s p)) := rfl
@[simp] theorem modPort_txn (p : Fin 8) (f : Port → Port) (s : State) : (modPort p f s).txn = s.txn := rfl
@[simp] theorem modPort_crn (p : Fin 8) (f : Port → Port) (s : State) : (modPort p f s).crn = s.crn := rfl
@[simp] theorem modPort_col (p : Fin 8) (f : Port → Port) (s : State) : (modPort p f s).col = s.col := rfl
@[simp] theorem modPort_tke (p : Fin 8) (f : Port → Port) (s : State) : (modPort p f s).tke = s.tke := rfl
@[simp] theorem modPort_grv (p : Fin 8) (f : Port → Port) (s : State) : (modPort p f s).grv = s.grv := rfl
@[simp] theorem modPort_twn (p : Fin 8) (f : Port → Port) (s : State) : (modPort p f s).twn = s.twn := rfl
@[simp] theorem modPort_pwr (p : Fin 8) (f : Port → Port) (s : State) : (modPort p f s).pwr = s.pwr := rfl
@[simp] theorem modPort_boot (p : Fin 8) (f : Port → Port) (s : State) : (modPort p f s).boot = s.boot := rfl
@[simp] theorem modPort_cfg (p : Fin 8) (f : Port → Port) (s : State) : (modPort p f s).cfg = s.cfg := rfl
@[simp] theorem modPort_fuse (p : Fin 8) (f : Port → Port) (s : State) : (modPort p f s).fuse = s.fuse := rfl
@[simp] theorem modPort_flash (p : Fin 8) (f : Port → Port) (s : State) : (modPort p f s).flash = s.flash := rfl
@[simp] theorem modPort_stalls (p : Fin 8) (f : Port → Port) (s : State) : (modPort p f s).stalls = s.stalls := rfl
@[simp] theorem modPort_pending (p : Fin 8) (f : Port → Port) (s : State) : (modPort p f s).pending = s.pending := rfl

/-! `modLink`. -/

@[simp] theorem modLink_now (p : Fin 8) (f : Link → Link) (s : State) : (modLink p f s).now = s.now := rfl
@[simp] theorem modLink_free (p : Fin 8) (f : Link → Link) (s : State) : (modLink p f s).free = s.free := rfl
@[simp] theorem modLink_out (p : Fin 8) (f : Link → Link) (s : State) : (modLink p f s).out = s.out := rfl
@[simp] theorem modLink_latch (p : Fin 8) (f : Link → Link) (s : State) : (modLink p f s).latch = s.latch := rfl
@[simp] theorem modLink_root (p : Fin 8) (f : Link → Link) (s : State) : (modLink p f s).root = s.root := rfl
@[simp] theorem modLink_hwd (p : Fin 8) (f : Link → Link) (s : State) : (modLink p f s).hwd = s.hwd := rfl
@[simp] theorem modLink_mm (p : Fin 8) (f : Link → Link) (s : State) : (modLink p f s).mm = s.mm := rfl
@[simp] theorem modLink_cmb (p : Fin 8) (f : Link → Link) (s : State) : (modLink p f s).cmb = s.cmb := rfl
@[simp] theorem modLink_fjr (p : Fin 8) (f : Link → Link) (s : State) : (modLink p f s).fjr = s.fjr := rfl
@[simp] theorem modLink_obs (p : Fin 8) (f : Link → Link) (s : State) : (modLink p f s).obs = s.obs := rfl
@[simp] theorem modLink_ports (p : Fin 8) (f : Link → Link) (s : State) : (modLink p f s).ports = vset s.ports p { port s p with link := f (port s p).link } := rfl
@[simp] theorem modLink_txn (p : Fin 8) (f : Link → Link) (s : State) : (modLink p f s).txn = s.txn := rfl
@[simp] theorem modLink_crn (p : Fin 8) (f : Link → Link) (s : State) : (modLink p f s).crn = s.crn := rfl
@[simp] theorem modLink_col (p : Fin 8) (f : Link → Link) (s : State) : (modLink p f s).col = s.col := rfl
@[simp] theorem modLink_tke (p : Fin 8) (f : Link → Link) (s : State) : (modLink p f s).tke = s.tke := rfl
@[simp] theorem modLink_grv (p : Fin 8) (f : Link → Link) (s : State) : (modLink p f s).grv = s.grv := rfl
@[simp] theorem modLink_twn (p : Fin 8) (f : Link → Link) (s : State) : (modLink p f s).twn = s.twn := rfl
@[simp] theorem modLink_pwr (p : Fin 8) (f : Link → Link) (s : State) : (modLink p f s).pwr = s.pwr := rfl
@[simp] theorem modLink_boot (p : Fin 8) (f : Link → Link) (s : State) : (modLink p f s).boot = s.boot := rfl
@[simp] theorem modLink_cfg (p : Fin 8) (f : Link → Link) (s : State) : (modLink p f s).cfg = s.cfg := rfl
@[simp] theorem modLink_fuse (p : Fin 8) (f : Link → Link) (s : State) : (modLink p f s).fuse = s.fuse := rfl
@[simp] theorem modLink_flash (p : Fin 8) (f : Link → Link) (s : State) : (modLink p f s).flash = s.flash := rfl
@[simp] theorem modLink_stalls (p : Fin 8) (f : Link → Link) (s : State) : (modLink p f s).stalls = s.stalls := rfl
@[simp] theorem modLink_pending (p : Fin 8) (f : Link → Link) (s : State) : (modLink p f s).pending = s.pending := rfl

/-! `modPhys`. -/

@[simp] theorem modPhys_now (p : Fin 8) (f : Phys → Phys) (s : State) : (modPhys p f s).now = s.now := rfl
@[simp] theorem modPhys_free (p : Fin 8) (f : Phys → Phys) (s : State) : (modPhys p f s).free = s.free := rfl
@[simp] theorem modPhys_out (p : Fin 8) (f : Phys → Phys) (s : State) : (modPhys p f s).out = s.out := rfl
@[simp] theorem modPhys_latch (p : Fin 8) (f : Phys → Phys) (s : State) : (modPhys p f s).latch = s.latch := rfl
@[simp] theorem modPhys_root (p : Fin 8) (f : Phys → Phys) (s : State) : (modPhys p f s).root = s.root := rfl
@[simp] theorem modPhys_hwd (p : Fin 8) (f : Phys → Phys) (s : State) : (modPhys p f s).hwd = s.hwd := rfl
@[simp] theorem modPhys_mm (p : Fin 8) (f : Phys → Phys) (s : State) : (modPhys p f s).mm = s.mm := rfl
@[simp] theorem modPhys_cmb (p : Fin 8) (f : Phys → Phys) (s : State) : (modPhys p f s).cmb = s.cmb := rfl
@[simp] theorem modPhys_fjr (p : Fin 8) (f : Phys → Phys) (s : State) : (modPhys p f s).fjr = s.fjr := rfl
@[simp] theorem modPhys_obs (p : Fin 8) (f : Phys → Phys) (s : State) : (modPhys p f s).obs = s.obs := rfl
@[simp] theorem modPhys_ports (p : Fin 8) (f : Phys → Phys) (s : State) : (modPhys p f s).ports = vset s.ports p { port s p with phys := f (port s p).phys } := rfl
@[simp] theorem modPhys_txn (p : Fin 8) (f : Phys → Phys) (s : State) : (modPhys p f s).txn = s.txn := rfl
@[simp] theorem modPhys_crn (p : Fin 8) (f : Phys → Phys) (s : State) : (modPhys p f s).crn = s.crn := rfl
@[simp] theorem modPhys_col (p : Fin 8) (f : Phys → Phys) (s : State) : (modPhys p f s).col = s.col := rfl
@[simp] theorem modPhys_tke (p : Fin 8) (f : Phys → Phys) (s : State) : (modPhys p f s).tke = s.tke := rfl
@[simp] theorem modPhys_grv (p : Fin 8) (f : Phys → Phys) (s : State) : (modPhys p f s).grv = s.grv := rfl
@[simp] theorem modPhys_twn (p : Fin 8) (f : Phys → Phys) (s : State) : (modPhys p f s).twn = s.twn := rfl
@[simp] theorem modPhys_pwr (p : Fin 8) (f : Phys → Phys) (s : State) : (modPhys p f s).pwr = s.pwr := rfl
@[simp] theorem modPhys_boot (p : Fin 8) (f : Phys → Phys) (s : State) : (modPhys p f s).boot = s.boot := rfl
@[simp] theorem modPhys_cfg (p : Fin 8) (f : Phys → Phys) (s : State) : (modPhys p f s).cfg = s.cfg := rfl
@[simp] theorem modPhys_fuse (p : Fin 8) (f : Phys → Phys) (s : State) : (modPhys p f s).fuse = s.fuse := rfl
@[simp] theorem modPhys_flash (p : Fin 8) (f : Phys → Phys) (s : State) : (modPhys p f s).flash = s.flash := rfl
@[simp] theorem modPhys_stalls (p : Fin 8) (f : Phys → Phys) (s : State) : (modPhys p f s).stalls = s.stalls := rfl
@[simp] theorem modPhys_pending (p : Fin 8) (f : Phys → Phys) (s : State) : (modPhys p f s).pending = s.pending := rfl

/-! `modRx`. -/

@[simp] theorem modRx_now (p v : Fin 8) (f : VcRx → VcRx) (s : State) : (modRx p v f s).now = s.now := rfl
@[simp] theorem modRx_free (p v : Fin 8) (f : VcRx → VcRx) (s : State) : (modRx p v f s).free = s.free := rfl
@[simp] theorem modRx_out (p v : Fin 8) (f : VcRx → VcRx) (s : State) : (modRx p v f s).out = s.out := rfl
@[simp] theorem modRx_latch (p v : Fin 8) (f : VcRx → VcRx) (s : State) : (modRx p v f s).latch = s.latch := rfl
@[simp] theorem modRx_root (p v : Fin 8) (f : VcRx → VcRx) (s : State) : (modRx p v f s).root = s.root := rfl
@[simp] theorem modRx_hwd (p v : Fin 8) (f : VcRx → VcRx) (s : State) : (modRx p v f s).hwd = s.hwd := rfl
@[simp] theorem modRx_mm (p v : Fin 8) (f : VcRx → VcRx) (s : State) : (modRx p v f s).mm = s.mm := rfl
@[simp] theorem modRx_cmb (p v : Fin 8) (f : VcRx → VcRx) (s : State) : (modRx p v f s).cmb = s.cmb := rfl
@[simp] theorem modRx_fjr (p v : Fin 8) (f : VcRx → VcRx) (s : State) : (modRx p v f s).fjr = s.fjr := rfl
@[simp] theorem modRx_obs (p v : Fin 8) (f : VcRx → VcRx) (s : State) : (modRx p v f s).obs = s.obs := rfl
@[simp] theorem modRx_ports (p v : Fin 8) (f : VcRx → VcRx) (s : State) : (modRx p v f s).ports = vset s.ports p { port s p with link := { (port s p).link with rx := vmod (port s p).link.rx v f } } := rfl
@[simp] theorem modRx_txn (p v : Fin 8) (f : VcRx → VcRx) (s : State) : (modRx p v f s).txn = s.txn := rfl
@[simp] theorem modRx_crn (p v : Fin 8) (f : VcRx → VcRx) (s : State) : (modRx p v f s).crn = s.crn := rfl
@[simp] theorem modRx_col (p v : Fin 8) (f : VcRx → VcRx) (s : State) : (modRx p v f s).col = s.col := rfl
@[simp] theorem modRx_tke (p v : Fin 8) (f : VcRx → VcRx) (s : State) : (modRx p v f s).tke = s.tke := rfl
@[simp] theorem modRx_grv (p v : Fin 8) (f : VcRx → VcRx) (s : State) : (modRx p v f s).grv = s.grv := rfl
@[simp] theorem modRx_twn (p v : Fin 8) (f : VcRx → VcRx) (s : State) : (modRx p v f s).twn = s.twn := rfl
@[simp] theorem modRx_pwr (p v : Fin 8) (f : VcRx → VcRx) (s : State) : (modRx p v f s).pwr = s.pwr := rfl
@[simp] theorem modRx_boot (p v : Fin 8) (f : VcRx → VcRx) (s : State) : (modRx p v f s).boot = s.boot := rfl
@[simp] theorem modRx_cfg (p v : Fin 8) (f : VcRx → VcRx) (s : State) : (modRx p v f s).cfg = s.cfg := rfl
@[simp] theorem modRx_fuse (p v : Fin 8) (f : VcRx → VcRx) (s : State) : (modRx p v f s).fuse = s.fuse := rfl
@[simp] theorem modRx_flash (p v : Fin 8) (f : VcRx → VcRx) (s : State) : (modRx p v f s).flash = s.flash := rfl
@[simp] theorem modRx_stalls (p v : Fin 8) (f : VcRx → VcRx) (s : State) : (modRx p v f s).stalls = s.stalls := rfl
@[simp] theorem modRx_pending (p v : Fin 8) (f : VcRx → VcRx) (s : State) : (modRx p v f s).pending = s.pending := rfl

/-! `modTx`. -/

@[simp] theorem modTx_now (p v : Fin 8) (f : VcTx → VcTx) (s : State) : (modTx p v f s).now = s.now := rfl
@[simp] theorem modTx_free (p v : Fin 8) (f : VcTx → VcTx) (s : State) : (modTx p v f s).free = s.free := rfl
@[simp] theorem modTx_out (p v : Fin 8) (f : VcTx → VcTx) (s : State) : (modTx p v f s).out = s.out := rfl
@[simp] theorem modTx_latch (p v : Fin 8) (f : VcTx → VcTx) (s : State) : (modTx p v f s).latch = s.latch := rfl
@[simp] theorem modTx_root (p v : Fin 8) (f : VcTx → VcTx) (s : State) : (modTx p v f s).root = s.root := rfl
@[simp] theorem modTx_hwd (p v : Fin 8) (f : VcTx → VcTx) (s : State) : (modTx p v f s).hwd = s.hwd := rfl
@[simp] theorem modTx_mm (p v : Fin 8) (f : VcTx → VcTx) (s : State) : (modTx p v f s).mm = s.mm := rfl
@[simp] theorem modTx_cmb (p v : Fin 8) (f : VcTx → VcTx) (s : State) : (modTx p v f s).cmb = s.cmb := rfl
@[simp] theorem modTx_fjr (p v : Fin 8) (f : VcTx → VcTx) (s : State) : (modTx p v f s).fjr = s.fjr := rfl
@[simp] theorem modTx_obs (p v : Fin 8) (f : VcTx → VcTx) (s : State) : (modTx p v f s).obs = s.obs := rfl
@[simp] theorem modTx_ports (p v : Fin 8) (f : VcTx → VcTx) (s : State) : (modTx p v f s).ports = vset s.ports p { port s p with link := { (port s p).link with tx := vmod (port s p).link.tx v f } } := rfl
@[simp] theorem modTx_txn (p v : Fin 8) (f : VcTx → VcTx) (s : State) : (modTx p v f s).txn = s.txn := rfl
@[simp] theorem modTx_crn (p v : Fin 8) (f : VcTx → VcTx) (s : State) : (modTx p v f s).crn = s.crn := rfl
@[simp] theorem modTx_col (p v : Fin 8) (f : VcTx → VcTx) (s : State) : (modTx p v f s).col = s.col := rfl
@[simp] theorem modTx_tke (p v : Fin 8) (f : VcTx → VcTx) (s : State) : (modTx p v f s).tke = s.tke := rfl
@[simp] theorem modTx_grv (p v : Fin 8) (f : VcTx → VcTx) (s : State) : (modTx p v f s).grv = s.grv := rfl
@[simp] theorem modTx_twn (p v : Fin 8) (f : VcTx → VcTx) (s : State) : (modTx p v f s).twn = s.twn := rfl
@[simp] theorem modTx_pwr (p v : Fin 8) (f : VcTx → VcTx) (s : State) : (modTx p v f s).pwr = s.pwr := rfl
@[simp] theorem modTx_boot (p v : Fin 8) (f : VcTx → VcTx) (s : State) : (modTx p v f s).boot = s.boot := rfl
@[simp] theorem modTx_cfg (p v : Fin 8) (f : VcTx → VcTx) (s : State) : (modTx p v f s).cfg = s.cfg := rfl
@[simp] theorem modTx_fuse (p v : Fin 8) (f : VcTx → VcTx) (s : State) : (modTx p v f s).fuse = s.fuse := rfl
@[simp] theorem modTx_flash (p v : Fin 8) (f : VcTx → VcTx) (s : State) : (modTx p v f s).flash = s.flash := rfl
@[simp] theorem modTx_stalls (p v : Fin 8) (f : VcTx → VcTx) (s : State) : (modTx p v f s).stalls = s.stalls := rfl
@[simp] theorem modTx_pending (p v : Fin 8) (f : VcTx → VcTx) (s : State) : (modTx p v f s).pending = s.pending := rfl

/-! `modRxLane`. -/

@[simp] theorem modRxLane_now (p : Fin 8) (l : Fin 9) (f : RxLane → RxLane) (s : State) : (modRxLane p l f s).now = s.now := rfl
@[simp] theorem modRxLane_free (p : Fin 8) (l : Fin 9) (f : RxLane → RxLane) (s : State) : (modRxLane p l f s).free = s.free := rfl
@[simp] theorem modRxLane_out (p : Fin 8) (l : Fin 9) (f : RxLane → RxLane) (s : State) : (modRxLane p l f s).out = s.out := rfl
@[simp] theorem modRxLane_latch (p : Fin 8) (l : Fin 9) (f : RxLane → RxLane) (s : State) : (modRxLane p l f s).latch = s.latch := rfl
@[simp] theorem modRxLane_root (p : Fin 8) (l : Fin 9) (f : RxLane → RxLane) (s : State) : (modRxLane p l f s).root = s.root := rfl
@[simp] theorem modRxLane_hwd (p : Fin 8) (l : Fin 9) (f : RxLane → RxLane) (s : State) : (modRxLane p l f s).hwd = s.hwd := rfl
@[simp] theorem modRxLane_mm (p : Fin 8) (l : Fin 9) (f : RxLane → RxLane) (s : State) : (modRxLane p l f s).mm = s.mm := rfl
@[simp] theorem modRxLane_cmb (p : Fin 8) (l : Fin 9) (f : RxLane → RxLane) (s : State) : (modRxLane p l f s).cmb = s.cmb := rfl
@[simp] theorem modRxLane_fjr (p : Fin 8) (l : Fin 9) (f : RxLane → RxLane) (s : State) : (modRxLane p l f s).fjr = s.fjr := rfl
@[simp] theorem modRxLane_obs (p : Fin 8) (l : Fin 9) (f : RxLane → RxLane) (s : State) : (modRxLane p l f s).obs = s.obs := rfl
@[simp] theorem modRxLane_ports (p : Fin 8) (l : Fin 9) (f : RxLane → RxLane) (s : State) : (modRxLane p l f s).ports = vset s.ports p { port s p with phys := { (port s p).phys with rx := vmod (port s p).phys.rx l f } } := rfl
@[simp] theorem modRxLane_txn (p : Fin 8) (l : Fin 9) (f : RxLane → RxLane) (s : State) : (modRxLane p l f s).txn = s.txn := rfl
@[simp] theorem modRxLane_crn (p : Fin 8) (l : Fin 9) (f : RxLane → RxLane) (s : State) : (modRxLane p l f s).crn = s.crn := rfl
@[simp] theorem modRxLane_col (p : Fin 8) (l : Fin 9) (f : RxLane → RxLane) (s : State) : (modRxLane p l f s).col = s.col := rfl
@[simp] theorem modRxLane_tke (p : Fin 8) (l : Fin 9) (f : RxLane → RxLane) (s : State) : (modRxLane p l f s).tke = s.tke := rfl
@[simp] theorem modRxLane_grv (p : Fin 8) (l : Fin 9) (f : RxLane → RxLane) (s : State) : (modRxLane p l f s).grv = s.grv := rfl
@[simp] theorem modRxLane_twn (p : Fin 8) (l : Fin 9) (f : RxLane → RxLane) (s : State) : (modRxLane p l f s).twn = s.twn := rfl
@[simp] theorem modRxLane_pwr (p : Fin 8) (l : Fin 9) (f : RxLane → RxLane) (s : State) : (modRxLane p l f s).pwr = s.pwr := rfl
@[simp] theorem modRxLane_boot (p : Fin 8) (l : Fin 9) (f : RxLane → RxLane) (s : State) : (modRxLane p l f s).boot = s.boot := rfl
@[simp] theorem modRxLane_cfg (p : Fin 8) (l : Fin 9) (f : RxLane → RxLane) (s : State) : (modRxLane p l f s).cfg = s.cfg := rfl
@[simp] theorem modRxLane_fuse (p : Fin 8) (l : Fin 9) (f : RxLane → RxLane) (s : State) : (modRxLane p l f s).fuse = s.fuse := rfl
@[simp] theorem modRxLane_flash (p : Fin 8) (l : Fin 9) (f : RxLane → RxLane) (s : State) : (modRxLane p l f s).flash = s.flash := rfl
@[simp] theorem modRxLane_stalls (p : Fin 8) (l : Fin 9) (f : RxLane → RxLane) (s : State) : (modRxLane p l f s).stalls = s.stalls := rfl
@[simp] theorem modRxLane_pending (p : Fin 8) (l : Fin 9) (f : RxLane → RxLane) (s : State) : (modRxLane p l f s).pending = s.pending := rfl

/-! `modTxLane`. -/

@[simp] theorem modTxLane_now (p : Fin 8) (l : Fin 9) (f : TxLane → TxLane) (s : State) : (modTxLane p l f s).now = s.now := rfl
@[simp] theorem modTxLane_free (p : Fin 8) (l : Fin 9) (f : TxLane → TxLane) (s : State) : (modTxLane p l f s).free = s.free := rfl
@[simp] theorem modTxLane_out (p : Fin 8) (l : Fin 9) (f : TxLane → TxLane) (s : State) : (modTxLane p l f s).out = s.out := rfl
@[simp] theorem modTxLane_latch (p : Fin 8) (l : Fin 9) (f : TxLane → TxLane) (s : State) : (modTxLane p l f s).latch = s.latch := rfl
@[simp] theorem modTxLane_root (p : Fin 8) (l : Fin 9) (f : TxLane → TxLane) (s : State) : (modTxLane p l f s).root = s.root := rfl
@[simp] theorem modTxLane_hwd (p : Fin 8) (l : Fin 9) (f : TxLane → TxLane) (s : State) : (modTxLane p l f s).hwd = s.hwd := rfl
@[simp] theorem modTxLane_mm (p : Fin 8) (l : Fin 9) (f : TxLane → TxLane) (s : State) : (modTxLane p l f s).mm = s.mm := rfl
@[simp] theorem modTxLane_cmb (p : Fin 8) (l : Fin 9) (f : TxLane → TxLane) (s : State) : (modTxLane p l f s).cmb = s.cmb := rfl
@[simp] theorem modTxLane_fjr (p : Fin 8) (l : Fin 9) (f : TxLane → TxLane) (s : State) : (modTxLane p l f s).fjr = s.fjr := rfl
@[simp] theorem modTxLane_obs (p : Fin 8) (l : Fin 9) (f : TxLane → TxLane) (s : State) : (modTxLane p l f s).obs = s.obs := rfl
@[simp] theorem modTxLane_ports (p : Fin 8) (l : Fin 9) (f : TxLane → TxLane) (s : State) : (modTxLane p l f s).ports = vset s.ports p { port s p with phys := { (port s p).phys with tx := vmod (port s p).phys.tx l f } } := rfl
@[simp] theorem modTxLane_txn (p : Fin 8) (l : Fin 9) (f : TxLane → TxLane) (s : State) : (modTxLane p l f s).txn = s.txn := rfl
@[simp] theorem modTxLane_crn (p : Fin 8) (l : Fin 9) (f : TxLane → TxLane) (s : State) : (modTxLane p l f s).crn = s.crn := rfl
@[simp] theorem modTxLane_col (p : Fin 8) (l : Fin 9) (f : TxLane → TxLane) (s : State) : (modTxLane p l f s).col = s.col := rfl
@[simp] theorem modTxLane_tke (p : Fin 8) (l : Fin 9) (f : TxLane → TxLane) (s : State) : (modTxLane p l f s).tke = s.tke := rfl
@[simp] theorem modTxLane_grv (p : Fin 8) (l : Fin 9) (f : TxLane → TxLane) (s : State) : (modTxLane p l f s).grv = s.grv := rfl
@[simp] theorem modTxLane_twn (p : Fin 8) (l : Fin 9) (f : TxLane → TxLane) (s : State) : (modTxLane p l f s).twn = s.twn := rfl
@[simp] theorem modTxLane_pwr (p : Fin 8) (l : Fin 9) (f : TxLane → TxLane) (s : State) : (modTxLane p l f s).pwr = s.pwr := rfl
@[simp] theorem modTxLane_boot (p : Fin 8) (l : Fin 9) (f : TxLane → TxLane) (s : State) : (modTxLane p l f s).boot = s.boot := rfl
@[simp] theorem modTxLane_cfg (p : Fin 8) (l : Fin 9) (f : TxLane → TxLane) (s : State) : (modTxLane p l f s).cfg = s.cfg := rfl
@[simp] theorem modTxLane_fuse (p : Fin 8) (l : Fin 9) (f : TxLane → TxLane) (s : State) : (modTxLane p l f s).fuse = s.fuse := rfl
@[simp] theorem modTxLane_flash (p : Fin 8) (l : Fin 9) (f : TxLane → TxLane) (s : State) : (modTxLane p l f s).flash = s.flash := rfl
@[simp] theorem modTxLane_stalls (p : Fin 8) (l : Fin 9) (f : TxLane → TxLane) (s : State) : (modTxLane p l f s).stalls = s.stalls := rfl
@[simp] theorem modTxLane_pending (p : Fin 8) (l : Fin 9) (f : TxLane → TxLane) (s : State) : (modTxLane p l f s).pending = s.pending := rfl

/-! `modPart`. -/

@[simp] theorem modPart_now (n : Nat) (f : Partition → Partition) (s : State) : (modPart n f s).now = s.now := rfl
@[simp] theorem modPart_free (n : Nat) (f : Partition → Partition) (s : State) : (modPart n f s).free = s.free := rfl
@[simp] theorem modPart_out (n : Nat) (f : Partition → Partition) (s : State) : (modPart n f s).out = s.out := rfl
@[simp] theorem modPart_latch (n : Nat) (f : Partition → Partition) (s : State) : (modPart n f s).latch = s.latch := rfl
@[simp] theorem modPart_root (n : Nat) (f : Partition → Partition) (s : State) : (modPart n f s).root = s.root := rfl
@[simp] theorem modPart_hwd (n : Nat) (f : Partition → Partition) (s : State) : (modPart n f s).hwd = s.hwd := rfl
@[simp] theorem modPart_mm (n : Nat) (f : Partition → Partition) (s : State) : (modPart n f s).mm = { s.mm with parts := tmod n f s.mm.parts } := rfl
@[simp] theorem modPart_cmb (n : Nat) (f : Partition → Partition) (s : State) : (modPart n f s).cmb = s.cmb := rfl
@[simp] theorem modPart_fjr (n : Nat) (f : Partition → Partition) (s : State) : (modPart n f s).fjr = s.fjr := rfl
@[simp] theorem modPart_obs (n : Nat) (f : Partition → Partition) (s : State) : (modPart n f s).obs = s.obs := rfl
@[simp] theorem modPart_ports (n : Nat) (f : Partition → Partition) (s : State) : (modPart n f s).ports = s.ports := rfl
@[simp] theorem modPart_txn (n : Nat) (f : Partition → Partition) (s : State) : (modPart n f s).txn = s.txn := rfl
@[simp] theorem modPart_crn (n : Nat) (f : Partition → Partition) (s : State) : (modPart n f s).crn = s.crn := rfl
@[simp] theorem modPart_col (n : Nat) (f : Partition → Partition) (s : State) : (modPart n f s).col = s.col := rfl
@[simp] theorem modPart_tke (n : Nat) (f : Partition → Partition) (s : State) : (modPart n f s).tke = s.tke := rfl
@[simp] theorem modPart_grv (n : Nat) (f : Partition → Partition) (s : State) : (modPart n f s).grv = s.grv := rfl
@[simp] theorem modPart_twn (n : Nat) (f : Partition → Partition) (s : State) : (modPart n f s).twn = s.twn := rfl
@[simp] theorem modPart_pwr (n : Nat) (f : Partition → Partition) (s : State) : (modPart n f s).pwr = s.pwr := rfl
@[simp] theorem modPart_boot (n : Nat) (f : Partition → Partition) (s : State) : (modPart n f s).boot = s.boot := rfl
@[simp] theorem modPart_cfg (n : Nat) (f : Partition → Partition) (s : State) : (modPart n f s).cfg = s.cfg := rfl
@[simp] theorem modPart_fuse (n : Nat) (f : Partition → Partition) (s : State) : (modPart n f s).fuse = s.fuse := rfl
@[simp] theorem modPart_flash (n : Nat) (f : Partition → Partition) (s : State) : (modPart n f s).flash = s.flash := rfl
@[simp] theorem modPart_stalls (n : Nat) (f : Partition → Partition) (s : State) : (modPart n f s).stalls = s.stalls := rfl
@[simp] theorem modPart_pending (n : Nat) (f : Partition → Partition) (s : State) : (modPart n f s).pending = s.pending := rfl

/-! `modBough`. -/

@[simp] theorem modBough_now (b : Fin 64) (f : Bough → Bough) (s : State) : (modBough b f s).now = s.now := rfl
@[simp] theorem modBough_free (b : Fin 64) (f : Bough → Bough) (s : State) : (modBough b f s).free = s.free := rfl
@[simp] theorem modBough_out (b : Fin 64) (f : Bough → Bough) (s : State) : (modBough b f s).out = s.out := rfl
@[simp] theorem modBough_latch (b : Fin 64) (f : Bough → Bough) (s : State) : (modBough b f s).latch = s.latch := rfl
@[simp] theorem modBough_root (b : Fin 64) (f : Bough → Bough) (s : State) : (modBough b f s).root = s.root := rfl
@[simp] theorem modBough_hwd (b : Fin 64) (f : Bough → Bough) (s : State) : (modBough b f s).hwd = s.hwd := rfl
@[simp] theorem modBough_mm (b : Fin 64) (f : Bough → Bough) (s : State) : (modBough b f s).mm = s.mm := rfl
@[simp] theorem modBough_cmb (b : Fin 64) (f : Bough → Bough) (s : State) : (modBough b f s).cmb = s.cmb := rfl
@[simp] theorem modBough_fjr (b : Fin 64) (f : Bough → Bough) (s : State) : (modBough b f s).fjr = s.fjr := rfl
@[simp] theorem modBough_obs (b : Fin 64) (f : Bough → Bough) (s : State) : (modBough b f s).obs = s.obs := rfl
@[simp] theorem modBough_ports (b : Fin 64) (f : Bough → Bough) (s : State) : (modBough b f s).ports = s.ports := rfl
@[simp] theorem modBough_txn (b : Fin 64) (f : Bough → Bough) (s : State) : (modBough b f s).txn = s.txn := rfl
@[simp] theorem modBough_crn (b : Fin 64) (f : Bough → Bough) (s : State) : (modBough b f s).crn = { s.crn with boughs := vmod s.crn.boughs b f } := rfl
@[simp] theorem modBough_col (b : Fin 64) (f : Bough → Bough) (s : State) : (modBough b f s).col = s.col := rfl
@[simp] theorem modBough_tke (b : Fin 64) (f : Bough → Bough) (s : State) : (modBough b f s).tke = s.tke := rfl
@[simp] theorem modBough_grv (b : Fin 64) (f : Bough → Bough) (s : State) : (modBough b f s).grv = s.grv := rfl
@[simp] theorem modBough_twn (b : Fin 64) (f : Bough → Bough) (s : State) : (modBough b f s).twn = s.twn := rfl
@[simp] theorem modBough_pwr (b : Fin 64) (f : Bough → Bough) (s : State) : (modBough b f s).pwr = s.pwr := rfl
@[simp] theorem modBough_boot (b : Fin 64) (f : Bough → Bough) (s : State) : (modBough b f s).boot = s.boot := rfl
@[simp] theorem modBough_cfg (b : Fin 64) (f : Bough → Bough) (s : State) : (modBough b f s).cfg = s.cfg := rfl
@[simp] theorem modBough_fuse (b : Fin 64) (f : Bough → Bough) (s : State) : (modBough b f s).fuse = s.fuse := rfl
@[simp] theorem modBough_flash (b : Fin 64) (f : Bough → Bough) (s : State) : (modBough b f s).flash = s.flash := rfl
@[simp] theorem modBough_stalls (b : Fin 64) (f : Bough → Bough) (s : State) : (modBough b f s).stalls = s.stalls := rfl
@[simp] theorem modBough_pending (b : Fin 64) (f : Bough → Bough) (s : State) : (modBough b f s).pending = s.pending := rfl

/-! `modQueue`. -/

@[simp] theorem modQueue_now (n q : Nat) (f : Queue → Queue) (s : State) : (modQueue n q f s).now = s.now := rfl
@[simp] theorem modQueue_free (n q : Nat) (f : Queue → Queue) (s : State) : (modQueue n q f s).free = s.free := rfl
@[simp] theorem modQueue_out (n q : Nat) (f : Queue → Queue) (s : State) : (modQueue n q f s).out = s.out := rfl
@[simp] theorem modQueue_latch (n q : Nat) (f : Queue → Queue) (s : State) : (modQueue n q f s).latch = s.latch := rfl
@[simp] theorem modQueue_root (n q : Nat) (f : Queue → Queue) (s : State) : (modQueue n q f s).root = s.root := rfl
@[simp] theorem modQueue_hwd (n q : Nat) (f : Queue → Queue) (s : State) : (modQueue n q f s).hwd = s.hwd := rfl
@[simp] theorem modQueue_mm (n q : Nat) (f : Queue → Queue) (s : State) : (modQueue n q f s).mm = s.mm := rfl
@[simp] theorem modQueue_cmb (n q : Nat) (f : Queue → Queue) (s : State) : (modQueue n q f s).cmb = s.cmb := rfl
@[simp] theorem modQueue_fjr (n q : Nat) (f : Queue → Queue) (s : State) : (modQueue n q f s).fjr = s.fjr := rfl
@[simp] theorem modQueue_obs (n q : Nat) (f : Queue → Queue) (s : State) : (modQueue n q f s).obs = s.obs := rfl
@[simp] theorem modQueue_ports (n q : Nat) (f : Queue → Queue) (s : State) : (modQueue n q f s).ports = s.ports := rfl
@[simp] theorem modQueue_txn (n q : Nat) (f : Queue → Queue) (s : State) : (modQueue n q f s).txn = s.txn := rfl
@[simp] theorem modQueue_crn (n q : Nat) (f : Queue → Queue) (s : State) : (modQueue n q f s).crn = { s.crn with queues := tmod (qKey n q) f s.crn.queues } := rfl
@[simp] theorem modQueue_col (n q : Nat) (f : Queue → Queue) (s : State) : (modQueue n q f s).col = s.col := rfl
@[simp] theorem modQueue_tke (n q : Nat) (f : Queue → Queue) (s : State) : (modQueue n q f s).tke = s.tke := rfl
@[simp] theorem modQueue_grv (n q : Nat) (f : Queue → Queue) (s : State) : (modQueue n q f s).grv = s.grv := rfl
@[simp] theorem modQueue_twn (n q : Nat) (f : Queue → Queue) (s : State) : (modQueue n q f s).twn = s.twn := rfl
@[simp] theorem modQueue_pwr (n q : Nat) (f : Queue → Queue) (s : State) : (modQueue n q f s).pwr = s.pwr := rfl
@[simp] theorem modQueue_boot (n q : Nat) (f : Queue → Queue) (s : State) : (modQueue n q f s).boot = s.boot := rfl
@[simp] theorem modQueue_cfg (n q : Nat) (f : Queue → Queue) (s : State) : (modQueue n q f s).cfg = s.cfg := rfl
@[simp] theorem modQueue_fuse (n q : Nat) (f : Queue → Queue) (s : State) : (modQueue n q f s).fuse = s.fuse := rfl
@[simp] theorem modQueue_flash (n q : Nat) (f : Queue → Queue) (s : State) : (modQueue n q f s).flash = s.flash := rfl
@[simp] theorem modQueue_stalls (n q : Nat) (f : Queue → Queue) (s : State) : (modQueue n q f s).stalls = s.stalls := rfl
@[simp] theorem modQueue_pending (n q : Nat) (f : Queue → Queue) (s : State) : (modQueue n q f s).pending = s.pending := rfl

/-! `modRunning`. -/

@[simp] theorem modRunning_now (n q num : Nat) (f : Running → Running) (s : State) : (modRunning n q num f s).now = s.now := rfl
@[simp] theorem modRunning_free (n q num : Nat) (f : Running → Running) (s : State) : (modRunning n q num f s).free = s.free := rfl
@[simp] theorem modRunning_out (n q num : Nat) (f : Running → Running) (s : State) : (modRunning n q num f s).out = s.out := rfl
@[simp] theorem modRunning_latch (n q num : Nat) (f : Running → Running) (s : State) : (modRunning n q num f s).latch = s.latch := rfl
@[simp] theorem modRunning_root (n q num : Nat) (f : Running → Running) (s : State) : (modRunning n q num f s).root = s.root := rfl
@[simp] theorem modRunning_hwd (n q num : Nat) (f : Running → Running) (s : State) : (modRunning n q num f s).hwd = s.hwd := rfl
@[simp] theorem modRunning_mm (n q num : Nat) (f : Running → Running) (s : State) : (modRunning n q num f s).mm = s.mm := rfl
@[simp] theorem modRunning_cmb (n q num : Nat) (f : Running → Running) (s : State) : (modRunning n q num f s).cmb = s.cmb := rfl
@[simp] theorem modRunning_fjr (n q num : Nat) (f : Running → Running) (s : State) : (modRunning n q num f s).fjr = s.fjr := rfl
@[simp] theorem modRunning_obs (n q num : Nat) (f : Running → Running) (s : State) : (modRunning n q num f s).obs = s.obs := rfl
@[simp] theorem modRunning_ports (n q num : Nat) (f : Running → Running) (s : State) : (modRunning n q num f s).ports = s.ports := rfl
@[simp] theorem modRunning_txn (n q num : Nat) (f : Running → Running) (s : State) : (modRunning n q num f s).txn = s.txn := rfl
@[simp] theorem modRunning_crn (n q num : Nat) (f : Running → Running) (s : State) : (modRunning n q num f s).crn = { s.crn with queues := tmod (qKey n q) (fun x => { x with running := x.running.map fun r => if r.num = num then f r else r }) s.crn.queues } := rfl
@[simp] theorem modRunning_col (n q num : Nat) (f : Running → Running) (s : State) : (modRunning n q num f s).col = s.col := rfl
@[simp] theorem modRunning_tke (n q num : Nat) (f : Running → Running) (s : State) : (modRunning n q num f s).tke = s.tke := rfl
@[simp] theorem modRunning_grv (n q num : Nat) (f : Running → Running) (s : State) : (modRunning n q num f s).grv = s.grv := rfl
@[simp] theorem modRunning_twn (n q num : Nat) (f : Running → Running) (s : State) : (modRunning n q num f s).twn = s.twn := rfl
@[simp] theorem modRunning_pwr (n q num : Nat) (f : Running → Running) (s : State) : (modRunning n q num f s).pwr = s.pwr := rfl
@[simp] theorem modRunning_boot (n q num : Nat) (f : Running → Running) (s : State) : (modRunning n q num f s).boot = s.boot := rfl
@[simp] theorem modRunning_cfg (n q num : Nat) (f : Running → Running) (s : State) : (modRunning n q num f s).cfg = s.cfg := rfl
@[simp] theorem modRunning_fuse (n q num : Nat) (f : Running → Running) (s : State) : (modRunning n q num f s).fuse = s.fuse := rfl
@[simp] theorem modRunning_flash (n q num : Nat) (f : Running → Running) (s : State) : (modRunning n q num f s).flash = s.flash := rfl
@[simp] theorem modRunning_stalls (n q num : Nat) (f : Running → Running) (s : State) : (modRunning n q num f s).stalls = s.stalls := rfl
@[simp] theorem modRunning_pending (n q num : Nat) (f : Running → Running) (s : State) : (modRunning n q num f s).pending = s.pending := rfl

/-! `modPartCtr`. -/

@[simp] theorem modPartCtr_now (n : Nat) (f : PartCtr → PartCtr) (s : State) : (modPartCtr n f s).now = s.now := rfl
@[simp] theorem modPartCtr_free (n : Nat) (f : PartCtr → PartCtr) (s : State) : (modPartCtr n f s).free = s.free := rfl
@[simp] theorem modPartCtr_out (n : Nat) (f : PartCtr → PartCtr) (s : State) : (modPartCtr n f s).out = s.out := rfl
@[simp] theorem modPartCtr_latch (n : Nat) (f : PartCtr → PartCtr) (s : State) : (modPartCtr n f s).latch = s.latch := rfl
@[simp] theorem modPartCtr_root (n : Nat) (f : PartCtr → PartCtr) (s : State) : (modPartCtr n f s).root = s.root := rfl
@[simp] theorem modPartCtr_hwd (n : Nat) (f : PartCtr → PartCtr) (s : State) : (modPartCtr n f s).hwd = s.hwd := rfl
@[simp] theorem modPartCtr_mm (n : Nat) (f : PartCtr → PartCtr) (s : State) : (modPartCtr n f s).mm = s.mm := rfl
@[simp] theorem modPartCtr_cmb (n : Nat) (f : PartCtr → PartCtr) (s : State) : (modPartCtr n f s).cmb = s.cmb := rfl
@[simp] theorem modPartCtr_fjr (n : Nat) (f : PartCtr → PartCtr) (s : State) : (modPartCtr n f s).fjr = s.fjr := rfl
@[simp] theorem modPartCtr_obs (n : Nat) (f : PartCtr → PartCtr) (s : State) : (modPartCtr n f s).obs = { s.obs with parts := tset n (f (tgetD n PartCtr.zero s.obs.parts)) s.obs.parts } := rfl
@[simp] theorem modPartCtr_ports (n : Nat) (f : PartCtr → PartCtr) (s : State) : (modPartCtr n f s).ports = s.ports := rfl
@[simp] theorem modPartCtr_txn (n : Nat) (f : PartCtr → PartCtr) (s : State) : (modPartCtr n f s).txn = s.txn := rfl
@[simp] theorem modPartCtr_crn (n : Nat) (f : PartCtr → PartCtr) (s : State) : (modPartCtr n f s).crn = s.crn := rfl
@[simp] theorem modPartCtr_col (n : Nat) (f : PartCtr → PartCtr) (s : State) : (modPartCtr n f s).col = s.col := rfl
@[simp] theorem modPartCtr_tke (n : Nat) (f : PartCtr → PartCtr) (s : State) : (modPartCtr n f s).tke = s.tke := rfl
@[simp] theorem modPartCtr_grv (n : Nat) (f : PartCtr → PartCtr) (s : State) : (modPartCtr n f s).grv = s.grv := rfl
@[simp] theorem modPartCtr_twn (n : Nat) (f : PartCtr → PartCtr) (s : State) : (modPartCtr n f s).twn = s.twn := rfl
@[simp] theorem modPartCtr_pwr (n : Nat) (f : PartCtr → PartCtr) (s : State) : (modPartCtr n f s).pwr = s.pwr := rfl
@[simp] theorem modPartCtr_boot (n : Nat) (f : PartCtr → PartCtr) (s : State) : (modPartCtr n f s).boot = s.boot := rfl
@[simp] theorem modPartCtr_cfg (n : Nat) (f : PartCtr → PartCtr) (s : State) : (modPartCtr n f s).cfg = s.cfg := rfl
@[simp] theorem modPartCtr_fuse (n : Nat) (f : PartCtr → PartCtr) (s : State) : (modPartCtr n f s).fuse = s.fuse := rfl
@[simp] theorem modPartCtr_flash (n : Nat) (f : PartCtr → PartCtr) (s : State) : (modPartCtr n f s).flash = s.flash := rfl
@[simp] theorem modPartCtr_stalls (n : Nat) (f : PartCtr → PartCtr) (s : State) : (modPartCtr n f s).stalls = s.stalls := rfl
@[simp] theorem modPartCtr_pending (n : Nat) (f : PartCtr → PartCtr) (s : State) : (modPartCtr n f s).pending = s.pending := rfl

/-! `modBoughCtr`. -/

@[simp] theorem modBoughCtr_now (b : Nat) (f : BoughCtr → BoughCtr) (s : State) : (modBoughCtr b f s).now = s.now := rfl
@[simp] theorem modBoughCtr_free (b : Nat) (f : BoughCtr → BoughCtr) (s : State) : (modBoughCtr b f s).free = s.free := rfl
@[simp] theorem modBoughCtr_out (b : Nat) (f : BoughCtr → BoughCtr) (s : State) : (modBoughCtr b f s).out = s.out := rfl
@[simp] theorem modBoughCtr_latch (b : Nat) (f : BoughCtr → BoughCtr) (s : State) : (modBoughCtr b f s).latch = s.latch := rfl
@[simp] theorem modBoughCtr_root (b : Nat) (f : BoughCtr → BoughCtr) (s : State) : (modBoughCtr b f s).root = s.root := rfl
@[simp] theorem modBoughCtr_hwd (b : Nat) (f : BoughCtr → BoughCtr) (s : State) : (modBoughCtr b f s).hwd = s.hwd := rfl
@[simp] theorem modBoughCtr_mm (b : Nat) (f : BoughCtr → BoughCtr) (s : State) : (modBoughCtr b f s).mm = s.mm := rfl
@[simp] theorem modBoughCtr_cmb (b : Nat) (f : BoughCtr → BoughCtr) (s : State) : (modBoughCtr b f s).cmb = s.cmb := rfl
@[simp] theorem modBoughCtr_fjr (b : Nat) (f : BoughCtr → BoughCtr) (s : State) : (modBoughCtr b f s).fjr = s.fjr := rfl
@[simp] theorem modBoughCtr_obs (b : Nat) (f : BoughCtr → BoughCtr) (s : State) : (modBoughCtr b f s).obs = { s.obs with boughs := vmod s.obs.boughs (finOf 64 b) f } := rfl
@[simp] theorem modBoughCtr_ports (b : Nat) (f : BoughCtr → BoughCtr) (s : State) : (modBoughCtr b f s).ports = s.ports := rfl
@[simp] theorem modBoughCtr_txn (b : Nat) (f : BoughCtr → BoughCtr) (s : State) : (modBoughCtr b f s).txn = s.txn := rfl
@[simp] theorem modBoughCtr_crn (b : Nat) (f : BoughCtr → BoughCtr) (s : State) : (modBoughCtr b f s).crn = s.crn := rfl
@[simp] theorem modBoughCtr_col (b : Nat) (f : BoughCtr → BoughCtr) (s : State) : (modBoughCtr b f s).col = s.col := rfl
@[simp] theorem modBoughCtr_tke (b : Nat) (f : BoughCtr → BoughCtr) (s : State) : (modBoughCtr b f s).tke = s.tke := rfl
@[simp] theorem modBoughCtr_grv (b : Nat) (f : BoughCtr → BoughCtr) (s : State) : (modBoughCtr b f s).grv = s.grv := rfl
@[simp] theorem modBoughCtr_twn (b : Nat) (f : BoughCtr → BoughCtr) (s : State) : (modBoughCtr b f s).twn = s.twn := rfl
@[simp] theorem modBoughCtr_pwr (b : Nat) (f : BoughCtr → BoughCtr) (s : State) : (modBoughCtr b f s).pwr = s.pwr := rfl
@[simp] theorem modBoughCtr_boot (b : Nat) (f : BoughCtr → BoughCtr) (s : State) : (modBoughCtr b f s).boot = s.boot := rfl
@[simp] theorem modBoughCtr_cfg (b : Nat) (f : BoughCtr → BoughCtr) (s : State) : (modBoughCtr b f s).cfg = s.cfg := rfl
@[simp] theorem modBoughCtr_fuse (b : Nat) (f : BoughCtr → BoughCtr) (s : State) : (modBoughCtr b f s).fuse = s.fuse := rfl
@[simp] theorem modBoughCtr_flash (b : Nat) (f : BoughCtr → BoughCtr) (s : State) : (modBoughCtr b f s).flash = s.flash := rfl
@[simp] theorem modBoughCtr_stalls (b : Nat) (f : BoughCtr → BoughCtr) (s : State) : (modBoughCtr b f s).stalls = s.stalls := rfl
@[simp] theorem modBoughCtr_pending (b : Nat) (f : BoughCtr → BoughCtr) (s : State) : (modBoughCtr b f s).pending = s.pending := rfl

/-! `modCut`. -/

@[simp] theorem modCut_now (f : Cut → Cut) (s : State) : (modCut f s).now = s.now := rfl
@[simp] theorem modCut_free (f : Cut → Cut) (s : State) : (modCut f s).free = s.free := rfl
@[simp] theorem modCut_out (f : Cut → Cut) (s : State) : (modCut f s).out = s.out := rfl
@[simp] theorem modCut_latch (f : Cut → Cut) (s : State) : (modCut f s).latch = s.latch := rfl
@[simp] theorem modCut_root (f : Cut → Cut) (s : State) : (modCut f s).root = s.root := rfl
@[simp] theorem modCut_hwd (f : Cut → Cut) (s : State) : (modCut f s).hwd = s.hwd := rfl
@[simp] theorem modCut_mm (f : Cut → Cut) (s : State) : (modCut f s).mm = s.mm := rfl
@[simp] theorem modCut_cmb (f : Cut → Cut) (s : State) : (modCut f s).cmb = s.cmb := rfl
@[simp] theorem modCut_fjr (f : Cut → Cut) (s : State) : (modCut f s).fjr = s.fjr := rfl
@[simp] theorem modCut_obs (f : Cut → Cut) (s : State) : (modCut f s).obs = { s.obs with cut := f s.obs.cut } := rfl
@[simp] theorem modCut_ports (f : Cut → Cut) (s : State) : (modCut f s).ports = s.ports := rfl
@[simp] theorem modCut_txn (f : Cut → Cut) (s : State) : (modCut f s).txn = s.txn := rfl
@[simp] theorem modCut_crn (f : Cut → Cut) (s : State) : (modCut f s).crn = s.crn := rfl
@[simp] theorem modCut_col (f : Cut → Cut) (s : State) : (modCut f s).col = s.col := rfl
@[simp] theorem modCut_tke (f : Cut → Cut) (s : State) : (modCut f s).tke = s.tke := rfl
@[simp] theorem modCut_grv (f : Cut → Cut) (s : State) : (modCut f s).grv = s.grv := rfl
@[simp] theorem modCut_twn (f : Cut → Cut) (s : State) : (modCut f s).twn = s.twn := rfl
@[simp] theorem modCut_pwr (f : Cut → Cut) (s : State) : (modCut f s).pwr = s.pwr := rfl
@[simp] theorem modCut_boot (f : Cut → Cut) (s : State) : (modCut f s).boot = s.boot := rfl
@[simp] theorem modCut_cfg (f : Cut → Cut) (s : State) : (modCut f s).cfg = s.cfg := rfl
@[simp] theorem modCut_fuse (f : Cut → Cut) (s : State) : (modCut f s).fuse = s.fuse := rfl
@[simp] theorem modCut_flash (f : Cut → Cut) (s : State) : (modCut f s).flash = s.flash := rfl
@[simp] theorem modCut_stalls (f : Cut → Cut) (s : State) : (modCut f s).stalls = s.stalls := rfl
@[simp] theorem modCut_pending (f : Cut → Cut) (s : State) : (modCut f s).pending = s.pending := rfl

/-! `modRdbg`. -/

@[simp] theorem modRdbg_now (f : RemoteDebug → RemoteDebug) (s : State) : (modRdbg f s).now = s.now := rfl
@[simp] theorem modRdbg_free (f : RemoteDebug → RemoteDebug) (s : State) : (modRdbg f s).free = s.free := rfl
@[simp] theorem modRdbg_out (f : RemoteDebug → RemoteDebug) (s : State) : (modRdbg f s).out = s.out := rfl
@[simp] theorem modRdbg_latch (f : RemoteDebug → RemoteDebug) (s : State) : (modRdbg f s).latch = s.latch := rfl
@[simp] theorem modRdbg_root (f : RemoteDebug → RemoteDebug) (s : State) : (modRdbg f s).root = s.root := rfl
@[simp] theorem modRdbg_hwd (f : RemoteDebug → RemoteDebug) (s : State) : (modRdbg f s).hwd = s.hwd := rfl
@[simp] theorem modRdbg_mm (f : RemoteDebug → RemoteDebug) (s : State) : (modRdbg f s).mm = s.mm := rfl
@[simp] theorem modRdbg_cmb (f : RemoteDebug → RemoteDebug) (s : State) : (modRdbg f s).cmb = s.cmb := rfl
@[simp] theorem modRdbg_fjr (f : RemoteDebug → RemoteDebug) (s : State) : (modRdbg f s).fjr = s.fjr := rfl
@[simp] theorem modRdbg_obs (f : RemoteDebug → RemoteDebug) (s : State) : (modRdbg f s).obs = { s.obs with rdbg := f s.obs.rdbg } := rfl
@[simp] theorem modRdbg_ports (f : RemoteDebug → RemoteDebug) (s : State) : (modRdbg f s).ports = s.ports := rfl
@[simp] theorem modRdbg_txn (f : RemoteDebug → RemoteDebug) (s : State) : (modRdbg f s).txn = s.txn := rfl
@[simp] theorem modRdbg_crn (f : RemoteDebug → RemoteDebug) (s : State) : (modRdbg f s).crn = s.crn := rfl
@[simp] theorem modRdbg_col (f : RemoteDebug → RemoteDebug) (s : State) : (modRdbg f s).col = s.col := rfl
@[simp] theorem modRdbg_tke (f : RemoteDebug → RemoteDebug) (s : State) : (modRdbg f s).tke = s.tke := rfl
@[simp] theorem modRdbg_grv (f : RemoteDebug → RemoteDebug) (s : State) : (modRdbg f s).grv = s.grv := rfl
@[simp] theorem modRdbg_twn (f : RemoteDebug → RemoteDebug) (s : State) : (modRdbg f s).twn = s.twn := rfl
@[simp] theorem modRdbg_pwr (f : RemoteDebug → RemoteDebug) (s : State) : (modRdbg f s).pwr = s.pwr := rfl
@[simp] theorem modRdbg_boot (f : RemoteDebug → RemoteDebug) (s : State) : (modRdbg f s).boot = s.boot := rfl
@[simp] theorem modRdbg_cfg (f : RemoteDebug → RemoteDebug) (s : State) : (modRdbg f s).cfg = s.cfg := rfl
@[simp] theorem modRdbg_fuse (f : RemoteDebug → RemoteDebug) (s : State) : (modRdbg f s).fuse = s.fuse := rfl
@[simp] theorem modRdbg_flash (f : RemoteDebug → RemoteDebug) (s : State) : (modRdbg f s).flash = s.flash := rfl
@[simp] theorem modRdbg_stalls (f : RemoteDebug → RemoteDebug) (s : State) : (modRdbg f s).stalls = s.stalls := rfl
@[simp] theorem modRdbg_pending (f : RemoteDebug → RemoteDebug) (s : State) : (modRdbg f s).pending = s.pending := rfl

/-! `modStrm`. -/

@[simp] theorem modStrm_now (id : Nat) (f : Stream → Stream) (s : State) : (modStrm id f s).now = s.now := rfl
@[simp] theorem modStrm_free (id : Nat) (f : Stream → Stream) (s : State) : (modStrm id f s).free = s.free := rfl
@[simp] theorem modStrm_out (id : Nat) (f : Stream → Stream) (s : State) : (modStrm id f s).out = s.out := rfl
@[simp] theorem modStrm_latch (id : Nat) (f : Stream → Stream) (s : State) : (modStrm id f s).latch = s.latch := rfl
@[simp] theorem modStrm_root (id : Nat) (f : Stream → Stream) (s : State) : (modStrm id f s).root = s.root := rfl
@[simp] theorem modStrm_hwd (id : Nat) (f : Stream → Stream) (s : State) : (modStrm id f s).hwd = s.hwd := rfl
@[simp] theorem modStrm_mm (id : Nat) (f : Stream → Stream) (s : State) : (modStrm id f s).mm = s.mm := rfl
@[simp] theorem modStrm_cmb (id : Nat) (f : Stream → Stream) (s : State) : (modStrm id f s).cmb = s.cmb := rfl
@[simp] theorem modStrm_fjr (id : Nat) (f : Stream → Stream) (s : State) : (modStrm id f s).fjr = s.fjr := rfl
@[simp] theorem modStrm_obs (id : Nat) (f : Stream → Stream) (s : State) : (modStrm id f s).obs = s.obs := rfl
@[simp] theorem modStrm_ports (id : Nat) (f : Stream → Stream) (s : State) : (modStrm id f s).ports = s.ports := rfl
@[simp] theorem modStrm_txn (id : Nat) (f : Stream → Stream) (s : State) : (modStrm id f s).txn = s.txn := rfl
@[simp] theorem modStrm_crn (id : Nat) (f : Stream → Stream) (s : State) : (modStrm id f s).crn = s.crn := rfl
@[simp] theorem modStrm_col (id : Nat) (f : Stream → Stream) (s : State) : (modStrm id f s).col = s.col := rfl
@[simp] theorem modStrm_tke (id : Nat) (f : Stream → Stream) (s : State) : (modStrm id f s).tke = { s.tke with streams := tmod id f s.tke.streams } := rfl
@[simp] theorem modStrm_grv (id : Nat) (f : Stream → Stream) (s : State) : (modStrm id f s).grv = s.grv := rfl
@[simp] theorem modStrm_twn (id : Nat) (f : Stream → Stream) (s : State) : (modStrm id f s).twn = s.twn := rfl
@[simp] theorem modStrm_pwr (id : Nat) (f : Stream → Stream) (s : State) : (modStrm id f s).pwr = s.pwr := rfl
@[simp] theorem modStrm_boot (id : Nat) (f : Stream → Stream) (s : State) : (modStrm id f s).boot = s.boot := rfl
@[simp] theorem modStrm_cfg (id : Nat) (f : Stream → Stream) (s : State) : (modStrm id f s).cfg = s.cfg := rfl
@[simp] theorem modStrm_fuse (id : Nat) (f : Stream → Stream) (s : State) : (modStrm id f s).fuse = s.fuse := rfl
@[simp] theorem modStrm_flash (id : Nat) (f : Stream → Stream) (s : State) : (modStrm id f s).flash = s.flash := rfl
@[simp] theorem modStrm_stalls (id : Nat) (f : Stream → Stream) (s : State) : (modStrm id f s).stalls = s.stalls := rfl
@[simp] theorem modStrm_pending (id : Nat) (f : Stream → Stream) (s : State) : (modStrm id f s).pending = s.pending := rfl

/-! `modSlot`. -/

@[simp] theorem modSlot_now (k : Nat) (f : Group → Group) (s : State) : (modSlot k f s).now = s.now := rfl
@[simp] theorem modSlot_free (k : Nat) (f : Group → Group) (s : State) : (modSlot k f s).free = s.free := rfl
@[simp] theorem modSlot_out (k : Nat) (f : Group → Group) (s : State) : (modSlot k f s).out = s.out := rfl
@[simp] theorem modSlot_latch (k : Nat) (f : Group → Group) (s : State) : (modSlot k f s).latch = s.latch := rfl
@[simp] theorem modSlot_root (k : Nat) (f : Group → Group) (s : State) : (modSlot k f s).root = s.root := rfl
@[simp] theorem modSlot_hwd (k : Nat) (f : Group → Group) (s : State) : (modSlot k f s).hwd = s.hwd := rfl
@[simp] theorem modSlot_mm (k : Nat) (f : Group → Group) (s : State) : (modSlot k f s).mm = s.mm := rfl
@[simp] theorem modSlot_cmb (k : Nat) (f : Group → Group) (s : State) : (modSlot k f s).cmb = s.cmb := rfl
@[simp] theorem modSlot_fjr (k : Nat) (f : Group → Group) (s : State) : (modSlot k f s).fjr = s.fjr := rfl
@[simp] theorem modSlot_obs (k : Nat) (f : Group → Group) (s : State) : (modSlot k f s).obs = s.obs := rfl
@[simp] theorem modSlot_ports (k : Nat) (f : Group → Group) (s : State) : (modSlot k f s).ports = s.ports := rfl
@[simp] theorem modSlot_txn (k : Nat) (f : Group → Group) (s : State) : (modSlot k f s).txn = s.txn := rfl
@[simp] theorem modSlot_crn (k : Nat) (f : Group → Group) (s : State) : (modSlot k f s).crn = s.crn := rfl
@[simp] theorem modSlot_col (k : Nat) (f : Group → Group) (s : State) : (modSlot k f s).col = { s.col with slots := tmod k f s.col.slots } := rfl
@[simp] theorem modSlot_tke (k : Nat) (f : Group → Group) (s : State) : (modSlot k f s).tke = s.tke := rfl
@[simp] theorem modSlot_grv (k : Nat) (f : Group → Group) (s : State) : (modSlot k f s).grv = s.grv := rfl
@[simp] theorem modSlot_twn (k : Nat) (f : Group → Group) (s : State) : (modSlot k f s).twn = s.twn := rfl
@[simp] theorem modSlot_pwr (k : Nat) (f : Group → Group) (s : State) : (modSlot k f s).pwr = s.pwr := rfl
@[simp] theorem modSlot_boot (k : Nat) (f : Group → Group) (s : State) : (modSlot k f s).boot = s.boot := rfl
@[simp] theorem modSlot_cfg (k : Nat) (f : Group → Group) (s : State) : (modSlot k f s).cfg = s.cfg := rfl
@[simp] theorem modSlot_fuse (k : Nat) (f : Group → Group) (s : State) : (modSlot k f s).fuse = s.fuse := rfl
@[simp] theorem modSlot_flash (k : Nat) (f : Group → Group) (s : State) : (modSlot k f s).flash = s.flash := rfl
@[simp] theorem modSlot_stalls (k : Nat) (f : Group → Group) (s : State) : (modSlot k f s).stalls = s.stalls := rfl
@[simp] theorem modSlot_pending (k : Nat) (f : Group → Group) (s : State) : (modSlot k f s).pending = s.pending := rfl

/-! `modOp`. -/

@[simp] theorem modOp_now (k : Nat) (f : ColOp → ColOp) (s : State) : (modOp k f s).now = s.now := rfl
@[simp] theorem modOp_free (k : Nat) (f : ColOp → ColOp) (s : State) : (modOp k f s).free = s.free := rfl
@[simp] theorem modOp_out (k : Nat) (f : ColOp → ColOp) (s : State) : (modOp k f s).out = s.out := rfl
@[simp] theorem modOp_latch (k : Nat) (f : ColOp → ColOp) (s : State) : (modOp k f s).latch = s.latch := rfl
@[simp] theorem modOp_root (k : Nat) (f : ColOp → ColOp) (s : State) : (modOp k f s).root = s.root := rfl
@[simp] theorem modOp_hwd (k : Nat) (f : ColOp → ColOp) (s : State) : (modOp k f s).hwd = s.hwd := rfl
@[simp] theorem modOp_mm (k : Nat) (f : ColOp → ColOp) (s : State) : (modOp k f s).mm = s.mm := rfl
@[simp] theorem modOp_cmb (k : Nat) (f : ColOp → ColOp) (s : State) : (modOp k f s).cmb = s.cmb := rfl
@[simp] theorem modOp_fjr (k : Nat) (f : ColOp → ColOp) (s : State) : (modOp k f s).fjr = s.fjr := rfl
@[simp] theorem modOp_obs (k : Nat) (f : ColOp → ColOp) (s : State) : (modOp k f s).obs = s.obs := rfl
@[simp] theorem modOp_ports (k : Nat) (f : ColOp → ColOp) (s : State) : (modOp k f s).ports = s.ports := rfl
@[simp] theorem modOp_txn (k : Nat) (f : ColOp → ColOp) (s : State) : (modOp k f s).txn = s.txn := rfl
@[simp] theorem modOp_crn (k : Nat) (f : ColOp → ColOp) (s : State) : (modOp k f s).crn = s.crn := rfl
@[simp] theorem modOp_col (k : Nat) (f : ColOp → ColOp) (s : State) : (modOp k f s).col = { s.col with slots := tmod k (fun g => { g with op := g.op.map f }) s.col.slots } := rfl
@[simp] theorem modOp_tke (k : Nat) (f : ColOp → ColOp) (s : State) : (modOp k f s).tke = s.tke := rfl
@[simp] theorem modOp_grv (k : Nat) (f : ColOp → ColOp) (s : State) : (modOp k f s).grv = s.grv := rfl
@[simp] theorem modOp_twn (k : Nat) (f : ColOp → ColOp) (s : State) : (modOp k f s).twn = s.twn := rfl
@[simp] theorem modOp_pwr (k : Nat) (f : ColOp → ColOp) (s : State) : (modOp k f s).pwr = s.pwr := rfl
@[simp] theorem modOp_boot (k : Nat) (f : ColOp → ColOp) (s : State) : (modOp k f s).boot = s.boot := rfl
@[simp] theorem modOp_cfg (k : Nat) (f : ColOp → ColOp) (s : State) : (modOp k f s).cfg = s.cfg := rfl
@[simp] theorem modOp_fuse (k : Nat) (f : ColOp → ColOp) (s : State) : (modOp k f s).fuse = s.fuse := rfl
@[simp] theorem modOp_flash (k : Nat) (f : ColOp → ColOp) (s : State) : (modOp k f s).flash = s.flash := rfl
@[simp] theorem modOp_stalls (k : Nat) (f : ColOp → ColOp) (s : State) : (modOp k f s).stalls = s.stalls := rfl
@[simp] theorem modOp_pending (k : Nat) (f : ColOp → ColOp) (s : State) : (modOp k f s).pending = s.pending := rfl

/-! `rawWrite`. -/

@[simp] theorem rawWrite_now (a : Nat) (b : Bytes) (s : State) : (rawWrite a b s).now = s.now := rfl
@[simp] theorem rawWrite_free (a : Nat) (b : Bytes) (s : State) : (rawWrite a b s).free = s.free := rfl
@[simp] theorem rawWrite_out (a : Nat) (b : Bytes) (s : State) : (rawWrite a b s).out = s.out := rfl
@[simp] theorem rawWrite_latch (a : Nat) (b : Bytes) (s : State) : (rawWrite a b s).latch = s.latch := rfl
@[simp] theorem rawWrite_root (a : Nat) (b : Bytes) (s : State) : (rawWrite a b s).root = s.root := rfl
@[simp] theorem rawWrite_hwd (a : Nat) (b : Bytes) (s : State) : (rawWrite a b s).hwd = s.hwd := rfl
@[simp] theorem rawWrite_mm (a : Nat) (b : Bytes) (s : State) : (rawWrite a b s).mm = { s.mm with bytes := Mem.write 0 s.mm.bytes a b } := rfl
@[simp] theorem rawWrite_cmb (a : Nat) (b : Bytes) (s : State) : (rawWrite a b s).cmb = s.cmb := rfl
@[simp] theorem rawWrite_fjr (a : Nat) (b : Bytes) (s : State) : (rawWrite a b s).fjr = s.fjr := rfl
@[simp] theorem rawWrite_obs (a : Nat) (b : Bytes) (s : State) : (rawWrite a b s).obs = s.obs := rfl
@[simp] theorem rawWrite_ports (a : Nat) (b : Bytes) (s : State) : (rawWrite a b s).ports = s.ports := rfl
@[simp] theorem rawWrite_txn (a : Nat) (b : Bytes) (s : State) : (rawWrite a b s).txn = s.txn := rfl
@[simp] theorem rawWrite_crn (a : Nat) (b : Bytes) (s : State) : (rawWrite a b s).crn = s.crn := rfl
@[simp] theorem rawWrite_col (a : Nat) (b : Bytes) (s : State) : (rawWrite a b s).col = s.col := rfl
@[simp] theorem rawWrite_tke (a : Nat) (b : Bytes) (s : State) : (rawWrite a b s).tke = s.tke := rfl
@[simp] theorem rawWrite_grv (a : Nat) (b : Bytes) (s : State) : (rawWrite a b s).grv = s.grv := rfl
@[simp] theorem rawWrite_twn (a : Nat) (b : Bytes) (s : State) : (rawWrite a b s).twn = s.twn := rfl
@[simp] theorem rawWrite_pwr (a : Nat) (b : Bytes) (s : State) : (rawWrite a b s).pwr = s.pwr := rfl
@[simp] theorem rawWrite_boot (a : Nat) (b : Bytes) (s : State) : (rawWrite a b s).boot = s.boot := rfl
@[simp] theorem rawWrite_cfg (a : Nat) (b : Bytes) (s : State) : (rawWrite a b s).cfg = s.cfg := rfl
@[simp] theorem rawWrite_fuse (a : Nat) (b : Bytes) (s : State) : (rawWrite a b s).fuse = s.fuse := rfl
@[simp] theorem rawWrite_flash (a : Nat) (b : Bytes) (s : State) : (rawWrite a b s).flash = s.flash := rfl
@[simp] theorem rawWrite_stalls (a : Nat) (b : Bytes) (s : State) : (rawWrite a b s).stalls = s.stalls := rfl
@[simp] theorem rawWrite_pending (a : Nat) (b : Bytes) (s : State) : (rawWrite a b s).pending = s.pending := rfl

/-! `setRegion`. -/

@[simp] theorem setRegion_now (k : Nat) (r : Region) (s : State) : (setRegion k r s).now = s.now := rfl
@[simp] theorem setRegion_free (k : Nat) (r : Region) (s : State) : (setRegion k r s).free = s.free := rfl
@[simp] theorem setRegion_out (k : Nat) (r : Region) (s : State) : (setRegion k r s).out = s.out := rfl
@[simp] theorem setRegion_latch (k : Nat) (r : Region) (s : State) : (setRegion k r s).latch = s.latch := rfl
@[simp] theorem setRegion_root (k : Nat) (r : Region) (s : State) : (setRegion k r s).root = s.root := rfl
@[simp] theorem setRegion_hwd (k : Nat) (r : Region) (s : State) : (setRegion k r s).hwd = s.hwd := rfl
@[simp] theorem setRegion_mm (k : Nat) (r : Region) (s : State) : (setRegion k r s).mm = s.mm := rfl
@[simp] theorem setRegion_cmb (k : Nat) (r : Region) (s : State) : (setRegion k r s).cmb = s.cmb := rfl
@[simp] theorem setRegion_fjr (k : Nat) (r : Region) (s : State) : (setRegion k r s).fjr = s.fjr := rfl
@[simp] theorem setRegion_obs (k : Nat) (r : Region) (s : State) : (setRegion k r s).obs = s.obs := rfl
@[simp] theorem setRegion_ports (k : Nat) (r : Region) (s : State) : (setRegion k r s).ports = s.ports := rfl
@[simp] theorem setRegion_txn (k : Nat) (r : Region) (s : State) : (setRegion k r s).txn = s.txn := rfl
@[simp] theorem setRegion_crn (k : Nat) (r : Region) (s : State) : (setRegion k r s).crn = s.crn := rfl
@[simp] theorem setRegion_col (k : Nat) (r : Region) (s : State) : (setRegion k r s).col = s.col := rfl
@[simp] theorem setRegion_tke (k : Nat) (r : Region) (s : State) : (setRegion k r s).tke = s.tke := rfl
@[simp] theorem setRegion_grv (k : Nat) (r : Region) (s : State) : (setRegion k r s).grv = s.grv := rfl
@[simp] theorem setRegion_twn (k : Nat) (r : Region) (s : State) : (setRegion k r s).twn = { s.twn with regions := tset k r s.twn.regions } := rfl
@[simp] theorem setRegion_pwr (k : Nat) (r : Region) (s : State) : (setRegion k r s).pwr = s.pwr := rfl
@[simp] theorem setRegion_boot (k : Nat) (r : Region) (s : State) : (setRegion k r s).boot = s.boot := rfl
@[simp] theorem setRegion_cfg (k : Nat) (r : Region) (s : State) : (setRegion k r s).cfg = s.cfg := rfl
@[simp] theorem setRegion_fuse (k : Nat) (r : Region) (s : State) : (setRegion k r s).fuse = s.fuse := rfl
@[simp] theorem setRegion_flash (k : Nat) (r : Region) (s : State) : (setRegion k r s).flash = s.flash := rfl
@[simp] theorem setRegion_stalls (k : Nat) (r : Region) (s : State) : (setRegion k r s).stalls = s.stalls := rfl
@[simp] theorem setRegion_pending (k : Nat) (r : Region) (s : State) : (setRegion k r s).pending = s.pending := rfl

/-! `State.withCommand`. -/

@[simp] theorem State.withCommand_now (s : State) (i : Instr) : (s.withCommand i).now = s.now := rfl
@[simp] theorem State.withCommand_free (s : State) (i : Instr) : (s.withCommand i).free = s.free := rfl
@[simp] theorem State.withCommand_out (s : State) (i : Instr) : (s.withCommand i).out = s.out := rfl
@[simp] theorem State.withCommand_latch (s : State) (i : Instr) : (s.withCommand i).latch = s.latch := rfl
@[simp] theorem State.withCommand_root (s : State) (i : Instr) : (s.withCommand i).root = s.root := rfl
@[simp] theorem State.withCommand_hwd (s : State) (i : Instr) : (s.withCommand i).hwd = s.hwd := rfl
@[simp] theorem State.withCommand_mm (s : State) (i : Instr) : (s.withCommand i).mm = s.mm := rfl
@[simp] theorem State.withCommand_cmb (s : State) (i : Instr) : (s.withCommand i).cmb = s.cmb := rfl
@[simp] theorem State.withCommand_fjr (s : State) (i : Instr) : (s.withCommand i).fjr = s.fjr := rfl
@[simp] theorem State.withCommand_obs (s : State) (i : Instr) : (s.withCommand i).obs = s.obs := rfl
@[simp] theorem State.withCommand_ports (s : State) (i : Instr) : (s.withCommand i).ports = s.ports := rfl
@[simp] theorem State.withCommand_txn (s : State) (i : Instr) : (s.withCommand i).txn = s.txn := rfl
@[simp] theorem State.withCommand_crn (s : State) (i : Instr) : (s.withCommand i).crn = s.crn := rfl
@[simp] theorem State.withCommand_col (s : State) (i : Instr) : (s.withCommand i).col = s.col := rfl
@[simp] theorem State.withCommand_tke (s : State) (i : Instr) : (s.withCommand i).tke = s.tke := rfl
@[simp] theorem State.withCommand_grv (s : State) (i : Instr) : (s.withCommand i).grv = s.grv := rfl
@[simp] theorem State.withCommand_twn (s : State) (i : Instr) : (s.withCommand i).twn = s.twn := rfl
@[simp] theorem State.withCommand_pwr (s : State) (i : Instr) : (s.withCommand i).pwr = s.pwr := rfl
@[simp] theorem State.withCommand_boot (s : State) (i : Instr) : (s.withCommand i).boot = s.boot := rfl
@[simp] theorem State.withCommand_cfg (s : State) (i : Instr) : (s.withCommand i).cfg = s.cfg := rfl
@[simp] theorem State.withCommand_fuse (s : State) (i : Instr) : (s.withCommand i).fuse = s.fuse := rfl
@[simp] theorem State.withCommand_flash (s : State) (i : Instr) : (s.withCommand i).flash = s.flash := rfl
@[simp] theorem State.withCommand_stalls (s : State) (i : Instr) : (s.withCommand i).stalls = s.stalls := rfl
@[simp] theorem State.withCommand_pending (s : State) (i : Instr) : (s.withCommand i).pending = i :: s.pending := rfl

end Sys2Proof.Machine
end

