-- ==== Sys2Proof/Laws/Tab.lean ====
section
/-! SUPPORT. Reads after writes of the tables and arrays of the state. -/

namespace Sys2Proof.Machine

@[simp] theorem vget_vset_self {α : Type} {n : Nat} (v : Vector α n) (i : Fin n) (x : α) : vget (vset v i x) i = x := by
  simp [vget, vset]

theorem vget_vset_of_ne {α : Type} {n : Nat} (v : Vector α n) {i j : Fin n} (x : α) (h : j ≠ i) :
    vget (vset v i x) j = vget v j := by
  have h' : i.val ≠ j.val := fun e => h (Fin.ext e.symm)
  simp [vget, vset, h']

@[simp] theorem vget_vmod_self {α : Type} {n : Nat} (v : Vector α n) (i : Fin n) (f : α → α) :
    vget (vmod v i f) i = f (vget v i) := by
  simp [vmod]

theorem vget_vmod_of_ne {α : Type} {n : Nat} (v : Vector α n) {i j : Fin n} (f : α → α) (h : j ≠ i) :
    vget (vmod v i f) j = vget v j := vget_vset_of_ne v _ h

@[simp] theorem vset_vget {α : Type} {n : Nat} (v : Vector α n) (i : Fin n) : vset v i (vget v i) = v := by
  simp [vget, vset]

@[simp] theorem tget_tset_self {α : Type} (k : Nat) (v : α) (t : Tab α) : tget k (tset k v t) = some v := by
  induction t with
  | nil => simp [tset, tget]
  | cons e t ih =>
    obtain ⟨k', v'⟩ := e
    rcases Nat.lt_trichotomy k k' with h | h | h
    · have : k ≠ k' := by omega
      simp [tset, tget, this, h]
    · simp [tset, tget, h]
    · have h1 : k ≠ k' := by omega
      have h2 : ¬k < k' := by omega
      simp [tset, tget, h1, h2, ih]

theorem tget_tset_of_ne {α : Type} {k j : Nat} (v : α) (t : Tab α) (h : j ≠ k) : tget j (tset k v t) = tget j t := by
  induction t with
  | nil => simp [tset, tget, h]
  | cons e t ih =>
    obtain ⟨k', v'⟩ := e
    by_cases h1 : k = k'
    · subst h1; simp [tset, tget, h]
    · by_cases h2 : k < k'
      · simp [tset, tget, h1, h2, h]
      · simp [tset, tget, h1, h2, ih]

@[simp] theorem tget_tdel_self {α : Type} (k : Nat) (t : Tab α) : tget k (tdel k t) = none := by
  induction t with
  | nil => rfl
  | cons e t ih =>
    obtain ⟨k', v'⟩ := e
    by_cases h : k' = k
    · subst h
      simp only [tdel, ne_eq, decide_not] at ih ⊢
      simpa using ih
    · have h' : k ≠ k' := fun e => h e.symm
      simp only [tdel, ne_eq, decide_not] at ih ⊢
      simp [tget, h, h', ih]

theorem tget_tdel_of_ne {α : Type} {k j : Nat} (t : Tab α) (h : j ≠ k) : tget j (tdel k t) = tget j t := by
  induction t with
  | nil => rfl
  | cons e t ih =>
    obtain ⟨k', v'⟩ := e
    simp only [tdel, ne_eq, decide_not] at ih ⊢
    by_cases h1 : k' = k
    · subst h1; simp [tget, h, ih]
    · simp [tget, h1, ih]

theorem tget_tmod_self {α : Type} (k : Nat) (f : α → α) (t : Tab α) : tget k (tmod k f t) = (tget k t).map f := by
  unfold tmod
  cases h : tget k t with
  | none => simp [h]
  | some v => simp

theorem tget_tmod_of_ne {α : Type} {k j : Nat} (f : α → α) (t : Tab α) (h : j ≠ k) : tget j (tmod k f t) = tget j t := by
  unfold tmod
  cases tget k t with
  | none => rfl
  | some v => exact tget_tset_of_ne _ _ h

end Sys2Proof.Machine
end

