-- ==== Sys2Proof/Laws/Ops.lean ====
section
/-! SUPPORT. What the shared operations of `Machine/Ops.lean` do, once for each: the fields they leave alone, and what they write. -/

namespace Sys2Proof.Machine

/-! The fields that `logErr` leaves alone. -/

@[simp] theorem logErr_now (code island : Nat) (data : Bytes) (s : State) : (logErr code island data s).now = s.now := by simp only [logErr]
@[simp] theorem logErr_free (code island : Nat) (data : Bytes) (s : State) : (logErr code island data s).free = s.free := by simp only [logErr]
@[simp] theorem logErr_out (code island : Nat) (data : Bytes) (s : State) : (logErr code island data s).out = s.out := by simp only [logErr]
@[simp] theorem logErr_latch (code island : Nat) (data : Bytes) (s : State) : (logErr code island data s).latch = s.latch := by simp only [logErr]
@[simp] theorem logErr_root (code island : Nat) (data : Bytes) (s : State) : (logErr code island data s).root = s.root := by simp only [logErr]
@[simp] theorem logErr_hwd (code island : Nat) (data : Bytes) (s : State) : (logErr code island data s).hwd = s.hwd := by simp only [logErr]
@[simp] theorem logErr_mm (code island : Nat) (data : Bytes) (s : State) : (logErr code island data s).mm = s.mm := by simp only [logErr]
@[simp] theorem logErr_fjr (code island : Nat) (data : Bytes) (s : State) : (logErr code island data s).fjr = s.fjr := by simp only [logErr]
@[simp] theorem logErr_obs (code island : Nat) (data : Bytes) (s : State) : (logErr code island data s).obs = s.obs := by simp only [logErr]
@[simp] theorem logErr_ports (code island : Nat) (data : Bytes) (s : State) : (logErr code island data s).ports = s.ports := by simp only [logErr]
@[simp] theorem logErr_txn (code island : Nat) (data : Bytes) (s : State) : (logErr code island data s).txn = s.txn := by simp only [logErr]
@[simp] theorem logErr_crn (code island : Nat) (data : Bytes) (s : State) : (logErr code island data s).crn = s.crn := by simp only [logErr]
@[simp] theorem logErr_col (code island : Nat) (data : Bytes) (s : State) : (logErr code island data s).col = s.col := by simp only [logErr]
@[simp] theorem logErr_tke (code island : Nat) (data : Bytes) (s : State) : (logErr code island data s).tke = s.tke := by simp only [logErr]
@[simp] theorem logErr_grv (code island : Nat) (data : Bytes) (s : State) : (logErr code island data s).grv = s.grv := by simp only [logErr]
@[simp] theorem logErr_twn (code island : Nat) (data : Bytes) (s : State) : (logErr code island data s).twn = s.twn := by simp only [logErr]
@[simp] theorem logErr_pwr (code island : Nat) (data : Bytes) (s : State) : (logErr code island data s).pwr = s.pwr := by simp only [logErr]
@[simp] theorem logErr_boot (code island : Nat) (data : Bytes) (s : State) : (logErr code island data s).boot = s.boot := by simp only [logErr]
@[simp] theorem logErr_cfg (code island : Nat) (data : Bytes) (s : State) : (logErr code island data s).cfg = s.cfg := by simp only [logErr]
@[simp] theorem logErr_fuse (code island : Nat) (data : Bytes) (s : State) : (logErr code island data s).fuse = s.fuse := by simp only [logErr]
@[simp] theorem logErr_flash (code island : Nat) (data : Bytes) (s : State) : (logErr code island data s).flash = s.flash := by simp only [logErr]
@[simp] theorem logErr_stalls (code island : Nat) (data : Bytes) (s : State) : (logErr code island data s).stalls = s.stalls := by simp only [logErr]
@[simp] theorem logErr_pending (code island : Nat) (data : Bytes) (s : State) : (logErr code island data s).pending = s.pending := by simp only [logErr]

/-- An entry of the error log becomes the youngest one; no other field of Cambium changes (13 R413, R414). -/
theorem logErr_cmb (code island : Nat) (data : Bytes) (s : State) : ∃ bytes lost,
    (logErr code island data s).cmb = { s.cmb with
      log := keepLast 2048 (s.cmb.log ++ [{ index := s.cmb.logNext, bytes := bytes }])
      logNext := (s.cmb.logNext + 1) % 2 ^ 32, logLost := lost } :=
  ⟨_, _, rfl⟩

/-- The error log never holds more than 2,048 entries (13 R413). -/
theorem logErr_log_length (code island : Nat) (data : Bytes) (s : State) : (logErr code island data s).cmb.log.length ≤ 2048 := by
  obtain ⟨b, l, h⟩ := logErr_cmb code island data s
  rw [h]
  simp only [keepLast, List.length_drop, List.length_append, List.length_singleton]
  omega

/-! The fields that `traceRec` leaves alone. -/

@[simp] theorem traceRec_now (u ty aux data : Nat) (s : State) : (traceRec u ty aux data s).now = s.now := by simp only [traceRec]
@[simp] theorem traceRec_free (u ty aux data : Nat) (s : State) : (traceRec u ty aux data s).free = s.free := by simp only [traceRec]
@[simp] theorem traceRec_out (u ty aux data : Nat) (s : State) : (traceRec u ty aux data s).out = s.out := by simp only [traceRec]
@[simp] theorem traceRec_latch (u ty aux data : Nat) (s : State) : (traceRec u ty aux data s).latch = s.latch := by simp only [traceRec]
@[simp] theorem traceRec_root (u ty aux data : Nat) (s : State) : (traceRec u ty aux data s).root = s.root := by simp only [traceRec]
@[simp] theorem traceRec_hwd (u ty aux data : Nat) (s : State) : (traceRec u ty aux data s).hwd = s.hwd := by simp only [traceRec]
@[simp] theorem traceRec_mm (u ty aux data : Nat) (s : State) : (traceRec u ty aux data s).mm = s.mm := by simp only [traceRec]
@[simp] theorem traceRec_cmb (u ty aux data : Nat) (s : State) : (traceRec u ty aux data s).cmb = s.cmb := by simp only [traceRec]
@[simp] theorem traceRec_fjr (u ty aux data : Nat) (s : State) : (traceRec u ty aux data s).fjr = s.fjr := by simp only [traceRec]
@[simp] theorem traceRec_ports (u ty aux data : Nat) (s : State) : (traceRec u ty aux data s).ports = s.ports := by simp only [traceRec]
@[simp] theorem traceRec_txn (u ty aux data : Nat) (s : State) : (traceRec u ty aux data s).txn = s.txn := by simp only [traceRec]
@[simp] theorem traceRec_crn (u ty aux data : Nat) (s : State) : (traceRec u ty aux data s).crn = s.crn := by simp only [traceRec]
@[simp] theorem traceRec_col (u ty aux data : Nat) (s : State) : (traceRec u ty aux data s).col = s.col := by simp only [traceRec]
@[simp] theorem traceRec_tke (u ty aux data : Nat) (s : State) : (traceRec u ty aux data s).tke = s.tke := by simp only [traceRec]
@[simp] theorem traceRec_grv (u ty aux data : Nat) (s : State) : (traceRec u ty aux data s).grv = s.grv := by simp only [traceRec]
@[simp] theorem traceRec_twn (u ty aux data : Nat) (s : State) : (traceRec u ty aux data s).twn = s.twn := by simp only [traceRec]
@[simp] theorem traceRec_pwr (u ty aux data : Nat) (s : State) : (traceRec u ty aux data s).pwr = s.pwr := by simp only [traceRec]
@[simp] theorem traceRec_boot (u ty aux data : Nat) (s : State) : (traceRec u ty aux data s).boot = s.boot := by simp only [traceRec]
@[simp] theorem traceRec_cfg (u ty aux data : Nat) (s : State) : (traceRec u ty aux data s).cfg = s.cfg := by simp only [traceRec]
@[simp] theorem traceRec_fuse (u ty aux data : Nat) (s : State) : (traceRec u ty aux data s).fuse = s.fuse := by simp only [traceRec]
@[simp] theorem traceRec_flash (u ty aux data : Nat) (s : State) : (traceRec u ty aux data s).flash = s.flash := by simp only [traceRec]
@[simp] theorem traceRec_stalls (u ty aux data : Nat) (s : State) : (traceRec u ty aux data s).stalls = s.stalls := by simp only [traceRec]
@[simp] theorem traceRec_pending (u ty aux data : Nat) (s : State) : (traceRec u ty aux data s).pending = s.pending := by simp only [traceRec]

/-- A trace record changes the rings, the buffers and the counts of lost records, and nothing else of the observation state. -/
theorem traceRec_obs (u ty aux data : Nat) (s : State) : ∃ rings bufs lost,
    (traceRec u ty aux data s).obs = { s.obs with rings := rings, bufs := bufs, lostRecs := lost } := by
  unfold traceRec
  dsimp only
  split
  · split
    · split
      · exact ⟨_, _, _, rfl⟩
      · exact ⟨_, _, _, rfl⟩
    · exact ⟨_, _, _, rfl⟩
  · split
    · split
      · exact ⟨_, _, _, rfl⟩
      · exact ⟨_, _, _, rfl⟩
    · exact ⟨_, _, _, rfl⟩

/-- Trace that is not enabled for the unit's island, of a type that growth rings do not take, changes nothing. -/
theorem traceRec_idle {u ty : Nat} (aux data : Nat) {s : State} (hr : inRing ty = false)
    (hm : s.obs.traceMask.testBit (unitIsland u) = false) : traceRec u ty aux data s = s := by
  simp [traceRec, hr, hm]

/-! The fields that `journalPlace` leaves alone. -/

@[simp] theorem journalPlace_now (b : Bytes) (s : State) : (journalPlace b s).now = s.now := by simp only [journalPlace, rawWrite]
@[simp] theorem journalPlace_free (b : Bytes) (s : State) : (journalPlace b s).free = s.free := by simp only [journalPlace, rawWrite]
@[simp] theorem journalPlace_out (b : Bytes) (s : State) : (journalPlace b s).out = s.out := by simp only [journalPlace, rawWrite]
@[simp] theorem journalPlace_latch (b : Bytes) (s : State) : (journalPlace b s).latch = s.latch := by simp only [journalPlace, rawWrite]
@[simp] theorem journalPlace_root (b : Bytes) (s : State) : (journalPlace b s).root = s.root := by simp only [journalPlace, rawWrite]
@[simp] theorem journalPlace_hwd (b : Bytes) (s : State) : (journalPlace b s).hwd = s.hwd := by simp only [journalPlace, rawWrite]
@[simp] theorem journalPlace_cmb (b : Bytes) (s : State) : (journalPlace b s).cmb = s.cmb := by simp only [journalPlace, rawWrite]
@[simp] theorem journalPlace_obs (b : Bytes) (s : State) : (journalPlace b s).obs = s.obs := by simp only [journalPlace, rawWrite]
@[simp] theorem journalPlace_ports (b : Bytes) (s : State) : (journalPlace b s).ports = s.ports := by simp only [journalPlace, rawWrite]
@[simp] theorem journalPlace_txn (b : Bytes) (s : State) : (journalPlace b s).txn = s.txn := by simp only [journalPlace, rawWrite]
@[simp] theorem journalPlace_crn (b : Bytes) (s : State) : (journalPlace b s).crn = s.crn := by simp only [journalPlace, rawWrite]
@[simp] theorem journalPlace_col (b : Bytes) (s : State) : (journalPlace b s).col = s.col := by simp only [journalPlace, rawWrite]
@[simp] theorem journalPlace_tke (b : Bytes) (s : State) : (journalPlace b s).tke = s.tke := by simp only [journalPlace, rawWrite]
@[simp] theorem journalPlace_grv (b : Bytes) (s : State) : (journalPlace b s).grv = s.grv := by simp only [journalPlace, rawWrite]
@[simp] theorem journalPlace_twn (b : Bytes) (s : State) : (journalPlace b s).twn = s.twn := by simp only [journalPlace, rawWrite]
@[simp] theorem journalPlace_pwr (b : Bytes) (s : State) : (journalPlace b s).pwr = s.pwr := by simp only [journalPlace, rawWrite]
@[simp] theorem journalPlace_boot (b : Bytes) (s : State) : (journalPlace b s).boot = s.boot := by simp only [journalPlace, rawWrite]
@[simp] theorem journalPlace_cfg (b : Bytes) (s : State) : (journalPlace b s).cfg = s.cfg := by simp only [journalPlace, rawWrite]
@[simp] theorem journalPlace_fuse (b : Bytes) (s : State) : (journalPlace b s).fuse = s.fuse := by simp only [journalPlace, rawWrite]
@[simp] theorem journalPlace_flash (b : Bytes) (s : State) : (journalPlace b s).flash = s.flash := by simp only [journalPlace, rawWrite]
@[simp] theorem journalPlace_stalls (b : Bytes) (s : State) : (journalPlace b s).stalls = s.stalls := by simp only [journalPlace, rawWrite]
@[simp] theorem journalPlace_pending (b : Bytes) (s : State) : (journalPlace b s).pending = s.pending := by simp only [journalPlace, rawWrite]

/-! The fields that `journalAt` leaves alone. -/

@[simp] theorem journalAt_now (time ty island : Nat) (body : Bytes) (s : State) : (journalAt time ty island body s).now = s.now := by
  unfold journalAt; dsimp only; split <;> [rfl; (split <;> [rfl; (split <;> rfl)])]
@[simp] theorem journalAt_free (time ty island : Nat) (body : Bytes) (s : State) : (journalAt time ty island body s).free = s.free := by
  unfold journalAt; dsimp only; split <;> [rfl; (split <;> [rfl; (split <;> rfl)])]
@[simp] theorem journalAt_out (time ty island : Nat) (body : Bytes) (s : State) : (journalAt time ty island body s).out = s.out := by
  unfold journalAt; dsimp only; split <;> [rfl; (split <;> [rfl; (split <;> rfl)])]
@[simp] theorem journalAt_latch (time ty island : Nat) (body : Bytes) (s : State) : (journalAt time ty island body s).latch = s.latch := by
  unfold journalAt; dsimp only; split <;> [rfl; (split <;> [rfl; (split <;> rfl)])]
@[simp] theorem journalAt_root (time ty island : Nat) (body : Bytes) (s : State) : (journalAt time ty island body s).root = s.root := by
  unfold journalAt; dsimp only; split <;> [rfl; (split <;> [rfl; (split <;> rfl)])]
@[simp] theorem journalAt_hwd (time ty island : Nat) (body : Bytes) (s : State) : (journalAt time ty island body s).hwd = s.hwd := by
  unfold journalAt; dsimp only; split <;> [rfl; (split <;> [rfl; (split <;> rfl)])]
@[simp] theorem journalAt_cmb (time ty island : Nat) (body : Bytes) (s : State) : (journalAt time ty island body s).cmb = s.cmb := by
  unfold journalAt; dsimp only; split <;> [rfl; (split <;> [rfl; (split <;> rfl)])]
@[simp] theorem journalAt_obs (time ty island : Nat) (body : Bytes) (s : State) : (journalAt time ty island body s).obs = s.obs := by
  unfold journalAt; dsimp only; split <;> [rfl; (split <;> [rfl; (split <;> rfl)])]
@[simp] theorem journalAt_ports (time ty island : Nat) (body : Bytes) (s : State) : (journalAt time ty island body s).ports = s.ports := by
  unfold journalAt; dsimp only; split <;> [rfl; (split <;> [rfl; (split <;> rfl)])]
@[simp] theorem journalAt_txn (time ty island : Nat) (body : Bytes) (s : State) : (journalAt time ty island body s).txn = s.txn := by
  unfold journalAt; dsimp only; split <;> [rfl; (split <;> [rfl; (split <;> rfl)])]
@[simp] theorem journalAt_crn (time ty island : Nat) (body : Bytes) (s : State) : (journalAt time ty island body s).crn = s.crn := by
  unfold journalAt; dsimp only; split <;> [rfl; (split <;> [rfl; (split <;> rfl)])]
@[simp] theorem journalAt_col (time ty island : Nat) (body : Bytes) (s : State) : (journalAt time ty island body s).col = s.col := by
  unfold journalAt; dsimp only; split <;> [rfl; (split <;> [rfl; (split <;> rfl)])]
@[simp] theorem journalAt_tke (time ty island : Nat) (body : Bytes) (s : State) : (journalAt time ty island body s).tke = s.tke := by
  unfold journalAt; dsimp only; split <;> [rfl; (split <;> [rfl; (split <;> rfl)])]
@[simp] theorem journalAt_grv (time ty island : Nat) (body : Bytes) (s : State) : (journalAt time ty island body s).grv = s.grv := by
  unfold journalAt; dsimp only; split <;> [rfl; (split <;> [rfl; (split <;> rfl)])]
@[simp] theorem journalAt_twn (time ty island : Nat) (body : Bytes) (s : State) : (journalAt time ty island body s).twn = s.twn := by
  unfold journalAt; dsimp only; split <;> [rfl; (split <;> [rfl; (split <;> rfl)])]
@[simp] theorem journalAt_pwr (time ty island : Nat) (body : Bytes) (s : State) : (journalAt time ty island body s).pwr = s.pwr := by
  unfold journalAt; dsimp only; split <;> [rfl; (split <;> [rfl; (split <;> rfl)])]
@[simp] theorem journalAt_boot (time ty island : Nat) (body : Bytes) (s : State) : (journalAt time ty island body s).boot = s.boot := by
  unfold journalAt; dsimp only; split <;> [rfl; (split <;> [rfl; (split <;> rfl)])]
@[simp] theorem journalAt_cfg (time ty island : Nat) (body : Bytes) (s : State) : (journalAt time ty island body s).cfg = s.cfg := by
  unfold journalAt; dsimp only; split <;> [rfl; (split <;> [rfl; (split <;> rfl)])]
@[simp] theorem journalAt_fuse (time ty island : Nat) (body : Bytes) (s : State) : (journalAt time ty island body s).fuse = s.fuse := by
  unfold journalAt; dsimp only; split <;> [rfl; (split <;> [rfl; (split <;> rfl)])]
@[simp] theorem journalAt_flash (time ty island : Nat) (body : Bytes) (s : State) : (journalAt time ty island body s).flash = s.flash := by
  unfold journalAt; dsimp only; split <;> [rfl; (split <;> [rfl; (split <;> rfl)])]
@[simp] theorem journalAt_stalls (time ty island : Nat) (body : Bytes) (s : State) : (journalAt time ty island body s).stalls = s.stalls := by
  unfold journalAt; dsimp only; split <;> [rfl; (split <;> [rfl; (split <;> rfl)])]
@[simp] theorem journalAt_pending (time ty island : Nat) (body : Bytes) (s : State) : (journalAt time ty island body s).pending = s.pending := by
  unfold journalAt; dsimp only; split <;> [rfl; (split <;> [rfl; (split <;> rfl)])]

/-! The fields that `journal` leaves alone. -/

@[simp] theorem journal_now (ty island : Nat) (body : Bytes) (s : State) : (journal ty island body s).now = s.now := by simp [journal]
@[simp] theorem journal_free (ty island : Nat) (body : Bytes) (s : State) : (journal ty island body s).free = s.free := by simp [journal]
@[simp] theorem journal_out (ty island : Nat) (body : Bytes) (s : State) : (journal ty island body s).out = s.out := by simp [journal]
@[simp] theorem journal_latch (ty island : Nat) (body : Bytes) (s : State) : (journal ty island body s).latch = s.latch := by simp [journal]
@[simp] theorem journal_root (ty island : Nat) (body : Bytes) (s : State) : (journal ty island body s).root = s.root := by simp [journal]
@[simp] theorem journal_hwd (ty island : Nat) (body : Bytes) (s : State) : (journal ty island body s).hwd = s.hwd := by simp [journal]
@[simp] theorem journal_cmb (ty island : Nat) (body : Bytes) (s : State) : (journal ty island body s).cmb = s.cmb := by simp [journal]
@[simp] theorem journal_obs (ty island : Nat) (body : Bytes) (s : State) : (journal ty island body s).obs = s.obs := by simp [journal]
@[simp] theorem journal_ports (ty island : Nat) (body : Bytes) (s : State) : (journal ty island body s).ports = s.ports := by simp [journal]
@[simp] theorem journal_txn (ty island : Nat) (body : Bytes) (s : State) : (journal ty island body s).txn = s.txn := by simp [journal]
@[simp] theorem journal_crn (ty island : Nat) (body : Bytes) (s : State) : (journal ty island body s).crn = s.crn := by simp [journal]
@[simp] theorem journal_col (ty island : Nat) (body : Bytes) (s : State) : (journal ty island body s).col = s.col := by simp [journal]
@[simp] theorem journal_tke (ty island : Nat) (body : Bytes) (s : State) : (journal ty island body s).tke = s.tke := by simp [journal]
@[simp] theorem journal_grv (ty island : Nat) (body : Bytes) (s : State) : (journal ty island body s).grv = s.grv := by simp [journal]
@[simp] theorem journal_twn (ty island : Nat) (body : Bytes) (s : State) : (journal ty island body s).twn = s.twn := by simp [journal]
@[simp] theorem journal_pwr (ty island : Nat) (body : Bytes) (s : State) : (journal ty island body s).pwr = s.pwr := by simp [journal]
@[simp] theorem journal_boot (ty island : Nat) (body : Bytes) (s : State) : (journal ty island body s).boot = s.boot := by simp [journal]
@[simp] theorem journal_cfg (ty island : Nat) (body : Bytes) (s : State) : (journal ty island body s).cfg = s.cfg := by simp [journal]
@[simp] theorem journal_fuse (ty island : Nat) (body : Bytes) (s : State) : (journal ty island body s).fuse = s.fuse := by simp [journal]
@[simp] theorem journal_flash (ty island : Nat) (body : Bytes) (s : State) : (journal ty island body s).flash = s.flash := by simp [journal]
@[simp] theorem journal_stalls (ty island : Nat) (body : Bytes) (s : State) : (journal ty island body s).stalls = s.stalls := by simp [journal]
@[simp] theorem journal_pending (ty island : Nat) (body : Bytes) (s : State) : (journal ty island body s).pending = s.pending := by simp [journal]

/-- A journal that does not record writes nothing (13 R405). -/
theorem journalAt_off {s : State} (h : s.fjr.recording = false) (time ty island : Nat) (body : Bytes) :
    journalAt time ty island body s = s := by
  simp [journalAt, h]

/-- A journal record leaves the memory's tables alone: of the memory state, only bytes change. -/
theorem journalAt_mm (time ty island : Nat) (body : Bytes) (s : State) :
    ∃ bytes, (journalAt time ty island body s).mm = { s.mm with bytes := bytes } := by
  unfold journalAt
  dsimp only
  split
  · exact ⟨_, rfl⟩
  · split
    · exact ⟨_, rfl⟩
    · split
      · exact ⟨_, rfl⟩
      · exact ⟨_, rfl⟩

/-- A journal record keeps the canonical form of the device memory. -/
theorem journalAt_wf (time ty island : Nat) (body : Bytes) {s : State} (h : Mem.wf 0 s.mm.bytes = true) :
    Mem.wf 0 (journalAt time ty island body s).mm.bytes = true := by
  unfold journalAt
  dsimp only
  split
  · exact h
  · split
    · exact h
    · split
      · exact h
      · exact Mem.wf_write _ _ h

/-- So does a raw store. -/
theorem rawWrite_wf (a : Nat) (b : Bytes) {s : State} (h : Mem.wf 0 s.mm.bytes = true) :
    Mem.wf 0 (rawWrite a b s).mm.bytes = true := Mem.wf_write a b h

/-! The fields that `channelIrq` leaves alone. -/

@[simp] theorem channelIrq_now (ch : Fin 130) (s : State) : (channelIrq ch s).now = s.now := by
  unfold channelIrq; split <;> rfl
@[simp] theorem channelIrq_free (ch : Fin 130) (s : State) : (channelIrq ch s).free = s.free := by
  unfold channelIrq; split <;> rfl
@[simp] theorem channelIrq_latch (ch : Fin 130) (s : State) : (channelIrq ch s).latch = s.latch := by
  unfold channelIrq; split <;> rfl
@[simp] theorem channelIrq_hwd (ch : Fin 130) (s : State) : (channelIrq ch s).hwd = s.hwd := by
  unfold channelIrq; split <;> rfl
@[simp] theorem channelIrq_mm (ch : Fin 130) (s : State) : (channelIrq ch s).mm = s.mm := by
  unfold channelIrq; split <;> rfl
@[simp] theorem channelIrq_cmb (ch : Fin 130) (s : State) : (channelIrq ch s).cmb = s.cmb := by
  unfold channelIrq; split <;> rfl
@[simp] theorem channelIrq_fjr (ch : Fin 130) (s : State) : (channelIrq ch s).fjr = s.fjr := by
  unfold channelIrq; split <;> rfl
@[simp] theorem channelIrq_obs (ch : Fin 130) (s : State) : (channelIrq ch s).obs = s.obs := by
  unfold channelIrq; split <;> rfl
@[simp] theorem channelIrq_ports (ch : Fin 130) (s : State) : (channelIrq ch s).ports = s.ports := by
  unfold channelIrq; split <;> rfl
@[simp] theorem channelIrq_txn (ch : Fin 130) (s : State) : (channelIrq ch s).txn = s.txn := by
  unfold channelIrq; split <;> rfl
@[simp] theorem channelIrq_crn (ch : Fin 130) (s : State) : (channelIrq ch s).crn = s.crn := by
  unfold channelIrq; split <;> rfl
@[simp] theorem channelIrq_col (ch : Fin 130) (s : State) : (channelIrq ch s).col = s.col := by
  unfold channelIrq; split <;> rfl
@[simp] theorem channelIrq_tke (ch : Fin 130) (s : State) : (channelIrq ch s).tke = s.tke := by
  unfold channelIrq; split <;> rfl
@[simp] theorem channelIrq_grv (ch : Fin 130) (s : State) : (channelIrq ch s).grv = s.grv := by
  unfold channelIrq; split <;> rfl
@[simp] theorem channelIrq_twn (ch : Fin 130) (s : State) : (channelIrq ch s).twn = s.twn := by
  unfold channelIrq; split <;> rfl
@[simp] theorem channelIrq_pwr (ch : Fin 130) (s : State) : (channelIrq ch s).pwr = s.pwr := by
  unfold channelIrq; split <;> rfl
@[simp] theorem channelIrq_boot (ch : Fin 130) (s : State) : (channelIrq ch s).boot = s.boot := by
  unfold channelIrq; split <;> rfl
@[simp] theorem channelIrq_cfg (ch : Fin 130) (s : State) : (channelIrq ch s).cfg = s.cfg := by
  unfold channelIrq; split <;> rfl
@[simp] theorem channelIrq_fuse (ch : Fin 130) (s : State) : (channelIrq ch s).fuse = s.fuse := by
  unfold channelIrq; split <;> rfl
@[simp] theorem channelIrq_flash (ch : Fin 130) (s : State) : (channelIrq ch s).flash = s.flash := by
  unfold channelIrq; split <;> rfl
@[simp] theorem channelIrq_stalls (ch : Fin 130) (s : State) : (channelIrq ch s).stalls = s.stalls := by
  unfold channelIrq; split <;> rfl
@[simp] theorem channelIrq_pending (ch : Fin 130) (s : State) : (channelIrq ch s).pending = s.pending := by
  unfold channelIrq; split <;> rfl

/-- A channel's interrupt changes no channel (02 R33). -/
@[simp] theorem channelIrq_chans (ch : Fin 130) (s : State) : (channelIrq ch s).root.chans = s.root.chans := by
  unfold channelIrq; split <;> rfl

@[simp] theorem chan_channelIrq (ch c : Fin 130) (s : State) : chan (channelIrq ch s) c = chan s c := by
  simp [chan]

@[simp] theorem chan_traceRec (c : Fin 130) (u ty aux data : Nat) (s : State) : chan (traceRec u ty aux data s) c = chan s c := by
  simp [chan]

@[simp] theorem chan_logErr (c : Fin 130) (code island : Nat) (data : Bytes) (s : State) :
    chan (logErr code island data s) c = chan s c := by
  simp [chan]

@[simp] theorem chan_journal (c : Fin 130) (ty island : Nat) (body : Bytes) (s : State) :
    chan (journal ty island body s) c = chan s c := by
  simp [chan]

@[simp] theorem chan_setChan_self (ch : Fin 130) (c : Chan) (s : State) : chan (setChan ch c s) ch = c := by
  simp [chan]

theorem chan_setChan_of_ne {ch c : Fin 130} (x : Chan) (s : State) (h : c ≠ ch) : chan (setChan ch x s) c = chan s c := by
  simp [chan, vget_vset_of_ne _ _ h]

@[simp] theorem chan_modChan_self (ch : Fin 130) (f : Chan → Chan) (s : State) : chan (modChan ch f s) ch = f (chan s ch) := by
  simp [modChan]

theorem chan_modChan_of_ne {ch c : Fin 130} (f : Chan → Chan) (s : State) (h : c ≠ ch) : chan (modChan ch f s) c = chan s c :=
  chan_setChan_of_ne _ s h

/-! The fields that `pushEvent` leaves alone. -/

@[simp] theorem pushEvent_now (ch : Fin 130) (b : Bytes) (s : State) : (pushEvent ch b s).now = s.now := by
  unfold pushEvent; dsimp only; split <;> [rfl; (split <;> simp)]
@[simp] theorem pushEvent_free (ch : Fin 130) (b : Bytes) (s : State) : (pushEvent ch b s).free = s.free := by
  unfold pushEvent; dsimp only; split <;> [rfl; (split <;> simp)]
@[simp] theorem pushEvent_latch (ch : Fin 130) (b : Bytes) (s : State) : (pushEvent ch b s).latch = s.latch := by
  unfold pushEvent; dsimp only; split <;> [rfl; (split <;> simp)]
@[simp] theorem pushEvent_hwd (ch : Fin 130) (b : Bytes) (s : State) : (pushEvent ch b s).hwd = s.hwd := by
  unfold pushEvent; dsimp only; split <;> [rfl; (split <;> simp)]
@[simp] theorem pushEvent_mm (ch : Fin 130) (b : Bytes) (s : State) : (pushEvent ch b s).mm = s.mm := by
  unfold pushEvent; dsimp only; split <;> [rfl; (split <;> simp)]
@[simp] theorem pushEvent_cmb (ch : Fin 130) (b : Bytes) (s : State) : (pushEvent ch b s).cmb = s.cmb := by
  unfold pushEvent; dsimp only; split <;> [rfl; (split <;> simp)]
@[simp] theorem pushEvent_fjr (ch : Fin 130) (b : Bytes) (s : State) : (pushEvent ch b s).fjr = s.fjr := by
  unfold pushEvent; dsimp only; split <;> [rfl; (split <;> simp)]
@[simp] theorem pushEvent_obs (ch : Fin 130) (b : Bytes) (s : State) : (pushEvent ch b s).obs = s.obs := by
  unfold pushEvent; dsimp only; split <;> [rfl; (split <;> simp)]
@[simp] theorem pushEvent_ports (ch : Fin 130) (b : Bytes) (s : State) : (pushEvent ch b s).ports = s.ports := by
  unfold pushEvent; dsimp only; split <;> [rfl; (split <;> simp)]
@[simp] theorem pushEvent_txn (ch : Fin 130) (b : Bytes) (s : State) : (pushEvent ch b s).txn = s.txn := by
  unfold pushEvent; dsimp only; split <;> [rfl; (split <;> simp)]
@[simp] theorem pushEvent_crn (ch : Fin 130) (b : Bytes) (s : State) : (pushEvent ch b s).crn = s.crn := by
  unfold pushEvent; dsimp only; split <;> [rfl; (split <;> simp)]
@[simp] theorem pushEvent_col (ch : Fin 130) (b : Bytes) (s : State) : (pushEvent ch b s).col = s.col := by
  unfold pushEvent; dsimp only; split <;> [rfl; (split <;> simp)]
@[simp] theorem pushEvent_tke (ch : Fin 130) (b : Bytes) (s : State) : (pushEvent ch b s).tke = s.tke := by
  unfold pushEvent; dsimp only; split <;> [rfl; (split <;> simp)]
@[simp] theorem pushEvent_grv (ch : Fin 130) (b : Bytes) (s : State) : (pushEvent ch b s).grv = s.grv := by
  unfold pushEvent; dsimp only; split <;> [rfl; (split <;> simp)]
@[simp] theorem pushEvent_twn (ch : Fin 130) (b : Bytes) (s : State) : (pushEvent ch b s).twn = s.twn := by
  unfold pushEvent; dsimp only; split <;> [rfl; (split <;> simp)]
@[simp] theorem pushEvent_pwr (ch : Fin 130) (b : Bytes) (s : State) : (pushEvent ch b s).pwr = s.pwr := by
  unfold pushEvent; dsimp only; split <;> [rfl; (split <;> simp)]
@[simp] theorem pushEvent_boot (ch : Fin 130) (b : Bytes) (s : State) : (pushEvent ch b s).boot = s.boot := by
  unfold pushEvent; dsimp only; split <;> [rfl; (split <;> simp)]
@[simp] theorem pushEvent_cfg (ch : Fin 130) (b : Bytes) (s : State) : (pushEvent ch b s).cfg = s.cfg := by
  unfold pushEvent; dsimp only; split <;> [rfl; (split <;> simp)]
@[simp] theorem pushEvent_fuse (ch : Fin 130) (b : Bytes) (s : State) : (pushEvent ch b s).fuse = s.fuse := by
  unfold pushEvent; dsimp only; split <;> [rfl; (split <;> simp)]
@[simp] theorem pushEvent_flash (ch : Fin 130) (b : Bytes) (s : State) : (pushEvent ch b s).flash = s.flash := by
  unfold pushEvent; dsimp only; split <;> [rfl; (split <;> simp)]
@[simp] theorem pushEvent_stalls (ch : Fin 130) (b : Bytes) (s : State) : (pushEvent ch b s).stalls = s.stalls := by
  unfold pushEvent; dsimp only; split <;> [rfl; (split <;> simp)]
@[simp] theorem pushEvent_pending (ch : Fin 130) (b : Bytes) (s : State) : (pushEvent ch b s).pending = s.pending := by
  unfold pushEvent; dsimp only; split <;> [rfl; (split <;> simp)]

/-- An event touches its own channel only. -/
theorem chan_pushEvent_of_ne {ch c : Fin 130} (b : Bytes) (s : State) (h : c ≠ ch) : chan (pushEvent ch b s) c = chan s c := by
  unfold pushEvent
  dsimp only
  split
  · exact chan_setChan_of_ne _ s h
  · split
    · rw [chan_channelIrq]; exact chan_setChan_of_ne _ s h
    · exact chan_setChan_of_ne _ s h

/-- Of its channel an event changes the queue, its HEAD and the events held back, and nothing else (02 R45, R47). -/
theorem chan_pushEvent_self (ch : Fin 130) (b : Bytes) (s : State) : ∃ evq head held,
    chan (pushEvent ch b s) ch = { chan s ch with evq := evq, head := head, held := held } := by
  unfold pushEvent
  dsimp only
  split
  · exact ⟨_, _, _, chan_setChan_self _ _ _⟩
  · split
    · exact ⟨_, _, _, (chan_channelIrq _ _ _).trans (chan_setChan_self _ _ _)⟩
    · exact ⟨_, _, _, chan_setChan_self _ _ _⟩

@[simp] theorem tickets_pushEvent (ch : Fin 130) (b : Bytes) (s : State) :
    (chan (pushEvent ch b s) ch).tickets = (chan s ch).tickets := by
  obtain ⟨e, h, d, hc⟩ := chan_pushEvent_self ch b s
  rw [hc]

/-- An event that finds room stands in the queue's slot at HEAD, and HEAD advances (02 R45). -/
theorem pushEvent_room {ch : Fin 130} {s : State} (b : Bytes) (h1 : ((chan s ch).head + 1) % 64 ≠ (chan s ch).tail)
    (h2 : (chan s ch).held = []) : chan (pushEvent ch b s) ch =
      { chan s ch with evq := tset (chan s ch).head b (chan s ch).evq, head := ((chan s ch).head + 1) % 64 } := by
  unfold pushEvent
  dsimp only
  rw [if_neg (by simp [h1, h2])]
  split
  · simp
  · simp

/-! The fields that `finishChannel` leaves alone. -/

@[simp] theorem finishChannel_now (ch : Fin 130) (rsp : Bytes) (cmd status : Nat) (s : State) : (finishChannel ch rsp cmd status s).now = s.now := by
  unfold finishChannel; dsimp only; split <;> simp
@[simp] theorem finishChannel_free (ch : Fin 130) (rsp : Bytes) (cmd status : Nat) (s : State) : (finishChannel ch rsp cmd status s).free = s.free := by
  unfold finishChannel; dsimp only; split <;> simp
@[simp] theorem finishChannel_latch (ch : Fin 130) (rsp : Bytes) (cmd status : Nat) (s : State) : (finishChannel ch rsp cmd status s).latch = s.latch := by
  unfold finishChannel; dsimp only; split <;> simp
@[simp] theorem finishChannel_hwd (ch : Fin 130) (rsp : Bytes) (cmd status : Nat) (s : State) : (finishChannel ch rsp cmd status s).hwd = s.hwd := by
  unfold finishChannel; dsimp only; split <;> simp
@[simp] theorem finishChannel_mm (ch : Fin 130) (rsp : Bytes) (cmd status : Nat) (s : State) : (finishChannel ch rsp cmd status s).mm = s.mm := by
  unfold finishChannel; dsimp only; split <;> simp
@[simp] theorem finishChannel_cmb (ch : Fin 130) (rsp : Bytes) (cmd status : Nat) (s : State) : (finishChannel ch rsp cmd status s).cmb = s.cmb := by
  unfold finishChannel; dsimp only; split <;> simp
@[simp] theorem finishChannel_fjr (ch : Fin 130) (rsp : Bytes) (cmd status : Nat) (s : State) : (finishChannel ch rsp cmd status s).fjr = s.fjr := by
  unfold finishChannel; dsimp only; split <;> simp
@[simp] theorem finishChannel_ports (ch : Fin 130) (rsp : Bytes) (cmd status : Nat) (s : State) : (finishChannel ch rsp cmd status s).ports = s.ports := by
  unfold finishChannel; dsimp only; split <;> simp
@[simp] theorem finishChannel_txn (ch : Fin 130) (rsp : Bytes) (cmd status : Nat) (s : State) : (finishChannel ch rsp cmd status s).txn = s.txn := by
  unfold finishChannel; dsimp only; split <;> simp
@[simp] theorem finishChannel_crn (ch : Fin 130) (rsp : Bytes) (cmd status : Nat) (s : State) : (finishChannel ch rsp cmd status s).crn = s.crn := by
  unfold finishChannel; dsimp only; split <;> simp
@[simp] theorem finishChannel_col (ch : Fin 130) (rsp : Bytes) (cmd status : Nat) (s : State) : (finishChannel ch rsp cmd status s).col = s.col := by
  unfold finishChannel; dsimp only; split <;> simp
@[simp] theorem finishChannel_tke (ch : Fin 130) (rsp : Bytes) (cmd status : Nat) (s : State) : (finishChannel ch rsp cmd status s).tke = s.tke := by
  unfold finishChannel; dsimp only; split <;> simp
@[simp] theorem finishChannel_grv (ch : Fin 130) (rsp : Bytes) (cmd status : Nat) (s : State) : (finishChannel ch rsp cmd status s).grv = s.grv := by
  unfold finishChannel; dsimp only; split <;> simp
@[simp] theorem finishChannel_twn (ch : Fin 130) (rsp : Bytes) (cmd status : Nat) (s : State) : (finishChannel ch rsp cmd status s).twn = s.twn := by
  unfold finishChannel; dsimp only; split <;> simp
@[simp] theorem finishChannel_pwr (ch : Fin 130) (rsp : Bytes) (cmd status : Nat) (s : State) : (finishChannel ch rsp cmd status s).pwr = s.pwr := by
  unfold finishChannel; dsimp only; split <;> simp
@[simp] theorem finishChannel_boot (ch : Fin 130) (rsp : Bytes) (cmd status : Nat) (s : State) : (finishChannel ch rsp cmd status s).boot = s.boot := by
  unfold finishChannel; dsimp only; split <;> simp
@[simp] theorem finishChannel_cfg (ch : Fin 130) (rsp : Bytes) (cmd status : Nat) (s : State) : (finishChannel ch rsp cmd status s).cfg = s.cfg := by
  unfold finishChannel; dsimp only; split <;> simp
@[simp] theorem finishChannel_fuse (ch : Fin 130) (rsp : Bytes) (cmd status : Nat) (s : State) : (finishChannel ch rsp cmd status s).fuse = s.fuse := by
  unfold finishChannel; dsimp only; split <;> simp
@[simp] theorem finishChannel_flash (ch : Fin 130) (rsp : Bytes) (cmd status : Nat) (s : State) : (finishChannel ch rsp cmd status s).flash = s.flash := by
  unfold finishChannel; dsimp only; split <;> simp
@[simp] theorem finishChannel_stalls (ch : Fin 130) (rsp : Bytes) (cmd status : Nat) (s : State) : (finishChannel ch rsp cmd status s).stalls = s.stalls := by
  unfold finishChannel; dsimp only; split <;> simp
@[simp] theorem finishChannel_pending (ch : Fin 130) (rsp : Bytes) (cmd status : Nat) (s : State) : (finishChannel ch rsp cmd status s).pending = s.pending := by
  unfold finishChannel; dsimp only; split <;> simp

/-- The channel is DONE and holds the response (02 R37). -/
@[simp] theorem chan_finishChannel_self (ch : Fin 130) (rsp : Bytes) (cmd status : Nat) (s : State) :
    chan (finishChannel ch rsp cmd status s) ch = { chan s ch with rsp := rsp, st := .done } := by
  unfold finishChannel
  dsimp only
  split <;> simp

/-- No other channel changes. -/
theorem chan_finishChannel_of_ne {ch c : Fin 130} (rsp : Bytes) (cmd status : Nat) (s : State) (h : c ≠ ch) :
    chan (finishChannel ch rsp cmd status s) c = chan s c := by
  unfold finishChannel
  dsimp only
  split <;> simp [chan_setChan_of_ne _ _ h]

/-! The fields that `respond` leaves alone. -/

@[simp] theorem respond_now (ch : Fin 130) (r : Request) (status ticket : Nat) (result : Bytes) (s : State) : (respond ch r status ticket result s).now = s.now := by simp [respond]
@[simp] theorem respond_free (ch : Fin 130) (r : Request) (status ticket : Nat) (result : Bytes) (s : State) : (respond ch r status ticket result s).free = s.free := by simp [respond]
@[simp] theorem respond_latch (ch : Fin 130) (r : Request) (status ticket : Nat) (result : Bytes) (s : State) : (respond ch r status ticket result s).latch = s.latch := by simp [respond]
@[simp] theorem respond_hwd (ch : Fin 130) (r : Request) (status ticket : Nat) (result : Bytes) (s : State) : (respond ch r status ticket result s).hwd = s.hwd := by simp [respond]
@[simp] theorem respond_mm (ch : Fin 130) (r : Request) (status ticket : Nat) (result : Bytes) (s : State) : (respond ch r status ticket result s).mm = s.mm := by simp [respond]
@[simp] theorem respond_cmb (ch : Fin 130) (r : Request) (status ticket : Nat) (result : Bytes) (s : State) : (respond ch r status ticket result s).cmb = s.cmb := by simp [respond]
@[simp] theorem respond_fjr (ch : Fin 130) (r : Request) (status ticket : Nat) (result : Bytes) (s : State) : (respond ch r status ticket result s).fjr = s.fjr := by simp [respond]
@[simp] theorem respond_ports (ch : Fin 130) (r : Request) (status ticket : Nat) (result : Bytes) (s : State) : (respond ch r status ticket result s).ports = s.ports := by simp [respond]
@[simp] theorem respond_txn (ch : Fin 130) (r : Request) (status ticket : Nat) (result : Bytes) (s : State) : (respond ch r status ticket result s).txn = s.txn := by simp [respond]
@[simp] theorem respond_crn (ch : Fin 130) (r : Request) (status ticket : Nat) (result : Bytes) (s : State) : (respond ch r status ticket result s).crn = s.crn := by simp [respond]
@[simp] theorem respond_col (ch : Fin 130) (r : Request) (status ticket : Nat) (result : Bytes) (s : State) : (respond ch r status ticket result s).col = s.col := by simp [respond]
@[simp] theorem respond_tke (ch : Fin 130) (r : Request) (status ticket : Nat) (result : Bytes) (s : State) : (respond ch r status ticket result s).tke = s.tke := by simp [respond]
@[simp] theorem respond_grv (ch : Fin 130) (r : Request) (status ticket : Nat) (result : Bytes) (s : State) : (respond ch r status ticket result s).grv = s.grv := by simp [respond]
@[simp] theorem respond_twn (ch : Fin 130) (r : Request) (status ticket : Nat) (result : Bytes) (s : State) : (respond ch r status ticket result s).twn = s.twn := by simp [respond]
@[simp] theorem respond_pwr (ch : Fin 130) (r : Request) (status ticket : Nat) (result : Bytes) (s : State) : (respond ch r status ticket result s).pwr = s.pwr := by simp [respond]
@[simp] theorem respond_boot (ch : Fin 130) (r : Request) (status ticket : Nat) (result : Bytes) (s : State) : (respond ch r status ticket result s).boot = s.boot := by simp [respond]
@[simp] theorem respond_cfg (ch : Fin 130) (r : Request) (status ticket : Nat) (result : Bytes) (s : State) : (respond ch r status ticket result s).cfg = s.cfg := by simp [respond]
@[simp] theorem respond_fuse (ch : Fin 130) (r : Request) (status ticket : Nat) (result : Bytes) (s : State) : (respond ch r status ticket result s).fuse = s.fuse := by simp [respond]
@[simp] theorem respond_flash (ch : Fin 130) (r : Request) (status ticket : Nat) (result : Bytes) (s : State) : (respond ch r status ticket result s).flash = s.flash := by simp [respond]
@[simp] theorem respond_stalls (ch : Fin 130) (r : Request) (status ticket : Nat) (result : Bytes) (s : State) : (respond ch r status ticket result s).stalls = s.stalls := by simp [respond]
@[simp] theorem respond_pending (ch : Fin 130) (r : Request) (status ticket : Nat) (result : Bytes) (s : State) : (respond ch r status ticket result s).pending = s.pending := by simp [respond]

/-- A command that Root answers leaves its channel DONE with the response of Table 2-7 (02 R37, R50). -/
@[simp] theorem chan_respond_self (ch : Fin 130) (r : Request) (status ticket : Nat) (result : Bytes) (s : State) :
    chan (respond ch r status ticket result s) ch
      = { chan s ch with rsp := responseBytes ch r status ticket s.now result, st := .done } := by
  simp [respond]

/-- No other channel changes. -/
theorem chan_respond_of_ne {ch c : Fin 130} (r : Request) (status ticket : Nat) (result : Bytes) (s : State) (h : c ≠ ch) :
    chan (respond ch r status ticket result s) c = chan s c := chan_finishChannel_of_ne _ _ _ s h

/-! The fields that `finishTicket` leaves alone. -/

@[simp] theorem finishTicket_now (ch : Fin 130) (num status : Nat) (result : Bytes) (s : State) : (finishTicket ch num status result s).now = s.now := by
  unfold finishTicket; split <;> [(split <;> simp); rfl]
@[simp] theorem finishTicket_free (ch : Fin 130) (num status : Nat) (result : Bytes) (s : State) : (finishTicket ch num status result s).free = s.free := by
  unfold finishTicket; split <;> [(split <;> simp); rfl]
@[simp] theorem finishTicket_latch (ch : Fin 130) (num status : Nat) (result : Bytes) (s : State) : (finishTicket ch num status result s).latch = s.latch := by
  unfold finishTicket; split <;> [(split <;> simp); rfl]
@[simp] theorem finishTicket_hwd (ch : Fin 130) (num status : Nat) (result : Bytes) (s : State) : (finishTicket ch num status result s).hwd = s.hwd := by
  unfold finishTicket; split <;> [(split <;> simp); rfl]
@[simp] theorem finishTicket_mm (ch : Fin 130) (num status : Nat) (result : Bytes) (s : State) : (finishTicket ch num status result s).mm = s.mm := by
  unfold finishTicket; split <;> [(split <;> simp); rfl]
@[simp] theorem finishTicket_cmb (ch : Fin 130) (num status : Nat) (result : Bytes) (s : State) : (finishTicket ch num status result s).cmb = s.cmb := by
  unfold finishTicket; split <;> [(split <;> simp); rfl]
@[simp] theorem finishTicket_fjr (ch : Fin 130) (num status : Nat) (result : Bytes) (s : State) : (finishTicket ch num status result s).fjr = s.fjr := by
  unfold finishTicket; split <;> [(split <;> simp); rfl]
@[simp] theorem finishTicket_obs (ch : Fin 130) (num status : Nat) (result : Bytes) (s : State) : (finishTicket ch num status result s).obs = s.obs := by
  unfold finishTicket; split <;> [(split <;> simp); rfl]
@[simp] theorem finishTicket_ports (ch : Fin 130) (num status : Nat) (result : Bytes) (s : State) : (finishTicket ch num status result s).ports = s.ports := by
  unfold finishTicket; split <;> [(split <;> simp); rfl]
@[simp] theorem finishTicket_txn (ch : Fin 130) (num status : Nat) (result : Bytes) (s : State) : (finishTicket ch num status result s).txn = s.txn := by
  unfold finishTicket; split <;> [(split <;> simp); rfl]
@[simp] theorem finishTicket_crn (ch : Fin 130) (num status : Nat) (result : Bytes) (s : State) : (finishTicket ch num status result s).crn = s.crn := by
  unfold finishTicket; split <;> [(split <;> simp); rfl]
@[simp] theorem finishTicket_col (ch : Fin 130) (num status : Nat) (result : Bytes) (s : State) : (finishTicket ch num status result s).col = s.col := by
  unfold finishTicket; split <;> [(split <;> simp); rfl]
@[simp] theorem finishTicket_tke (ch : Fin 130) (num status : Nat) (result : Bytes) (s : State) : (finishTicket ch num status result s).tke = s.tke := by
  unfold finishTicket; split <;> [(split <;> simp); rfl]
@[simp] theorem finishTicket_grv (ch : Fin 130) (num status : Nat) (result : Bytes) (s : State) : (finishTicket ch num status result s).grv = s.grv := by
  unfold finishTicket; split <;> [(split <;> simp); rfl]
@[simp] theorem finishTicket_twn (ch : Fin 130) (num status : Nat) (result : Bytes) (s : State) : (finishTicket ch num status result s).twn = s.twn := by
  unfold finishTicket; split <;> [(split <;> simp); rfl]
@[simp] theorem finishTicket_pwr (ch : Fin 130) (num status : Nat) (result : Bytes) (s : State) : (finishTicket ch num status result s).pwr = s.pwr := by
  unfold finishTicket; split <;> [(split <;> simp); rfl]
@[simp] theorem finishTicket_boot (ch : Fin 130) (num status : Nat) (result : Bytes) (s : State) : (finishTicket ch num status result s).boot = s.boot := by
  unfold finishTicket; split <;> [(split <;> simp); rfl]
@[simp] theorem finishTicket_cfg (ch : Fin 130) (num status : Nat) (result : Bytes) (s : State) : (finishTicket ch num status result s).cfg = s.cfg := by
  unfold finishTicket; split <;> [(split <;> simp); rfl]
@[simp] theorem finishTicket_fuse (ch : Fin 130) (num status : Nat) (result : Bytes) (s : State) : (finishTicket ch num status result s).fuse = s.fuse := by
  unfold finishTicket; split <;> [(split <;> simp); rfl]
@[simp] theorem finishTicket_flash (ch : Fin 130) (num status : Nat) (result : Bytes) (s : State) : (finishTicket ch num status result s).flash = s.flash := by
  unfold finishTicket; split <;> [(split <;> simp); rfl]
@[simp] theorem finishTicket_stalls (ch : Fin 130) (num status : Nat) (result : Bytes) (s : State) : (finishTicket ch num status result s).stalls = s.stalls := by
  unfold finishTicket; split <;> [(split <;> simp); rfl]
@[simp] theorem finishTicket_pending (ch : Fin 130) (num status : Nat) (result : Bytes) (s : State) : (finishTicket ch num status result s).pending = s.pending := by
  unfold finishTicket; split <;> [(split <;> simp); rfl]

/-- The end of a ticket touches its own channel only. -/
theorem chan_finishTicket_of_ne {ch c : Fin 130} (num status : Nat) (result : Bytes) (s : State) (h : c ≠ ch) :
    chan (finishTicket ch num status result s) c = chan s c := by
  unfold finishTicket
  split
  · split
    · rw [chan_pushEvent_of_ne _ _ h, chan_modChan_of_ne _ _ h]
    · rfl
  · rfl

/-- A ticket that has ended stays as it ended (02 R45). -/
theorem finishTicket_ended {s : State} {ch : Fin 130} {num : Nat} {k : Ticket} (hk : findTicket s ch num = some k)
    (hf : k.final ≠ none) (status : Nat) (result : Bytes) : finishTicket ch num status result s = s := by
  simp [finishTicket, hk, hf]

/-- A ticket that runs ends with the status, and with the result where the status is a success (02 R45). -/
theorem findTicket_finishTicket {s : State} {ch : Fin 130} {num : Nat} {k : Ticket} (hk : findTicket s ch num = some k)
    (hf : k.final = none) (status : Nat) (result : Bytes) :
    findTicket (finishTicket ch num status result s) ch num
      = some { k with final := some status, result := if isSuccess status then pad4 result else [], doneAt := s.now, work := .event } := by
  have hnum : k.num = num := by
    have := List.find?_some hk
    simpa using this
  unfold finishTicket
  rw [hk]
  simp only [hf, if_true]
  unfold findTicket at hk ⊢
  simp only [tickets_pushEvent, chan_modChan_self, List.find?_map]
  have hcomp : ((fun x : Ticket => decide (x.num = num)) ∘ fun x : Ticket => if x.num = num then
      { k with final := some status, result := if isSuccess status then pad4 result else [], doneAt := s.now, work := .event } else x)
      = fun x : Ticket => decide (x.num = num) := by
    funext x
    by_cases hx : x.num = num <;> simp [hx, hnum]
  rw [hcomp, hk]
  simp [hnum]

/-! The fields that `finishRef` leaves alone. -/

@[simp] theorem finishRef_now (ref : Option TicketRef) (status : Nat) (result : Bytes) (s : State) : (finishRef ref status result s).now = s.now := by
  cases ref <;> simp [finishRef]
@[simp] theorem finishRef_free (ref : Option TicketRef) (status : Nat) (result : Bytes) (s : State) : (finishRef ref status result s).free = s.free := by
  cases ref <;> simp [finishRef]
@[simp] theorem finishRef_latch (ref : Option TicketRef) (status : Nat) (result : Bytes) (s : State) : (finishRef ref status result s).latch = s.latch := by
  cases ref <;> simp [finishRef]
@[simp] theorem finishRef_hwd (ref : Option TicketRef) (status : Nat) (result : Bytes) (s : State) : (finishRef ref status result s).hwd = s.hwd := by
  cases ref <;> simp [finishRef]
@[simp] theorem finishRef_mm (ref : Option TicketRef) (status : Nat) (result : Bytes) (s : State) : (finishRef ref status result s).mm = s.mm := by
  cases ref <;> simp [finishRef]
@[simp] theorem finishRef_cmb (ref : Option TicketRef) (status : Nat) (result : Bytes) (s : State) : (finishRef ref status result s).cmb = s.cmb := by
  cases ref <;> simp [finishRef]
@[simp] theorem finishRef_fjr (ref : Option TicketRef) (status : Nat) (result : Bytes) (s : State) : (finishRef ref status result s).fjr = s.fjr := by
  cases ref <;> simp [finishRef]
@[simp] theorem finishRef_obs (ref : Option TicketRef) (status : Nat) (result : Bytes) (s : State) : (finishRef ref status result s).obs = s.obs := by
  cases ref <;> simp [finishRef]
@[simp] theorem finishRef_ports (ref : Option TicketRef) (status : Nat) (result : Bytes) (s : State) : (finishRef ref status result s).ports = s.ports := by
  cases ref <;> simp [finishRef]
@[simp] theorem finishRef_txn (ref : Option TicketRef) (status : Nat) (result : Bytes) (s : State) : (finishRef ref status result s).txn = s.txn := by
  cases ref <;> simp [finishRef]
@[simp] theorem finishRef_crn (ref : Option TicketRef) (status : Nat) (result : Bytes) (s : State) : (finishRef ref status result s).crn = s.crn := by
  cases ref <;> simp [finishRef]
@[simp] theorem finishRef_col (ref : Option TicketRef) (status : Nat) (result : Bytes) (s : State) : (finishRef ref status result s).col = s.col := by
  cases ref <;> simp [finishRef]
@[simp] theorem finishRef_tke (ref : Option TicketRef) (status : Nat) (result : Bytes) (s : State) : (finishRef ref status result s).tke = s.tke := by
  cases ref <;> simp [finishRef]
@[simp] theorem finishRef_grv (ref : Option TicketRef) (status : Nat) (result : Bytes) (s : State) : (finishRef ref status result s).grv = s.grv := by
  cases ref <;> simp [finishRef]
@[simp] theorem finishRef_twn (ref : Option TicketRef) (status : Nat) (result : Bytes) (s : State) : (finishRef ref status result s).twn = s.twn := by
  cases ref <;> simp [finishRef]
@[simp] theorem finishRef_pwr (ref : Option TicketRef) (status : Nat) (result : Bytes) (s : State) : (finishRef ref status result s).pwr = s.pwr := by
  cases ref <;> simp [finishRef]
@[simp] theorem finishRef_boot (ref : Option TicketRef) (status : Nat) (result : Bytes) (s : State) : (finishRef ref status result s).boot = s.boot := by
  cases ref <;> simp [finishRef]
@[simp] theorem finishRef_cfg (ref : Option TicketRef) (status : Nat) (result : Bytes) (s : State) : (finishRef ref status result s).cfg = s.cfg := by
  cases ref <;> simp [finishRef]
@[simp] theorem finishRef_fuse (ref : Option TicketRef) (status : Nat) (result : Bytes) (s : State) : (finishRef ref status result s).fuse = s.fuse := by
  cases ref <;> simp [finishRef]
@[simp] theorem finishRef_flash (ref : Option TicketRef) (status : Nat) (result : Bytes) (s : State) : (finishRef ref status result s).flash = s.flash := by
  cases ref <;> simp [finishRef]
@[simp] theorem finishRef_stalls (ref : Option TicketRef) (status : Nat) (result : Bytes) (s : State) : (finishRef ref status result s).stalls = s.stalls := by
  cases ref <;> simp [finishRef]
@[simp] theorem finishRef_pending (ref : Option TicketRef) (status : Nat) (result : Bytes) (s : State) : (finishRef ref status result s).pending = s.pending := by
  cases ref <;> simp [finishRef]

end Sys2Proof.Machine
end

