-- ==== Sys2Proof/Laws/Canonical.lean ====
section
/-! SUPPORT. The canonical form of the sparse memories under every named update and shared operation. -/

namespace Sys2Proof.Machine

/-! Updates that touch no sparse memory. -/

@[simp] theorem memsOk_at (s : State) (t : Nat) : (s.at t).memsOk = s.memsOk := rfl
@[simp] theorem memsOk_emit (e : Emit) (s : State) : (emit e s).memsOk = s.memsOk := rfl
@[simp] theorem memsOk_modCmb (f : Cmb → Cmb) (s : State) : (modCmb f s).memsOk = s.memsOk := rfl
@[simp] theorem memsOk_modGrv (f : Grove → Grove) (s : State) : (modGrv f s).memsOk = s.memsOk := rfl
@[simp] theorem memsOk_modTwn (f : Twin → Twin) (s : State) : (modTwn f s).memsOk = s.memsOk := rfl
@[simp] theorem memsOk_modCol (f : Col → Col) (s : State) : (modCol f s).memsOk = s.memsOk := rfl
@[simp] theorem memsOk_modHwd (f : Hwd → Hwd) (s : State) : (modHwd f s).memsOk = s.memsOk := rfl
@[simp] theorem memsOk_modTxn (f : TxnState → TxnState) (s : State) : (modTxn f s).memsOk = s.memsOk := rfl
@[simp] theorem memsOk_modTke (f : Tke → Tke) (s : State) : (modTke f s).memsOk = s.memsOk := rfl
@[simp] theorem memsOk_modPwr (f : Pwr → Pwr) (s : State) : (modPwr f s).memsOk = s.memsOk := rfl
@[simp] theorem memsOk_setPort (p : Fin 8) (x : Port) (s : State) : (setPort p x s).memsOk = s.memsOk := rfl
@[simp] theorem memsOk_modPort (p : Fin 8) (f : Port → Port) (s : State) : (modPort p f s).memsOk = s.memsOk := rfl
@[simp] theorem memsOk_modLink (p : Fin 8) (f : Link → Link) (s : State) : (modLink p f s).memsOk = s.memsOk := rfl
@[simp] theorem memsOk_modPhys (p : Fin 8) (f : Phys → Phys) (s : State) : (modPhys p f s).memsOk = s.memsOk := rfl
@[simp] theorem memsOk_modPart (n : Nat) (f : Partition → Partition) (s : State) : (modPart n f s).memsOk = s.memsOk := rfl
@[simp] theorem memsOk_modBough (b : Fin 64) (f : Bough → Bough) (s : State) : (modBough b f s).memsOk = s.memsOk := rfl
@[simp] theorem memsOk_modQueue (n q : Nat) (f : Queue → Queue) (s : State) : (modQueue n q f s).memsOk = s.memsOk := rfl
@[simp] theorem memsOk_modRunning (n q num : Nat) (f : Running → Running) (s : State) : (modRunning n q num f s).memsOk = s.memsOk := rfl
@[simp] theorem memsOk_modPartCtr (n : Nat) (f : PartCtr → PartCtr) (s : State) : (modPartCtr n f s).memsOk = s.memsOk := rfl
@[simp] theorem memsOk_modBoughCtr (b : Nat) (f : BoughCtr → BoughCtr) (s : State) : (modBoughCtr b f s).memsOk = s.memsOk := rfl
@[simp] theorem memsOk_modCut (f : Cut → Cut) (s : State) : (modCut f s).memsOk = s.memsOk := rfl
@[simp] theorem memsOk_modRdbg (f : RemoteDebug → RemoteDebug) (s : State) : (modRdbg f s).memsOk = s.memsOk := rfl
@[simp] theorem memsOk_modStrm (id : Nat) (f : Stream → Stream) (s : State) : (modStrm id f s).memsOk = s.memsOk := rfl
@[simp] theorem memsOk_modSlot (k : Nat) (f : Group → Group) (s : State) : (modSlot k f s).memsOk = s.memsOk := rfl
@[simp] theorem memsOk_modOp (k : Nat) (f : ColOp → ColOp) (s : State) : (modOp k f s).memsOk = s.memsOk := rfl
@[simp] theorem memsOk_withCommand (s : State) (i : Instr) : (s.withCommand i).memsOk = s.memsOk := rfl
@[simp] theorem memsOk_logErr (code island : Nat) (data : Bytes) (s : State) : (logErr code island data s).memsOk = s.memsOk := by simp [State.memsOk]

/-! Updates that may touch one: it must stay canonical. -/

theorem memsOk_iff (s : State) : s.memsOk = true ↔ Mem.wf 0 s.mm.bytes = true ∧ Mem.wf 0 s.crn.scratch = true
    ∧ Mem.wf 0 s.obs.maps = true ∧ Mem.wf 0xFF s.flash = true ∧ ∀ ch : Fin 130, Mem.wf 0 (chan s ch).req = true := by
  have h : (s.root.chans.toList.all fun c => Mem.wf 0 c.req) = true ↔ ∀ ch : Fin 130, Mem.wf 0 (chan s ch).req = true := by
    simp only [List.all_eq_true, chan, vget]
    constructor
    · intro h ch
      exact h _ (by simp)
    · intro h c hc
      obtain ⟨i, hi, rfl⟩ := List.getElem_of_mem hc
      have := h ⟨i, by simpa using hi⟩
      simpa using this
  unfold State.memsOk
  simp only [Bool.and_eq_true, h]
  tauto

theorem memsOk_modMm {f : MemState → MemState} {s : State} (h : s.memsOk = true) (hf : Mem.wf 0 (f s.mm).bytes = true) :
    (modMm f s).memsOk = true := by
  rw [memsOk_iff] at h ⊢
  exact ⟨hf, h.2⟩

theorem memsOk_rawWrite (a : Nat) (b : Bytes) {s : State} (h : s.memsOk = true) : (rawWrite a b s).memsOk = true := by
  rw [memsOk_iff] at h ⊢
  exact ⟨Mem.wf_write a b h.1, h.2⟩

theorem memsOk_modObs {f : Obs → Obs} {s : State} (h : s.memsOk = true) (hf : Mem.wf 0 (f s.obs).maps = true) :
    (modObs f s).memsOk = true := by
  rw [memsOk_iff] at h ⊢
  exact ⟨h.1, h.2.1, hf, h.2.2.2⟩

theorem memsOk_setChan {ch : Fin 130} {c : Chan} {s : State} (h : s.memsOk = true) (hc : Mem.wf 0 c.req = true) :
    (setChan ch c s).memsOk = true := by
  rw [memsOk_iff] at h ⊢
  obtain ⟨h1, h2, h3, h4, h5⟩ := h
  refine ⟨h1, h2, h3, h4, fun k => ?_⟩
  by_cases hk : k = ch
  · subst hk; simpa using hc
  · rw [chan_setChan_of_ne _ _ hk]; exact h5 k

theorem memsOk_chan {s : State} (h : s.memsOk = true) (ch : Fin 130) : Mem.wf 0 (chan s ch).req = true :=
  ((memsOk_iff s).1 h).2.2.2.2 ch

theorem memsOk_modChan {ch : Fin 130} {f : Chan → Chan} {s : State} (h : s.memsOk = true)
    (hf : Mem.wf 0 (f (chan s ch)).req = true) : (modChan ch f s).memsOk = true := memsOk_setChan h hf

/-! The shared operations. -/

@[simp] theorem memsOk_traceRec (u ty aux data : Nat) (s : State) : (traceRec u ty aux data s).memsOk = s.memsOk := by
  obtain ⟨r, b, l, h⟩ := traceRec_obs u ty aux data s
  simp [State.memsOk, h]

theorem memsOk_journalAt (time ty island : Nat) (body : Bytes) {s : State} (h : s.memsOk = true) :
    (journalAt time ty island body s).memsOk = true := by
  rw [memsOk_iff] at h ⊢
  refine ⟨journalAt_wf _ _ _ _ h.1, ?_⟩
  simpa [chan] using h.2

theorem memsOk_journal (ty island : Nat) (body : Bytes) {s : State} (h : s.memsOk = true) :
    (journal ty island body s).memsOk = true := memsOk_journalAt _ _ _ _ h

@[simp] theorem memsOk_channelIrq (ch : Fin 130) (s : State) : (channelIrq ch s).memsOk = s.memsOk := by
  simp [State.memsOk]

theorem memsOk_pushEvent (ch : Fin 130) (b : Bytes) {s : State} (h : s.memsOk = true) : (pushEvent ch b s).memsOk = true := by
  have hc := memsOk_chan h ch
  unfold pushEvent
  dsimp only
  split
  · exact memsOk_setChan h hc
  · split
    · rw [memsOk_channelIrq]; exact memsOk_setChan h hc
    · exact memsOk_setChan h hc

theorem memsOk_finishChannel (ch : Fin 130) (rsp : Bytes) (cmd status : Nat) {s : State} (h : s.memsOk = true) :
    (finishChannel ch rsp cmd status s).memsOk = true := by
  have hc := memsOk_chan h ch
  unfold finishChannel
  dsimp only
  split
  · rw [memsOk_channelIrq, memsOk_traceRec]; exact memsOk_setChan h hc
  · rw [memsOk_traceRec]; exact memsOk_setChan h hc

theorem memsOk_respond (ch : Fin 130) (r : Request) (status ticket : Nat) (result : Bytes) {s : State} (h : s.memsOk = true) :
    (respond ch r status ticket result s).memsOk = true := memsOk_finishChannel _ _ _ _ h

theorem memsOk_answer (ch : Fin 130) (r : Request) (status : Nat) (result : Bytes) {s : State} (h : s.memsOk = true) :
    (answer ch r status result s).memsOk = true := memsOk_respond _ _ _ _ _ h

theorem memsOk_acceptLong (ch : Fin 130) (r : Request) (work : Work) {s : State} (h : s.memsOk = true) :
    (acceptLong ch r work s).memsOk = true := by
  unfold acceptLong
  exact memsOk_respond _ _ _ _ _ (memsOk_modChan h (memsOk_chan h ch))

theorem memsOk_finishTicket (ch : Fin 130) (num status : Nat) (result : Bytes) {s : State} (h : s.memsOk = true) :
    (finishTicket ch num status result s).memsOk = true := by
  unfold finishTicket
  split
  · split
    · exact memsOk_pushEvent _ _ (memsOk_modChan h (memsOk_chan h ch))
    · exact h
  · exact h

theorem memsOk_finishRef (ref : Option TicketRef) (status : Nat) (result : Bytes) {s : State} (h : s.memsOk = true) :
    (finishRef ref status result s).memsOk = true := by
  cases ref with
  | none => exact h
  | some r => exact memsOk_finishTicket _ _ _ _ h

/-- A fold keeps the form when each of its steps does. -/
theorem memsOk_foldl {α : Type} {f : State → α → State} (hf : ∀ s a, s.memsOk = true → (f s a).memsOk = true) (l : List α)
    {s : State} (h : s.memsOk = true) : (l.foldl f s).memsOk = true := by
  induction l generalizing s with
  | nil => exact h
  | cons a l ih => exact ih (hf s a h)

@[simp] theorem memsOk_enterPhys (p : Fin 8) (st data : Nat) (s : State) : (enterPhys p st data s).memsOk = s.memsOk := by
  simp [enterPhys, linkTrace]

@[simp] theorem memsOk_drawNonce (p : Fin 8) (s : State) : (drawNonce p s).memsOk = s.memsOk := rfl

theorem memsOk_foldl_eq {α : Type} {f : State → α → State} (hf : ∀ s a, (f s a).memsOk = s.memsOk) (l : List α) (s : State) :
    (l.foldl f s).memsOk = s.memsOk := by
  induction l generalizing s with
  | nil => rfl
  | cons a l ih => exact (ih (f s a)).trans (hf s a)

/-- Sending management frames touches no sparse memory. -/
@[simp] theorem memsOk_sendFrames (p : Fin 8) (ls : List (Fin 9)) (ty : Nat) (b : Fin 9 → Bytes) (s : State) :
    (sendFrames p ls ty b s).memsOk = s.memsOk :=
  memsOk_foldl_eq (f := fun s l => emit (.mgmt p l (mgmtFrame ty _ (b l))) s) (fun _ _ => rfl) ls
    (modPhys p (fun x => { x with mgmtSeq := ((port s p).phys.mgmtSeq + 1) % 256 }) s)

@[simp] theorem memsOk_sendMgmt (p : Fin 8) (ty : Nat) (b : Bytes) (s : State) : (sendMgmt p ty b s).memsOk = s.memsOk := by
  simp [sendMgmt]

@[simp] theorem memsOk_sendPortHello (p : Fin 8) (s : State) : (sendPortHello p s).memsOk = s.memsOk := by
  simp [sendPortHello]

@[simp] theorem memsOk_enterResume (p : Fin 8) (s : State) : (enterResume p s).memsOk = s.memsOk := by
  unfold enterResume
  split <;> simp

theorem memsOk_wakeDevice (src : Nat) {s : State} (h : s.memsOk = true) : (wakeDevice src s).memsOk = true := by
  unfold wakeDevice
  split
  · exact h
  · exact h
  · split
    · refine memsOk_foldl (fun s k hs => memsOk_finishTicket _ _ _ _ hs) _ (memsOk_foldl (fun s p hs => ?_) _ h)
      simpa using hs
    · exact h
  · exact h

@[simp] theorem memsOk_dropGrove (s : State) : (dropGrove s).memsOk = s.memsOk := rfl

/-- So does taking a message out of the inbox. -/
theorem memsOk_takeMsg {p : InMsg → Bool} {m : InMsg} {s s' : State} (ht : takeMsg p s = some (m, s')) (h : s.memsOk = true) :
    s'.memsOk = true := by
  unfold takeMsg at ht
  split at ht
  · cases ht; exact h
  · cases ht

/-- A mailbox command keeps the form when its work does. -/
theorem memsOk_onCmd {α : Type} {code t : Nat} {ch : Fin 130} {parse : Bytes → Option α} {ok : State → α → Bool}
    {run : Request → α → State → State} (hr : ∀ r a s, s.memsOk = true → (run r a s).memsOk = true) {s : State}
    (h : s.memsOk = true) : (onCmd code t ch parse ok run s).memsOk = true := by
  unfold onCmd
  have h0 : (s.at t).memsOk = true := h
  simp only
  repeat' split
  all_goals first
    | exact h0
    | exact memsOk_respond _ _ _ _ _ h0
    | exact memsOk_wakeDevice _ h0
    | exact hr _ _ _ h0

/-- A control message keeps the form when what it causes does. -/
theorem memsOk_onCtrl {code path len t : Nat} {act : InMsg → Bytes → State → State}
    (ha : ∀ m b s, s.memsOk = true → (act m b s).memsOk = true) {s : State}
    (h : s.memsOk = true) :
    (onCtrl code path len t act s).memsOk = true := by
  unfold onCtrl
  have h0 : (s.at t).memsOk = true := h
  simp only
  repeat' split
  all_goals first
    | exact h0
    | exact ha _ _ _ (memsOk_takeMsg ‹_› h0)
    | exact (memsOk_dropGrove _).trans (memsOk_takeMsg ‹_› h0)

end Sys2Proof.Machine
end

