-- ==== Sys2Proof/Laws/Lines.lean ====
section
/-! SUPPORT. The line layer of the device memory: every access to a line, a range or a scratchpad keeps the sparse memories canonical,
and a read of lines that are good changes nothing. -/

namespace Sys2Proof.Machine

theorem memsOk_correctLine (dl : Nat) {s : State} (h : s.memsOk = true) : (correctLine dl s).memsOk = true := h

theorem memsOk_noteBadLine (dl part : Nat) (line : Bytes) {s : State} (h : s.memsOk = true) :
    (noteBadLine dl part line s).memsOk = true := h

theorem memsOk_loseTags (dl part : Nat) {s : State} (h : s.memsOk = true) : (loseTags dl part s).memsOk = true := h

theorem memsOk_evictTag (dl : Nat) {s : State} (h : s.memsOk = true) : (evictTag dl s).memsOk = true := by
  unfold evictTag
  split
  · dsimp only
    split
    · exact memsOk_rawWrite _ _ h
    · exact h
  · exact h

/-- Bringing a tag line into the tag cache keeps the form: it may write another line back. -/
theorem memsOk_loadTag (part ta : Nat) {s : State} (h : s.memsOk = true) : (loadTag part ta s).memsOk = true := by
  have h1 : (if s.mm.eccSoft.contains (ta / 64) then correctLine (ta / 64) s else s).memsOk = true := by
    split
    · exact h
    · exact h
  unfold loadTag
  dsimp only
  generalize (if s.mm.eccSoft.contains (ta / 64) then correctLine (ta / 64) s else s) = s1 at h1 ⊢
  have h2 : (if s1.mm.eccBad.contains (ta / 64) then loseTags (ta / 64) part s1 else s1).memsOk = true := by
    split
    · exact h1
    · exact h1
  generalize (if s1.mm.eccBad.contains (ta / 64) then loseTags (ta / 64) part s1 else s1) = s2 at h2 ⊢
  split
  · exact h
  · refine memsOk_modMm (f := fun m => { m with tagCache := _ }) ?_ ?_
    · split
      · exact h2
      · split
        · exact h2
        · exact memsOk_evictTag _ h2
    · refine ((memsOk_iff _).1 ?_).1
      split
      · exact h2
      · split
        · exact h2
        · exact memsOk_evictTag _ h2

theorem memsOk_writeTag (part ta : Nat) (tag : Bytes) {s : State} (h : s.memsOk = true) : (writeTag part ta tag s).memsOk = true :=
  memsOk_loadTag part ta h

/-- What a read of a line leaves behind keeps the form. -/
theorem memsOk_touchLine (n o : Nat) (st : LineState) {s : State} (h : s.memsOk = true) : (touchLine n o st s).memsOk = true := by
  unfold touchLine
  split
  · exact h
  · exact h
  · exact h
  · dsimp only
    have h1 : ∀ dl, (if s.mm.eccSoft.contains dl then correctLine dl s else s).memsOk = true := fun dl => by
      split
      · exact h
      · exact h
    split
    · split
      · exact memsOk_loadTag _ _ (h1 _)
      · exact h1 _
    · exact h1 _

theorem memsOk_faultLine (who : Nat × Nat) (n o cause : Nat) {s : State} (h : s.memsOk = true) :
    (faultLine who n o cause s).memsOk = true := by
  unfold faultLine
  repeat' split
  all_goals exact h

theorem memsOk_failLine (who : Nat × Nat) (n o : Nat) (st : LineState) {s : State} (h : s.memsOk = true) :
    (failLine who n o st s).2.memsOk = true := by
  cases st with
  | good d => exact h
  | tagFails => exact memsOk_faultLine _ _ _ _ h
  | uncorrectable =>
    exact memsOk_faultLine _ _ _ _ (memsOk_noteBadLine _ _ _ h)
  | poisoned => exact h

theorem memsOk_readLine (who : Nat × Nat) (n o : Nat) {s : State} (h : s.memsOk = true) : (readLine who n o s).2.2.memsOk = true := by
  unfold readLine
  split
  · exact h
  · exact memsOk_touchLine _ _ _ h
  · exact memsOk_failLine _ _ _ _ (memsOk_touchLine _ _ _ h)

theorem memsOk_storeLine (n o : Nat) (d : Bytes) {s : State} (h : s.memsOk = true) : (storeLine n o d s).memsOk = true := by
  unfold storeLine
  split
  · exact h
  · split
    · exact h
    · dsimp only
      split
      · split
        · exact memsOk_writeTag _ _ _ (memsOk_rawWrite _ _ h)
        · exact h
      · split
        · exact memsOk_rawWrite _ _ h
        · exact memsOk_rawWrite _ _ h

theorem memsOk_writeLine (who : Nat × Nat) (mirror : Bool) (n o off : Nat) (d : Bytes) {s : State} (h : s.memsOk = true) :
    (writeLine who mirror n o off d s).2.memsOk = true := by
  unfold writeLine
  repeat' split
  all_goals first
    | exact h
    | exact memsOk_storeLine _ _ _ h
    | exact memsOk_storeLine _ _ _ (memsOk_touchLine _ _ _ h)
    | exact memsOk_failLine _ _ _ _ (memsOk_touchLine _ _ _ h)

theorem memsOk_readCuts (who : Nat × Nat) (n : Nat) (cs : List (Nat × Nat × Nat)) {s : State} (h : s.memsOk = true) :
    (readCuts who n cs s).2.2.memsOk = true := by
  induction cs generalizing s with
  | nil => exact h
  | cons c cs ih => exact ih (memsOk_readLine who n c.1 h)

/-- A read of a range keeps the form. -/
theorem memsOk_readRange (who : Nat × Nat) (n o len : Nat) {s : State} (h : s.memsOk = true) :
    (readRange who n o len s).2.2.memsOk = true := memsOk_readCuts _ _ _ h

theorem memsOk_writeCuts (who : Nat × Nat) (mirror : Bool) (n : Nat) (cs : List (Nat × Nat × Nat)) (d : Bytes) {s : State}
    (h : s.memsOk = true) : (writeCuts who mirror n cs d s).2.2.memsOk = true := by
  induction cs generalizing s d with
  | nil => exact h
  | cons c cs ih => exact ih (d.drop c.2.2) (memsOk_writeLine who mirror n c.1 c.2.1 (d.take c.2.2) h)

@[simp] theorem memsOk_queueMsg (p vc : Fin 8) (typ n : Nat) (tag : Option Nat) (b : Bytes) (s : State) :
    (queueMsg p vc typ n tag b s).memsOk = s.memsOk := by
  simp [queueMsg]

theorem memsOk_sendMirror (copy : Bool) (k : Nat) (r : Region) (lines : List Nat) {s : State} (h : s.memsOk = true) :
    (sendMirror copy k r lines s).memsOk = true :=
  (memsOk_queueMsg 7 5 1 r.part none (mirrorMsg s r lines) s).trans h

theorem memsOk_captureRun (n : Nat) (run : List Nat) {s : State} (h : s.memsOk = true) : (captureRun n run s).memsOk = true := by
  unfold captureRun
  split
  · rename_i k r _
    split
    · exact h
    · dsimp only
      have h1 : ∀ (c : Bool) (x : Region), (if c then s else setRegion k x s).memsOk = true := fun c x => by
        cases c
        · exact h
        · exact h
      have h2 : ∀ (c d : Bool) (x y : Region) (l : List Nat),
          (if c then (if d then s else setRegion k x s) else sendMirror false k y l (if d then s else setRegion k x s)).memsOk = true :=
        fun c d x y l => by
        cases c
        · exact memsOk_sendMirror _ _ _ _ (h1 _ _)
        · exact h1 _ _
      split
      · exact h2 _ _ _ _ _
      · exact h2 _ _ _ _ _
  · exact h

theorem memsOk_captureLines (n : Nat) (lines : List Nat) {s : State} (h : s.memsOk = true) :
    (captureLines n lines s).memsOk = true := by
  unfold captureLines
  split
  · exact h
  · exact memsOk_foldl (fun s run hs => memsOk_captureRun n run hs) _ h

/-- A write of a range keeps the form. -/
theorem memsOk_writeRange (who : Nat × Nat) (mirror : Bool) (n o : Nat) (d : Bytes) {s : State} (h : s.memsOk = true) :
    (writeRange who mirror n o d s).2.memsOk = true := memsOk_captureLines _ _ (memsOk_writeCuts _ _ _ _ _ h)

/-- A poisoned range keeps the form. -/
theorem memsOk_poisonRange (who : Nat × Nat) (n o len : Nat) {s : State} (h : s.memsOk = true) :
    (poisonRange who n o len s).memsOk = true := by
  unfold poisonRange
  exact memsOk_captureLines _ _ (memsOk_foldl (fun s l hs => memsOk_faultLine who n l 3 hs) _ h)

theorem memsOk_faultScratch (who : Nat × Nat) (cause l : Nat) {s : State} (h : s.memsOk = true) :
    (faultScratch who cause l s).memsOk = true := by
  unfold faultScratch
  dsimp only
  split
  · exact h
  · rw [memsOk_logErr]; exact h

theorem memsOk_findScratch (who : Nat × Nat) (ls : List Nat) {s : State} (h : s.memsOk = true) : (findScratch who ls s).memsOk = true := by
  unfold findScratch
  exact memsOk_foldl (fun s l hs => memsOk_faultScratch who 2 l hs) _ h

/-- A read of scratchpad bytes keeps the form. -/
theorem memsOk_readScratch (who : Nat × Nat) (a len : Nat) {s : State} (h : s.memsOk = true) :
    (readScratch who a len s).2.2.memsOk = true := by
  unfold readScratch
  dsimp only
  split
  · exact memsOk_findScratch _ _ h
  · exact memsOk_findScratch _ _ h

theorem memsOk_writeScratchCuts (who : Nat × Nat) (cs : List (Nat × Nat × Nat)) (d : Bytes) {s : State} (h : s.memsOk = true) :
    (writeScratchCuts who cs d s).2.memsOk = true := by
  induction cs generalizing s d with
  | nil => exact h
  | cons c cs ih =>
    unfold writeScratchCuts
    refine ih _ ?_
    have h1 : ∀ (k : Bool) (s : State), s.memsOk = true → (if k then s
        else { s with crn := { s.crn with scratch := Mem.write 0 s.crn.scratch (c.1 + c.2.1) (d.take c.2.2)
                                          scratchFault := s.crn.scratchFault.filter (· ≠ c.1 / 64)
                                          scratchBad := s.crn.scratchBad.filter (· ≠ c.1 / 64) } }).memsOk = true := by
      intro k s h
      cases k
      · rw [memsOk_iff] at h
        exact (memsOk_iff _).2 ⟨h.1, Mem.wf_write _ _ h.2.1, h.2.2⟩
      · exact h
    dsimp only
    split
    · exact h1 _ _ h
    · exact h1 _ _ (memsOk_findScratch _ _ h)

/-- A write of scratchpad bytes keeps the form. -/
theorem memsOk_writeScratch (who : Nat × Nat) (a : Nat) (d : Bytes) {s : State} (h : s.memsOk = true) :
    (writeScratch who a d s).2.memsOk = true :=
  memsOk_writeScratchCuts _ _ _ h

/-- Poisoned scratchpad lines keep the form. -/
theorem memsOk_poisonScratch (who : Nat × Nat) (a len : Nat) {s : State} (h : s.memsOk = true) :
    (poisonScratch who a len s).memsOk = true := by
  unfold poisonScratch
  exact memsOk_foldl (fun s l hs => memsOk_faultScratch who 3 l hs) _ h

/-- A read of a good line gives the line's data (07 Table 7-3); what it changes is `touchLine`. -/
theorem readLine_good {who : Nat × Nat} {n o : Nat} {s : State} {d : Bytes} (h : lineState s n o = some (.good d)) :
    readLine who n o s = (stOk, d, touchLine n o (.good d) s) := by
  simp [readLine, h]

/-- A read of a good line of an unsealed partition changes nothing, where the line has no error to correct (07 R214, R222). -/
theorem touchLine_clean {n o : Nat} {s : State} {d : Bytes} {pt : Partition} (hp : part s n = some pt) (hm : pt.mode ≠ 2)
    (hs : s.mm.eccSoft.contains ((deviceAddr pt o).getD 0 / 64) = false) : touchLine n o (.good d) s = s := by
  simp only [touchLine, hp, hs]
  split <;> simp [hm]

/-- A command that writes no line of an asynchronous region at its bound does not wait (11 R339). -/
theorem awaitLag_eq {s s' : State} (h : lagBlocks s s' = false) : awaitLag s s' = s' := by simp [awaitLag, h]

/-- So does none where no region is mirrored. -/
theorem lagBlocks_nil {s s' : State} (h : s.twn.regions = []) : lagBlocks s s' = false := by simp [lagBlocks, h]

/-- So does none that leaves the regions as they are. -/
theorem lagBlocks_same {s s' : State} (h : s'.twn.regions = s.twn.regions) : lagBlocks s s' = false := by simp [lagBlocks, h]

/-- Where no asynchronous region stands at its bound nothing waits. -/
theorem awaitLag_clear {s s' : State} (h : LagClear s) : awaitLag s s' = s' := by
  refine awaitLag_eq ?_
  unfold lagBlocks
  rw [Bool.and_eq_false_iff]
  right
  rw [List.any_eq_false]
  intro e he hb
  simp only [Bool.and_eq_true, decide_eq_true_eq] at hb
  obtain ⟨⟨⟨h1, h2⟩, h3⟩, _⟩ := hb
  have := h e he h1 h2
  omega

theorem memsOk_awaitLag {s s' : State} (h : s.memsOk = true) (h' : s'.memsOk = true) : (awaitLag s s').memsOk = true := by
  unfold awaitLag
  split
  · exact h
  · exact h'

/-- A read of a line that is not allocated is denied and changes nothing (07 R212). -/
theorem readLine_none {who : Nat × Nat} {n o : Nat} {s : State} (h : lineState s n o = none) :
    readLine who n o s = (stAccessDenied, [], s) := by
  simp [readLine, h]

/-- A granule zeroised, mapped or a flash page written or erased keeps the form. -/
theorem memsOk_zeroGranule (g : Nat) {s : State} (h : s.memsOk = true) : (zeroGranule g s).memsOk = true := by
  unfold zeroGranule
  exact memsOk_modMm h (Mem.wf_clear _ _ ((memsOk_iff s).1 h).1)

theorem memsOk_flashWrite (a : Nat) (b : Bytes) {s : State} (h : s.memsOk = true) : (flashWrite a b s).memsOk = true := by
  rw [memsOk_iff] at h ⊢
  exact ⟨h.1, h.2.1, h.2.2.1, Mem.wf_write _ _ h.2.2.2.1, h.2.2.2.2⟩

theorem memsOk_flashErase (a n : Nat) {s : State} (h : s.memsOk = true) : (flashErase a n s).memsOk = true := by
  rw [memsOk_iff] at h ⊢
  exact ⟨h.1, h.2.1, h.2.2.1, Mem.wf_clear _ _ h.2.2.2.1, h.2.2.2.2⟩

end Sys2Proof.Machine
end

