-- ==== Sys2Proof/Laws/Control.lean ====
section
/-! SUPPORT. What the shared frames of the grove's and the twin's messages answer when a message of their code has arrived. -/

namespace Sys2Proof.Machine

/-- A control message that has come whole is acted on. -/
theorem onCtrl_arrives {code path len t : Nat} {act : InMsg → Bytes → State → State} {m : InMsg} {s₀ s s' : State} (hs : s = s₀.at t)
    (h : CtrlArrives code path len s m s') : onCtrl code path len t act s₀ = act m (ctrlFields m) s' := by
  subst hs
  obtain ⟨h1, h2⟩ := h
  simp only [onCtrl, h1, h2, if_true]

/-- A tagged message of the twin whose tag holds is acted on. -/
theorem onTagged_arrives {code len t : Nat} {act : Bytes → State → State} {m : InMsg} {s₀ s s' : State} (hs : s = s₀.at t)
    (h : TaggedArrives code len s m s') : onTagged code len t act s₀ = act ((ctrlFields m).take len) s' := by
  obtain ⟨hc, hp, hf, hst, k, hk, ht⟩ := h
  unfold onTagged
  rw [onCtrl_arrives hs hc]
  rw [if_neg (by simp [hp, hf, hst])]
  simp only [hk]
  rw [if_pos ht]

/-- A probe message of the twin whose tag holds is acted on. -/
theorem onProbe_arrives {code path len t : Nat} {act : Bytes → State → State} {m : InMsg} {s₀ s s' : State} (hs : s = s₀.at t)
    (h : ProbeArrives code path len s m s') : onProbe code path len t act s₀ = act ((ctrlFields m).take len) s' := by
  obtain ⟨hc, hf, k, hk, ht⟩ := h
  unfold onProbe
  rw [onCtrl_arrives hs hc]
  rw [if_neg (by simp [hf])]
  simp only [hk]
  rw [if_pos ht]

end Sys2Proof.Machine
end

