-- ==== Sys2Proof/Laws/Mailbox.lean ====
section
/-! SUPPORT. What `onCmd`, the shared frame of the mailbox commands, answers in each of its cases. -/

namespace Sys2Proof.Machine

/-- `rootRuns` in parts. -/
theorem rootRuns_row {code : Nat} {ch : Fin 130} {r : Request} {s : State} (h : rootRuns code ch r s = true) :
    ∃ row, cmdRow code = some row ∧ acceptedReq s ch = some r ∧ r.cmd = code ∧ r.ended = false ∧ withinLimit s r = true ∧ served s ch = true
      ∧ waitsFor s ch r row = false ∧ (row.needs && unitsAsleep s) = false ∧ objectBusy s ch r row = false
      ∧ (row.long && decide (16 ≤ (chan s ch).tickets.length)) = false ∧ (row.cutBusy && s.obs.cut.st != .idle) = false := by
  unfold rootRuns at h
  split at h
  · rename_i row hrow
    refine ⟨row, hrow, ?_⟩
    simp only [Bool.and_eq_true, beq_iff_eq, Bool.not_eq_true'] at h
    obtain ⟨⟨⟨⟨⟨⟨⟨⟨⟨h1, h2⟩, h9⟩, h10⟩, h3⟩, h4⟩, h5⟩, h6⟩, h7⟩, h8⟩ := h
    exact ⟨h1, h2, h9, h10, h3, h4, h5, h6, h7, h8⟩
  · cases h

/-- A command that Root may run, with arguments in order, does its work at its instant. -/
theorem onCmd_runs {α : Type} {code t : Nat} {ch : Fin 130} {r : Request} {s₀ s : State} {parse : Bytes → Option α}
    {ok : State → α → Bool} {run : Request → α → State → State} {a : α} (h : Ready code t ch r s₀ s)
    (hp : parse r.args = some a) (ho : ok s a = true) : onCmd code t ch parse ok run s₀ = run r a s := by
  obtain ⟨hs, h⟩ := h
  obtain ⟨row, hrow, h1, h2, h9, h10, h3, h4, h5, h6, h7, h8⟩ := rootRuns_row h
  unfold onCmd
  dsimp only
  rw [← hs]
  simp [hrow, h1, h2, h9, h10, h3, h4, h5, h6, h7, h8, hp, ho]

/-- A command whose arguments are out of order is answered BAD_ARG, and nothing else happens. -/
theorem onCmd_badArg {α : Type} {code t : Nat} {ch : Fin 130} {r : Request} {s₀ s : State} {parse : Bytes → Option α}
    {ok : State → α → Bool} {run : Request → α → State → State} (h : Ready code t ch r s₀ s)
    (hp : ∀ a, parse r.args = some a → ok s a = false) : onCmd code t ch parse ok run s₀ = respond ch r stBadArg 0 [] s := by
  obtain ⟨hs, h⟩ := h
  obtain ⟨row, hrow, h1, h2, h9, h10, h3, h4, h5, h6, h7, h8⟩ := rootRuns_row h
  unfold onCmd
  dsimp only
  rw [← hs]
  cases hq : parse r.args with
  | none => simp [hrow, h1, h2, h10, h3, h4, h5, hq]
  | some a => simp [hrow, h1, h2, h9, h10, h3, h4, h5, hq, hp a hq]

/-- Where Root serves no request of the code on the channel, only the time advances. -/
theorem onCmd_idle {α : Type} {code t : Nat} {ch : Fin 130} {s : State} {parse : Bytes → Option α} {ok : State → α → Bool}
    {run : Request → α → State → State}
    (h : ∀ r, acceptedReq (s.at t) ch = some r → r.cmd ≠ code ∨ served (s.at t) ch = false ∨ withinLimit (s.at t) r = false) :
    onCmd code t ch parse ok run s = s.at t := by
  unfold onCmd
  simp only
  split
  · rename_i r row hr hrow
    rcases h r hr with h | h | h <;> simp [h]
  · rfl

end Sys2Proof.Machine
end

