-- ==== Sys2Proof/Laws/Records.lean ====
section
/-! SUPPORT. What `startRecord` and `startOnSlot`, the shared frames of the records, answer when the record starts, and
that a record keeps the sparse memories canonical when its opcode's body does. -/

namespace Sys2Proof.Machine

/-- A record that starts leaves the waiting part of its queue and does its opcode's body. -/
theorem startRecord_starts {op t : Nat} {body : RecBody} {n : Fin 128} {q : Fin 16} {host b : Bytes} {x : Queue} {s₀ s s' : State}
    (hs : s = s₀.at t) (h : RecordStarts op n q host b x s s') :
    startRecord op body t n q host s₀ =
      tallyHbm n q x.started.toNat (beginRecord n q x b s') (body n q x.started.toNat b (beginRecord n q x b s')) := by
  subst hs
  obtain ⟨hq, hne, hf, hm, hc, hop, hk, hh, hl⟩ := h
  have hm' := hm
  simp only [startMet, Bool.and_eq_true, Bool.not_eq_true', decide_eq_true_eq] at hm'
  obtain ⟨⟨⟨⟨⟨⟨⟨⟨⟨_, _⟩, h3⟩, h4⟩, _⟩, _⟩, _⟩, _⟩, _⟩, _⟩ := hm'
  unfold startRecord
  simp [hq, hne, h3, h4, hf, hm, hc, rowOf, hop, hk, hh, stOk, awaitLag_clear hl]

/-- So does one that names a collective group, where the group is free. -/
theorem startOnSlot_starts {op t : Nat} {body : RecBody} {n : Fin 128} {q : Fin 16} {host b : Bytes} {x : Queue} {s₀ s s' : State}
    (hs : s = s₀.at t) (h : RecordStarts op n q host b x s s') (hf : slotFree s b = true) :
    startOnSlot op body t n q host s₀ =
      tallyHbm n q x.started.toNat (beginRecord n q x b s') (body n q x.started.toNat b (beginRecord n q x b s')) := by
  have h1 := startRecord_starts (body := body) hs h
  subst hs
  obtain ⟨hq, _, hfe, _⟩ := h
  unfold startOnSlot
  simp [hq, hfe, hf, h1]

theorem memsOk_fetchRec (n : Nat) (x : Queue) (host : Bytes) {s : State} (h : s.memsOk = true) :
    (fetchRec n x host s).2.2.memsOk = true := by
  unfold fetchRec
  split
  · exact h
  · exact memsOk_readRange _ _ _ _ h

@[simp] theorem memsOk_noteMirrors (n q num : Nat) (s : State) : (noteMirrors n q num s).memsOk = s.memsOk := rfl

@[simp] theorem memsOk_tallyHbm (n q num : Nat) (s s' : State) : (tallyHbm n q num s s').memsOk = s'.memsOk := by
  unfold tallyHbm
  dsimp only
  split <;> rfl

/-- Work that moves no HBM bytes leaves nothing to tally. -/
theorem tallyHbm_same {n q num : Nat} {s s' : State} (h : s'.obs.parts = s.obs.parts) : tallyHbm n q num s s' = s' := by
  simp [tallyHbm, h]

theorem memsOk_endRecord (n q num status : Nat) (result : Bytes) (s : State) :
    (endRecord n q num status result s).memsOk = s.memsOk := by
  simp [endRecord]

theorem memsOk_followRecord (n q num : Nat) {s : State} (h : s.memsOk = true) : (followRecord n q num s).memsOk = true := by
  unfold followRecord
  refine memsOk_foldl (fun s b hs => ?_) _ h
  dsimp only
  split
  · exact hs
  · exact hs

theorem memsOk_beginRecord (n q : Nat) (x : Queue) (b : Bytes) {s : State} (h : s.memsOk = true) :
    (beginRecord n q x b s).memsOk = true := by
  have h1 : (takeRecord n q x b s).memsOk = true := by simpa [takeRecord] using h
  unfold beginRecord
  dsimp only
  split
  · exact memsOk_followRecord _ _ _ h1
  · exact h1

/-- A record keeps the form when its opcode's body does. -/
theorem memsOk_startRecord {op t : Nat} {body : RecBody} (hb : ∀ n q num b s, s.memsOk = true → (body n q num b s).memsOk = true)
    {n : Fin 128} {q : Fin 16} {host : Bytes} {s : State} (h : s.memsOk = true) :
    (startRecord op body t n q host s).memsOk = true := by
  unfold startRecord
  have h0 : (s.at t).memsOk = true := h
  dsimp only
  repeat' split
  all_goals first
    | exact h0
    | (rw [memsOk_endRecord]; exact memsOk_beginRecord _ _ _ _ (memsOk_fetchRec _ _ _ h0))
    | exact memsOk_awaitLag h0 (by rw [memsOk_tallyHbm]; exact hb _ _ _ _ _ (memsOk_beginRecord _ _ _ _ (memsOk_fetchRec _ _ _ h0)))

/-- The checks of a record keep it when the work does. -/
theorem memsOk_checkedRecord {reserved ranges operands math : Bool} {work : RecBody}
    (hw : ∀ n q num b s, s.memsOk = true → (work n q num b s).memsOk = true) (n q num : Nat) (b : Bytes) {s : State}
    (h : s.memsOk = true) : (checkedRecord reserved ranges operands math work n q num b s).memsOk = true := by
  unfold checkedRecord
  repeat' split
  all_goals first
    | exact hw _ _ _ _ _ h
    | (rw [memsOk_endRecord]; exact h)

end Sys2Proof.Machine
end

