-- ==== Sys2Proof/WellFormed.lean ====
section
/-! DEFINITION. Which commands are well formed: every operand within the range that the spec gives it, where its type does not already say
so. `exec` has a meaning for every command; a command that is not well formed is one that no hardware event spells. -/

namespace Sys2Proof

/-- The bytes a host gives for a fetched record: none for a ring in partition memory, 64 for a ring in host memory (08 R241). -/
def hostRecordOk (b : List (BitVec 8)) : Bool := b.isEmpty || b.length == 64

/-- Cambium time is a 64-bit count (01 R20). -/
def timeOk (t : Nat) : Bool := decide (t < 2 ^ 64)

/-- A register offset: a multiple of 4 within PF BAR0's 32-bit offsets (00 R5). -/
def offsetOk (off : Nat) : Bool := decide (off < 2 ^ 32) && off % 4 == 0

/-- A bit table's entries: one for each data bin, 16 to 495 (04 R94). -/
def tableOk {α : Type} (l : List α) : Bool := l.length == 480

/-- A lane's SNR or noise report: one value for each bin, 8 to 495 (04 R109). -/
def binsOk {α : Type} (l : List α) : Bool := l.length == 488

/-- A chip ID, and a partition. -/
def chipOk (c : Nat) : Bool := decide (c < 1024)

/-- The registers that a halted core reports: 32 of them, x0 zero. -/
def coreRegsOk (r : CoreRegs) : Bool := r.x.length == 32 && (r.x.headD 0 == 0)

/-- A spreading factor of 04 Table 4-5. -/
def sfOk (sf : Nat) : Bool := sf == 1 || sf == 4 || sf == 16 || sf == 64

/-- The operands of a command are within their ranges. -/
def WellFormed : Instr → Bool
  | .evqTail t _ _ => timeOk t
  | .registerWrite t _ off _ => timeOk t && offsetOk off
  | .lowWordRead t r x => timeOk t && offsetOk x.off && (!x.wide || (x.off % 8 == 0 && r != .smb))
  | .longCommandComplete t _ ticket _ => timeOk t && decide (1 ≤ ticket ∧ ticket < 2 ^ 32)
  | .smbusBlockWrite t data _ => timeOk t && decide (data.length ≤ 32)
  | .nop t _ _ host | .matmul t _ _ host | .vec t _ _ host | .attend t _ _ host | .sample t _ _ host
  | .convert t _ _ host | .fill t _ _ host | .remoteOp t _ _ host | .prefetch t _ _ host
  | .collective t _ _ host | .tokenize t _ _ host | .step t _ _ host | .recordSkip t _ _ host => timeOk t && hostRecordOk host
  | .copy t _ _ host _ | .hostAccessFail t _ _ _ host _ => timeOk t && hostRecordOk host
  | .maskReady t id | .runaheadBuild t id => timeOk t && decide (id < 4096)
  | .remoteTimeout t tag | .tagQuarantineExpire t tag => timeOk t && decide (tag < 65536)
  | .flitReceive t _ x => timeOk t && x.bytes.length == 272
  | .phase t f state grade _ => timeOk t && sfOk f.frame.sf && decide (state < 16 ∧ grade ≤ 250)
  | .bitTable t f m _ => timeOk t && sfOk f.frame.sf && tableOk m.entries && decide (m.tableId < 256)
  | .tableAck t f _ tableId _ _ => timeOk t && sfOk f.frame.sf && decide (tableId < 256)
  | .quietComplete t _ noise => timeOk t && noise.length == 9 && noise.all binsOk
  | .probeComplete t _ snr => timeOk t && snr.length == 9 && snr.all binsOk
  | .snrWindowEnd t _ _ snr => timeOk t && binsOk snr
  | .laneRetrainDone t _ _ _ _ => timeOk t
  | .lowEnter t f ms | .lowAck t f ms => timeOk t && sfOk f.frame.sf && decide (ms < 2 ^ 32)
  | .spareSwap t f _ _ | .retrain t f _ _ _ | .verifyResult t f _ _ => timeOk t && sfOk f.frame.sf
  | .down t f reason => timeOk t && sfOk f.frame.sf && decide (reason < 256)
  | .mirrorSyncDone t region => timeOk t && decide (region < 128)
  | .twigBeat t _ seq tiles stall => timeOk t && decide (seq < 2 ^ 32 ∧ tiles < 2 ^ 32 ∧ stall < 256)
  | .boughReset t _ regs => timeOk t && (match regs with
      | some r => coreRegsOk r
      | none => true)
  | .pcSample t _ _ stall => timeOk t && decide (stall < 16)
  | .triggerFire t _ regs | .haltRequest t _ regs => timeOk t && coreRegsOk regs
  | .tempSample t readings => timeOk t && readings.length == 12
  | .granuleZeroised t g => timeOk t && decide (g < 73728)
  | .scrubPass t errors => timeOk t && errors.all fun e => decide (e.line < 73728 * 32768)
  | .exportQuery t chip p _ => timeOk t && chipOk chip && decide (p < 128)
  | .hello t f m => timeOk t && sfOk f.frame.sf
    && decide (m.chipId < 65536 ∧ m.port < 8 ∧ m.qualifiedMask < 512 ∧ m.symbol < 2 ^ 32 ∧ m.nonce < 2 ^ 32)
  | _ => true

end Sys2Proof
end

