-- ==== Sys2Proof/Tests/Slice0.lean ====
section
/-! SUPPORT. Checks of the model's own work: ill-formed commands are refused, small steps have the effects that the spec's text gives
them, and each statement's hypotheses are met by a concrete state, clause by clause. -/

namespace Sys2Proof.Tests

open Sys2Proof Sys2Proof.Machine

set_option Elab.async false

/-- A request of a command with arguments. -/
def req (code : Nat) (args : Bytes) : Request :=
  { t0 := 0, since := 0, bytes := leBytes 2 code ++ zeros 6 ++ leBytes 2 args.length ++ zeros 22 ++ args, refusal := none, tagKey := none,
    staged := none, ended := false }

/-- A device that serves, with one channel's request taken. -/
def taken (ch : Fin 130) (r : Request) (s : State) : State :=
  setChan ch { Chan.reset with st := .taken, cur := some r } s

/-- A device that runs and whose Root serves. -/
def up : State :=
  { State.reset with
    root := { State.reset.root with alive := true }
    boot := { State.reset.boot with stage := 6 }
    cmb := { State.reset.cmb with inReset := false }
    pwr := { State.reset.pwr with st := .run, pcieUp := true } }

/-- A running device with a request of the PF taken. -/
def at0 (code : Nat) (args : Bytes) (s : State) : State := taken 0 (req code args) s

/-- A value that an option holds. -/
theorem someGet {α : Type} {o : Option α} (h : o.isSome = true) : o = some (o.get h) := (Option.some_get h).symm

/-- A pair that an option holds. -/
theorem somePair {α β : Type} {o : Option (α × β)} (h : o.isSome = true) : o = some ((o.get h).1, (o.get h).2) :=
  (Option.some_get h).symm

/-- A pair with a known first part. -/
theorem pairEq {α β : Type} {x : α × β} {a : α} (h : x.1 = a) : x = (a, x.2) := by rw [← h]

/-- A pair whose first part is present. -/
theorem pairSome {α β : Type} {x : Option α × β} (h : x.1.isSome = true) : x = (some (x.1.get h), x.2) :=
  pairEq (Option.some_get h).symm

/-- A triple with a known first part. -/
theorem tripleEq {α β γ : Type} {x : α × β × γ} {a : α} (h : x.1 = a) : x = (a, x.2.1, x.2.2) := by rw [← h]

/-- Argument fields: sizes and values. -/
def args (l : List (Nat × Nat)) : Bytes := packArgs l

/-- A partition with boughs and granules. -/
def part0 : Partition :=
  { mode := 1, queuesPerClass := 4, quota := 64, boughMask := 1, cmdKey := 0, sealKey := 0, creationGen := 0,
    pages := [(0, 2000), (1, 2001)], tagPages := [], pair := none, oldPair := none, sweep := 0, poisonHits := 0, overhang := 0, plan := none }

/-- A device with one partition, 5, of two granules and bough 0. -/
def withPart (s : State) : State :=
  { s with
    mm := { s.mm with parts := [(5, part0)] }
    crn := { s.crn with boughs := vset s.crn.boughs 0 { st := .active, owner := 5 } } }

/-- A plain key blob: key ID, generation, usage and flags as the header has them; the key is held in a slot, so nothing unwraps it. -/
def blob0 (kid usage flags : Nat) : Bytes :=
  zeros 8 ++ leBytes 2 kid ++ leBytes 2 0 ++ zeros 8 ++ leBytes 4 usage ++ leBytes 4 flags ++ zeros 68

/-- A device with a key of usages registered at index 7, by the PF, and resident. -/
def withKey (kid usage : Nat) (m : Bytes) (s : State) : State :=
  modHwd (fun h =>
    { h with
      reg := tset 7 { blob := blob0 kid usage 0, chain := [], channel := 0, uses := 0 } h.reg
      slots := { holds := .key 7, material := m, share := m.map fun _ => 0, pinned := false } :: h.slots }) s

/-- Bytes placed in partition 5's memory. -/
def put (o : Nat) (b : Bytes) (s : State) : State := rawWrite (2000 * 0x200000 + o) b s

/-- A port that is LINKED at grade 200 with its link layer UP in mode OPEN, and whose partner is chip 2. -/
def port0 : Port :=
  { phys := { Phys.reset with st := 8, grade := 200 }
    link := { Link.reset with st := .up, mode := 0, peer := some 2 } }

/-- A port in a state. -/
def withPort (p : Fin 8) (x : Port) (s : State) : State := { s with ports := vset s.ports p x }

/-- A chip with ID 1 and a route over port 0 to every chip; `x` is the port's state. -/
def inGrove (x : Port) (s : State) : State :=
  withPort 0 x { s with txn := { s.txn with chip := some 1, routes := [0x0F0FFC00] } }

/-- An import of partition 5 from chip 2. -/
def import0 : Import :=
  { part := 5, chip := 2, remote := 3, offset := 0, length := 0x400000, rights := 15, gen := 0, stale := false, plan := false, inst := 1 }

/-- An export of partition 5. -/
def export0 : Export := { part := 5, gen := 0, offset := 0, length := 0x400000, rights := 15, impChip := 2, impPart := 3 }

/-- A queue of partition 5: MATH queue 0 unless `q` says otherwise, 64 entries in partition memory, the records' bytes at its
start, `tail` records told by the doorbell. -/
def withQueue (q : Nat) (tail : BitVec 32) (records : Bytes) (s : State) : State :=
  put 0x100000 records
    { s with crn := { s.crn with queues := [(qKey 5 q, { Queue.fresh false 64 0x100000 0xFFFF with tail := tail })] } }

/-- A blob staged by an authorisation. -/
def staged0 (kid usage : Nat) : Staged := { blob := blob0 kid usage 0, material := zeros 32, chain := [] }

/-- A request that stages a blob. -/
def reqBlob (code : Nat) (head : Bytes) (kid usage : Nat) (tail : Bytes) : Request :=
  { req code (head ++ leBytes 2 96 ++ blob0 kid usage 0 ++ tail) with staged := some (staged0 kid usage) }

/-- Mapping granules does not touch the transaction engine. -/
theorem mapRun_txn (n o k : Nat) (s : State) : (mapRun n o k s).txn = s.txn := by
  have hp : ∀ (o g : Nat) (s : State), (mapPage n o g s).txn = s.txn := by
    intro o g s
    dsimp only [mapPage]
    split <;> rfl
  have ht : ∀ (j g : Nat) (s : State), (mapTag n j g s).txn = s.txn := by
    intro j g s
    dsimp only [mapTag]
    rfl
  have hf : ∀ {α : Type} (f : State → α → State), (∀ s a, (f s a).txn = s.txn) → ∀ (l : List α) (s : State), (l.foldl f s).txn = s.txn := by
    intro α f h l
    induction l with
    | nil => intro s; rfl
    | cons a l ih => intro s; rw [List.foldl_cons, ih, h]
  unfold mapRun
  split
  · rfl
  · dsimp only []
    generalize takeGranules s _ = gs
    generalize newTags _ o k = tags
    have h1 := hf (α := Nat × Nat) (fun s x => mapTag n x.1 x.2 s) (fun s x => ht x.1 x.2 s)
    have h2 := hf (α := Nat × Nat) (fun s x => mapPage n (o + x.1) x.2 s) (fun s x => hp (o + x.1) x.2 s)
    rw [h1, h2]

/-- A new export finds an ID while the table has room. -/
theorem addExport_isSome (e : Export) (s : State) (h : s.txn.exports.length < 4096) : (addExport e s).isSome = true := by
  unfold addExport
  rw [if_neg (by omega)]
  rfl

/-- The header of a vocabulary image: 257 tokens, byte tokens 0 to 255, token 256 the end of sequence. -/
def vocHdr : Bytes :=
  leBytes 4 0x31564B54 ++ leBytes 2 1 ++ zeros 2 ++ leBytes 4 257 ++ leBytes 4 0 ++ leBytes 4 256 ++ zeros 12
    ++ leBytes 4 64 ++ leBytes 4 64 ++ zeros 8 ++ zeros 8 ++ zeros 8

/-- A smallest vocabulary image. -/
def vocImg : Bytes :=
  vocHdr ++ ((List.replicate 256 (zeros 6 ++ leBytes 2 1 ++ zeros 8)).flatten ++ (zeros 6 ++ leBytes 2 2 ++ zeros 8))

/-- The header of a grammar image: one state, one mask row, for 257 tokens. -/
def grmHdr : Bytes :=
  leBytes 4 0x31474B54 ++ leBytes 2 1 ++ [0, 0] ++ leBytes 4 257 ++ leBytes 4 1 ++ leBytes 4 1 ++ zeros 12
    ++ leBytes 8 64 ++ leBytes 8 128 ++ leBytes 8 144 ++ zeros 8

/-- A smallest grammar image: the state allows tokens 3 and 256, and token 3 leads back to it. -/
def grmImg : Bytes :=
  grmHdr ++ (leBytes 4 8 ++ zeros 28 ++ leBytes 4 1 ++ zeros 28)
    ++ (zeros 4 ++ zeros 4 ++ leBytes 4 1 ++ leBytes 4 0xFFFFFFFF) ++ (leBytes 4 3 ++ zeros 4)

/-- The vocabulary loaded. -/
def voc0 : Image := { part := 5, vocab := 1, kind := 0, offset := 0, length := 4176, hdr := vocHdr }

/-- The grammar loaded. -/
def grm0 : Image := { part := 5, vocab := 1, kind := 0, offset := 0x2000, length := 152, hdr := grmHdr }

/-- A stream of partition 5 that the grammar constrains, its mask built. -/
def strm0 : Stream :=
  { part := 5, vocab := 1, grammar := 2, runAhead := true, stops := [], held := [], conf := { state := 0, stack := [] }, stopReason := 0,
    stopIndex := 0, pendingStop := none, unpresented := [], rng := 0, tokens := 0, maskAt := 0, maskReady := true, mask := 8 + 2 ^ 256,
    built := [] }

/-- A device whose partition 5 has the vocabulary, the grammar and a stream. -/
def withTokens (x : Stream) (s : State) : State :=
  put 0 vocHdr (put 0x2000 grmImg (modTke (fun k => { k with vocabs := [(1, voc0)], grammars := [(2, grm0)], streams := [(4095, x)], nextId := 3 }) (withPart s)))

/-- Port 7 in the twin's state: the graft is LINKED. -/
def withGraft (s : State) : State := withPort 7 { port0 with link := { port0.link with mode := 2 } } (inGrove port0 s)

/-- A device paired with chip 2. -/
def paired (s : State) : State :=
  withGraft { s with twn := { s.twn with st := .paired, chip := 2, gen := 5, kGraft := some (zeros 32), kProbe := some (zeros 32) } }

/-- A record's bytes: opcode, flags, bytes 12 to 15, and the fields from byte 16 on. -/
def record (op flags sfx : Nat) (fields : List (Nat × Nat)) : Bytes :=
  let b := leBytes 1 op ++ leBytes 1 flags ++ zeros 10 ++ leBytes 4 sfx ++ (fields.map fun f => leBytes f.1 f.2).flatten
  b ++ zeros (64 - b.length)

/-- A device that may start one record of queue q of partition 5. -/
def rec1 (q : Nat) (b : Bytes) (s : State) : State := withQueue q 1 b (withPart s)

/-- A group of two members, this chip's partition 5 first. -/
def grp0 : Group :=
  { part := 5, algorithm := 0, id := 77, members := [(1, 5), (2, 127)], self := 0, opSeq := 0, broken := none, laggard := 0xFFFF,
    laggardNs := 0, segsIn := 0, lastGen := [], firstAt := [], op := none }

/-- The group in slot 255. -/
def withGroup (g : Group) (s : State) : State := modCol (fun c => { c with slots := [(255, g)] }) (inGrove port0 s)

/-- A request of a channel's doorbell page, waiting to be answered. -/
def refused0 : Request := { req 6 [] with refusal := some 5 }

/-- A message received whole over port 0. -/
def msg0 (vc typ : Nat) (bytes : Bytes) : InMsg := { port := some 0, vc := vc, typ := typ, bytes := bytes, at_ := 0 }

/-- A device with one message in its inbox. -/
def gotMsg (m : InMsg) (s : State) : State := modTxn (fun x => { x with inbox := [m] }) s

/-- A request header of chip 2 for partition 5 of this chip. -/
def hdr0 : TxnHdr :=
  { op := 1, flags := 0, tag := 7, srcChip := 2, srcPart := 3, srcGen := 0, addr := 0x42800000000000, length := 64, tgtGen := 0, hops := 0,
    status := 0, responder := 0, chunk := 0 }

/-- A transaction of partition 5 that has been sent. -/
def txn0 : Txn :=
  { op := 1, flags := 0, part := 5, gen := 0, slot := 3, inst := 1, addr := 0x81800000000000, length := 64, tgtGen := 0, chunk := 0, data := [],
    use := .record 5 4 0, port := some 0, path := 0, vc := 1, sentAt := some 0 }

/-- A session key. -/
def key0 (e : Nat) : SessKey := { key := zeros 32, iv := zeros 12, epoch := e }

/-- A null flit's header. -/
def nullHdr (kid : Nat) : FlitHdr :=
  { typ := 0, vc := 0, seq := 0, ack := 0, kind := 1, len := 0, kid := kid, count := 0, stall := 0, wedged := 0, clean := true }

/-- A running handshake of epoch 0. -/
def shake0 : Handshake :=
  { epoch := 0, scalar := 1, own := zeros 140, peer := none, z := [], th := zeros 48, proofOk := false, finishSent := false,
    finishGot := false, newTx := none, start := 0 }

/-- A port whose link layer is changed. -/
def portL (f : Link → Link) : Port := { port0 with link := f port0.link }

/-- A port whose physical layer is changed. -/
def portP (f : Phys → Phys) : Port := { port0 with phys := f port0.phys }

/-- A lane whose receiver and transmitter have roles, at position and partner `l`. -/
def withLane (l : Fin 9) (f : RxLane → RxLane) (g : TxLane → TxLane) (x : Phys) : Phys := { x with rx := vmod x.rx l f, tx := vmod x.tx l g }

/-- A table proposed for a swap at symbol 1000. -/
def pend0 : PendingTable := { id := 3, sf := 1, grade := 200, entries := [], swapSymbol := 1000, accepted := true }

/-- A HELLO. -/
def hello0 : Hello := { chipId := 2, port := 0, maxGrade := 250, targetGrade := 200, qualified := true, lowCapable := true, qualifiedMask := 511, symbol := 0, nonce := 5 }

/-- An intact management frame, the lane at its lowest rate. -/
def frame0 : Frame := { seq := 1, intact := true, sf := 1 }

/-- A bit table of the bits that a grade loads, from the first bin on. -/
def tabl0 : List (BitVec 8) := List.replicate 480 8

/-- A null flit of epoch 1, authenticated under a key of zeros. -/
def flit1 : Bytes :=
  leBytes 272
    0xecb63f27776512ef6beae7c90e664a4bde6000000000000000000000000000000005a0600000000000000000000000000000000000000000000000000000000000000005a0500000000000000000000000000000000000000000000000000000000000000005a0400000000000000000000000000000000000000000000000000000000000000005a0300000000000000000000000000000000000000000000000000000000000000005a0200000000000000000000000000000000000000000000000000000000000000005a0100000000000000000000000000000000000000000000000000000000000000005a000000000000000000000000000000000000000000000000000001000100000000

/-- A control message of chip 2 for chip 1: its code, path and fields, over a port. -/
def ctrl0 (p : Fin 8) (code path : Nat) (fields : Bytes) : InMsg :=
  { port := some p, vc := 4, typ := 2, at_ := 0,
    bytes := leBytes 1 code ++ leBytes 2 1 ++ leBytes 2 2 ++ [0] ++ leBytes 1 path ++ [0, 0] ++ fields }

/-- The same with the twin's tag under a key of zeros. -/
def tagged0 (p : Fin 8) (code path : Nat) (fields : Bytes) : InMsg :=
  { ctrl0 p code path fields with
    bytes := (ctrl0 p code path fields).bytes ++ twinTag (zeros 32) ((ctrl0 p code path fields).bytes.drop 1) }

/-- A running ALL_GATHER of the group. -/
def op0 : ColOp :=
  { opseq := 0, kind := 2, redop := 0, fmt := 0, count := 1, root := 0, src := [0, 0, 0, 0], ready := true, dst := 64, same := false,
    counts := 0, sendCounts := [], countsDone := false, part := 5, q := 8, num := 0, fused := false, start := 0, got := [], sent := [],
    written := [], made := [], lagMember := 0, lagNs := 0, timer := 0, sat := 0, nans := 0, localFail := none }

/-- A collective message's header: its opcode and the group's ID. -/
def colMsg0 (op : Nat) : InMsg := msg0 2 1 (leBytes 1 op ++ zeros 7 ++ leBytes 2 1 ++ zeros 6 ++ leBytes 8 77 ++ zeros 24 ++ leBytes 2 7 ++ zeros 14)

/-- The trunk: chip 1 itself. -/
def trunk0 (reg : Tab RegEntry) (s : State) : State :=
  let s := inGrove { port0 with link := { port0.link with mode := 1 } } s
  { s with grv := { s.grv with trunk := 1, reg := reg } }

/-- A member of the registry. -/
def entry0 (serial : Nat) : RegEntry := { st := .joined, serial := serial, routeGen := 0, beat := 0, heard := 0, bundles := [] }

/-- A source or target region at the twin. -/
def region0 (target : Bool) : Region := Region.make 1 5 0 0 0x1000 target false

/-- A paired device that keeps regions. -/
def mirrored (r : Region) (s : State) : State :=
  let s := paired (withPart s)
  { s with twn := { s.twn with regions := [(0, r)] } }

/-- The proof that the device of the pairing expects. -/
def proof1 : Bytes := leBytes 32 0x8623e2a7940e5d8e82a53f4fa030d258988cb7e0a5f9c1750357738d3df8f741

/-- An identity certificate for the base point, signed by the owner whose private scalar is 1. -/
def cert0 : Bytes :=
  let c := zeros 12 ++ pointBytes p384G ++ zeros 3
  c ++ ecdsaSign 1 1 (ascii "SAP-CERT" ++ c)

/-- A port's configuration at its defaults, as bytes. -/
def portCfg0 : Bytes :=
  leBytes 1 231 ++ [20, 16, 2, 8, 2, 0, 0] ++ leBytes 4 1000 ++ leBytes 2 20 ++ leBytes 2 100 ++ List.replicate 8 4 ++ zeros 40

/-- A configuration area at its defaults, with the base point as the owner key. -/
def cfg0 : Bytes :=
  leBytes 4 0x31474643 ++ leBytes 2 1 ++ zeros 6 ++ leBytes 4 2000 ++ leBytes 4 20000 ++ leBytes 4 100 ++ zeros 4 ++ leBytes 4 0x10000
    ++ [4, 0] ++ leBytes 2 24 ++ zeros 28 ++ pointBytes p384G ++ zeros 95 ++ (List.replicate 8 portCfg0).flatten ++ zeros 256

/-- The header of an image whose one section with bytes is its configuration. -/
def imgHdr0 : Bytes :=
  leBytes 4 0x31474D49 ++ leBytes 2 1 ++ leBytes 2 3 ++ leBytes 4 5120 ++ leBytes 4 77 ++ [0, 3, 2] ++ zeros 45
    ++ (leBytes 4 1 ++ leBytes 4 4096 ++ zeros 8) ++ (leBytes 4 2 ++ leBytes 4 4096 ++ zeros 8)
    ++ (leBytes 4 3 ++ leBytes 4 4096 ++ leBytes 4 1024 ++ zeros 4) ++ zeros 400

/-- Its signature by the owner whose private scalar is 1. -/
def sig0 : Bytes :=
  beBytes 96
    0xaa87ca22be8b05378eb1c71ef320ad746e1d3b628ba79b9859f741e082542a385502f25dbf55296c3a545e3872760ab7140d947012ef2f7c230fe524c47e14bac93ec6dae55f9b39f11c585b20f2acaf5d9f3400616fe0e3243c614370853cfe

/-- A flash with that image, signed, in a slot. -/
def flash0 (base : Nat) : Mem :=
  Mem.write 0xFF (Mem.write 0xFF (Mem.write 0xFF [] base imgHdr0) (base + 4096) cfg0) (base + 5120)
    sig0

/-- A device with that image and its owner in the fuses. -/
def flashed (base : Nat) (s : State) : State :=
  { s with flash := flash0 base, fuse := { s.fuse with ownerHash := sha384 (pointBytes p384G) } }

/-- A part of a run of equal pieces. -/
theorem slice_pieces (h p l : Bytes) (k t : Nat) (hh : h.length = 64) (hp : p.length = 16) (ht : t < k) :
    slice (h ++ ((List.replicate k p).flatten ++ l)) (64 + 16 * t) 16 = p := by
  obtain ⟨m, rfl⟩ : ∃ m, k = t + (m + 1) := ⟨k - t - 1, by omega⟩
  have hl : ((List.replicate t p).flatten).length = 16 * t := by simp [hp, Nat.mul_comm]
  have e : h ++ ((List.replicate (t + (m + 1)) p).flatten ++ l)
      = (h ++ (List.replicate t p).flatten) ++ (p ++ ((List.replicate m p).flatten ++ l)) := by
    rw [← List.replicate_append_replicate, List.flatten_append, List.replicate_succ, List.flatten_cons]
    simp only [List.append_assoc]
  rw [slice, e, List.drop_left' (by simp [hh, hl]), List.take_left' hp]

/-- A byte token's entry. -/
def bytePiece : Bytes := zeros 6 ++ leBytes 2 1 ++ zeros 8

/-- The end token's entry. -/
def endPiece : Bytes := zeros 6 ++ leBytes 2 2 ++ zeros 8

/-- The byte tokens' entries take 4 KiB. -/
theorem bytes_len : ((List.replicate 256 bytePiece).flatten).length = 4096 := by
  rw [List.length_flatten, List.map_replicate, List.sum_replicate]
  rfl

/-- The entries of the image. -/
theorem voc_piece (t : Nat) (h : t < 257) : imgPiece vocImg t = Piece.of (if t < 256 then bytePiece else endPiece) := by
  have hp : vocPieces vocImg = 64 := by decide +kernel
  unfold imgPiece
  rw [hp]
  split
  · rename_i h
    rw [show vocImg = vocHdr ++ ((List.replicate 256 bytePiece).flatten ++ endPiece) from rfl,
      slice_pieces vocHdr bytePiece endPiece 256 t (by decide +kernel) (by decide +kernel) h]
  · obtain rfl : t = 256 := by omega
    rw [show vocImg = (vocHdr ++ (List.replicate 256 bytePiece).flatten) ++ endPiece from by
      rw [List.append_assoc]; rfl]
    rw [slice, List.drop_left' (by rw [List.length_append, bytes_len]; rfl)]
    rfl

/-- The image passes the checks of VOCAB_LOAD. -/
theorem voc_ok : vocabOk vocImg = true := by
  have hn : vocTokens vocImg = 257 := by decide +kernel
  have hbb : vocByteBase vocImg = 0 := by decide +kernel
  have hl : vocImg.length = 4176 := by
    rw [show vocImg = vocHdr ++ ((List.replicate 256 bytePiece).flatten ++ endPiece) from rfl, List.length_append, List.length_append, bytes_len]
    rfl
  have h1 : ∀ t ∈ List.range 257, pieceOk vocImg t = true := by
    intro t ht
    have ht : t < 257 := by simpa using ht
    unfold pieceOk
    rw [voc_piece t ht, hbb]
    by_cases h : t < 256
    · rw [if_pos h]
      have e : (0 ≤ t ∧ t < 0 + 256) := ⟨by omega, by omega⟩
      simp only [decide_eq_true e]
      decide +kernel
    · rw [if_neg h]
      have e : ¬ (0 ≤ t ∧ t < 0 + 256) := by omega
      simp only [decide_eq_false e]
      decide +kernel
  have h2 : ((List.range 257).filter fun t => (imgPiece vocImg t).kind == 0) = [] := by
    rw [List.filter_eq_nil_iff]
    intro t ht
    rw [voc_piece t (by simpa using ht)]
    split <;> decide +kernel
  have h3 : (imgPiece vocImg 256).kind = 2 := by
    rw [voc_piece 256 (by omega)]
    decide +kernel
  have hi : imgIndex vocImg = [] := by decide +kernel
  have he : vocEos vocImg = 256 := by decide +kernel
  have hz : vocNormal vocImg = 0 := by decide +kernel
  unfold vocabOk
  simp only [hn, hbb, hl, hi, he, hz, h2, h3, Bool.and_eq_true, List.all_eq_true]
  refine ⟨⟨⟨⟨⟨⟨⟨⟨⟨⟨⟨⟨⟨⟨⟨?_, ?_⟩, ?_⟩, ?_⟩, ?_⟩, ?_⟩, ?_⟩, ?_⟩, ?_⟩, ?_⟩, ?_⟩, ?_⟩, ?_⟩, ?_⟩, ?_⟩, ?_⟩
  all_goals first | exact h1 | decide +kernel

/-- Byte strings compared byte by byte. -/
def eqb : Bytes → Bytes → Bool
  | [], [] => true
  | x :: a, y :: b => bif Nat.beq x.toNat y.toNat then eqb a b else false
  | _, _ => false

/-- The comparison decides equality. -/
theorem eqb_sound : ∀ {a b : Bytes}, eqb a b = true → a = b
  | [], [], _ => rfl
  | [], _ :: _, h => nomatch h
  | _ :: _, [], h => nomatch h
  | x :: a, y :: b, h => by
    unfold eqb at h
    cases e : Nat.beq x.toNat y.toNat with
    | false => rw [e] at h; cases h
    | true =>
      rw [e] at h
      rw [BitVec.eq_of_toNat_eq (Nat.eq_of_beq_eq_true e), eqb_sound h]

/-- A triple with two known parts. -/
theorem tripleEq2 {α β γ : Type} {x : α × β × γ} {a : α} {b : β} (h : x.1 = a) (h' : x.2.1 = b) : x = (a, b, x.2.2) := by rw [← h, ← h']

/-! ### Ill-formed commands are refused -/

/-- Registers of a core, x0 not zero. -/
def badRegs : CoreRegs := { CoreRegs.zero with x := 1 :: List.replicate 31 0 }

/-- A bit table without entries. -/
def badTable : BitTable :=
  { lane := 0, tableId := 0, grade := 200, runningSf := 1, swapSymbol := 0, totalBits := 0, entries := [] }

/-- One ill-formed command for each check of WellFormed is refused. -/
theorem test_ill_formed_refused :
    (([.evqTail (2 ^ 64) 0 0, .registerWrite 0 .pf 2 0, .lowWordRead 0 .pf ⟨2 ^ 32, false⟩, .longCommandComplete 0 0 0 true, .smbusBlockWrite 0 (zeros 33) 0,
   .nop 0 0 0 (zeros 63), .copy 0 0 0 (zeros 1) [], .hostAccessFail 0 0 0 .poisonedTlp (zeros 65) [], .maskReady 0 4096,
   .remoteTimeout 0 65536, .flitReceive 0 0 ⟨zeros 271, []⟩, .phase 0 ⟨0, frame0⟩ 16 0 0, .bitTable 0 ⟨0, frame0⟩ badTable 0,
   .tableAck 0 ⟨0, frame0⟩ 0 256 .ack 0, .retrain 0 ⟨0, { frame0 with sf := 2 }⟩ 0 1 0, .quietComplete 0 0 [],
   .probeComplete 0 0 (List.replicate 9 []), .snrWindowEnd 0 0 0 [], .laneRetrainDone (2 ^ 64) 0 0 true true, .lowEnter 0 ⟨0, frame0⟩ (2 ^ 32),
   .down 0 ⟨0, frame0⟩ 256, .lowWordRead 0 .pf ⟨4, true⟩, .lowWordRead 0 .smb ⟨8, true⟩,
   .mirrorSyncDone 0 128, .twigBeat 0 0 (2 ^ 32) 0 0, .boughReset 0 0 (some badRegs), .pcSample 0 0 0 16, .triggerFire 0 .root badRegs,
   .tempSample 0 [], .granuleZeroised 0 73728, .scrubPass 0 [{ line := 73728 * 32768, corrected := true, found := true, scratch := false }], .exportQuery 0 1024 0 0,
   .hello 0 ⟨0, frame0⟩ { hello0 with port := 8 }] : List Instr)).all (fun i => !WellFormed i) = true := by
  decide +kernel

/-- The bounds themselves are well formed. -/
theorem test_well_formed_accepted :
    (WellFormed (.evqTail (2 ^ 64 - 1) 0 0) && WellFormed (.longCommandComplete 0 0 (2 ^ 32 - 1) true) && WellFormed (.nop 0 127 15 (zeros 64))
      && WellFormed (.hello 0 ⟨7, frame0⟩ hello0) && WellFormed (.granuleZeroised 0 73727)) = true := by decide +kernel

/-- Partition 5's memory in an asynchronous region at its bound of 1 µs, from instant 1000 on. -/
def atBound (s : State) : State :=
  { s with twn := { s.twn with regions := [(0, { Region.make 1 5 1 0 0x400000 false true with
      seq := 1, captured := 1, sent := [{ seq := 1, lines := 1, at_ := 0, copy := false }] })] } }

/-! ### Small steps with the results that the spec's text gives -/

/-- The state that an outcome leaves; the commands have no other outcome. -/
def left (o : Host.Outcome State Fault Refusal) : State :=
  match o with
  | .next s => s
  | _ => State.reset

/-- The status code and the result of the response in a channel: bytes 2 to 3 of the response, and what follows its header. -/
def answered (ch : Fin 130) (s : State) : ChState × Nat × Bytes :=
  let c := chan s ch
  (c.st, u16At c.rsp 2, c.rsp.drop 32)

/-- SHA-384 of the three bytes 61 62 63 (FIPS 180-4, example). -/
theorem test_sha384_abc :
    ofBe (sha384 [0x61, 0x62, 0x63])
      = 0xcb00753f45a35e8bb5a03d699ac65007272c32ab0eded1631a8b605a43ff5bed8086072ba1e7cc2358baeca134c825a7 := by
  decide +kernel

/-- AES-256 encryption (FIPS 197, C.3). -/
theorem test_aes256 :
    aesEncWith (aesRoundKeys (beBytes 32 0x000102030405060708090a0b0c0d0e0f101112131415161718191a1b1c1d1e1f))
      0x00112233445566778899aabbccddeeff = 0x8ea2b7ca516745bfeafc49904b496089 := by
  decide +kernel

/-- AES-256 CMAC of the empty message (SP 800-38B, example 9). -/
theorem test_cmac_empty :
    ofBe (cmac (beBytes 32 0x603deb1015ca71be2b73aef0857d77811f352c073b6108d72d9810a30914dff4) [])
      = 0x028962f61b7bf89efc6b551f4667d983 := by
  decide +kernel

/-- The base point lies on P-384, and its order takes it to infinity (SP 800-186). -/
theorem test_p384_order : p384OnCurve p384G = true ∧ p384Mul p384N p384G = none := by decide +kernel

/-- SplitMix64 from seed 0. -/
theorem test_split_mix : (splitMix 0).2 = 0xE220A8397B1DCDAF := by decide +kernel

/-- The SMBus PEC's CRC-8 of the digits 1 to 9. -/
theorem test_pec : pecOf (ascii "123456789") = 0xF4 := by decide +kernel

/-- ECHO answers its arguments with OK. -/
theorem test_echo : answered 0 (left (exec (.echo 0 0) (at0 6 [1, 2, 3, 4] up))) = (.done, 0, [1, 2, 3, 4]) := by decide +kernel

/-- A request that asks for a region that is not there is refused with BAD_ARG (Table 0-5: 0x0100). -/
theorem test_mem_free_absent :
    (answered 0 (left (exec (.memFree 0 0) (at0 0x104 (args [(1, 5), (8, 0x600000), (4, 1)]) (withPart up))))).2.1 = 0x0100 := by
  decide +kernel

/-- ROUTE_SET takes a generation only above the present one (06 R199): 1 after 1 is refused. -/
theorem test_route_generation :
    (answered 0 (left (exec (.routeSet 0 0)
      (at0 0x406 (leBytes 4 1 ++ leBytes 2 0) { up with txn := { up.txn with routeGen := 1 } })))).2.1 ≠ 0 := by
  decide +kernel

/-- A second GO sets OVERRUN and leaves the request alone (02 R35). -/
theorem test_go_overrun :
    let s := left (exec (.go 0 0 false) (at0 6 [] up))
    (chan s 0).overrun = true ∧ (chan s 0).cur = some (req 6 []) := by
  decide +kernel

/-- A doorbell moves TAIL over the wrap of the 32-bit numbers (08 R242, R243). -/
theorem test_doorbell_wraps :
    let s := modQueue 5 0 (fun x => { x with head := 0xFFFFFFFE, tail := 0xFFFFFFFE, started := 0xFFFFFFFE }) (withQueue 0 0 [] (withPart up))
    (queue (left (exec (.doorbell 0 .pf 5 0 61) s)) 5 0).map (·.tail) = some 61 := by
  decide +kernel

/-- A doorbell past the ring's entries is rejected: 64 entries hold numbers 0 to 63 (08 R243). -/
theorem test_doorbell_past_end :
    (queue (left (exec (.doorbell 0 .pf 5 0 65) (withQueue 0 0 [] (withPart up)))) 5 0).map (fun x => (x.tail, x.dbReject))
      = some (0, true) := by
  decide +kernel

/-- A NOP ends with OK once it has started (08 Table 8-6). -/
theorem test_nop :
    ((running (left (exec (.nop 0 5 0 []) (rec1 0 (record 0 0 0 []) up))) 5 0 0).map fun r => (r.done, r.status)) = some (true, 0) := by
  decide +kernel

/-- VEC ADD in FP32: 1 + 2 = 3. -/
theorem test_vec_add :
    rawRead (left (exec (.vec 0 5 0 [])
      (put 0 (leBytes 4 0x3F800000) (put 64 (leBytes 4 0x40000000)
        (rec1 0 (record 0x11 0 0 [(1, 0), (1, 0), (2, 0), (4, 0), (8, 0), (8, 64), (8, 128), (8, 1), (4, 0)]) up)))))
      (2000 * 0x200000 + 128) 4 = leBytes 4 0x40400000 := by
  decide +kernel

/-- MATMUL of one element in FP32: 2 times 3 is 6. -/
theorem test_matmul_one :
    rawRead (left (exec (.matmul 0 5 0 [])
      (put 0 (leBytes 4 0x40000000) (put 64 (leBytes 4 0x40400000)
        (rec1 0 (record 0x10 0 0 [(8, 0), (8, 64), (8, 128), (4, 1), (4, 1), (2, 1), (1, 0), (1, 0), (2, 0), (2, 0), (4, 0x3F800000)])
          up)))))
      (2000 * 0x200000 + 128) 4 = leBytes 4 0x40C00000 := by
  decide +kernel

/-- CONVERT of FP32 1.5 to BF16, the high half of binary32 (Table 8-20). -/
theorem test_convert_bf16 :
    rawRead (left (exec (.convert 0 5 0 [])
      (put 0 (leBytes 4 0x3FC00000) (rec1 0 (record 0x14 0 0 [(8, 0), (8, 64), (8, 1), (1, 0x10), (3, 0), (4, 0)]) up))))
      (2000 * 0x200000 + 64) 2 = leBytes 2 0x3FC0 := by
  decide +kernel

/-- FILL writes its pattern (08 Table 8-14). -/
theorem test_fill :
    rawRead (left (exec (.fill 0 5 4 []) (rec1 4 (record 0x21 0 0 [(8, 64), (1, 0), (3, 0), (4, 0xA1B2C3D4), (4, 8)]) up)))
      (2000 * 0x200000 + 64) 8 = leBytes 4 0xA1B2C3D4 ++ leBytes 4 0xA1B2C3D4 := by
  decide +kernel

/-- COPY within a partition. -/
theorem test_copy :
    rawRead (left (exec (.copy 0 5 4 [] [])
      (put 0 [9, 8, 7] (rec1 4 (record 0x20 0 0 [(8, 0), (8, 64), (4, 3), (1, 0), (1, 0), (2, 0)]) up))))
      (2000 * 0x200000 + 64) 4 = [9, 8, 7, 0] := by
  decide +kernel

/-- A flit with a damaged slice is killed and asks for a NAK (05 R135). -/
theorem test_flit_killed :
    let s := left (exec (.flitReceive 0 7 ⟨zeros 272, []⟩) (withPort 7 port0 up))
    (port s 7).link.killed = 1 ∧ (port s 7).link.nakPending = true := by
  decide +kernel

/-- BIP-16 of a slice of zeros at position 3 is its constant (05 R133). -/
theorem test_bip16 : bip16 3 (zeros 32) = 0x5A03 := by decide +kernel

/-- BRD_THROT_N driven low is seen (14 R444). -/
theorem test_brd_throt : (left (exec (.brdThrotN 0 false) up)).pwr.brdThrotLow = true := by decide +kernel

/-- POWER_UP samples the straps and starts the sequence (14 R419). -/
theorem test_power_up :
    (left (exec (.powerUp 0 { testN := true, smbAddr := 5, pcieSris := false }) State.reset)).pwr.straps.smbAddr = 5 := by
  decide +kernel

/-- An empty option holds nothing. -/
theorem noneAll {α : Type} {o : Option α} {P : α → Prop} (h : o = none) : ∀ l : α, o = some l → P l :=
  fun _ e => nomatch h.symm.trans e

/-- SNRs of a lane, the same in every bin. -/
def snrOf (x : Int) : List Int := List.replicate 488 x

/-- The table that these give at grade 50, but for a gain of its first bin. -/
def table1 : List (BitVec 8) := ((bitTableOf (snrOf 85) 50).getD []).mapIdx fun i e => if i = 0 then e ^^^ 16 else e

/-- States and operands that meet the hypotheses of StepRunsTheFrontCommand, clause by clause. -/
theorem wit_StepRunsTheFrontCommand :
    (∃ (s : State) (c : Instr) (rest : List Instr), s.pending = c :: rest) ∧
    (∃ (s : State), s.pending = []) :=
  ⟨⟨{ up with pending := [.getInfo 0 0, .release 1 0] }, (.getInfo 0 0), [.release 1 0], by decide +kernel⟩,
   ⟨up, by decide +kernel⟩⟩

/-- States and operands that meet the hypotheses of StepKeepsMemoriesCanonical, clause by clause. -/
theorem wit_StepKeepsMemoriesCanonical :
    ∃ (s : State) (s' : State), s.memsOk = true ∧ step s = .next s' :=
  ⟨up, _, by decide +kernel, rfl⟩

/-- States and operands that meet the hypotheses of GeneralCommandsAnswer, clause by clause. -/
theorem wit_GeneralCommandsAnswer :
    (∃ (t : Nat) (ch : Fin 130) (r : Request) (s₀ : State) (s : State), Ready 0x0001 t ch r s₀ s ∧ noArgs r.args = some ()) ∧
    (∃ (t : Nat) (ch : Fin 130) (r : Request) (s₀ : State) (s : State), Ready 0x0002 t ch r s₀ s ∧ noArgs r.args = some ()) ∧
    (∃ (t : Nat) (ch : Fin 130) (r : Request) (s₀ : State) (s : State) (num : Nat) (k : Ticket), Ready 0x0003 t ch r s₀ s ∧ parseArgs [4] r.args = some [num] ∧ findTicket s ch num = some k) ∧
    (∃ (t : Nat) (ch : Fin 130) (r : Request) (s₀ : State) (s : State) (num : Nat) (st : Nat) (k : Ticket), Ready 0x0004 t ch r s₀ s ∧ parseArgs [4] r.args = some [num] ∧ findTicket s ch num = some k ∧ k.final = some st) ∧
    (∃ (t : Nat) (ch : Fin 130) (r : Request) (s₀ : State) (s : State), Ready 0x0005 t ch r s₀ s ∧ noArgs r.args = some ()) ∧
    (∃ (t : Nat) (ch : Fin 130) (r : Request) (s₀ : State) (s : State), Ready 0x0006 t ch r s₀ s) :=
  ⟨⟨0, 0, (req 1 []), (taken 0 (req 1 []) up), _, ⟨rfl, by decide +kernel⟩, by decide +kernel⟩,
   ⟨0, 0, (req 2 []), (taken 0 (req 2 []) up), _, ⟨rfl, by decide +kernel⟩, by decide +kernel⟩,
   ⟨0, 0, (req 3 (args [(4, 1)])), (modChan 0 (fun c => { c with tickets := [{ num := 1, since := 0, cmd := 0x0101, obj := .device, owner := none, final := some stOk, result := [7], doneAt := 0, work := .event }] }) (at0 3 (args [(4, 1)]) up)), _, 1, _, ⟨rfl, by decide +kernel⟩, by decide +kernel, someGet (by decide +kernel)⟩,
   ⟨0, 0, (req 4 (args [(4, 1)])), (modChan 0 (fun c => { c with tickets := [{ num := 1, since := 0, cmd := 0x0101, obj := .device, owner := none, final := some stOk, result := [7], doneAt := 0, work := .event }] }) (at0 4 (args [(4, 1)]) up)), _, 1, _, _, ⟨rfl, by decide +kernel⟩, by decide +kernel, someGet (by decide +kernel), someGet (by decide +kernel)⟩,
   ⟨0, 0, (req 5 []), (taken 0 (req 5 []) up), _, ⟨rfl, by decide +kernel⟩, by decide +kernel⟩,
   ⟨0, 0, (req 6 [1, 2, 3]), (taken 0 (req 6 [1, 2, 3]) up), _, ⟨rfl, by decide +kernel⟩⟩⟩

/-- States and operands that meet the hypotheses of PartitionCommandsComplete, clause by clause. -/
theorem wit_PartitionCommandsComplete :
    (∃ (t : Nat) (ch : Fin 130) (r : Request) (s₀ : State) (s : State) (n : Nat) (k : Nat) (quota : Nat) (mask : Nat) (cmd : Nat) (floor : Nat), Ready 0x0100 t ch r s₀ s ∧ parseArgs [1, 1, 1, 4, 8, 4, 4, 8] r.args = some [n, 0, k, quota, mask, cmd, 0, floor] ∧ partCreateOk s [n, 0, k, quota, mask, cmd, 0, floor] = true ∧ thas n s.mm.parts = false ∧ quotaSum s + lentGranules s + quota ≤ usableGranules s) ∧
    (∃ (t : Nat) (ch : Fin 130) (r : Request) (s₀ : State) (s : State) (n : Nat) (k : Nat) (quota : Nat) (mask : Nat) (cmd : Nat) (seal_ : Nat) (floor : Nat) (e : KeyEntry) (xts : Bytes) (s' : State), Ready 0x0100 t ch r s₀ s ∧ parseArgs [1, 1, 1, 4, 8, 4, 4, 8] r.args = some [n, 1, k, quota, mask, cmd, seal_, floor] ∧ partCreateOk s [n, 1, k, quota, mask, cmd, seal_, floor] = true ∧ thas n s.mm.parts = false ∧ keyEntry s seal_ = some e ∧ useRefused s e = false ∧ quotaSum s + lentGranules s + quota ≤ usableGranules s ∧ useKey seal_ useSeal s = (some xts, s')) ∧
    (∃ (t : Nat) (ch : Fin 130) (r : Request) (s₀ : State) (s : State) (n : Nat), Ready 0x0101 t ch r s₀ s ∧ parseArgs [1] r.args = some [n] ∧ ownPart s n = true) ∧
    (∃ (t : Nat) (ch : Fin 130) (r : Request) (s₀ : State) (s : State) (n : Nat) (p : Partition), Ready 0x0102 t ch r s₀ s ∧ parseArgs [1] r.args = some [n] ∧ part s n = some p) ∧
    (∃ (t : Nat) (ch : Fin 130) (r : Request) (s₀ : State) (s : State) (n : Nat) (k : Nat) (o : Nat) (s' : State), Ready 0x0103 t ch r s₀ s ∧ parseArgs [1, 4] r.args = some [n, k] ∧ ownPart s n = true ∧ k ≠ 0 ∧ allocRun n k s = some (o, s')) ∧
    (∃ (t : Nat) (ch : Fin 130) (r : Request) (s₀ : State) (s : State) (n : Nat) (o : Nat) (k : Nat) (p : Partition), Ready 0x0104 t ch r s₀ s ∧ parseArgs [1, 8, 4] r.args = some [n, o * 0x200000, k] ∧ ownPart s n = true ∧ part s n = some p ∧ runAllocated p o k = true ∧ runMirrored s n o k = false) ∧
    (∃ (t : Nat) (ch : Fin 130) (r : Request) (s₀ : State) (s : State), Ready 0x010A t ch r s₀ s ∧ noArgs r.args = some ()) :=
  ⟨⟨0, 0, (req 256 (args [(1, 127), (1, 0), (1, 4), (4, 64), (8, 1), (4, 7), (4, 0), (8, 0)])), (taken 0 (req 256 (args [(1, 127), (1, 0), (1, 4), (4, 64), (8, 1), (4, 7), (4, 0), (8, 0)])) (withKey 9 2 (zeros 32) up)), _, 127, 4, 64, 1, 7, 0, ⟨rfl, by decide +kernel⟩, by decide +kernel, by decide +kernel, by decide +kernel, by decide +kernel⟩,
   ⟨0, 0, (req 256 (args [(1, 0), (1, 1), (1, 1), (4, 1), (8, 0x8000000000000000), (4, 7), (4, 7), (8, 5)])), (taken 0 (req 256 (args [(1, 0), (1, 1), (1, 1), (4, 1), (8, 0x8000000000000000), (4, 7), (4, 7), (8, 5)])) (withKey 9 6 (zeros 64) up)), _, 0, 1, 1, 0x8000000000000000, 7, 7, 5, _, _, _, ⟨rfl, by decide +kernel⟩, by decide +kernel, by decide +kernel, by decide +kernel, someGet (by decide +kernel), by decide +kernel, by decide +kernel, pairSome (by decide +kernel)⟩,
   ⟨0, 0, (req 257 (args [(1, 5)])), (taken 0 (req 257 (args [(1, 5)])) (withPart up)), _, 5, ⟨rfl, by decide +kernel⟩, by decide +kernel, by decide +kernel⟩,
   ⟨0, 0, (req 258 (args [(1, 5)])), (taken 0 (req 258 (args [(1, 5)])) (withPart up)), _, 5, _, ⟨rfl, by decide +kernel⟩, by decide +kernel, someGet (by decide +kernel)⟩,
   ⟨0, 0, (req 259 (args [(1, 5), (4, 1)])), (taken 0 (req 259 (args [(1, 5), (4, 1)])) (withPart up)), _, 5, 1, _, _, ⟨rfl, by decide +kernel⟩, by decide +kernel, by decide +kernel, by decide +kernel, somePair (by decide +kernel)⟩,
   ⟨0, 0, (req 260 (args [(1, 5), (8, 0), (4, 2)])), (taken 0 (req 260 (args [(1, 5), (8, 0), (4, 2)])) (withPart up)), _, 5, 0, 2, _, ⟨rfl, by decide +kernel⟩, by decide +kernel, by decide +kernel, someGet (by decide +kernel), by decide +kernel, by decide +kernel⟩,
   ⟨0, 0, (req 266 []), (taken 0 (req 266 []) up), _, ⟨rfl, by decide +kernel⟩, by decide +kernel⟩⟩

/-- States and operands that meet the hypotheses of WindowCommandsComplete, clause by clause. -/
theorem wit_WindowCommandsComplete :
    (∃ (t : Nat) (ch : Fin 130) (r : Request) (s₀ : State) (s : State) (n : Nat) (o : Nat) (len : Nat) (rights : Nat) (chip : Nat) (imp : Nat) (id : Nat) (s' : State), Ready 0x0105 t ch r s₀ s ∧ parseArgs [1, 8, 8, 4, 2, 1] r.args = some [n, o, len, rights, chip, imp] ∧ exportOk s [n, o, len, rights, chip, imp] = true ∧ addExport { part := n, gen := genOf s n, offset := o, length := len, rights := rights, impChip := chip, impPart := imp } s = some (id, s')) ∧
    (∃ (t : Nat) (ch : Fin 130) (r : Request) (s₀ : State) (s : State) (n : Nat) (chip : Nat) (remote : Nat) (id : Nat), Ready 0x0106 t ch r s₀ s ∧ parseArgs [1, 2, 1, 4] r.args = some [n, chip, remote, id] ∧ ownPart s n = true ∧ chip ≤ 1023 ∧ remote ≤ 127 ∧ (s.txn.pendingImports.any fun p => p.ch == ch && p.ticket == 0) = false ∧ s.txn.chip ≠ some chip ∧ importPath s chip = stOk) ∧
    (∃ (t : Nat) (ch : Fin 130) (r : Request) (s₀ : State) (s : State) (n : Nat) (id : Nat) (e : Export), Ready 0x0107 t ch r s₀ s ∧ parseArgs [1, 4] r.args = some [n, id] ∧ tget id s.txn.exports = some e ∧ e.part = n ∧ s.mm.lending ≠ some n) ∧
    (∃ (t : Nat) (ch : Fin 130) (r : Request) (s₀ : State) (s : State) (chip : Nat) (imp : Nat) (k : Nat) (n : Nat) (id : Nat) (p : Partition) (s' : State), Ready 0x0108 t ch r s₀ s ∧ parseArgs [2, 1, 4] r.args = some [chip, imp, k] ∧ (chip ≤ 1023 ∨ chip = 0xFFFF) ∧ (imp ≤ 127 ∨ imp = 0xFF) ∧ k ≠ 0 ∧ s.mm.lending = some n ∧ part s n = some p ∧ p.pages = [] ∧ k ≤ freeGranules s ∧ s.txn.exports.length < 4096 ∧ addExport { part := n, gen := genOf (mapRun n 0 k s) n, offset := 0, length := k * granuleBytes, rights := 11, impChip := chip, impPart := imp } (mapRun n 0 k s) = some (id, s')) ∧
    (∃ (t : Nat) (ch : Fin 130) (r : Request) (s₀ : State) (s : State) (n : Nat) (k : Nat) (table : Nat) (lender : Nat) (id : Nat) (b : Bytes) (s' : State) (ts : List Tensor), Ready 0x0109 t ch r s₀ s ∧ parseArgs [1, 4, 8, 2, 4] r.args = some [n, k, table, lender, id] ∧ ownPart s n = true ∧ 1 ≤ k ∧ k ≤ 65536 ∧ table + 48 * k ≤ 2 ^ 47 ∧ allocated s n table (48 * k) = true ∧ readRange (localWho s n) n table (48 * k) s = (stOk, b, s') ∧ allSome ((List.range k).map fun i => Tensor.of (slice b (48 * i) 48)) = some ts) ∧
    (∃ (t : Nat) (ch : Fin 130) (r : Request) (s₀ : State) (s : State) (n : Nat) (k : Nat) (i : Import), Ready 0x010B t ch r s₀ s ∧ parseArgs [1, 4] r.args = some [n, k] ∧ tget k s.txn.imports = some i ∧ i.part = n ∧ i.plan = false) :=
  ⟨⟨0, 0, (req 261 (args [(1, 5), (8, 0), (8, 0x400000), (4, 15), (2, 0xFFFF), (1, 0xFF)])), (taken 0 (req 261 (args [(1, 5), (8, 0), (8, 0x400000), (4, 15), (2, 0xFFFF), (1, 0xFF)])) (withPart up)), _, 5, 0, 0x400000, 15, 0xFFFF, 0xFF, _, _, ⟨rfl, by decide +kernel⟩, by decide +kernel, by decide +kernel, somePair (by decide +kernel)⟩,
   ⟨0, 0, (req 262 (args [(1, 5), (2, 1023), (1, 127), (4, 1)])), (taken 0 (req 262 (args [(1, 5), (2, 1023), (1, 127), (4, 1)])) (inGrove port0 (withPart up))), _, 5, 1023, 127, 1, ⟨rfl, by decide +kernel⟩, by decide +kernel, by decide +kernel, by decide +kernel, by decide +kernel, by decide +kernel, by decide +kernel, by decide +kernel⟩,
   ⟨0, 0, (req 263 (args [(1, 5), (4, 1)])), (taken 0 (req 263 (args [(1, 5), (4, 1)])) (modTxn (fun x => { x with exports := [(1, export0)] }) (withPart up))), _, 5, 1, _, ⟨rfl, by decide +kernel⟩, by decide +kernel, someGet (by decide +kernel), by decide +kernel, by decide +kernel⟩,
   ⟨0, 0, (req 264 (args [(2, 1023), (1, 127), (4, 1)])), (taken 0 (req 264 (args [(2, 1023), (1, 127), (4, 1)])) (modMm (fun m => { m with lending := some 6, parts := tset 6 { part0 with mode := 3, pages := [] } m.parts }) (withPart up))), _, 1023, 127, 1, 6, _, _, _, ⟨rfl, by decide +kernel⟩, by decide +kernel, by decide +kernel, by decide +kernel, by decide +kernel, by decide +kernel, someGet (by decide +kernel), by decide +kernel, by decide +kernel, by decide +kernel, somePair (addExport_isSome _ _ (by rw [mapRun_txn]; decide +kernel))⟩,
   ⟨0, 0, (req 265 (args [(1, 5), (4, 1), (8, 0), (2, 2), (4, 1)])), (taken 0 (req 265 (args [(1, 5), (4, 1), (8, 0), (2, 2), (4, 1)])) (put 0 (leBytes 8 4096) (inGrove port0 (withPart up)))), _, 5, 1, 0, 2, 1, _, _, _, ⟨rfl, by decide +kernel⟩, by decide +kernel, by decide +kernel, by decide +kernel, by decide +kernel, by decide +kernel, by decide +kernel, tripleEq (by decide +kernel), someGet (by decide +kernel)⟩,
   ⟨0, 0, (req 267 (args [(1, 5), (4, 3)])), (taken 0 (req 267 (args [(1, 5), (4, 3)])) (modTxn (fun x => { x with imports := [(3, import0)] }) (withPart up))), _, 5, 3, _, ⟨rfl, by decide +kernel⟩, by decide +kernel, someGet (by decide +kernel), by decide +kernel, by decide +kernel⟩⟩

/-- States and operands that meet the hypotheses of QueueCommandsComplete, clause by clause. -/
theorem wit_QueueCommandsComplete :
    (∃ (t : Nat) (ch : Fin 130) (r : Request) (s₀ : State) (s : State) (n : Nat) (cls : Nat) (idx : Nat) (k : Nat) (base : Nat) (vec : Nat) (s' : State), Ready 0x0200 t ch r s₀ s ∧ parseArgs [1, 1, 1, 1, 4, 8, 2] r.args = some [n, cls, idx, 1, k, base, vec] ∧ queueCreateOk s [n, cls, idx, 1, k, base, vec] = true ∧ queue s n (4 * cls + idx) = none ∧ zeroSlots n (Queue.fresh true k base vec) s = s') ∧
    (∃ (t : Nat) (ch : Fin 130) (r : Request) (s₀ : State) (s : State) (n : Nat) (cls : Nat) (idx : Nat) (k : Nat) (base : Nat) (vec : Nat) (s' : State), Ready 0x0200 t ch r s₀ s ∧ parseArgs [1, 1, 1, 1, 4, 8, 2] r.args = some [n, cls, idx, 0, k, base, vec] ∧ queueCreateOk s [n, cls, idx, 0, k, base, vec] = true ∧ queue s n (4 * cls + idx) = none ∧ zeroSlots n (Queue.fresh false k base vec) s = s' ∧ base + 128 * k ≤ 2 ^ 47 ∧ allocated s n base (128 * k) = true) ∧
    (∃ (t : Nat) (ch : Fin 130) (r : Request) (s₀ : State) (s : State) (n : Nat) (cls : Nat) (idx : Nat), Ready 0x0201 t ch r s₀ s ∧ parseArgs [1, 1, 1] r.args = some [n, cls, idx] ∧ queueArg s [n, cls, idx] = true) ∧
    (∃ (t : Nat) (ch : Fin 130) (r : Request) (s₀ : State) (s : State) (n : Nat) (cls : Nat) (idx : Nat) (x : Queue), Ready 0x0202 t ch r s₀ s ∧ parseArgs [1, 1, 1] r.args = some [n, cls, idx] ∧ queueArg s [n, cls, idx] = true ∧ queue s n (4 * cls + idx) = some x) :=
  ⟨⟨0, 0, (req 512 (args [(1, 5), (1, 3), (1, 3), (1, 1), (4, 65536), (8, 0x1000), (2, 15)])), (taken 0 (req 512 (args [(1, 5), (1, 3), (1, 3), (1, 1), (4, 65536), (8, 0x1000), (2, 15)])) (withPart up)), _, 5, 3, 3, 65536, 0x1000, 15, _, ⟨rfl, by decide +kernel⟩, by decide +kernel, by decide +kernel, by decide +kernel, rfl⟩,
   ⟨0, 0, (req 512 (args [(1, 5), (1, 0), (1, 0), (1, 0), (4, 64), (8, 0x3FE000), (2, 0xFFFF)])), (taken 0 (req 512 (args [(1, 5), (1, 0), (1, 0), (1, 0), (4, 64), (8, 0x3FE000), (2, 0xFFFF)])) (withPart up)), _, 5, 0, 0, 64, 0x3FE000, 0xFFFF, _, ⟨rfl, by decide +kernel⟩, by decide +kernel, by decide +kernel, by decide +kernel, rfl, by decide +kernel, by decide +kernel⟩,
   ⟨0, 0, (req 513 (args [(1, 5), (1, 3), (1, 3)])), (taken 0 (req 513 (args [(1, 5), (1, 3), (1, 3)])) (withQueue 15 0 [] (withPart up))), _, 5, 3, 3, ⟨rfl, by decide +kernel⟩, by decide +kernel, by decide +kernel⟩,
   ⟨0, 0, (req 514 (args [(1, 5), (1, 0), (1, 0)])), (taken 0 (req 514 (args [(1, 5), (1, 0), (1, 0)])) (withQueue 0 1 [] (withPart up))), _, 5, 0, 0, _, ⟨rfl, by decide +kernel⟩, by decide +kernel, by decide +kernel, someGet (by decide +kernel)⟩⟩

/-- States and operands that meet the hypotheses of KeyCommandsComplete, clause by clause. -/
theorem wit_KeyCommandsComplete :
    (∃ (t : Nat) (ch : Fin 130) (r : Request) (s₀ : State) (s : State) (st : Staged) (i : Nat), Ready 0x0300 t ch r s₀ s ∧ blobArgsOk 0x0300 0 r.args = some r.args ∧ r.staged = some st ∧ stagedLive s st = true ∧ (s.hwd.reg.find? fun e => e.2.channel == ch.val && e.2.keyId == blobId st.blob && e.2.gen == blobGen st.blob) = none ∧ tfree s.hwd.reg 3 4093 = some i ∧ loadFits s st.blob false = true) ∧
    (∃ (t : Nat) (ch : Fin 130) (r : Request) (s₀ : State) (s : State) (st : Staged), Ready 0x0301 t ch r s₀ s ∧ blobArgsOk 0x0301 0 r.args = some r.args ∧ keyReplaceOk s ch.val r.args = true ∧ r.staged = some st ∧ sweeps s (u32At r.args 0) = false ∧ loadFits s st.blob (((keyEntry s (u32At r.args 0)).map (·.pinned)).getD false) = true) ∧
    (∃ (t : Nat) (ch : Fin 130) (r : Request) (s₀ : State) (s : State) (h : Nat) (e : KeyEntry), Ready 0x0302 t ch r s₀ s ∧ parseArgs [4] r.args = some [h] ∧ mayModify s ch.val h = true ∧ keyEntry s h = some e ∧ sweeps s h = true) ∧
    (∃ (t : Nat) (ch : Fin 130) (r : Request) (s₀ : State) (s : State) (h : Nat) (e : KeyEntry) (s₁ : State), Ready 0x0302 t ch r s₀ s ∧ parseArgs [4] r.args = some [h] ∧ mayModify s ch.val h = true ∧ keyEntry s h = some e ∧ sweeps s h = false ∧ s₁ = writeGen e.keyId (storedGen s e.keyId + 1) (respond ch r stOk 0 (leBytes 4 (storedGen s e.keyId + 1)) s)) ∧
    (∃ (t : Nat) (ch : Fin 130) (r : Request) (s₀ : State) (s : State) (h : Nat) (e : KeyEntry), Ready 0x0303 t ch r s₀ s ∧ parseArgs [4] r.args = some [h] ∧ mayQuery s ch.val h = true ∧ keyEntry s h = some e ∧ (e.counted = false ∨ counterOf s e.keyId = none)) ∧
    (∃ (t : Nat) (ch : Fin 130) (r : Request) (s₀ : State) (s : State) (h : Nat) (e : KeyEntry) (c : Fin 64), Ready 0x0303 t ch r s₀ s ∧ parseArgs [4] r.args = some [h] ∧ mayQuery s ch.val h = true ∧ keyEntry s h = some e ∧ e.counted = true ∧ counterOf s e.keyId = some c) ∧
    (∃ (t : Nat) (ch : Fin 130) (r : Request) (s₀ : State) (s : State) (st : Staged) (c : Fin 2), Ready 0x0304 t ch r s₀ s ∧ blobArgsOk 0x0304 193 r.args = some r.args ∧ u8At r.args 0 = c.val ∧ r.staged = some st ∧ hwdDead s = false ∧ storedGen s (blobId st.blob) ≤ blobGen st.blob ∧ pinnedSlots s + bit 0 (slotMaterial s (.key (c.val + 1))).isNone + bit 0 (slotMaterial s (.command c.val)).isNone ≤ 64) :=
  ⟨⟨0, 0, (reqBlob 0x300 [] 9 2 []), (taken 0 (reqBlob 0x300 [] 9 2 []) up), _, _, _, ⟨rfl, by decide +kernel⟩, by decide +kernel, someGet (by decide +kernel), by decide +kernel, by decide +kernel, someGet (by decide +kernel), by decide +kernel⟩,
   ⟨0, 0, (reqBlob 0x301 (leBytes 4 7) 9 2 []), (taken 0 (reqBlob 0x301 (leBytes 4 7) 9 2 []) (withKey 9 2 (zeros 32) up)), _, _, ⟨rfl, by decide +kernel⟩, by decide +kernel, by decide +kernel, someGet (by decide +kernel), by decide +kernel, by decide +kernel⟩,
   ⟨0, 0, (req 770 (args [(4, 7)])), (taken 0 (req 770 (args [(4, 7)])) (modMm (fun m => { m with parts := [(5, { part0 with sealKey := 7, oldPair := some { xts := zeros 64, tag := zeros 16 } })] }) (withKey 9 4 (zeros 64) up))), _, 7, _, ⟨rfl, by decide +kernel⟩, by decide +kernel, by decide +kernel, someGet (by decide +kernel), by decide +kernel⟩,
   ⟨0, 0, (req 770 (args [(4, 7)])), (taken 0 (req 770 (args [(4, 7)])) (withKey 9 2 (zeros 32) up)), _, 7, _, _, ⟨rfl, by decide +kernel⟩, by decide +kernel, by decide +kernel, someGet (by decide +kernel), by decide +kernel, rfl⟩,
   ⟨0, 0, (req 771 (args [(4, 7)])), (taken 0 (req 771 (args [(4, 7)])) (withKey 9 2 (zeros 32) up)), _, 7, _, ⟨rfl, by decide +kernel⟩, by decide +kernel, by decide +kernel, someGet (by decide +kernel), Or.inl (by decide +kernel)⟩,
   ⟨0, 0, (req 771 (args [(4, 7)])), (taken 0 (req 771 (args [(4, 7)])) (modHwd (fun h => { h with counters := vset h.counters 63 { UseCounter.reset with binding := 9 } }) (modHwd (fun h => { h with reg := tset 7 { blob := blob0 9 2 2, chain := [], channel := 0, uses := 0 } h.reg }) (withKey 9 2 (zeros 32) up)))), _, 7, _, 63, ⟨rfl, by decide +kernel⟩, by decide +kernel, by decide +kernel, someGet (by decide +kernel), by decide +kernel, by decide +kernel⟩,
   ⟨0, 0, (reqBlob 0x304 [1, 0] 9 2 (zeros 193)), (taken 0 (reqBlob 0x304 [1, 0] 9 2 (zeros 193)) up), _, _, 1, ⟨rfl, by decide +kernel⟩, by decide +kernel, by decide +kernel, someGet (by decide +kernel), by decide +kernel, by decide +kernel, by decide +kernel⟩⟩

/-- States and operands that meet the hypotheses of LinkCommandsComplete, clause by clause. -/
theorem wit_LinkCommandsComplete :
    (∃ (t : Nat) (ch : Fin 130) (r : Request) (s₀ : State) (s : State) (p : Fin 8) (g : Nat) (sf : Nat) (grade : Nat) (s₁ : State), Ready 0x0400 t ch r s₀ s ∧ parseArgs [1, 1, 1] r.args = some [p.val, g, sf] ∧ g ∈ gradesDown ∧ sf ∈ [1, 4, 16, 64] ∧ s₁ = (if 8 ≤ (port s p).phys.st ∧ (port s p).phys.st ≤ 10 then linkGoesDown p 0 true s else s) ∧ hasIdentity s p = true ∧ admitGrade s₁ p g = some grade) ∧
    (∃ (t : Nat) (ch : Fin 130) (r : Request) (s₀ : State) (s : State) (p : Fin 8) (g : Nat) (sf : Nat) (s₁ : State), Ready 0x0400 t ch r s₀ s ∧ parseArgs [1, 1, 1] r.args = some [p.val, g, sf] ∧ g ∈ gradesDown ∧ sf ∈ [1, 4, 16, 64] ∧ s₁ = (if 8 ≤ (port s p).phys.st ∧ (port s p).phys.st ≤ 10 then linkGoesDown p 0 true s else s) ∧ hasIdentity s p = true ∧ admitGrade s₁ p g = none) ∧
    (∃ (t : Nat) (ch : Fin 130) (r : Request) (s₀ : State) (s : State) (p : Fin 8) (g : Nat) (sf : Nat) (s₁ : State), Ready 0x0400 t ch r s₀ s ∧ parseArgs [1, 1, 1] r.args = some [p.val, g, sf] ∧ g ∈ gradesDown ∧ sf ∈ [1, 4, 16, 64] ∧ s₁ = (if 8 ≤ (port s p).phys.st ∧ (port s p).phys.st ≤ 10 then linkGoesDown p 0 true s else s) ∧ hasIdentity s p = false) ∧
    (∃ (t : Nat) (ch : Fin 130) (r : Request) (s₀ : State) (s : State) (p : Fin 8) (l : Fin 9) (s₁ : State), Ready 0x0401 t ch r s₀ s ∧ parseArgs [1, 1] r.args = some [p.val, l.val] ∧ (port s p).phys.st = 8 ∧ (rxLane s p l).role ≠ .retrain ∧ (rxLane s p l).leaving = false ∧ (port s p).phys.retrain = none ∧ (rxLane s p l).partner ≠ 0xF ∧ s₁ = modPhys p (fun y => { y with retrain := some { lane := l.val, ticket := some (ch, (chan s ch).nextTicket) } }) (acceptLong ch r .event s) ∧ (rxLane s p l).role ≠ .data) ∧
    (∃ (t : Nat) (ch : Fin 130) (r : Request) (s₀ : State) (s : State) (p : Fin 8) (l : Fin 9) (s₁ : State), Ready 0x0401 t ch r s₀ s ∧ parseArgs [1, 1] r.args = some [p.val, l.val] ∧ (port s p).phys.st = 8 ∧ (rxLane s p l).role ≠ .retrain ∧ (rxLane s p l).leaving = false ∧ (port s p).phys.retrain = none ∧ (rxLane s p l).partner ≠ 0xF ∧ s₁ = modPhys p (fun y => { y with retrain := some { lane := l.val, ticket := some (ch, (chan s ch).nextTicket) } }) (acceptLong ch r .event s) ∧ (rxLane s p l).role = .data ∧ (rxSpare s p).isSome = true) ∧
    (∃ (t : Nat) (ch : Fin 130) (r : Request) (s₀ : State) (s : State) (p : Fin 8) (l : Fin 9), Ready 0x0401 t ch r s₀ s ∧ parseArgs [1, 1] r.args = some [p.val, l.val] ∧ (port s p).phys.st = 8 ∧ ((rxLane s p l).role = .retrain ∨ (rxLane s p l).leaving = true ∨ (port s p).phys.retrain.isSome = true)) ∧
    (∃ (t : Nat) (ch : Fin 130) (r : Request) (s₀ : State) (s : State) (p : Fin 8) (l : Fin 9), Ready 0x0401 t ch r s₀ s ∧ parseArgs [1, 1] r.args = some [p.val, l.val] ∧ (port s p).phys.st = 8 ∧ (rxLane s p l).role ≠ .retrain ∧ (rxLane s p l).leaving = false ∧ (port s p).phys.retrain = none ∧ (((rxLane s p l).role = .data ∧ rxSpare s p = none) ∨ (rxLane s p l).partner = 0xF)) ∧
    (∃ (t : Nat) (ch : Fin 130) (r : Request) (s₀ : State) (s : State) (p : Fin 8) (l : Fin 9), Ready 0x0401 t ch r s₀ s ∧ parseArgs [1, 1] r.args = some [p.val, l.val] ∧ (port s p).phys.st ≠ 8) ∧
    (∃ (t : Nat) (ch : Fin 130) (r : Request) (s₀ : State) (s : State) (p : Fin 8), Ready 0x0402 t ch r s₀ s ∧ parseArgs [1] r.args = some [p.val]) ∧
    (∃ (t : Nat) (ch : Fin 130) (r : Request) (s₀ : State) (s : State) (p : Fin 8), Ready 0x0403 t ch r s₀ s ∧ parseArgs [1] r.args = some [p.val]) ∧
    (∃ (t : Nat) (ch : Fin 130) (r : Request) (s₀ : State) (s : State) (p : Fin 8) (mode : Nat) (peer : Nat) (key : Nat) (s₁ : State), Ready 0x0404 t ch r s₀ s ∧ parseArgs [1, 1, 2, 4] r.args = some [p.val, mode, peer, key] ∧ securitySetOk s [p.val, mode, peer, key] = true ∧ s₁ = respond ch r stOk 0 [] (modLink p (fun l => { l with mode := mode, peerExpect := peer, identity := key }) s) ∧ ((port s p).phys.st = 0 ∨ (port s p).phys.st = 1 ∨ (port s p).phys.st = 11)) ∧
    (∃ (t : Nat) (ch : Fin 130) (r : Request) (s₀ : State) (s : State) (p : Fin 8) (mode : Nat) (peer : Nat) (key : Nat) (s₁ : State), Ready 0x0404 t ch r s₀ s ∧ parseArgs [1, 1, 2, 4] r.args = some [p.val, mode, peer, key] ∧ securitySetOk s [p.val, mode, peer, key] = true ∧ s₁ = respond ch r stOk 0 [] (modLink p (fun l => { l with mode := mode, peerExpect := peer, identity := key }) s) ∧ (port s p).phys.st ≠ 0 ∧ (port s p).phys.st ≠ 1 ∧ (port s p).phys.st ≠ 11) ∧
    (∃ (t : Nat) (ch : Fin 130) (r : Request) (s₀ : State) (s : State) (p : Fin 8), Ready 0x0405 t ch r s₀ s ∧ parseArgs [1] r.args = some [p.val] ∧ (port s p).link.mode ≠ 0 ∧ (port s p).link.txKey.isSome = true ∧ (port s p).link.st ≠ .down ∧ (port s p).link.st ≠ .securing) ∧
    (∃ (t : Nat) (ch : Fin 130) (r : Request) (s₀ : State) (s : State) (p : Fin 8), Ready 0x0405 t ch r s₀ s ∧ parseArgs [1] r.args = some [p.val] ∧ ((port s p).link.mode = 0 ∨ (port s p).link.txKey = none ∨ (port s p).link.st = .down ∨ (port s p).link.st = .securing)) ∧
    (∃ (t : Nat) (ch : Fin 130) (r : Request) (s₀ : State) (s : State) (g : Nat) (es : List Nat), Ready 0x0406 t ch r s₀ s ∧ routeArgs r.args = some (g, es) ∧ s.txn.routeGen < g ∧ es.all routeEntryOk = true) ∧
    (∃ (t : Nat) (ch : Fin 130) (r : Request) (s₀ : State) (s : State) (g : Nat) (es : List Nat), Ready 0x0406 t ch r s₀ s ∧ routeArgs r.args = some (g, es) ∧ (g ≤ s.txn.routeGen ∨ es.all routeEntryOk = false)) ∧
    (∃ (t : Nat) (ch : Fin 130) (r : Request) (s₀ : State) (s : State) (b : Fin 4) (mask : Nat), Ready 0x0407 t ch r s₀ s ∧ parseArgs [1, 1] r.args = some [b.val, mask] ∧ bundleSetOk s [b.val, mask] = true) ∧
    (∃ (t : Nat) (ch : Fin 130) (r : Request) (s₀ : State) (s : State) (b : Fin 4) (mask : Nat), Ready 0x0407 t ch r s₀ s ∧ parseArgs [1, 1] r.args = some [b.val, mask] ∧ bundleSetOk s [b.val, mask] = false) :=
  ⟨⟨0, 0, (req 1024 (args [(1, 7), (1, 250), (1, 64)])), (taken 0 (req 1024 (args [(1, 7), (1, 250), (1, 64)])) (withPort 7 { Port.reset with link := { Link.reset with mode := 0 } } up)), _, 7, 250, 64, _, _, ⟨rfl, by decide +kernel⟩, by decide +kernel, by decide +kernel, by decide +kernel, rfl, by decide +kernel, someGet (by decide +kernel)⟩,
   ⟨0, 0, (req 1024 (args [(1, 7), (1, 250), (1, 64)])), (taken 0 (req 1024 (args [(1, 7), (1, 250), (1, 64)])) { (withPort 7 { Port.reset with link := { Link.reset with mode := 0 } } up) with ports := Vector.ofFn fun p => if p = 7 then { Port.reset with link := { Link.reset with mode := 0 } } else { port0 with phys := { port0.phys with grade := 250 } } }), _, 7, 250, 64, _, ⟨rfl, by decide +kernel⟩, by decide +kernel, by decide +kernel, by decide +kernel, rfl, by decide +kernel, by decide +kernel⟩,
   ⟨0, 0, (req 1024 (args [(1, 7), (1, 250), (1, 64)])), (taken 0 (req 1024 (args [(1, 7), (1, 250), (1, 64)])) up), _, 7, 250, 64, _, ⟨rfl, by decide +kernel⟩, by decide +kernel, by decide +kernel, by decide +kernel, rfl, by decide +kernel⟩,
   ⟨0, 0, (req 1025 (args [(1, 7), (1, 8)])), (taken 0 (req 1025 (args [(1, 7), (1, 8)])) (withPort 7 (portP fun x => withLane 8 (fun r => { r with role := .spareReady, partner := 8 }) id { x with st := 8  }) up)), _, 7, 8, _, ⟨rfl, by decide +kernel⟩, by decide +kernel, by decide +kernel, by decide +kernel, by decide +kernel, by decide +kernel, by decide +kernel, rfl, by decide +kernel⟩,
   ⟨0, 0, (req 1025 (args [(1, 7), (1, 8)])), (taken 0 (req 1025 (args [(1, 7), (1, 8)])) (withPort 7 (portP fun x => withLane 0 (fun r => { r with role := .spareReady, partner := 0 }) id (withLane 8 (fun r => { r with role := .data, partner := 8 }) id x)) up)), _, 7, 8, _, ⟨rfl, by decide +kernel⟩, by decide +kernel, by decide +kernel, by decide +kernel, by decide +kernel, by decide +kernel, by decide +kernel, rfl, by decide +kernel, by decide +kernel⟩,
   ⟨0, 0, (req 1025 (args [(1, 7), (1, 8)])), (taken 0 (req 1025 (args [(1, 7), (1, 8)])) (withPort 7 (portP fun x => withLane 8 (fun r => { r with role := .retrain, partner := 8 }) id { x with st := 8  }) up)), _, 7, 8, ⟨rfl, by decide +kernel⟩, by decide +kernel, by decide +kernel, Or.inl (by decide +kernel)⟩,
   ⟨0, 0, (req 1025 (args [(1, 7), (1, 8)])), (taken 0 (req 1025 (args [(1, 7), (1, 8)])) (withPort 7 (portP fun x => withLane 8 (fun r => { r with role := .data, partner := 8 }) id { x with st := 8  }) up)), _, 7, 8, ⟨rfl, by decide +kernel⟩, by decide +kernel, by decide +kernel, by decide +kernel, by decide +kernel, by decide +kernel, Or.inl ⟨by decide +kernel, by decide +kernel⟩⟩,
   ⟨0, 0, (req 1025 (args [(1, 7), (1, 8)])), (taken 0 (req 1025 (args [(1, 7), (1, 8)])) up), _, 7, 8, ⟨rfl, by decide +kernel⟩, by decide +kernel, by decide +kernel⟩,
   ⟨0, 0, (req 1026 (args [(1, 7)])), (taken 0 (req 1026 (args [(1, 7)])) (withPort 7 port0 up)), _, 7, ⟨rfl, by decide +kernel⟩, by decide +kernel⟩,
   ⟨0, 0, (req 1027 (args [(1, 7)])), (taken 0 (req 1027 (args [(1, 7)])) (withPort 7 { port0 with phys := { port0.phys with rx := vset port0.phys.rx 8 { RxLane.reset with role := .spareReady, position := 8, partner := 8 } } } up)), _, 7, ⟨rfl, by decide +kernel⟩, by decide +kernel⟩,
   ⟨0, 0, (req 1028 (args [(1, 7), (1, 0), (2, 0xFFFF), (4, 0)])), (taken 0 (req 1028 (args [(1, 7), (1, 0), (2, 0xFFFF), (4, 0)])) up), _, 7, 0, 0xFFFF, 0, _, ⟨rfl, by decide +kernel⟩, by decide +kernel, by decide +kernel, rfl, by decide +kernel⟩,
   ⟨0, 0, (req 1028 (args [(1, 7), (1, 0), (2, 0xFFFF), (4, 0)])), (taken 0 (req 1028 (args [(1, 7), (1, 0), (2, 0xFFFF), (4, 0)])) (withPort 7 port0 up)), _, 7, 0, 0xFFFF, 0, _, ⟨rfl, by decide +kernel⟩, by decide +kernel, by decide +kernel, rfl, by decide +kernel, by decide +kernel, by decide +kernel⟩,
   ⟨0, 0, (req 1029 (args [(1, 7)])), (taken 0 (req 1029 (args [(1, 7)])) (withPort 7 { port0 with link := { port0.link with mode := 2, txKey := some { key := zeros 32, iv := zeros 12, epoch := 0 }, rxKey := some { key := zeros 32, iv := zeros 12, epoch := 0 } } } up)), _, 7, ⟨rfl, by decide +kernel⟩, by decide +kernel, by decide +kernel, by decide +kernel, by decide +kernel, by decide +kernel⟩,
   ⟨0, 0, (req 1029 (args [(1, 7)])), (taken 0 (req 1029 (args [(1, 7)])) (withPort 7 port0 up)), _, 7, ⟨rfl, by decide +kernel⟩, by decide +kernel, by decide +kernel⟩,
   ⟨0, 0, (req 1030 (leBytes 4 1 ++ leBytes 2 1 ++ leBytes 4 0x0F0FFC00)), (taken 0 (req 1030 (leBytes 4 1 ++ leBytes 2 1 ++ leBytes 4 0x0F0FFC00)) up), _, 1, [0x0F0FFC00], ⟨rfl, by decide +kernel⟩, by decide +kernel, by decide +kernel, by decide +kernel⟩,
   ⟨0, 0, (req 1030 (leBytes 4 0 ++ leBytes 2 1 ++ leBytes 4 0x0F0FFC00)), (taken 0 (req 1030 (leBytes 4 0 ++ leBytes 2 1 ++ leBytes 4 0x0F0FFC00)) up), _, 0, [0x0F0FFC00], ⟨rfl, by decide +kernel⟩, by decide +kernel, Or.inl (by decide +kernel)⟩,
   ⟨0, 0, (req 1031 (args [(1, 3), (1, 3)])), (taken 0 (req 1031 (args [(1, 3), (1, 3)])) up), _, 3, 3, ⟨rfl, by decide +kernel⟩, by decide +kernel, by decide +kernel⟩,
   ⟨0, 0, (req 1031 (args [(1, 3), (1, 128)])), (taken 0 (req 1031 (args [(1, 3), (1, 128)])) (modTxn (fun x => { x with bundles := vset x.bundles 0 128 }) up)), _, 3, 128, ⟨rfl, by decide +kernel⟩, by decide +kernel, by decide +kernel⟩⟩

/-- States and operands that meet the hypotheses of GroupCommandsComplete, clause by clause. -/
theorem wit_GroupCommandsComplete :
    (∃ (t : Nat) (ch : Fin 130) (r : Request) (s₀ : State) (s : State) (n : Nat) (alg : Nat) (m : Nat) (table : Nat) (b : Bytes) (s' : State), Ready 0x0500 t ch r s₀ s ∧ parseArgs [1, 1, 2, 8] r.args = some [n, alg, m, table] ∧ ownPart s n = true ∧ alg ≤ 1 ∧ 2 ≤ m ∧ m ≤ 1024 ∧ allocated s n table (8 + 4 * m) = true ∧ readTableOf n table (8 + 4 * m) s = (stOk, b, s')) ∧
    (∃ (t : Nat) (ch : Fin 130) (r : Request) (s₀ : State) (s : State) (k : Nat) (g : Group), Ready 0x0501 t ch r s₀ s ∧ parseArgs [2] r.args = some [k] ∧ slotArg s ch [k] = true ∧ slotOf s k = some g ∧ g.op = none) ∧
    (∃ (t : Nat) (ch : Fin 130) (r : Request) (s₀ : State) (s : State) (k : Nat) (g : Group), Ready 0x0502 t ch r s₀ s ∧ parseArgs [2] r.args = some [k] ∧ slotArg s ch [k] = true ∧ slotOf s k = some g) ∧
    (∃ (s : State) (n : Nat) (alg : Nat) (m : Nat) (k : Nat) (b : Bytes) (g : Group), memberTableOk b m = true ∧ s.txn.chip.isSome = true ∧ ((List.range m).map (memberAt b)).findIdx (fun e => s.txn.chip == some e.1 && e.2 == n) < m ∧ tfree s.col.slots 0 256 = some k ∧ slotById s (groupId alg m b) = none ∧ g = { part := n, algorithm := alg, id := groupId alg m b, members := (List.range m).map (memberAt b), self := ((List.range m).map (memberAt b)).findIdx (fun e => s.txn.chip == some e.1 && e.2 == n), opSeq := 0, broken := none, laggard := 0xFFFF, laggardNs := 0, segsIn := 0, lastGen := [], firstAt := [], op := none }) :=
  ⟨⟨0, 0, (req 1280 (args [(1, 5), (1, 1), (2, 2), (8, 0)])), (taken 0 (req 1280 (args [(1, 5), (1, 1), (2, 2), (8, 0)])) (put 0 (leBytes 8 9 ++ leBytes 2 1 ++ [5, 0] ++ leBytes 2 2 ++ [127, 0]) (inGrove port0 (withPart up)))), _, 5, 1, 2, 0, _, _, ⟨rfl, by decide +kernel⟩, by decide +kernel, by decide +kernel, by decide +kernel, by decide +kernel, by decide +kernel, by decide +kernel, tripleEq (by decide +kernel)⟩,
   ⟨0, 0, (req 1281 (args [(2, 255)])), (taken 0 (req 1281 (args [(2, 255)])) (modCol (fun c => { c with slots := [(255, { part := 5, algorithm := 0, id := 77, members := [(1, 5), (2, 127)], self := 0, opSeq := 0, broken := none, laggard := 0xFFFF, laggardNs := 0, segsIn := 0, lastGen := [], firstAt := [], op := none })] }) (withPart up))), _, 255, _, ⟨rfl, by decide +kernel⟩, by decide +kernel, by decide +kernel, someGet (by decide +kernel), by decide +kernel⟩,
   ⟨0, 0, (req 1282 (args [(2, 255)])), (taken 0 (req 1282 (args [(2, 255)])) (modCol (fun c => { c with slots := [(255, { part := 5, algorithm := 0, id := 77, members := [(1, 5), (2, 127)], self := 0, opSeq := 0, broken := none, laggard := 0xFFFF, laggardNs := 0, segsIn := 0, lastGen := [], firstAt := [], op := none })] }) (withPart up))), _, 255, _, ⟨rfl, by decide +kernel⟩, by decide +kernel, by decide +kernel, someGet (by decide +kernel)⟩,
   ⟨(inGrove port0 (withPart up)), 5, 1, 2, 0, (leBytes 8 9 ++ leBytes 2 1 ++ [5, 0] ++ leBytes 2 2 ++ [127, 0]), _, by decide +kernel, by decide +kernel, by decide +kernel, by decide +kernel, by decide +kernel, rfl⟩⟩

/-- States and operands that meet the hypotheses of TokenCommandsComplete, clause by clause. -/
theorem wit_TokenCommandsComplete :
    (∃ (t : Nat) (ch : Fin 130) (r : Request) (s₀ : State) (s : State) (n : Nat) (o : Nat) (len : Nat) (b : Bytes) (s' : State) (i : Image), Ready 0x0600 t ch r s₀ s ∧ parseArgs [1, 8, 8] r.args = some [n, o, len] ∧ ownPart s n = true ∧ len ≤ 0x4000000 ∧ allocated s n o len = true ∧ readTableOf n o len s = (stOk, b, s') ∧ i = { part := n, vocab := (takeTkeId s').1, kind := 0, offset := o, length := len, hdr := b.take 64 } ∧ vocabOk b = true ∧ (s'.tke.vocabs.filter fun e => e.2.part == n).length < 4 ∧ s'.tke.vocabs.length < 64) ∧
    (∃ (t : Nat) (ch : Fin 130) (r : Request) (s₀ : State) (s : State) (v : Nat) (kind : Nat) (o : Nat) (len : Nat) (x : Image) (y : Image) (i : Image) (b : Bytes) (s₁ : State) (s' : State), Ready 0x0601 t ch r s₀ s ∧ parseArgs [4, 1, 8, 8] r.args = some [v, kind, o, len] ∧ vocabArg s ch v = some x ∧ kind ≤ 1 ∧ len ≤ 0x10000000 ∧ allocated s x.part o len = true ∧ readHdr x s = (stOk, y, s₁) ∧ readTableOf x.part o len s₁ = (stOk, b, s') ∧ grammarOk kind b y.hdr = true ∧ i = { part := y.part, vocab := v, kind := kind, offset := o, length := len, hdr := b.take 64 } ∧ s'.tke.grammars.length < 256) ∧
    (∃ (t : Nat) (ch : Fin 130) (r : Request) (s₀ : State) (s : State) (g : Nat) (x : Image), Ready 0x0602 t ch r s₀ s ∧ parseArgs [4] r.args = some [g] ∧ grammarOf s g = some x ∧ mayName ch x.part = true ∧ (s.tke.streams.any fun e => e.2.grammar == g) = false) ∧
    (∃ (t : Nat) (ch : Fin 130) (r : Request) (s₀ : State) (s : State) (v : Nat) (g : Nat) (mode : Nat) (k : Nat) (o : Nat) (seed : Nat) (x : Image) (b : Bytes) (s' : State), Ready 0x0603 t ch r s₀ s ∧ parseArgs [4, 4, 1, 1, 8, 8] r.args = some [v, g, mode, k, o, seed] ∧ vocabArg s ch v = some x ∧ (g ≠ 0 → mode ≤ 1 ∧ ∃ y : Image, grammarOf s g = some y ∧ y.vocab = v) ∧ k ≤ 16 ∧ (k ≠ 0 → allocated s x.part o (136 * k) = true ∧ readTableOf x.part o (136 * k) s = (stOk, b, s')) ∧ (k = 0 → b = [] ∧ s' = s)) ∧
    (∃ (t : Nat) (ch : Fin 130) (r : Request) (s₀ : State) (s : State) (id : Nat) (x : Stream), Ready 0x0604 t ch r s₀ s ∧ parseArgs [2] r.args = some [id] ∧ strm s id = some x ∧ mayName ch x.part = true ∧ streamNamed s id = false) :=
  ⟨⟨0, 0, (req 1536 (args [(1, 5), (8, 0), (8, 4176)])), (taken 0 (req 1536 (args [(1, 5), (8, 0), (8, 4176)])) (put 0 vocImg (withPart up))), _, 5, 0, 4176, vocImg, _, _, ⟨rfl, by decide +kernel⟩, by decide +kernel, by decide +kernel, by decide +kernel, by decide +kernel, tripleEq2 (by decide +kernel) (eqb_sound (by decide +kernel)), rfl, voc_ok, by decide +kernel, by decide +kernel⟩,
   ⟨0, 0, (req 1537 (args [(4, 1), (1, 0), (8, 0x2000), (8, 152)])), (taken 0 (req 1537 (args [(4, 1), (1, 0), (8, 0x2000), (8, 152)])) (withTokens strm0 up)), _, 1, 0, 0x2000, 152, _, _, _, _, _, _, ⟨rfl, by decide +kernel⟩, by decide +kernel, someGet (by decide +kernel), by decide +kernel, by decide +kernel, by decide +kernel, tripleEq (by decide +kernel), tripleEq (by decide +kernel), by decide +kernel, rfl, by decide +kernel⟩,
   ⟨0, 0, (req 1538 (args [(4, 2)])), (taken 0 (req 1538 (args [(4, 2)])) (modTke (fun k => { k with streams := [] }) (withTokens strm0 up))), _, 2, _, ⟨rfl, by decide +kernel⟩, by decide +kernel, someGet (by decide +kernel), by decide +kernel, by decide +kernel⟩,
   ⟨0, 0, (req 1539 (args [(4, 1), (4, 0), (1, 0), (1, 0), (8, 0), (8, 9)])), (taken 0 (req 1539 (args [(4, 1), (4, 0), (1, 0), (1, 0), (8, 0), (8, 9)])) (withTokens strm0 up)), _, 1, 0, 0, 0, 0, 9, _, [], _, ⟨rfl, by decide +kernel⟩, by decide +kernel, someGet (by decide +kernel), (fun h => absurd rfl h), by decide +kernel, (fun h => absurd rfl h), (fun _ => ⟨rfl, rfl⟩)⟩,
   ⟨0, 0, (req 1540 (args [(2, 4095)])), (taken 0 (req 1540 (args [(2, 4095)])) (withTokens strm0 up)), _, 4095, _, ⟨rfl, by decide +kernel⟩, by decide +kernel, someGet (by decide +kernel), by decide +kernel, by decide +kernel⟩⟩

/-- States and operands that meet the hypotheses of GroveAndTwinCommandsComplete, clause by clause. -/
theorem wit_GroveAndTwinCommandsComplete :
    (∃ (t : Nat) (ch : Fin 130) (r : Request) (s₀ : State) (s : State) (c : Nat) (trunk : Nat) (s₁ : State), Ready 0x0700 t ch r s₀ s ∧ parseArgs [2, 2, 4] r.args = some [c, trunk, s.txn.routeGen] ∧ c < 1024 ∧ trunk < 1024 ∧ (s.txn.chip = none ∨ s.txn.chip = some c) ∧ s₁ = takeChipId c trunk s ∧ isTrunk s₁ = false) ∧
    (∃ (t : Nat) (ch : Fin 130) (r : Request) (s₀ : State) (s : State) (c : Nat) (trunk : Nat) (s₁ : State), Ready 0x0700 t ch r s₀ s ∧ parseArgs [2, 2, 4] r.args = some [c, trunk, s.txn.routeGen] ∧ c < 1024 ∧ trunk < 1024 ∧ (s.txn.chip = none ∨ s.txn.chip = some c) ∧ s₁ = takeChipId c trunk s ∧ isTrunk s₁ = true) ∧
    (∃ (t : Nat) (ch : Fin 130) (r : Request) (s₀ : State) (s : State) (s₁ : State) (s₂ : State) (s₃ : State), Ready 0x0701 t ch r s₀ s ∧ noArgs r.args = some () ∧ s₁ = (if s.txn.chip.isSome then sendRouted 0x84 s.grv.trunk 0 (leBytes 8 s.fuse.serial) s else s) ∧ s₂ = synthesiseAll stNoRoute (fun _ => true) s₁ ∧ s₃ = s₂.col.slots.foldl (fun s e => breakGroup e.1 stNoRoute s) s₂) ∧
    (∃ (t : Nat) (ch : Fin 130) (r : Request) (s₀ : State) (s : State) (c : Nat) (st : Nat) (g : Nat), Ready 0x0702 t ch r s₀ s ∧ parseArgs [2, 1, 1] r.args = some [c, st, g] ∧ c < 1024 ∧ st ≤ 2 ∧ s.txn.chip ≠ some c) ∧
    (∃ (t : Nat) (ch : Fin 130) (r : Request) (s₀ : State) (s : State) (c : Nat) (key : Nat), Ready 0x0703 t ch r s₀ s ∧ parseArgs [2, 4] r.args = some [c, key] ∧ c ≠ 0xFFFF ∧ pairOk s c key = true ∧ (s.twn.st = .none ∨ s.twn.st = .promoted)) ∧
    (∃ (t : Nat) (ch : Fin 130) (r : Request) (s₀ : State) (s : State) (c : Nat) (key : Nat), Ready 0x0703 t ch r s₀ s ∧ parseArgs [2, 4] r.args = some [c, key] ∧ c = 0xFFFF) ∧
    (∃ (t : Nat) (ch : Fin 130) (r : Request) (s₀ : State) (s : State) (n : Nat) (mode : Nat) (lag : Nat) (o : Nat) (len : Nat) (x : Region), Ready 0x0704 t ch r s₀ s ∧ parseArgs [1, 1, 2, 8, 8] r.args = some [n, mode, lag, o, len] ∧ mirrorSetOk s [n, mode, lag, o, len] = true ∧ openingOf s ch = false ∧ len ≠ 0 ∧ sumOf ((sourceRegions s).map (·.length)) + len ≤ 0x400000000 ∧ (sourceRegions s).length < 64 ∧ x = Region.make (regionId s s.twn.nextRegion) n lag o len false (mode == 1)) ∧
    (∃ (t : Nat) (ch : Fin 130) (r : Request) (s₀ : State) (s : State) (n : Nat) (mode : Nat) (lag : Nat) (o : Nat) (len : Nat), Ready 0x0704 t ch r s₀ s ∧ parseArgs [1, 1, 2, 8, 8] r.args = some [n, mode, lag, o, len] ∧ mirrorSetOk s [n, mode, lag, o, len] = true ∧ openingOf s ch = false ∧ len = 0) ∧
    (∃ (t : Nat) (ch : Fin 130) (r : Request) (s₀ : State) (s : State), Ready 0x0705 t ch r s₀ s ∧ noArgs r.args = some () ∧ s.twn.st = .paired) ∧
    (∃ (t : Nat) (ch : Fin 130) (r : Request) (s₀ : State) (s : State) (s₁ : State), Ready 0x0705 t ch r s₀ s ∧ noArgs r.args = some () ∧ (s.twn.st = .lost ∨ s.twn.st = .graftDown) ∧ s₁ = (if s.twn.st = .graftDown then sendStale (failover s) else failover s)) :=
  ⟨⟨0, 0, (req 1792 (args [(2, 1023), (2, 0), (4, 0)])), (taken 0 (req 1792 (args [(2, 1023), (2, 0), (4, 0)])) up), _, 1023, 0, _, ⟨rfl, by decide +kernel⟩, by decide +kernel, by decide +kernel, by decide +kernel, Or.inl (by decide +kernel), rfl, by decide +kernel⟩,
   ⟨0, 0, (req 1792 (args [(2, 1023), (2, 1023), (4, 0)])), (taken 0 (req 1792 (args [(2, 1023), (2, 1023), (4, 0)])) up), _, 1023, 1023, _, ⟨rfl, by decide +kernel⟩, by decide +kernel, by decide +kernel, by decide +kernel, Or.inl (by decide +kernel), rfl, by decide +kernel⟩,
   ⟨0, 0, (req 1793 []), (taken 0 (req 1793 []) (inGrove port0 up)), _, _, _, _, ⟨rfl, by decide +kernel⟩, by decide +kernel, rfl, rfl, rfl⟩,
   ⟨0, 0, (req 1794 (args [(2, 1023), (1, 2), (1, 255)])), (taken 0 (req 1794 (args [(2, 1023), (1, 2), (1, 255)])) (inGrove port0 up)), _, 1023, 2, 255, ⟨rfl, by decide +kernel⟩, by decide +kernel, by decide +kernel, by decide +kernel, by decide +kernel⟩,
   ⟨0, 0, (req 1795 (args [(2, 2), (4, 7)])), (taken 0 (req 1795 (args [(2, 2), (4, 7)])) (withGraft (modHwd (fun h => { h with reg := [(7, { blob := zeros 6 ++ leBytes 2 1 ++ zeros 12 ++ leBytes 4 16 ++ zeros 72, chain := [], channel := 0, uses := 0 })] }) up))), _, 2, 7, ⟨rfl, by decide +kernel⟩, by decide +kernel, by decide +kernel, by decide +kernel, by decide +kernel⟩,
   ⟨0, 0, (req 1795 (args [(2, 0xFFFF), (4, 0)])), (taken 0 (req 1795 (args [(2, 0xFFFF), (4, 0)])) (paired up)), _, 0xFFFF, 0, ⟨rfl, by decide +kernel⟩, by decide +kernel, by decide +kernel⟩,
   ⟨0, 0, (req 1796 (args [(1, 5), (1, 1), (2, 256), (8, 0), (8, 0x400000)])), (taken 0 (req 1796 (args [(1, 5), (1, 1), (2, 256), (8, 0), (8, 0x400000)])) (paired (withPart up))), _, 5, 1, 256, 0, 0x400000, _, ⟨rfl, by decide +kernel⟩, by decide +kernel, by decide +kernel, by decide +kernel, by decide +kernel, by decide +kernel, by decide +kernel, rfl⟩,
   ⟨0, 0, (req 1796 (args [(1, 5), (1, 1), (2, 256), (8, 0), (8, 0)])), (taken 0 (req 1796 (args [(1, 5), (1, 1), (2, 256), (8, 0), (8, 0)])) (mirrored (region0 false) up)), _, 5, 1, 256, 0, 0, ⟨rfl, by decide +kernel⟩, by decide +kernel, by decide +kernel, by decide +kernel, by decide +kernel⟩,
   ⟨0, 0, (req 1797 []), (taken 0 (req 1797 []) (paired up)), _, ⟨rfl, by decide +kernel⟩, by decide +kernel, by decide +kernel⟩,
   ⟨0, 0, (req 1797 []), (taken 0 (req 1797 []) { paired up with twn := { (paired up).twn with st := .lost } }), _, _, ⟨rfl, by decide +kernel⟩, by decide +kernel, by decide +kernel, rfl⟩⟩

/-- States and operands that meet the hypotheses of ObservationCommandsComplete, clause by clause. -/
theorem wit_ObservationCommandsComplete :
    (∃ (t : Nat) (ch : Fin 130) (r : Request) (s₀ : State) (s : State) (b : Nat) (mode : Nat) (mask : Nat) (sel : List Nat), Ready 0x0800 t ch r s₀ s ∧ counterArgs r.args = some (b, mode, mask, sel) ∧ b < 64 ∧ mode ≤ 2 ∧ sel.all selectOk = true) ∧
    (∃ (t : Nat) (ch : Fin 130) (r : Request) (s₀ : State) (s : State) (i : Nat) (on : Nat) (k : Nat) (rest : Nat), Ready 0x0801 t ch r s₀ s ∧ parseArgs [1, 1, 2] r.args = some [i, on, k] ∧ tracedIsland i = true ∧ 8 ≤ k ∧ k ≤ 16 ∧ rest = (if s.obs.traceMask.testBit i = true then s.obs.traceMask - 2 ^ i else s.obs.traceMask)) ∧
    (∃ (t : Nat) (ch : Fin 130) (r : Request) (s₀ : State) (s : State) (id : Nat) (scope : Nat) (map : Nat), Ready 0x0802 t ch r s₀ s ∧ parseArgs [4, 1, 8] r.args = some [id, scope, map] ∧ cutArmOk s [id, scope, map] = true ∧ s.obs.cut.st = .idle) ∧
    (∃ (t : Nat) (ch : Fin 130) (r : Request) (s₀ : State) (s : State) (id : Nat), Ready 0x0803 t ch r s₀ s ∧ parseArgs [4] r.args = some [id] ∧ (s.obs.cut.st = .firing ∨ s.obs.cut.st = .taken) ∧ s.obs.cut.id = id) ∧
    (∃ (t : Nat) (ch : Fin 130) (r : Request) (s₀ : State) (s : State) (id : Nat), Ready 0x0803 t ch r s₀ s ∧ parseArgs [4] r.args = some [id] ∧ s.obs.cut.st = .armed ∧ s.obs.cut.id = id) ∧
    (∃ (t : Nat) (ch : Fin 130) (r : Request) (s₀ : State) (s : State) (u : Nat) (first : Nat) (count : Nat), Ready 0x0804 t ch r s₀ s ∧ parseArgs [1, 2, 2] r.args = some [u, first, count] ∧ u ≤ 81 ∧ 1 ≤ count ∧ count ≤ 128 ∧ first + count ≤ 256) ∧
    (∃ (t : Nat) (ch : Fin 130) (r : Request) (s₀ : State) (s : State) (mib : Nat), Ready 0x0805 t ch r s₀ s ∧ parseArgs [4] r.args = some [mib] ∧ 256 ≤ mib ∧ mib ≤ 4096) :=
  ⟨⟨0, 0, (req 2048 ([63, 2] ++ leBytes 2 0xFFFF ++ (List.replicate 16 (leBytes 4 21)).flatten)), (taken 0 (req 2048 ([63, 2] ++ leBytes 2 0xFFFF ++ (List.replicate 16 (leBytes 4 21)).flatten)) up), _, 63, 2, 0xFFFF, (List.replicate 16 21), ⟨rfl, by decide +kernel⟩, by decide +kernel, by decide +kernel, by decide +kernel, by decide +kernel⟩,
   ⟨0, 0, (req 2049 (args [(1, 33), (1, 1), (2, 16)])), (taken 0 (req 2049 (args [(1, 33), (1, 1), (2, 16)])) up), _, 33, 1, 16, _, ⟨rfl, by decide +kernel⟩, by decide +kernel, by decide +kernel, by decide +kernel, by decide +kernel, rfl⟩,
   ⟨0, 0, (req 2050 (args [(4, 9), (1, 0), (8, 0)])), (taken 0 (req 2050 (args [(4, 9), (1, 0), (8, 0)])) up), _, 9, 0, 0, ⟨rfl, by decide +kernel⟩, by decide +kernel, by decide +kernel, by decide +kernel⟩,
   ⟨0, 0, (req 2051 (args [(4, 9)])), (taken 0 (req 2051 (args [(4, 9)])) (modCut (fun c => { c with st := .taken, id := 9 }) up)), _, 9, ⟨rfl, by decide +kernel⟩, by decide +kernel, by decide +kernel, by decide +kernel⟩,
   ⟨0, 0, (req 2051 (args [(4, 9)])), (taken 0 (req 2051 (args [(4, 9)])) (modCut (fun c => { c with st := .armed, id := 9 }) up)), _, 9, ⟨rfl, by decide +kernel⟩, by decide +kernel, by decide +kernel, by decide +kernel⟩,
   ⟨0, 0, (req 2052 (args [(1, 81), (2, 128), (2, 128)])), (taken 0 (req 2052 (args [(1, 81), (2, 128), (2, 128)])) up), _, 81, 128, 128, ⟨rfl, by decide +kernel⟩, by decide +kernel, by decide +kernel, by decide +kernel, by decide +kernel, by decide +kernel⟩,
   ⟨0, 0, (req 2053 (args [(4, 4096)])), (taken 0 (req 2053 (args [(4, 4096)])) up), _, 4096, ⟨rfl, by decide +kernel⟩, by decide +kernel, by decide +kernel, by decide +kernel⟩⟩

/-- States and operands that meet the hypotheses of FaultCommandsComplete, clause by clause. -/
theorem wit_FaultCommandsComplete :
    (∃ (t : Nat) (ch : Fin 130) (r : Request) (s₀ : State) (s : State) (b : Fin 64), Ready 0x0900 t ch r s₀ s ∧ parseArgs [1] r.args = some [b.val] ∧ (bough s b).st = .active ∧ thas b.val s.cmb.boughPending = false ∧ s.cmb.crownPending = none ∧ s.cmb.devicePending = none) ∧
    (∃ (t : Nat) (ch : Fin 130) (r : Request) (s₀ : State) (s : State), Ready 0x0901 t ch r s₀ s ∧ noArgs r.args = some () ∧ s.cmb.crownPending = none ∧ s.cmb.devicePending = none) ∧
    (∃ (t : Nat) (ch : Fin 130) (r : Request) (s₀ : State) (s : State) (ms : Nat), Ready 0x0902 t ch r s₀ s ∧ parseArgs [4] r.args = some [ms] ∧ ms ≤ 1000) ∧
    (∃ (t : Nat) (ch : Fin 130) (r : Request) (s₀ : State) (s : State) (crown : Nat) (bough_ : Nat) (window : Nat), Ready 0x0903 t ch r s₀ s ∧ parseArgs [2, 2, 4] r.args = some [crown, bough_, window] ∧ crown ≤ 16 ∧ bough_ ≤ 64 ∧ 60 ≤ window ∧ window ≤ 86400) ∧
    (∃ (t : Nat) (ch : Fin 130) (r : Request) (s₀ : State) (s : State) (first : Nat) (count : Nat), Ready 0x0904 t ch r s₀ s ∧ parseArgs [4, 2] r.args = some [first, count] ∧ 1 ≤ count ∧ count ≤ 126) ∧
    (∃ (t : Nat) (ch : Fin 130) (r : Request) (s₀ : State) (s : State) (b : Nat) (off : Nat) (len : Nat) (base : Nat) (size : Nat), Ready 0x0905 t ch r s₀ s ∧ parseArgs [1, 4, 2] r.args = some [b, off, len] ∧ sampleObject s b = some (base, size) ∧ len ≤ 4032 ∧ off + len ≤ size ∧ size ≤ 2 ^ 32) ∧
    (∃ (t : Nat) (ch : Fin 130) (r : Request) (s₀ : State) (s : State) (b : Fin 64) (n : Fin 128) (q : Fin 4), Ready 0x0906 t ch r s₀ s ∧ parseArgs [1, 4] r.args = some [b.val, 128 * q.val + n.val] ∧ (bough s b).st = .free ∧ (part s n.val).isSome = true ∧ (queue s n.val q.val).isSome = true ∧ s.cmb.quarantine = none) ∧
    (∃ (t : Nat) (ch : Fin 130) (r : Request) (s₀ : State) (s : State), Ready 0x0907 t ch r s₀ s ∧ noArgs r.args = some () ∧ s.cmb.outOfService = false ∧ (∀ b : Fin 64, (bough s b).st ≠ .retired)) :=
  ⟨⟨0, 0, (req 2304 (args [(1, 0)])), (taken 0 (req 2304 (args [(1, 0)])) (withPart up)), _, 0, ⟨rfl, by decide +kernel⟩, by decide +kernel, by decide +kernel, by decide +kernel, by decide +kernel, by decide +kernel⟩,
   ⟨0, 0, (req 2305 []), (taken 0 (req 2305 []) up), _, ⟨rfl, by decide +kernel⟩, by decide +kernel, by decide +kernel, by decide +kernel⟩,
   ⟨0, 0, (req 2306 (args [(4, 1000)])), (taken 0 (req 2306 (args [(4, 1000)])) up), _, 1000, ⟨rfl, by decide +kernel⟩, by decide +kernel, by decide +kernel⟩,
   ⟨0, 0, (req 2307 (args [(2, 16), (2, 64), (4, 86400)])), (taken 0 (req 2307 (args [(2, 16), (2, 64), (4, 86400)])) up), _, 16, 64, 86400, ⟨rfl, by decide +kernel⟩, by decide +kernel, by decide +kernel, by decide +kernel, by decide +kernel, by decide +kernel⟩,
   ⟨0, 0, (req 2308 (args [(4, 0), (2, 126)])), (taken 0 (req 2308 (args [(4, 0), (2, 126)])) up), _, 0, 126, ⟨rfl, by decide +kernel⟩, by decide +kernel, by decide +kernel, by decide +kernel⟩,
   ⟨0, 0, (req 2309 (args [(1, 63), (4, 0x1000), (2, 4032)])), (taken 0 (req 2309 (args [(1, 63), (4, 0x1000), (2, 4032)])) up), _, 63, 0x1000, 4032, _, _, ⟨rfl, by decide +kernel⟩, by decide +kernel, somePair (by decide +kernel), by decide +kernel, by decide +kernel, by decide +kernel⟩,
   ⟨0, 0, (req 2310 (args [(1, 63), (4, 5)])), (taken 0 (req 2310 (args [(1, 63), (4, 5)])) (withQueue 0 0 [] (withPart up))), _, 63, 5, 0, ⟨rfl, by decide +kernel⟩, by decide +kernel, by decide +kernel, by decide +kernel, by decide +kernel, by decide +kernel⟩,
   ⟨0, 0, (req 2311 []), (taken 0 (req 2311 []) up), _, ⟨rfl, by decide +kernel⟩, by decide +kernel, by decide +kernel, by decide +kernel⟩⟩

/-- States and operands that meet the hypotheses of PowerAndFirmwareCommandsComplete, clause by clause. -/
theorem wit_PowerAndFirmwareCommandsComplete :
    (∃ (t : Nat) (ch : Fin 130) (r : Request) (s₀ : State) (s : State) (mw : Nat), Ready 0x0A00 t ch r s₀ s ∧ parseArgs [4] r.args = some [mw] ∧ 50000 ≤ mw ∧ mw ≤ 150000) ∧
    (∃ (t : Nat) (ch : Fin 130) (r : Request) (s₀ : State) (s : State) (target : Nat), Ready 0x0A01 t ch r s₀ s ∧ parseArgs [1] r.args = some [target] ∧ 1 ≤ target ∧ target ≤ 3 ∧ s.pwr.st = .run ∧ (target = 2 → napBusy s = false) ∧ (target = 3 → s.mm.parts = [])) ∧
    (∃ (t : Nat) (ch : Fin 130) (r : Request) (s₀ : State) (s : State) (target : Nat), Ready 0x0A01 t ch r s₀ s ∧ parseArgs [1] r.args = some [target] ∧ target = powerCode s.pwr.st ∧ target ≤ 3) ∧
    (∃ (t : Nat) (ch : Fin 130) (r : Request) (s₀ : State) (s : State), Ready 0x0A01 t ch r s₀ s ∧ parseArgs [1] r.args = some [0] ∧ (s.pwr.st = .quiet ∨ s.pwr.st = .nap)) ∧
    (∃ (t : Nat) (ch : Fin 130) (r : Request) (s₀ : State) (s : State), Ready 0x0A02 t ch r s₀ s ∧ noArgs r.args = some ()) ∧
    (∃ (t : Nat) (ch : Fin 130) (r : Request) (s₀ : State) (s : State) (off : Nat) (d : Bytes), Ready 0x0B00 t ch r s₀ s ∧ stageArgs r.args = some (off, d) ∧ off + d.length ≤ slotBytes ∧ off ≠ 0 ∧ s.boot.stagedAny = true ∧ off = s.boot.staged) ∧
    (∃ (t : Nat) (ch : Fin 130) (r : Request) (s₀ : State) (s : State) (d : Bytes), Ready 0x0B00 t ch r s₀ s ∧ stageArgs r.args = some (0, d) ∧ d.length ≤ slotBytes) ∧
    (∃ (t : Nat) (ch : Fin 130) (r : Request) (s₀ : State) (s : State), Ready 0x0B01 t ch r s₀ s ∧ noArgs r.args = some () ∧ slotResult s (stagingSlot s) false = 1) ∧
    (∃ (t : Nat) (ch : Fin 130) (r : Request) (s₀ : State) (s : State) (v : Nat), Ready 0x0B02 t ch r s₀ s ∧ parseArgs [1] r.args = some [v] ∧ s.fuse.rollback < v ∧ v ≤ s.boot.rollback ∧ s.boot.trial = false) ∧
    (∃ (t : Nat) (ch : Fin 130) (r : Request) (s₀ : State) (s : State) (first : Nat) (count : Nat) (oldest : Nat) (d : Nat) (skip : Nat), Ready 0x0B03 t ch r s₀ s ∧ parseArgs [4, 2] r.args = some [first, count] ∧ 1 ≤ count ∧ count ≤ 63 ∧ oldest = (s.root.refusals.head?.map (·.1)).getD s.root.refusalNext ∧ d = (first + 2 ^ 32 - oldest % 2 ^ 32) % 2 ^ 32 ∧ skip = (if d < 2 ^ 31 then d else 0)) :=
  ⟨⟨0, 0, (req 2560 (args [(4, 50000)])), (taken 0 (req 2560 (args [(4, 50000)])) up), _, 50000, ⟨rfl, by decide +kernel⟩, by decide +kernel, by decide +kernel, by decide +kernel⟩,
   ⟨0, 0, (req 2561 (args [(1, 3)])), (taken 0 (req 2561 (args [(1, 3)])) up), _, 3, ⟨rfl, by decide +kernel⟩, by decide +kernel, by decide +kernel, by decide +kernel, by decide +kernel, by decide +kernel, by decide +kernel⟩,
   ⟨0, 0, (req 2561 (args [(1, 0)])), (taken 0 (req 2561 (args [(1, 0)])) up), _, 0, ⟨rfl, by decide +kernel⟩, by decide +kernel, by decide +kernel, by decide +kernel⟩,
   ⟨0, 0, (req 2561 (args [(1, 0)])), (taken 0 (req 2561 (args [(1, 0)])) (modPwr (fun p => { p with st := .nap }) up)), _, ⟨rfl, by decide +kernel⟩, by decide +kernel, by decide +kernel⟩,
   ⟨0, 0, (req 2562 []), (taken 0 (req 2562 []) up), _, ⟨rfl, by decide +kernel⟩, by decide +kernel⟩,
   ⟨0, 0, (req 2816 (leBytes 4 32 ++ leBytes 4 4 ++ [1, 2, 3, 4])), (taken 0 (req 2816 (leBytes 4 32 ++ leBytes 4 4 ++ [1, 2, 3, 4])) { up with boot := { up.boot with stagedAny := true, staged := 32 } }), _, 32, [1, 2, 3, 4], ⟨rfl, by decide +kernel⟩, by decide +kernel, by decide +kernel, by decide +kernel, by decide +kernel, by decide +kernel⟩,
   ⟨0, 0, (req 2816 (leBytes 4 0 ++ leBytes 4 4 ++ [1, 2, 3, 4])), (taken 0 (req 2816 (leBytes 4 0 ++ leBytes 4 4 ++ [1, 2, 3, 4])) up), _, [1, 2, 3, 4], ⟨rfl, by decide +kernel⟩, by decide +kernel, by decide +kernel⟩,
   ⟨0, 0, (req 2817 []), (taken 0 (req 2817 []) (flashed 0x800000 up)), _, ⟨rfl, by decide +kernel⟩, by decide +kernel, by decide +kernel⟩,
   ⟨0, 0, (req 2818 (args [(1, 1)])), (taken 0 (req 2818 (args [(1, 1)])) { up with boot := { up.boot with rollback := 1 } }), _, 1, ⟨rfl, by decide +kernel⟩, by decide +kernel, by decide +kernel, by decide +kernel, by decide +kernel⟩,
   ⟨0, 0, (req 2819 (args [(4, 0), (2, 63)])), (taken 0 (req 2819 (args [(4, 0), (2, 63)])) up), _, 0, 63, _, _, _, ⟨rfl, by decide +kernel⟩, by decide +kernel, by decide +kernel, by decide +kernel, rfl, rfl, rfl⟩⟩

/-- States and operands that meet the hypotheses of CommandsNeedAcceptedRequests, clause by clause. -/
theorem wit_CommandsNeedAcceptedRequests :
    ∃ (t : Nat) (code : Nat) (ch : Fin 130) (i : Instr) (s : State), commandOf t ch code = some i ∧ (∀ r : Request, acceptedReq (s.at t) ch = some r → r.cmd ≠ code ∨ served (s.at t) ch = false ∨ withinLimit (s.at t) r = false) :=
  ⟨0, 6, 129, (.echo 0 129), up, by decide +kernel, (fun r hr => absurd hr (by rw [show acceptedReq (up.at 0) 129 = none from by decide +kernel]; exact fun h => nomatch h))⟩

/-- States and operands that meet the hypotheses of BusyCommandsChangeNothing, clause by clause. -/
theorem wit_BusyCommandsChangeNothing :
    ∃ (t : Nat) (code : Nat) (ch : Fin 130) (r : Request) (row : CmdRow) (i : Instr) (s₀ : State) (s : State), s = s₀.at t ∧ commandOf t ch code = some i ∧ cmdRow code = some row ∧ acceptedReq s ch = some r ∧ r.cmd = code ∧ served s ch = true ∧ withinLimit s r = true ∧ waitsFor s ch r row = false ∧ (row.needs && unitsAsleep s) = false ∧ openingOf s ch = false ∧ (r.ended || objectBusy s ch r row || (row.long && decide (16 ≤ (chan s ch).tickets.length)) || (row.cutBusy && s.obs.cut.st != .idle)) = true :=
  ⟨0, 0x900, 0, (req 0x900 (args [(1, 0)])), _, (.resetBough 0 0), (taken 0 (req 0x900 (args [(1, 0)])) (modCut (fun c => { c with st := .taken }) (withPart up))), _, rfl, by decide +kernel, someGet (by decide +kernel), by decide +kernel, by decide +kernel, by decide +kernel, by decide +kernel, by decide +kernel, by decide +kernel, by decide +kernel, by decide +kernel⟩

/-- States and operands that meet the hypotheses of CommandsWakeTheDevice, clause by clause. -/
theorem wit_CommandsWakeTheDevice :
    ∃ (t : Nat) (code : Nat) (ch : Fin 130) (r : Request) (row : CmdRow) (i : Instr) (s₀ : State) (s : State), s = s₀.at t ∧ commandOf t ch code = some i ∧ cmdRow code = some row ∧ acceptedReq s ch = some r ∧ r.cmd = code ∧ served s ch = true ∧ withinLimit s r = true ∧ waitsFor s ch r row = false ∧ row.needs = true ∧ unitsAsleep s = true ∧ openingOf s ch = false :=
  ⟨0, 0x500, 0, (req 0x500 []), _, (.groupCreate 0 0), (taken 0 (req 0x500 []) (modPwr (fun p => { p with st := .nap }) up)), _, rfl, by decide +kernel, someGet (by decide +kernel), by decide +kernel, by decide +kernel, by decide +kernel, by decide +kernel, by decide +kernel, by decide +kernel, by decide +kernel, by decide +kernel⟩

/-- States and operands that meet the hypotheses of ChannelEventsComplete, clause by clause. -/
theorem wit_ChannelEventsComplete :
    (∃ (t : Nat) (ch : Fin 130) (s₀ : State) (s : State) (s₁ : State), s = s₀.at t ∧ reaches s (chanRequester ch) = true ∧ (chan s ch).st = .idle ∧ s₁ = setChan ch { chan s ch with st := .posted, cur := some { t0 := s.now, since := s.now, bytes := Mem.read 0 (chan s ch).req 0 4096, refusal := none, tagKey := none, staged := none, ended := false } } s) ∧
    (∃ (t : Nat) (ch : Fin 130) (s₀ : State) (s : State) (both : Bool), s = s₀.at t ∧ reaches s (chanRequester ch) = true ∧ (chan s ch).st ≠ .idle ∧ (both = false ∨ (chan s ch).st ≠ .done)) ∧
    (∃ (t : Nat) (ch : Fin 130) (s₀ : State) (s : State), s = s₀.at t ∧ reaches s (chanRequester ch) = true ∧ (chan s ch).st = .done) ∧
    (∃ (t : Nat) (ch : Fin 130) (s₀ : State) (s : State), s = s₀.at t ∧ reaches s (chanRequester ch) = true ∧ (chan s ch).st ≠ .done) ∧
    (∃ (t : Nat) (ch : Fin 130) (s₀ : State) (s : State) (v : BitVec 32), s = s₀.at t ∧ reaches s (chanRequester ch) = true ∧ v.toNat < 64 ∧ (chan s ch).held = [] ∧ (v.toNat + 64 - (chan s ch).tail) % 64 ≤ ((chan s ch).head + 64 - (chan s ch).tail) % 64) ∧
    (∃ (t : Nat) (ch : Fin 130) (s₀ : State) (s : State) (v : BitVec 32), s = s₀.at t ∧ reaches s (chanRequester ch) = true ∧ (64 ≤ v.toNat ∨ ((chan s ch).head + 64 - (chan s ch).tail) % 64 < (v.toNat + 64 - (chan s ch).tail) % 64)) ∧
    (∃ (t : Nat) (ch : Fin 130) (s₀ : State) (s : State) (r : Request), s = s₀.at t ∧ (chan s ch).cur = some r ∧ (chan s ch).st = .taken ∧ r.refusal.isSome = true ∧ s.root.alive = true ∧ r.since + 500000 ≤ s.now ∧ s.now ≤ r.since + 505000) ∧
    (∃ (t : Nat) (ch : Fin 130) (s₀ : State) (s : State) (num : Nat) (k : Ticket) (status : Nat) (result : Bytes), s = s₀.at t ∧ findTicket s ch num = some k ∧ k.final = none ∧ served s ch = true ∧ s.now ≤ k.since + longLimitUs k.cmd * 1000 ∧ k.work = .planned status result) ∧
    (∃ (t : Nat) (ch : Fin 130) (s₀ : State) (s : State) (num : Nat) (k : Ticket) (h : Nat) (st : Staged), s = s₀.at t ∧ findTicket s ch num = some k ∧ k.final = none ∧ served s ch = true ∧ s.now ≤ k.since + longLimitUs k.cmd * 1000 ∧ k.work = .keyReplace h st) ∧
    (∃ (t : Nat) (ch : Fin 130) (s₀ : State) (s : State) (num : Nat) (k : Ticket) (n : Fin 128), s = s₀.at t ∧ findTicket s ch num = some k ∧ k.final = none ∧ served s ch = true ∧ s.now ≤ k.since + longLimitUs k.cmd * 1000 ∧ k.work = .destroy n) ∧
    (∃ (t : Nat) (ch : Fin 130) (s₀ : State) (s : State) (num : Nat) (k : Ticket) (target : Nat), s = s₀.at t ∧ findTicket s ch num = some k ∧ k.final = none ∧ served s ch = true ∧ s.now ≤ k.since + longLimitUs k.cmd * 1000 ∧ k.work = .power target) ∧
    (∃ (t : Nat) (ch : Fin 130) (s₀ : State) (s : State) (num : Nat) (k : Ticket) (b : Nat) (v : Nat) (c : Nat) (m : Nat), s = s₀.at t ∧ findTicket s ch num = some k ∧ k.final = none ∧ served s ch = true ∧ s.now ≤ k.since + longLimitUs k.cmd * 1000 ∧ k.work = .replay b v c m) ∧
    (∃ (t : Nat) (ch : Fin 130) (s₀ : State) (s : State) (num : Nat) (k : Ticket) (build : Nat), s = s₀.at t ∧ findTicket s ch num = some k ∧ k.final = none ∧ served s ch = true ∧ s.now ≤ k.since + longLimitUs k.cmd * 1000 ∧ k.work = .activate build) :=
  ⟨⟨0, 129, up, _, _, rfl, by decide +kernel, by decide +kernel, rfl⟩,
   ⟨0, 0, (at0 6 [] up), _, true, rfl, by decide +kernel, by decide +kernel, by decide +kernel⟩,
   ⟨0, 129, (setChan 129 { Chan.reset with st := .done } up), _, rfl, by decide +kernel, by decide +kernel⟩,
   ⟨0, 0, (at0 6 [] up), _, rfl, by decide +kernel, by decide +kernel⟩,
   ⟨0, 0, (setChan 0 { Chan.reset with tail := 63, head := 0 } up), _, 0, rfl, by decide +kernel, by decide +kernel, by decide +kernel, by decide +kernel⟩,
   ⟨0, 0, up, _, 64, rfl, by decide +kernel, by decide +kernel⟩,
   ⟨505000, 0, (taken 0 refused0 up), _, _, rfl, someGet (by decide +kernel), by decide +kernel, by decide +kernel, by decide +kernel, by decide +kernel, by decide +kernel⟩,
   ⟨50000000, 0, (modChan 0 (fun c => { c with tickets := [{ num := 0xFFFFFFFF, since := 0, cmd := 0x0101, obj := .device, owner := none, final := none, result := [], doneAt := 0, work := .planned 0 [] }] }) up), _, 0xFFFFFFFF, _, 0, [], rfl, someGet (by decide +kernel), by decide +kernel, by decide +kernel, by decide +kernel, by decide +kernel⟩,
   ⟨50000000, 0, (modChan 0 (fun c => { c with tickets := [{ num := 0xFFFFFFFF, since := 0, cmd := 0x0101, obj := .device, owner := none, final := none, result := [], doneAt := 0, work := .keyReplace 7 (staged0 9 2) }] }) up), _, 0xFFFFFFFF, _, 7, (staged0 9 2), rfl, someGet (by decide +kernel), by decide +kernel, by decide +kernel, by decide +kernel, by decide +kernel⟩,
   ⟨50000000, 0, (modChan 0 (fun c => { c with tickets := [{ num := 0xFFFFFFFF, since := 0, cmd := 0x0101, obj := .device, owner := none, final := none, result := [], doneAt := 0, work := .destroy 127 }] }) up), _, 0xFFFFFFFF, _, 127, rfl, someGet (by decide +kernel), by decide +kernel, by decide +kernel, by decide +kernel, by decide +kernel⟩,
   ⟨50000000, 0, (modChan 0 (fun c => { c with tickets := [{ num := 0xFFFFFFFF, since := 0, cmd := 0x0101, obj := .device, owner := none, final := none, result := [], doneAt := 0, work := .power 2 }] }) up), _, 0xFFFFFFFF, _, 2, rfl, someGet (by decide +kernel), by decide +kernel, by decide +kernel, by decide +kernel, by decide +kernel⟩,
   ⟨50000000, 0, (modChan 0 (fun c => { c with tickets := [{ num := 0xFFFFFFFF, since := 0, cmd := 0x0101, obj := .device, owner := none, final := none, result := [], doneAt := 0, work := .replay 63 0 0 0 }] }) up), _, 0xFFFFFFFF, _, 63, 0, 0, 0, rfl, someGet (by decide +kernel), by decide +kernel, by decide +kernel, by decide +kernel, by decide +kernel⟩,
   ⟨50000000, 0, (modChan 0 (fun c => { c with tickets := [{ num := 0xFFFFFFFF, since := 0, cmd := 0x0101, obj := .device, owner := none, final := none, result := [], doneAt := 0, work := .activate 77 }] }) up), _, 0xFFFFFFFF, _, 77, rfl, someGet (by decide +kernel), by decide +kernel, by decide +kernel, by decide +kernel, by decide +kernel⟩⟩

/-- States and operands that meet the hypotheses of RegisterAccessesComplete, clause by clause. -/
theorem wit_RegisterAccessesComplete :
    (∃ (t : Nat) (r : Requester) (s₀ : State) (s : State), s = s₀.at t ∧ reaches s r = true) ∧
    (∃ (t : Nat) (r : Requester) (off : Nat) (s₀ : State) (s : State) (wide : Bool) (x : Nat × State), s = s₀.at t ∧ reaches s r = true ∧ readHeld s r off = false ∧ x = (if wide = true then readWide r off s else readReg r off s)) ∧
    (∃ (t : Nat) (r : Requester) (off : Nat) (s₀ : State) (s : State), s = s₀.at t ∧ reaches s r = true ∧ readHeld s r off = true) ∧
    (∃ (t : Nat) (r : Requester) (s₀ : State) (s : State), s = s₀.at t ∧ reaches s r = false) ∧
    (∃ (t : Nat) (s₀ : State) (s : State), s = s₀.at t ∧ reaches s .smb = true) :=
  ⟨⟨0, .pf, up, _, rfl, by decide +kernel⟩,
   ⟨0, (.vf 127), 0x2008, up, _, true, _, rfl, by decide +kernel, by decide +kernel, rfl⟩,
   ⟨0, .pf, 0x500000, (modPwr (fun p => { p with st := .nap }) up), _, rfl, by decide +kernel, by decide +kernel⟩,
   ⟨0, .pf, State.reset, _, rfl, by decide +kernel⟩,
   ⟨0, up, _, rfl, by decide +kernel⟩⟩

/-- States and operands that meet the hypotheses of RequestPageTakesWritesWhileIdle, clause by clause. -/
theorem wit_RequestPageTakesWritesWhileIdle :
    (∃ (t : Nat) (off : Nat) (ch : Fin 130) (s₀ : State) (s : State), s = s₀.at t ∧ reaches s (chanRequester ch) = true ∧ off < 0x1000 ∧ off % 4 = 0 ∧ (chan s ch).st = .idle) ∧
    (∃ (t : Nat) (off : Nat) (ch : Fin 130) (s₀ : State) (s : State), s = s₀.at t ∧ reaches s (chanRequester ch) = true ∧ off < 0x1000 ∧ off % 4 = 0 ∧ (chan s ch).st ≠ .idle) :=
  ⟨⟨0, 0xFFC, 0, up, _, rfl, by decide +kernel, by decide +kernel, by decide +kernel, by decide +kernel⟩,
   ⟨0, 0, 0, (at0 6 [] up), _, rfl, by decide +kernel, by decide +kernel, by decide +kernel, by decide +kernel⟩⟩

/-- States and operands that meet the hypotheses of SmbusCommandsComplete, clause by clause. -/
theorem wit_SmbusCommandsComplete :
    (∃ (t : Nat) (s₀ : State) (s : State) (v : BitVec 16), s = s₀.at t ∧ reaches s .smb = true ∧ v.toNat ≤ 0x3FFC) ∧
    (∃ (t : Nat) (s₀ : State) (s : State) (d : List (BitVec 8)), s = s₀.at t ∧ reaches s .smb = true ∧ (chan s 1).st = .idle ∧ 4 ≤ d.length ∧ d.length ≤ 32 ∧ d.length % 4 = 0 ∧ s.root.smbOffset + d.length ≤ 0x1000) ∧
    (∃ (t : Nat) (s₀ : State) (s : State) (d : List (BitVec 8)), s = s₀.at t ∧ reaches s .smb = true ∧ 4 ≤ d.length ∧ d.length ≤ 32 ∧ d.length % 4 = 0) ∧
    (∃ (t : Nat) (s₀ : State) (s : State) (o : Nat) (base : Nat) (x : Bytes × State), s = s₀.at t ∧ reaches s .smb = true ∧ o = s.root.smbOffset ∧ base = o / 4 * 4 ∧ x = smbWords (if o % 4 = 0 then 8 else 9) base s) ∧
    (∃ (t : Nat) (s₀ : State) (s : State), s = s₀.at t ∧ (s.pwr.st = .quiet ∨ s.pwr.st = .nap)) ∧
    (∃ (t : Nat) (s₀ : State) (s : State), s = s₀.at t ∧ (s.pwr.st = .deep ∨ s.pwr.st = .hold)) ∧
    (∃ (t : Nat) (s₀ : State) (s : State), s = s₀.at t) ∧
    (∃ (t : Nat) (s₀ : State) (s : State), s = s₀.at t) :=
  ⟨⟨0, up, _, 0x3FFC, rfl, by decide +kernel, by decide +kernel⟩,
   ⟨0, { up with root := { up.root with smbOffset := 0xFE0 } }, _, (List.replicate 32 1), rfl, by decide +kernel, by decide +kernel, by decide +kernel, by decide +kernel, by decide +kernel, by decide +kernel⟩,
   ⟨0, up, _, (List.replicate 4 1), rfl, by decide +kernel, by decide +kernel, by decide +kernel, by decide +kernel⟩,
   ⟨0, { up with root := { up.root with smbOffset := 0x3FDC } }, _, _, _, _, rfl, by decide +kernel, rfl, rfl, rfl⟩,
   ⟨0, (modPwr (fun p => { p with st := .nap }) up), _, rfl, Or.inr (by decide +kernel)⟩,
   ⟨0, (modPwr (fun p => { p with st := .hold }) up), _, rfl, Or.inr (by decide +kernel)⟩,
   ⟨0, up, _, rfl⟩,
   ⟨0, up, _, rfl⟩⟩

/-- States and operands that meet the hypotheses of DoorbellFollowsTheRule, clause by clause. -/
theorem wit_DoorbellFollowsTheRule :
    (∃ (t : Nat) (r : Requester) (n : Fin 128) (q : Fin 16) (v : BitVec 32) (s₀ : State) (s : State) (x : Queue) (s₁ : State), s = s₀.at t ∧ reaches s r = true ∧ mayRing r n = true ∧ queue s n q = some x ∧ 0 < numDist x.tail v ∧ numDist x.head v ≤ x.entries ∧ v ≠ x.tail ∧ s₁ = journal 0x03 34 (leBytes 1 n ++ leBytes 1 q ++ leBytes 2 0 ++ leBytes 4 v.toNat ++ zeros 8) (modQueue n q (fun x => { x with tail := v }) s)) ∧
    (∃ (t : Nat) (r : Requester) (n : Fin 128) (q : Fin 16) (v : BitVec 32) (s₀ : State) (s : State) (x : Queue), s = s₀.at t ∧ reaches s r = true ∧ mayRing r n = true ∧ queue s n q = some x ∧ v = x.tail) ∧
    (∃ (t : Nat) (r : Requester) (n : Fin 128) (q : Fin 16) (v : BitVec 32) (s₀ : State) (s : State) (x : Queue), s = s₀.at t ∧ reaches s r = true ∧ mayRing r n = true ∧ queue s n q = some x ∧ v ≠ x.tail ∧ ¬ (0 < numDist x.tail v ∧ numDist x.head v ≤ x.entries)) ∧
    (∃ (t : Nat) (r : Requester) (n : Fin 128) (q : Fin 16) (s₀ : State) (s : State), s = s₀.at t ∧ reaches s r = true ∧ mayRing r n = true ∧ queue s n q = none) :=
  ⟨⟨0, .pf, 5, 15, 64, (withQueue 15 0 [] (withPart up)), _, _, _, rfl, by decide +kernel, by decide +kernel, someGet (by decide +kernel), by decide +kernel, by decide +kernel, by decide +kernel, rfl⟩,
   ⟨0, (.vf 5), 5, 15, 0, (withQueue 15 0 [] (withPart up)), _, _, rfl, by decide +kernel, by decide +kernel, someGet (by decide +kernel), by decide +kernel⟩,
   ⟨0, .pf, 5, 15, 65, (withQueue 15 0 [] (withPart up)), _, _, rfl, by decide +kernel, by decide +kernel, someGet (by decide +kernel), by decide +kernel, by decide +kernel⟩,
   ⟨0, .pf, 5, 15, up, _, rfl, by decide +kernel, by decide +kernel, by decide +kernel⟩⟩

/-- States and operands that meet the hypotheses of MathAndCollectiveRecordsStart, clause by clause. -/
theorem wit_MathAndCollectiveRecordsStart :
    (∃ (t : Nat) (num : Nat) (n : Fin 128) (q : Fin 16) (host : Bytes) (b : Bytes) (x : Queue) (s₀ : State) (s : State) (s' : State) (s₁ : State), s = s₀.at t ∧ queue s n q = some x ∧ s₁ = beginRecord n q x b s' ∧ num = x.started.toNat ∧ RecordStarts 0 n q host b x s s' ∧ zeroAt b 16 48 = true ∧ (q.val / 4 = 0 → (activeBoughs s₁ n).isEmpty = false)) ∧
    (∃ (t : Nat) (num : Nat) (n : Fin 128) (q : Fin 16) (host : Bytes) (b : Bytes) (x : Queue) (s₀ : State) (s : State) (s' : State) (s₁ : State), s = s₀.at t ∧ queue s n q = some x ∧ s₁ = beginRecord n q x b s' ∧ num = x.started.toNat ∧ RecordStarts 0x10 n q host b x s s' ∧ recFlag b 4 = false ∧ matmulReserved b = true ∧ matmulRanges s₁ n b = true ∧ matmulOperands s₁ n b = true ∧ (activeBoughs s₁ n).isEmpty = false) ∧
    (∃ (t : Nat) (num : Nat) (n : Fin 128) (q : Fin 16) (host : Bytes) (b : Bytes) (x : Queue) (s₀ : State) (s : State) (s' : State) (s₁ : State) (g : Group), s = s₀.at t ∧ queue s n q = some x ∧ s₁ = beginRecord n q x b s' ∧ num = x.started.toNat ∧ RecordStarts 0x10 n q host b x s s' ∧ recFlag b 4 = true ∧ slotFree s b = true ∧ slotOf s₁ (u16At b 12) = some g ∧ g.part = n.val ∧ suffixOk b g = true ∧ matmulReserved b = true ∧ matmulRanges s₁ n b = true ∧ matmulOperands s₁ n b = true ∧ (activeBoughs s₁ n).isEmpty = false) ∧
    (∃ (t : Nat) (num : Nat) (n : Fin 128) (q : Fin 16) (host : Bytes) (b : Bytes) (x : Queue) (s₀ : State) (s : State) (s' : State) (s₁ : State), s = s₀.at t ∧ queue s n q = some x ∧ s₁ = beginRecord n q x b s' ∧ num = x.started.toNat ∧ RecordStarts 0x11 n q host b x s s' ∧ zeroAt b 18 2 = true ∧ zeroAt b 60 4 = true ∧ vecRanges b = true ∧ vecOperands s₁ n b = true ∧ (activeBoughs s₁ n).isEmpty = false) ∧
    (∃ (t : Nat) (num : Nat) (n : Fin 128) (q : Fin 16) (host : Bytes) (b : Bytes) (x : Queue) (s₀ : State) (s : State) (s' : State) (s₁ : State), s = s₀.at t ∧ queue s n q = some x ∧ s₁ = beginRecord n q x b s' ∧ num = x.started.toNat ∧ RecordStarts 0x12 n q host b x s s' ∧ u8At b 49 ≤ 1 ∧ zeroAt b 50 2 = true ∧ zeroAt b 60 4 = true ∧ attendRanges b = true ∧ attendOperands s₁ n b = true ∧ (activeBoughs s₁ n).isEmpty = false) ∧
    (∃ (t : Nat) (num : Nat) (n : Fin 128) (q : Fin 16) (host : Bytes) (b : Bytes) (x : Queue) (s₀ : State) (s : State) (s' : State) (s₁ : State), s = s₀.at t ∧ queue s n q = some x ∧ s₁ = beginRecord n q x b s' ∧ num = x.started.toNat ∧ RecordStarts 0x13 n q host b x s s' ∧ zeroAt b 47 1 = true ∧ zeroAt b 60 4 = true ∧ sampleRanges b = true ∧ sampleOperands s₁ n b = true ∧ (activeBoughs s₁ n).isEmpty = false) ∧
    (∃ (t : Nat) (num : Nat) (n : Fin 128) (q : Fin 16) (host : Bytes) (b : Bytes) (x : Queue) (s₀ : State) (s : State) (s' : State) (s₁ : State), s = s₀.at t ∧ queue s n q = some x ∧ s₁ = beginRecord n q x b s' ∧ num = x.started.toNat ∧ RecordStarts 0x14 n q host b x s s' ∧ zeroAt b 41 3 = true ∧ zeroAt b 48 16 = true ∧ convertRanges b = true ∧ convertOperands s₁ n b = true ∧ (activeBoughs s₁ n).isEmpty = false) ∧
    (∃ (t : Nat) (num : Nat) (n : Fin 128) (q : Fin 16) (host : Bytes) (b : Bytes) (x : Queue) (s₀ : State) (s : State) (s' : State) (s₁ : State) (c : Collective) (g : Group), s = s₀.at t ∧ queue s n q = some x ∧ s₁ = beginRecord n q x b s' ∧ num = x.started.toNat ∧ RecordStarts 0x30 n q host b x s s' ∧ c = Collective.of b ∧ zeroAt b 21 1 = true ∧ zeroAt b 56 8 = true ∧ slotFree s b = true ∧ slotOf s₁ c.slot = some g ∧ g.part = n.val ∧ collectiveFields c g = true ∧ c.kind ≠ 4 ∧ collectiveSizes c g [] = true ∧ locOk s₁ n (locAt c.dst) (c.dstElems g.size * fmtBytes c.fmt) = true ∧ (usesSrc c g = true → locOk s₁ n (locAt c.src) (c.srcElems g.size [] * fmtBytes c.fmt) = true) ∧ (c.kind ≤ 1 → (activeBoughs s₁ n).isEmpty = false)) ∧
    (∃ (t : Nat) (num : Nat) (n : Fin 128) (q : Fin 16) (host : Bytes) (b : Bytes) (x : Queue) (s₀ : State) (s : State) (s' : State) (s₁ : State) (c : Collective) (g : Group) (st : Nat), s = s₀.at t ∧ queue s n q = some x ∧ s₁ = beginRecord n q x b s' ∧ num = x.started.toNat ∧ RecordStarts 0x30 n q host b x s s' ∧ c = Collective.of b ∧ zeroAt b 21 1 = true ∧ zeroAt b 56 8 = true ∧ slotFree s b = true ∧ slotOf s₁ c.slot = some g ∧ g.part = n.val ∧ collectiveFields c g = true ∧ c.kind = 4 ∧ c.dstElems g.size * fmtBytes c.fmt ≤ 64 * 2 ^ 30 ∧ locOk s₁ n (locAt c.counts) (8 * g.size) = true ∧ g.broken = some st) ∧
    (∃ (t : Nat) (num : Nat) (n : Fin 128) (q : Fin 16) (host : Bytes) (b : Bytes) (x : Queue) (s₀ : State) (s : State) (s' : State) (s₁ : State) (c : Collective) (g : Group) (k : Nat × Bytes × State) (sends : List Nat), s = s₀.at t ∧ queue s n q = some x ∧ s₁ = beginRecord n q x b s' ∧ num = x.started.toNat ∧ RecordStarts 0x30 n q host b x s s' ∧ c = Collective.of b ∧ zeroAt b 21 1 = true ∧ zeroAt b 56 8 = true ∧ slotFree s b = true ∧ slotOf s₁ c.slot = some g ∧ g.part = n.val ∧ collectiveFields c g = true ∧ c.kind = 4 ∧ c.dstElems g.size * fmtBytes c.fmt ≤ 64 * 2 ^ 30 ∧ locOk s₁ n (locAt c.counts) (8 * g.size) = true ∧ g.broken = none ∧ k = readLoc n (locAt c.counts) (4 * g.size) s₁ ∧ k.1 = stOk ∧ sends = (List.range g.size).map (fun j => u32At k.2.1 (4 * j)) ∧ collectiveSizes c g sends = true ∧ locOk k.2.2 n (locAt c.dst) (c.dstElems g.size * fmtBytes c.fmt) = true ∧ locOk k.2.2 n (locAt c.src) (c.srcElems g.size sends * fmtBytes c.fmt) = true) ∧
    (∃ (t : Nat) (num : Nat) (n : Fin 128) (q : Fin 16) (host : Bytes) (b : Bytes) (x : Queue) (s₀ : State) (s : State) (s' : State) (s₁ : State) (c : Collective) (g : Group) (k : Nat × Bytes × State), s = s₀.at t ∧ queue s n q = some x ∧ s₁ = beginRecord n q x b s' ∧ num = x.started.toNat ∧ RecordStarts 0x30 n q host b x s s' ∧ c = Collective.of b ∧ zeroAt b 21 1 = true ∧ zeroAt b 56 8 = true ∧ slotFree s b = true ∧ slotOf s₁ c.slot = some g ∧ g.part = n.val ∧ collectiveFields c g = true ∧ c.kind = 4 ∧ c.dstElems g.size * fmtBytes c.fmt ≤ 64 * 2 ^ 30 ∧ locOk s₁ n (locAt c.counts) (8 * g.size) = true ∧ g.broken = none ∧ k = readLoc n (locAt c.counts) (4 * g.size) s₁ ∧ k.1 ≠ stOk) :=
  ⟨⟨0, _, 5, 3, [], _, _, (rec1 3 (record 0 0 0 []) up), _, _, _, rfl, someGet (by decide +kernel), rfl, rfl, ⟨someGet (by decide +kernel), by decide +kernel, tripleEq (by decide +kernel), by decide +kernel, by decide +kernel, by decide +kernel, by decide +kernel, by decide +kernel, by unfold LagClear; decide +kernel⟩, by decide +kernel, by decide +kernel⟩,
   ⟨0, _, 5, 0, [], _, _, (rec1 0 (record 0x10 0 0 [(8, 0), (8, 64), (8, 128), (4, 1), (4, 1), (2, 1), (1, 0), (1, 0), (2, 0), (2, 0), (4, 0x3F800000)]) up), _, _, _, rfl, someGet (by decide +kernel), rfl, rfl, ⟨someGet (by decide +kernel), by decide +kernel, tripleEq (by decide +kernel), by decide +kernel, by decide +kernel, by decide +kernel, by decide +kernel, by decide +kernel, by unfold LagClear; decide +kernel⟩, by decide +kernel, by decide +kernel, by decide +kernel, by decide +kernel, by decide +kernel⟩,
   ⟨0, _, 5, 0, [], _, _, (rec1 0 (record 0x10 16 255 [(8, 0), (8, 64), (8, 128), (4, 1), (4, 1), (2, 1), (1, 0), (1, 0), (2, 0), (2, 0), (4, 0x3F800000)]) (withGroup grp0 up)), _, _, _, grp0, rfl, someGet (by decide +kernel), rfl, rfl, ⟨someGet (by decide +kernel), by decide +kernel, tripleEq (by decide +kernel), by decide +kernel, by decide +kernel, by decide +kernel, by decide +kernel, by decide +kernel, by unfold LagClear; decide +kernel⟩, by decide +kernel, by decide +kernel, by decide +kernel, by decide +kernel, by decide +kernel, by decide +kernel, by decide +kernel, by decide +kernel, by decide +kernel⟩,
   ⟨0, _, 5, 0, [], _, _, (rec1 0 (record 0x11 0 0 [(1, 0), (1, 0), (2, 0), (4, 0), (8, 0), (8, 64), (8, 128), (8, 1), (4, 0)]) up), _, _, _, rfl, someGet (by decide +kernel), rfl, rfl, ⟨someGet (by decide +kernel), by decide +kernel, tripleEq (by decide +kernel), by decide +kernel, by decide +kernel, by decide +kernel, by decide +kernel, by decide +kernel, by unfold LagClear; decide +kernel⟩, by decide +kernel, by decide +kernel, by decide +kernel, by decide +kernel, by decide +kernel⟩,
   ⟨0, _, 5, 0, [], _, _, (rec1 0 (record 0x12 0 0 [(8, 0), (8, 0x1000), (8, 0x2000), (2, 1), (2, 1), (2, 1), (2, 2), (1, 0), (1, 1), (2, 0), (4, 0), (4, 0)]) up), _, _, _, rfl, someGet (by decide +kernel), rfl, rfl, ⟨someGet (by decide +kernel), by decide +kernel, tripleEq (by decide +kernel), by decide +kernel, by decide +kernel, by decide +kernel, by decide +kernel, by decide +kernel, by unfold LagClear; decide +kernel⟩, by decide +kernel, by decide +kernel, by decide +kernel, by decide +kernel, by decide +kernel, by decide +kernel⟩,
   ⟨0, _, 5, 0, [], _, _, (rec1 0 (record 0x13 0 0 [(8, 0), (8, 0x1000), (8, 0x2000), (4, 1), (2, 1), (1, 0), (1, 0), (4, 0x3F800000), (4, 0), (4, 0x3F800000)]) up), _, _, _, rfl, someGet (by decide +kernel), rfl, rfl, ⟨someGet (by decide +kernel), by decide +kernel, tripleEq (by decide +kernel), by decide +kernel, by decide +kernel, by decide +kernel, by decide +kernel, by decide +kernel, by unfold LagClear; decide +kernel⟩, by decide +kernel, by decide +kernel, by decide +kernel, by decide +kernel, by decide +kernel⟩,
   ⟨0, _, 5, 0, [], _, _, (rec1 0 (record 0x14 0 0 [(8, 0), (8, 64), (8, 1), (1, 0), (3, 0), (4, 0)]) up), _, _, _, rfl, someGet (by decide +kernel), rfl, rfl, ⟨someGet (by decide +kernel), by decide +kernel, tripleEq (by decide +kernel), by decide +kernel, by decide +kernel, by decide +kernel, by decide +kernel, by decide +kernel, by unfold LagClear; decide +kernel⟩, by decide +kernel, by decide +kernel, by decide +kernel, by decide +kernel, by decide +kernel⟩,
   ⟨0, _, 5, 8, [], _, _, (rec1 8 (record 0x30 0 0 [(2, 255), (1, 0), (1, 0), (1, 0), (1, 0), (2, 0), (8, 0), (8, 64), (8, 2), (8, 0)]) (withGroup grp0 up)), _, _, _, _, grp0, rfl, someGet (by decide +kernel), rfl, rfl, ⟨someGet (by decide +kernel), by decide +kernel, tripleEq (by decide +kernel), by decide +kernel, by decide +kernel, by decide +kernel, by decide +kernel, by decide +kernel, by unfold LagClear; decide +kernel⟩, rfl, by decide +kernel, by decide +kernel, by decide +kernel, by decide +kernel, by decide +kernel, by decide +kernel, by decide +kernel, by decide +kernel, by decide +kernel, by decide +kernel, by decide +kernel⟩,
   ⟨0, _, 5, 8, [], _, _, (rec1 8 (record 0x30 0 0 [(2, 255), (1, 4), (1, 0), (1, 0), (1, 0), (2, 0), (8, 0), (8, 64), (8, 2), (8, 128)]) (withGroup { grp0 with broken := some stPeerReset } up)), _, _, _, _, { grp0 with broken := some stPeerReset }, stPeerReset, rfl, someGet (by decide +kernel), rfl, rfl, ⟨someGet (by decide +kernel), by decide +kernel, tripleEq (by decide +kernel), by decide +kernel, by decide +kernel, by decide +kernel, by decide +kernel, by decide +kernel, by unfold LagClear; decide +kernel⟩, rfl, by decide +kernel, by decide +kernel, by decide +kernel, by decide +kernel, by decide +kernel, by decide +kernel, by decide +kernel, by decide +kernel, by decide +kernel, by decide +kernel⟩,
   ⟨0, _, 5, 8, [], _, _, (rec1 8 (record 0x30 0 0 [(2, 255), (1, 4), (1, 0), (1, 0), (1, 0), (2, 0), (8, 0), (8, 64), (8, 2), (8, 128)]) (withGroup grp0 up)), _, _, _, _, grp0, _, _, rfl, someGet (by decide +kernel), rfl, rfl, ⟨someGet (by decide +kernel), by decide +kernel, tripleEq (by decide +kernel), by decide +kernel, by decide +kernel, by decide +kernel, by decide +kernel, by decide +kernel, by unfold LagClear; decide +kernel⟩, rfl, by decide +kernel, by decide +kernel, by decide +kernel, by decide +kernel, by decide +kernel, by decide +kernel, by decide +kernel, by decide +kernel, by decide +kernel, by decide +kernel, rfl, by decide +kernel, rfl, by decide +kernel, by decide +kernel, by decide +kernel⟩,
   ⟨0, _, 5, 8, [], _, _, (rec1 8 (record 0x30 0 0 [(2, 255), (1, 4), (1, 0), (1, 0), (1, 0), (2, 0), (8, 0), (8, 64), (8, 2), (8, 128)]) (modMm (fun m => { m with fault := [2000 * 32768 + 2] }) (withGroup grp0 up))), _, _, _, _, grp0, _, rfl, someGet (by decide +kernel), rfl, rfl, ⟨someGet (by decide +kernel), by decide +kernel, tripleEq (by decide +kernel), by decide +kernel, by decide +kernel, by decide +kernel, by decide +kernel, by decide +kernel, by unfold LagClear; decide +kernel⟩, rfl, by decide +kernel, by decide +kernel, by decide +kernel, by decide +kernel, by decide +kernel, by decide +kernel, by decide +kernel, by decide +kernel, by decide +kernel, by decide +kernel, rfl, by decide +kernel⟩⟩

/-- States and operands that meet the hypotheses of MoveRecordsStart, clause by clause. -/
theorem wit_MoveRecordsStart :
    (∃ (t : Nat) (num : Nat) (n : Fin 128) (q : Fin 16) (host : Bytes) (b : Bytes) (x : Queue) (s₀ : State) (s : State) (s' : State) (s₁ : State) (r : Running), s = s₀.at t ∧ s₁ = beginRecord n q x b s' ∧ num = x.started.toNat ∧ RecordStarts 0x20 n q host b x s s' ∧ copyReserved b = true ∧ copyRanges b = true ∧ copyOperands s₁ n b = true ∧ isBulk b = true ∧ running s₁ n q num = some r) ∧
    (∃ (t : Nat) (num : Nat) (n : Fin 128) (q : Fin 16) (host : Bytes) (b : Bytes) (x : Queue) (s₀ : State) (s : State) (s' : State) (s₁ : State), s = s₀.at t ∧ s₁ = beginRecord n q x b s' ∧ num = x.started.toNat ∧ RecordStarts 0x20 n q host b x s s' ∧ copyReserved b = true ∧ copyRanges b = true ∧ copyOperands s₁ n b = true ∧ isBulk b = false ∧ u8At b 36 = 3 ∧ u8At b 37 = 3) ∧
    (∃ (t : Nat) (num : Nat) (n : Fin 128) (q : Fin 16) (host : Bytes) (data : Bytes) (b : Bytes) (x : Queue) (s₀ : State) (s : State) (s' : State) (s₁ : State) (w : Nat × State), s = s₀.at t ∧ s₁ = beginRecord n q x b s' ∧ num = x.started.toNat ∧ RecordStarts 0x20 n q host b x s s' ∧ copyReserved b = true ∧ copyRanges b = true ∧ copyOperands s₁ n b = true ∧ isBulk b = false ∧ u8At b 36 = 3 ∧ u8At b 37 ≠ 3 ∧ w = writeLoc n (moveLoc (u8At b 37) (copyDst b)) (fit (copyLen b) data) s₁) ∧
    (∃ (t : Nat) (num : Nat) (n : Fin 128) (q : Fin 16) (host : Bytes) (b : Bytes) (x : Queue) (s₀ : State) (s : State) (s' : State) (s₁ : State), s = s₀.at t ∧ s₁ = beginRecord n q x b s' ∧ num = x.started.toNat ∧ RecordStarts 0x20 n q host b x s s' ∧ copyReserved b = true ∧ copyRanges b = true ∧ copyOperands s₁ n b = true ∧ isBulk b = false ∧ u8At b 36 ≠ 3 ∧ u8At b 37 = 3) ∧
    (∃ (t : Nat) (num : Nat) (n : Fin 128) (q : Fin 16) (host : Bytes) (b : Bytes) (x : Queue) (s₀ : State) (s : State) (s' : State) (s₁ : State), s = s₀.at t ∧ s₁ = beginRecord n q x b s' ∧ num = x.started.toNat ∧ RecordStarts 0x20 n q host b x s s' ∧ copyReserved b = true ∧ copyRanges b = true ∧ copyOperands s₁ n b = true ∧ isBulk b = false ∧ u8At b 36 ≠ 3 ∧ u8At b 37 ≠ 3) ∧
    (∃ (t : Nat) (num : Nat) (n : Fin 128) (q : Fin 16) (host : Bytes) (b : Bytes) (x : Queue) (s₀ : State) (s : State) (s' : State) (s₁ : State) (w : Nat × State), s = s₀.at t ∧ s₁ = beginRecord n q x b s' ∧ num = x.started.toNat ∧ RecordStarts 0x21 n q host b x s s' ∧ zeroAt b 25 3 = true ∧ zeroAt b 36 28 = true ∧ u8At b 24 ≤ 1 ∧ 4 ≤ u32At b 32 ∧ u32At b 32 ≤ 2 ^ 30 ∧ u32At b 32 % 4 = 0 ∧ rec64 b 16 % 4 = 0 ∧ locOk s₁ n (moveLoc (u8At b 24) (rec64 b 16)) (u32At b 32) = true ∧ w = writeLoc n (moveLoc (u8At b 24) (rec64 b 16)) (List.replicate (u32At b 32 / 4) (slice b 28 4)).flatten s₁) ∧
    (∃ (t : Nat) (num : Nat) (n : Fin 128) (q : Fin 16) (host : Bytes) (b : Bytes) (x : Queue) (s₀ : State) (s : State) (s' : State) (s₁ : State) (op : Nat) (len : Nat), s = s₀.at t ∧ s₁ = beginRecord n q x b s' ∧ num = x.started.toNat ∧ RecordStarts 0x22 n q host b x s s' ∧ op = u8At b 16 ∧ len = u32At b 20 ∧ (op = 1 ∨ op = 2 ∨ isAtomic op = true) ∧ u8At b 17 ≤ 1 ∧ zeroAt b 18 2 = true ∧ zeroAt b 48 16 = true ∧ (isAtomic op = false → rec64 b 40 = 0) ∧ txnSizeOk op (rec64 b 24) len = true ∧ ((remoteLocals b).all fun l => locOk s₁ n (moveLoc (u8At b 17) l.1) l.2) = true ∧ op = 1) ∧
    (∃ (t : Nat) (num : Nat) (n : Fin 128) (q : Fin 16) (host : Bytes) (b : Bytes) (x : Queue) (s₀ : State) (s : State) (s' : State) (s₁ : State) (op : Nat) (len : Nat) (d : Nat × Bytes × State), s = s₀.at t ∧ s₁ = beginRecord n q x b s' ∧ num = x.started.toNat ∧ RecordStarts 0x22 n q host b x s s' ∧ op = u8At b 16 ∧ len = u32At b 20 ∧ (op = 1 ∨ op = 2 ∨ isAtomic op = true) ∧ u8At b 17 ≤ 1 ∧ zeroAt b 18 2 = true ∧ zeroAt b 48 16 = true ∧ (isAtomic op = false → rec64 b 40 = 0) ∧ txnSizeOk op (rec64 b 24) len = true ∧ ((remoteLocals b).all fun l => locOk s₁ n (moveLoc (u8At b 17) l.1) l.2) = true ∧ op ≠ 1 ∧ d = readLoc n (moveLoc (u8At b 17) (rec64 b 32)) (reqDataLen op len) s₁ ∧ d.1 = stOk) ∧
    (∃ (t : Nat) (num : Nat) (n : Fin 128) (q : Fin 16) (host : Bytes) (b : Bytes) (x : Queue) (s₀ : State) (s : State) (s' : State) (s₁ : State) (op : Nat) (len : Nat) (d : Nat × Bytes × State), s = s₀.at t ∧ s₁ = beginRecord n q x b s' ∧ num = x.started.toNat ∧ RecordStarts 0x22 n q host b x s s' ∧ op = u8At b 16 ∧ len = u32At b 20 ∧ (op = 1 ∨ op = 2 ∨ isAtomic op = true) ∧ u8At b 17 ≤ 1 ∧ zeroAt b 18 2 = true ∧ zeroAt b 48 16 = true ∧ (isAtomic op = false → rec64 b 40 = 0) ∧ txnSizeOk op (rec64 b 24) len = true ∧ ((remoteLocals b).all fun l => locOk s₁ n (moveLoc (u8At b 17) l.1) l.2) = true ∧ op ≠ 1 ∧ d = readLoc n (moveLoc (u8At b 17) (rec64 b 32)) (reqDataLen op len) s₁ ∧ d.1 ≠ stOk) ∧
    (∃ (t : Nat) (num : Nat) (n : Fin 128) (q : Fin 16) (host : Bytes) (b : Bytes) (x : Queue) (s₀ : State) (s : State) (s' : State) (s₁ : State) (sl : Nat) (i : Import), s = s₀.at t ∧ s₁ = beginRecord n q x b s' ∧ num = x.started.toNat ∧ RecordStarts 0x23 n q host b x s s' ∧ zeroAt b 28 36 = true ∧ rec64 b 16 % 4096 = 0 ∧ 4096 ≤ u32At b 24 ∧ u32At b 24 ≤ 0x400000 ∧ u32At b 24 % 4096 = 0 ∧ governing s₁ n (rec64 b 16) = some (sl, i) ∧ slotGrants i (rec64 b 16) (u32At b 24) (needRights 1 1) = true) ∧
    (∃ (t : Nat) (num : Nat) (n : Fin 128) (q : Fin 16) (host : Bytes) (b : Bytes) (x : Queue) (s₀ : State) (s : State) (s' : State) (s₁ : State), s = s₀.at t ∧ s₁ = beginRecord n q x b s' ∧ num = x.started.toNat ∧ RecordStarts 0x23 n q host b x s s' ∧ zeroAt b 28 36 = true ∧ rec64 b 16 % 4096 = 0 ∧ 4096 ≤ u32At b 24 ∧ u32At b 24 ≤ 0x400000 ∧ u32At b 24 % 4096 = 0 ∧ (∀ e : Nat × Import, governing s₁ n (rec64 b 16) = some e → slotGrants e.2 (rec64 b 16) (u32At b 24) (needRights 1 1) = false)) :=
  ⟨⟨0, _, 5, 4, [], _, _, (rec1 4 (record 0x20 0 0 [(8, 0x81800000000000), (8, 64), (4, 64), (1, 2), (1, 0), (2, 0)]) (modTxn (fun x => { x with imports := [(3, import0)] }) up)), _, _, _, _, rfl, rfl, rfl, ⟨someGet (by decide +kernel), by decide +kernel, tripleEq (by decide +kernel), by decide +kernel, by decide +kernel, by decide +kernel, by decide +kernel, by decide +kernel, by unfold LagClear; decide +kernel⟩, by decide +kernel, by decide +kernel, by decide +kernel, by decide +kernel, someGet (by decide +kernel)⟩,
   ⟨0, _, 5, 4, [], _, _, (rec1 4 (record 0x20 0 0 [(8, 0), (8, 64), (4, 64), (1, 3), (1, 3), (2, 0)]) up), _, _, _, rfl, rfl, rfl, ⟨someGet (by decide +kernel), by decide +kernel, tripleEq (by decide +kernel), by decide +kernel, by decide +kernel, by decide +kernel, by decide +kernel, by decide +kernel, by unfold LagClear; decide +kernel⟩, by decide +kernel, by decide +kernel, by decide +kernel, by decide +kernel, by decide +kernel, by decide +kernel⟩,
   ⟨0, _, 5, 4, [], [1, 2, 3], _, _, (rec1 4 (record 0x20 0 0 [(8, 0), (8, 64), (4, 64), (1, 3), (1, 0), (2, 0)]) up), _, _, _, _, rfl, rfl, rfl, ⟨someGet (by decide +kernel), by decide +kernel, tripleEq (by decide +kernel), by decide +kernel, by decide +kernel, by decide +kernel, by decide +kernel, by decide +kernel, by unfold LagClear; decide +kernel⟩, by decide +kernel, by decide +kernel, by decide +kernel, by decide +kernel, by decide +kernel, by decide +kernel, rfl⟩,
   ⟨0, _, 5, 4, [], _, _, (rec1 4 (record 0x20 0 0 [(8, 0), (8, 64), (4, 64), (1, 0), (1, 3), (2, 0)]) up), _, _, _, rfl, rfl, rfl, ⟨someGet (by decide +kernel), by decide +kernel, tripleEq (by decide +kernel), by decide +kernel, by decide +kernel, by decide +kernel, by decide +kernel, by decide +kernel, by unfold LagClear; decide +kernel⟩, by decide +kernel, by decide +kernel, by decide +kernel, by decide +kernel, by decide +kernel, by decide +kernel⟩,
   ⟨0, _, 5, 4, [], _, _, (rec1 4 (record 0x20 0 0 [(8, 0), (8, 64), (4, 64), (1, 0), (1, 0), (2, 0)]) up), _, _, _, rfl, rfl, rfl, ⟨someGet (by decide +kernel), by decide +kernel, tripleEq (by decide +kernel), by decide +kernel, by decide +kernel, by decide +kernel, by decide +kernel, by decide +kernel, by unfold LagClear; decide +kernel⟩, by decide +kernel, by decide +kernel, by decide +kernel, by decide +kernel, by decide +kernel, by decide +kernel⟩,
   ⟨0, _, 5, 4, [], _, _, (rec1 4 (record 0x21 0 0 [(8, 64), (1, 0), (3, 0), (4, 0), (4, 4)]) up), _, _, _, _, rfl, rfl, rfl, ⟨someGet (by decide +kernel), by decide +kernel, tripleEq (by decide +kernel), by decide +kernel, by decide +kernel, by decide +kernel, by decide +kernel, by decide +kernel, by unfold LagClear; decide +kernel⟩, by decide +kernel, by decide +kernel, by decide +kernel, by decide +kernel, by decide +kernel, by decide +kernel, by decide +kernel, by decide +kernel, rfl⟩,
   ⟨0, _, 5, 4, [], _, _, (rec1 4 (record 0x22 0 0 [(1, 1), (1, 0), (2, 0), (4, 4096), (8, 0x80000000000000), (8, 0), (8, 0)]) (inGrove port0 up)), _, _, _, _, _, rfl, rfl, rfl, ⟨someGet (by decide +kernel), by decide +kernel, tripleEq (by decide +kernel), by decide +kernel, by decide +kernel, by decide +kernel, by decide +kernel, by decide +kernel, by unfold LagClear; decide +kernel⟩, rfl, rfl, Or.inl (by decide +kernel), by decide +kernel, by decide +kernel, by decide +kernel, by decide +kernel, by decide +kernel, by decide +kernel, rfl⟩,
   ⟨0, _, 5, 4, [], _, _, (rec1 4 (record 0x22 0 0 [(1, 2), (1, 0), (2, 0), (4, 64), (8, 0x80000000000000), (8, 0), (8, 0)]) (inGrove port0 up)), _, _, _, _, _, _, rfl, rfl, rfl, ⟨someGet (by decide +kernel), by decide +kernel, tripleEq (by decide +kernel), by decide +kernel, by decide +kernel, by decide +kernel, by decide +kernel, by decide +kernel, by unfold LagClear; decide +kernel⟩, rfl, rfl, Or.inr (Or.inl (by decide +kernel)), by decide +kernel, by decide +kernel, by decide +kernel, by decide +kernel, by decide +kernel, by decide +kernel, by decide +kernel, rfl, by decide +kernel⟩,
   ⟨0, _, 5, 4, [], _, _, (rec1 4 (record 0x22 0 0 [(1, 2), (1, 0), (2, 0), (4, 64), (8, 0x80000000000000), (8, 0), (8, 0)]) (modMm (fun m => { m with fault := [2000 * 32768] }) (inGrove port0 up))), _, _, _, _, _, _, rfl, rfl, rfl, ⟨someGet (by decide +kernel), by decide +kernel, tripleEq (by decide +kernel), by decide +kernel, by decide +kernel, by decide +kernel, by decide +kernel, by decide +kernel, by unfold LagClear; decide +kernel⟩, rfl, rfl, Or.inr (Or.inl (by decide +kernel)), by decide +kernel, by decide +kernel, by decide +kernel, by decide +kernel, by decide +kernel, by decide +kernel, by decide +kernel, rfl, by decide +kernel⟩,
   ⟨0, _, 5, 4, [], _, _, (rec1 4 (record 0x23 0 0 [(8, 0x81800000000000), (4, 0x400000)]) (modTxn (fun x => { x with imports := [(3, import0)] }) up)), _, _, _, _, _, rfl, rfl, rfl, ⟨someGet (by decide +kernel), by decide +kernel, tripleEq (by decide +kernel), by decide +kernel, by decide +kernel, by decide +kernel, by decide +kernel, by decide +kernel, by unfold LagClear; decide +kernel⟩, by decide +kernel, by decide +kernel, by decide +kernel, by decide +kernel, by decide +kernel, somePair (by decide +kernel), by decide +kernel⟩,
   ⟨0, _, 5, 4, [], _, _, (rec1 4 (record 0x23 0 0 [(8, 0x81800000000000), (4, 0x400000)]) up), _, _, _, rfl, rfl, rfl, ⟨someGet (by decide +kernel), by decide +kernel, tripleEq (by decide +kernel), by decide +kernel, by decide +kernel, by decide +kernel, by decide +kernel, by decide +kernel, by unfold LagClear; decide +kernel⟩, by decide +kernel, by decide +kernel, by decide +kernel, by decide +kernel, by decide +kernel, by decide +kernel⟩⟩

/-- States and operands that meet the hypotheses of TokenRecordsStart, clause by clause. -/
theorem wit_TokenRecordsStart :
    (∃ (t : Nat) (num : Nat) (n : Fin 128) (q : Fin 16) (host : Bytes) (b : Bytes) (x : Queue) (s₀ : State) (s : State) (s' : State) (s₁ : State) (k : Tokenize) (v : Image), s = s₀.at t ∧ s₁ = beginRecord n q x b s' ∧ num = x.started.toNat ∧ RecordStarts 0x40 n q host b x s s' ∧ k = Tokenize.of b ∧ zeroAt b 36 4 = true ∧ zeroAt b 48 16 = true ∧ tokenizeRanges s₁ n b = true ∧ locOk s₁ n (locAt k.text) k.len = true ∧ locOk s₁ n (locAt k.out) (4 * k.max) = true ∧ vocabOf s₁ k.vocab = some v ∧ k.len = 0) ∧
    (∃ (t : Nat) (num : Nat) (n : Fin 128) (q : Fin 16) (host : Bytes) (b : Bytes) (x : Queue) (s₀ : State) (s : State) (s' : State) (s₁ : State) (k : Tokenize) (v : Image), s = s₀.at t ∧ s₁ = beginRecord n q x b s' ∧ num = x.started.toNat ∧ RecordStarts 0x40 n q host b x s s' ∧ k = Tokenize.of b ∧ zeroAt b 36 4 = true ∧ zeroAt b 48 16 = true ∧ tokenizeRanges s₁ n b = true ∧ locOk s₁ n (locAt k.text) k.len = true ∧ locOk s₁ n (locAt k.out) (4 * k.max) = true ∧ vocabOf s₁ k.vocab = some v ∧ k.len ≠ 0) ∧
    (∃ (t : Nat) (num : Nat) (n : Fin 128) (q : Fin 16) (host : Bytes) (b : Bytes) (x : Queue) (s₀ : State) (s : State) (s' : State) (s₁ : State) (k : StepRec) (r : Nat × Bytes × State) (es : List (Nat × Nat × Nat)) (f : Nat × Nat × State), s = s₀.at t ∧ s₁ = beginRecord n q x b s' ∧ num = x.started.toNat ∧ RecordStarts 0x41 n q host b x s s' ∧ k = StepRec.of b ∧ zeroAt b 18 6 = true ∧ zeroAt b 44 4 = true ∧ zeroAt b 56 8 = true ∧ 1 ≤ k.count ∧ k.count ≤ 256 ∧ 256 ≤ k.cap ∧ k.cap ≤ 65536 ∧ (taggedLoc k.inp).isSome = true ∧ (taggedLoc k.text).isSome = true ∧ (taggedLoc k.out).isSome = true ∧ locOk s₁ n (locAt k.inp) (8 * k.count) = true ∧ locOk s₁ n (locAt k.text) (k.count * k.cap) = true ∧ locOk s₁ n (locAt k.out) (8 * k.count) = true ∧ r = readLoc n (locAt k.inp) (8 * k.count) s₁ ∧ r.1 = stOk ∧ es = (List.range k.count).map (fun i => (i, u16At r.2.1 (8 * i), u32At r.2.1 (8 * i + 4))) ∧ ((List.range k.count).all fun i => zeroAt r.2.1 (8 * i + 2) 2) = true ∧ (es.all fun e => ((strm r.2.2 e.2.1).map (·.part)) == some n.val) = true ∧ f = stepLoop n k es [] stOk (modRunning n q num (fun y => { y with streams := es.map fun e => e.2.1 }) r.2.2)) ∧
    (∃ (t : Nat) (num : Nat) (n : Fin 128) (q : Fin 16) (host : Bytes) (b : Bytes) (x : Queue) (s₀ : State) (s : State) (s' : State) (s₁ : State) (k : StepRec) (r : Nat × Bytes × State), s = s₀.at t ∧ s₁ = beginRecord n q x b s' ∧ num = x.started.toNat ∧ RecordStarts 0x41 n q host b x s s' ∧ k = StepRec.of b ∧ zeroAt b 18 6 = true ∧ zeroAt b 44 4 = true ∧ zeroAt b 56 8 = true ∧ 1 ≤ k.count ∧ k.count ≤ 256 ∧ 256 ≤ k.cap ∧ k.cap ≤ 65536 ∧ (taggedLoc k.inp).isSome = true ∧ (taggedLoc k.text).isSome = true ∧ (taggedLoc k.out).isSome = true ∧ locOk s₁ n (locAt k.inp) (8 * k.count) = true ∧ locOk s₁ n (locAt k.text) (k.count * k.cap) = true ∧ locOk s₁ n (locAt k.out) (8 * k.count) = true ∧ r = readLoc n (locAt k.inp) (8 * k.count) s₁ ∧ r.1 ≠ stOk) :=
  ⟨⟨0, _, 5, 12, [], _, _, (withQueue 12 1 (record 0x40 0 0 [(4, 1), (4, 4), (8, 0x3000), (4, 0), (4, 0), (8, 0x4000)]) (withTokens strm0 up)), _, _, _, _, _, rfl, rfl, rfl, ⟨someGet (by decide +kernel), by decide +kernel, tripleEq (by decide +kernel), by decide +kernel, by decide +kernel, by decide +kernel, by decide +kernel, by decide +kernel, by unfold LagClear; decide +kernel⟩, rfl, by decide +kernel, by decide +kernel, by decide +kernel, by decide +kernel, by decide +kernel, someGet (by decide +kernel), by decide +kernel⟩,
   ⟨0, _, 5, 12, [], _, _, (withQueue 12 1 (record 0x40 0 0 [(4, 1), (4, 4), (8, 0x3000), (4, 4), (4, 0), (8, 0x4000)]) (withTokens strm0 up)), _, _, _, _, _, rfl, rfl, rfl, ⟨someGet (by decide +kernel), by decide +kernel, tripleEq (by decide +kernel), by decide +kernel, by decide +kernel, by decide +kernel, by decide +kernel, by decide +kernel, by unfold LagClear; decide +kernel⟩, rfl, by decide +kernel, by decide +kernel, by decide +kernel, by decide +kernel, by decide +kernel, someGet (by decide +kernel), by decide +kernel⟩,
   ⟨0, _, 5, 12, [], _, _, (put 0x3000 (leBytes 2 4095 ++ zeros 2 ++ leBytes 4 3) (withQueue 12 1 (record 0x41 0 0 [(2, 1), (6, 0), (8, 0x3000), (8, 0x4000), (4, 256), (4, 0), (8, 0x5000)]) (withTokens strm0 up))), _, _, _, _, _, _, _, rfl, rfl, rfl, ⟨someGet (by decide +kernel), by decide +kernel, tripleEq (by decide +kernel), by decide +kernel, by decide +kernel, by decide +kernel, by decide +kernel, by decide +kernel, by unfold LagClear; decide +kernel⟩, rfl, by decide +kernel, by decide +kernel, by decide +kernel, by decide +kernel, by decide +kernel, by decide +kernel, by decide +kernel, by decide +kernel, by decide +kernel, by decide +kernel, by decide +kernel, by decide +kernel, by decide +kernel, rfl, by decide +kernel, rfl, by decide +kernel, by decide +kernel, rfl⟩,
   ⟨0, _, 5, 12, [], _, _, (put 0x3000 (leBytes 2 4095 ++ zeros 2 ++ leBytes 4 3) (withQueue 12 1 (record 0x41 0 0 [(2, 1), (6, 0), (8, 0x3000), (8, 0x4000), (4, 256), (4, 0), (8, 0x5000)]) (withTokens strm0 (modMm (fun m => { m with fault := [2000 * 32768 + 0xC0] }) up)))), _, _, _, _, _, rfl, rfl, rfl, ⟨someGet (by decide +kernel), by decide +kernel, tripleEq (by decide +kernel), by decide +kernel, by decide +kernel, by decide +kernel, by decide +kernel, by decide +kernel, by unfold LagClear; decide +kernel⟩, rfl, by decide +kernel, by decide +kernel, by decide +kernel, by decide +kernel, by decide +kernel, by decide +kernel, by decide +kernel, by decide +kernel, by decide +kernel, by decide +kernel, by decide +kernel, by decide +kernel, by decide +kernel, rfl, by decide +kernel⟩⟩

/-- States and operands that meet the hypotheses of WritesAtTheBoundWait, clause by clause. -/
theorem wit_WritesAtTheBoundWait :
    (∃ (t : Nat) (num : Nat) (n : Fin 128) (q : Fin 16) (host : Bytes) (b : Bytes) (x : Queue) (s₀ : State) (s : State) (s' : State) (s₁ : State), s = s₀.at t ∧ queue s n q = some x ∧ x.started ≠ x.tail ∧ fetchRec n x host s = (stOk, b, s') ∧ startMet s n q x b = true ∧ chainSkips x b = none ∧ opcodeOk (q / 4) (u8At b 0) = true ∧ headerOk (q / 4) b = true ∧ s₁ = beginRecord n q x b s' ∧ num = x.started.toNat ∧ u8At b 0 = 0x11 ∧ lagBlocks s (tallyHbm n q num s₁ (vecBody n q num b s₁)) = true) ∧
    (∃ (t : Nat) (num : Nat) (n : Fin 128) (q : Fin 16) (host : Bytes) (b : Bytes) (x : Queue) (s₀ : State) (s : State) (s' : State) (s₁ : State), s = s₀.at t ∧ queue s n q = some x ∧ x.started ≠ x.tail ∧ fetchRec n x host s = (stOk, b, s') ∧ startMet s n q x b = true ∧ chainSkips x b = none ∧ opcodeOk (q / 4) (u8At b 0) = true ∧ headerOk (q / 4) b = true ∧ s₁ = beginRecord n q x b s' ∧ num = x.started.toNat ∧ u8At b 0 = 0x12 ∧ lagBlocks s (tallyHbm n q num s₁ (attendBody n q num b s₁)) = true) ∧
    (∃ (t : Nat) (num : Nat) (n : Fin 128) (q : Fin 16) (host : Bytes) (b : Bytes) (x : Queue) (s₀ : State) (s : State) (s' : State) (s₁ : State), s = s₀.at t ∧ queue s n q = some x ∧ x.started ≠ x.tail ∧ fetchRec n x host s = (stOk, b, s') ∧ startMet s n q x b = true ∧ chainSkips x b = none ∧ opcodeOk (q / 4) (u8At b 0) = true ∧ headerOk (q / 4) b = true ∧ s₁ = beginRecord n q x b s' ∧ num = x.started.toNat ∧ u8At b 0 = 0x13 ∧ lagBlocks s (tallyHbm n q num s₁ (sampleBody n q num b s₁)) = true) ∧
    (∃ (t : Nat) (num : Nat) (n : Fin 128) (q : Fin 16) (host : Bytes) (b : Bytes) (x : Queue) (s₀ : State) (s : State) (s' : State) (s₁ : State), s = s₀.at t ∧ queue s n q = some x ∧ x.started ≠ x.tail ∧ fetchRec n x host s = (stOk, b, s') ∧ startMet s n q x b = true ∧ chainSkips x b = none ∧ opcodeOk (q / 4) (u8At b 0) = true ∧ headerOk (q / 4) b = true ∧ s₁ = beginRecord n q x b s' ∧ num = x.started.toNat ∧ u8At b 0 = 0x14 ∧ lagBlocks s (tallyHbm n q num s₁ (convertBody n q num b s₁)) = true) ∧
    (∃ (t : Nat) (num : Nat) (n : Fin 128) (q : Fin 16) (host : Bytes) (data : Bytes) (b : Bytes) (x : Queue) (s₀ : State) (s : State) (s' : State) (s₁ : State), s = s₀.at t ∧ queue s n q = some x ∧ x.started ≠ x.tail ∧ fetchRec n x host s = (stOk, b, s') ∧ startMet s n q x b = true ∧ chainSkips x b = none ∧ opcodeOk (q / 4) (u8At b 0) = true ∧ headerOk (q / 4) b = true ∧ s₁ = beginRecord n q x b s' ∧ num = x.started.toNat ∧ u8At b 0 = 0x20 ∧ lagBlocks s (tallyHbm n q num s₁ (copyBody data n q num b s₁)) = true) ∧
    (∃ (t : Nat) (num : Nat) (n : Fin 128) (q : Fin 16) (host : Bytes) (b : Bytes) (x : Queue) (s₀ : State) (s : State) (s' : State) (s₁ : State), s = s₀.at t ∧ queue s n q = some x ∧ x.started ≠ x.tail ∧ fetchRec n x host s = (stOk, b, s') ∧ startMet s n q x b = true ∧ chainSkips x b = none ∧ opcodeOk (q / 4) (u8At b 0) = true ∧ headerOk (q / 4) b = true ∧ s₁ = beginRecord n q x b s' ∧ num = x.started.toNat ∧ u8At b 0 = 0x21 ∧ lagBlocks s (tallyHbm n q num s₁ (fillBody n q num b s₁)) = true) ∧
    (∃ (t : Nat) (num : Nat) (n : Fin 128) (q : Fin 16) (host : Bytes) (b : Bytes) (x : Queue) (s₀ : State) (s : State) (s' : State) (s₁ : State), s = s₀.at t ∧ queue s n q = some x ∧ x.started ≠ x.tail ∧ fetchRec n x host s = (stOk, b, s') ∧ startMet s n q x b = true ∧ chainSkips x b = none ∧ opcodeOk (q / 4) (u8At b 0) = true ∧ headerOk (q / 4) b = true ∧ s₁ = beginRecord n q x b s' ∧ num = x.started.toNat ∧ u8At b 0 = 0x40 ∧ lagBlocks s (tallyHbm n q num s₁ (tokenizeBody n q num b s₁)) = true) ∧
    (∃ (t : Nat) (num : Nat) (n : Fin 128) (q : Fin 16) (host : Bytes) (b : Bytes) (x : Queue) (s₀ : State) (s : State) (s' : State) (s₁ : State), s = s₀.at t ∧ queue s n q = some x ∧ x.started ≠ x.tail ∧ fetchRec n x host s = (stOk, b, s') ∧ startMet s n q x b = true ∧ chainSkips x b = none ∧ opcodeOk (q / 4) (u8At b 0) = true ∧ headerOk (q / 4) b = true ∧ s₁ = beginRecord n q x b s' ∧ num = x.started.toNat ∧ u8At b 0 = 0x41 ∧ lagBlocks s (tallyHbm n q num s₁ (stepBody n q num b s₁)) = true) ∧
    (∃ (t : Nat) (num : Nat) (n : Fin 128) (q : Fin 16) (host : Bytes) (b : Bytes) (x : Queue) (s₀ : State) (s : State) (s' : State) (s₁ : State), s = s₀.at t ∧ queue s n q = some x ∧ x.started ≠ x.tail ∧ fetchRec n x host s = (stOk, b, s') ∧ startMet s n q x b = true ∧ chainSkips x b = none ∧ opcodeOk (q / 4) (u8At b 0) = true ∧ headerOk (q / 4) b = true ∧ s₁ = beginRecord n q x b s' ∧ num = x.started.toNat ∧ slotFree s b = true ∧ u8At b 0 = 0x10 ∧ lagBlocks s (tallyHbm n q num s₁ (matmulBody n q num b s₁)) = true) ∧
    (∃ (t : Nat) (num : Nat) (n : Fin 128) (q : Fin 16) (host : Bytes) (b : Bytes) (x : Queue) (s₀ : State) (s : State) (s' : State) (s₁ : State), s = s₀.at t ∧ queue s n q = some x ∧ x.started ≠ x.tail ∧ fetchRec n x host s = (stOk, b, s') ∧ startMet s n q x b = true ∧ chainSkips x b = none ∧ opcodeOk (q / 4) (u8At b 0) = true ∧ headerOk (q / 4) b = true ∧ s₁ = beginRecord n q x b s' ∧ num = x.started.toNat ∧ slotFree s b = true ∧ u8At b 0 = 0x30 ∧ lagBlocks s (tallyHbm n q num s₁ (collectiveBody n q num b s₁)) = true) ∧
    (∃ (s : State) (s' : State) (a : Nat × Region) (r : Region), lagBlocks s s' = false ∧ s'.twn.regions ≠ s.twn.regions ∧ a ∈ s.twn.regions ∧ a.2.async = true ∧ a.2.live = true ∧ tget a.1 s'.twn.regions = some r ∧ a.2.captured + a.2.late < r.captured + r.late) :=
  ⟨⟨1000, _, 5, 0, [], _, _, (rec1 0 (record 0x11 0 0 [(1, 0), (1, 0), (2, 0), (4, 0), (8, 0), (8, 64), (8, 128), (8, 1), (4, 0)]) (atBound up)), _, _, _, rfl, someGet (by decide +kernel), by decide +kernel, tripleEq (by decide +kernel), by decide +kernel, by decide +kernel, by decide +kernel, by decide +kernel, rfl, rfl, by decide +kernel, by decide +kernel⟩,
   ⟨1000, _, 5, 0, [], _, _, (put 0x1000 (leBytes 8 0x3000 ++ leBytes 8 0x3040 ++ leBytes 4 0 ++ leBytes 4 1 ++ zeros 8) (rec1 0 (record 0x12 0 0 [(8, 0), (8, 0x1000), (8, 0x2000), (2, 1), (2, 1), (2, 1), (2, 2), (1, 0), (1, 1), (2, 0), (4, 0), (4, 0)]) (atBound up))), _, _, _, rfl, someGet (by decide +kernel), by decide +kernel, tripleEq (by decide +kernel), by decide +kernel, by decide +kernel, by decide +kernel, by decide +kernel, rfl, rfl, by decide +kernel, by decide +kernel⟩,
   ⟨1000, _, 5, 0, [], _, _, (put 0x1000 (leBytes 2 4095) (rec1 0 (record 0x13 0 0 [(8, 0), (8, 0x1000), (8, 0x2000), (4, 1), (2, 1), (1, 0), (1, 0), (4, 0x3F800000), (4, 0), (4, 0x3F800000)]) (withTokens strm0 (atBound up)))), _, _, _, rfl, someGet (by decide +kernel), by decide +kernel, tripleEq (by decide +kernel), by decide +kernel, by decide +kernel, by decide +kernel, by decide +kernel, rfl, rfl, by decide +kernel, by decide +kernel⟩,
   ⟨1000, _, 5, 0, [], _, _, (rec1 0 (record 0x14 0 0 [(8, 0), (8, 64), (8, 1), (1, 0), (3, 0), (4, 0)]) (atBound up)), _, _, _, rfl, someGet (by decide +kernel), by decide +kernel, tripleEq (by decide +kernel), by decide +kernel, by decide +kernel, by decide +kernel, by decide +kernel, rfl, rfl, by decide +kernel, by decide +kernel⟩,
   ⟨1000, _, 5, 4, [], [], _, _, (rec1 4 (record 0x20 0 0 [(8, 0), (8, 64), (4, 64), (1, 0), (1, 0), (2, 0)]) (atBound up)), _, _, _, rfl, someGet (by decide +kernel), by decide +kernel, tripleEq (by decide +kernel), by decide +kernel, by decide +kernel, by decide +kernel, by decide +kernel, rfl, rfl, by decide +kernel, by decide +kernel⟩,
   ⟨1000, _, 5, 4, [], _, _, (rec1 4 (record 0x21 0 0 [(8, 64), (1, 0), (3, 0), (4, 0), (4, 4)]) (atBound up)), _, _, _, rfl, someGet (by decide +kernel), by decide +kernel, tripleEq (by decide +kernel), by decide +kernel, by decide +kernel, by decide +kernel, by decide +kernel, rfl, rfl, by decide +kernel, by decide +kernel⟩,
   ⟨1000, _, 5, 12, [], _, _, (withQueue 12 1 (record 0x40 0 0 [(4, 1), (4, 4), (8, 0x3000), (4, 4), (4, 0), (8, 0x4000)]) (withTokens strm0 (atBound up))), _, _, _, rfl, someGet (by decide +kernel), by decide +kernel, tripleEq (by decide +kernel), by decide +kernel, by decide +kernel, by decide +kernel, by decide +kernel, rfl, rfl, by decide +kernel, by decide +kernel⟩,
   ⟨1000, _, 5, 12, [], _, _, (put 0x3000 (leBytes 2 4095 ++ zeros 2 ++ leBytes 4 3) (withQueue 12 1 (record 0x41 0 0 [(2, 1), (6, 0), (8, 0x3000), (8, 0x4000), (4, 256), (4, 0), (8, 0x5000)]) (withTokens strm0 (atBound up)))), _, _, _, rfl, someGet (by decide +kernel), by decide +kernel, tripleEq (by decide +kernel), by decide +kernel, by decide +kernel, by decide +kernel, by decide +kernel, rfl, rfl, by decide +kernel, by decide +kernel⟩,
   ⟨1000, _, 5, 0, [], _, _, (rec1 0 (record 0x10 0 0 [(8, 0), (8, 64), (8, 128), (4, 1), (4, 1), (2, 1), (1, 0), (1, 0), (2, 0), (2, 0), (4, 0x3F800000)]) (atBound up)), _, _, _, rfl, someGet (by decide +kernel), by decide +kernel, tripleEq (by decide +kernel), by decide +kernel, by decide +kernel, by decide +kernel, by decide +kernel, rfl, rfl, by decide +kernel, by decide +kernel, by decide +kernel⟩,
   ⟨1000, _, 5, 8, [], _, _, (rec1 8 (record 0x30 0 0 [(2, 255), (1, 2), (1, 0), (1, 0), (1, 0), (2, 0), (8, 0), (8, 64), (8, 2), (8, 0)]) (atBound (withGroup grp0 up))), _, _, _, rfl, someGet (by decide +kernel), by decide +kernel, tripleEq (by decide +kernel), by decide +kernel, by decide +kernel, by decide +kernel, by decide +kernel, rfl, rfl, by decide +kernel, by decide +kernel, by decide +kernel⟩,
   ⟨{ up with twn := { up.twn with regions := [(0, { Region.make 1 5 1 0 0x400000 false true with captured := 1 })] } }, { up with twn := { up.twn with regions := [(0, { Region.make 1 5 1 0 0x400000 false true with captured := 2 })] } }, ((0 : Nat), { Region.make 1 5 1 0 0x400000 false true with captured := 1 }), ({ Region.make 1 5 1 0 0x400000 false true with captured := 2 }), by decide +kernel, by decide +kernel, by decide +kernel, by decide +kernel, by decide +kernel, by decide +kernel, by decide +kernel⟩⟩

/-- States and operands that meet the hypotheses of RecordEventsComplete, clause by clause. -/
theorem wit_RecordEventsComplete :
    (∃ (t : Nat) (n : Fin 128) (q : Fin 16) (host : Bytes) (b : Bytes) (x : Queue) (s₀ : State) (s : State) (word : Nat) (s' : State), s = s₀.at t ∧ queue s n q = some x ∧ x.started ≠ x.tail ∧ fetchRec n x host s = (stOk, b, s') ∧ startMet s n q x b = true ∧ chainSkips x b = some word) ∧
    (∃ (t : Nat) (n : Fin 128) (q : Fin 16) (x : Queue) (s₀ : State) (s : State) (num : BitVec 32) (r : Running), s = s₀.at t ∧ queue s n q = some x ∧ x.held = false ∧ planeRuns s = true ∧ boughHalted s n q = false ∧ running s n q num.toNat = some r ∧ r.done = true ∧ mirrorsDone s r.mirrors = true ∧ LagClear s) ∧
    (∃ (t : Nat) (n : Fin 128) (q : Fin 16) (x : Queue) (s₀ : State) (s : State), s = s₀.at t ∧ queue s n q = some x ∧ x.host = true ∧ x.started ≠ x.tail ∧ x.faulted = false ∧ planeRuns s = true) ∧
    (∃ (t : Nat) (n : Fin 128) (q : Fin 16) (host : Bytes) (b : Bytes) (x : Queue) (s₀ : State) (s : State) (num : Nat) (s' : State) (s₁ : State), s = s₀.at t ∧ queue s n q = some x ∧ RecordStarts 0x20 n q host b x s s' ∧ (x.host = true → host ≠ []) ∧ num = x.started.toNat ∧ s₁ = beginRecord n q x b s' ∧ copyReserved b = true ∧ copyRanges b = true ∧ copyOperands s₁ n b = true ∧ u8At b 36 = 3) :=
  ⟨⟨0, 5, 0, [], _, _, (modQueue 5 0 (fun x => { x with started := 1, tail := 2, recent := [(0, stBadArg, false)] }) (rec1 0 (zeros 64 ++ record 0 32 0 []) up)), _, _, _, rfl, someGet (by decide +kernel), by decide +kernel, tripleEq (by decide +kernel), by decide +kernel, someGet (by decide +kernel)⟩,
   ⟨0, 5, 0, _, (modQueue 5 0 (fun x => { x with running := [{ Running.fresh 0 0 [] with done := true }] }) (rec1 0 (record 0 32 0 []) up)), _, 0, _, rfl, someGet (by decide +kernel), by decide +kernel, by decide +kernel, by decide +kernel, someGet (by decide +kernel), by decide +kernel, by decide +kernel, (by unfold LagClear; decide +kernel)⟩,
   ⟨0, 5, 0, _, (modQueue 5 0 (fun x => { x with host := true }) (rec1 0 (record 0 32 0 []) up)), _, rfl, someGet (by decide +kernel), by decide +kernel, by decide +kernel, by decide +kernel, by decide +kernel⟩,
   ⟨0, 5, 4, [], _, _, (rec1 4 (record 0x20 0 0 [(8, 0), (8, 64), (4, 64), (1, 3), (1, 0), (2, 0)]) up), _, _, _, _, rfl, someGet (by decide +kernel), ⟨someGet (by decide +kernel), by decide +kernel, tripleEq (by decide +kernel), by decide +kernel, by decide +kernel, by decide +kernel, by decide +kernel, by decide +kernel, by unfold LagClear; decide +kernel⟩, by decide +kernel, rfl, rfl, by decide +kernel, by decide +kernel, by decide +kernel, by decide +kernel⟩⟩

/-- States and operands that meet the hypotheses of MaskEventsComplete, clause by clause. -/
theorem wit_MaskEventsComplete :
    (∃ (t : Nat) (id : Nat) (x : Stream) (g : Image) (v : Image) (m : Nat × Nat × State) (s₀ : State) (s : State) (s₁ : State), s = s₀.at t ∧ strm s id = some x ∧ strmTables s x = some (g, v) ∧ planeRuns s = true ∧ inBuild s id = true ∧ m = confMask g v x.conf s ∧ s₁ = modTke (fun k => { k with masks := sat32 (k.masks + 1), masksLate := if x.maskAt + maskDeadline g < s.now then sat32 (k.masksLate + 1) else k.masksLate, maskNsMax := max k.maskNsMax (sat32 (s.now - x.maskAt)) }) m.2.2 ∧ m.1 = stOk) ∧
    (∃ (t : Nat) (id : Nat) (x : Stream) (g : Image) (v : Image) (m : Nat × Nat × State) (s₀ : State) (s : State) (s₁ : State), s = s₀.at t ∧ strm s id = some x ∧ strmTables s x = some (g, v) ∧ planeRuns s = true ∧ inBuild s id = true ∧ m = confMask g v x.conf s ∧ s₁ = modTke (fun k => { k with masks := sat32 (k.masks + 1), masksLate := if x.maskAt + maskDeadline g < s.now then sat32 (k.masksLate + 1) else k.masksLate, maskNsMax := max k.maskNsMax (sat32 (s.now - x.maskAt)) }) m.2.2 ∧ m.1 ≠ stOk) ∧
    (∃ (t : Nat) (id : Nat) (x : Stream) (g : Image) (v : Image) (m : Nat × Nat × State) (s₀ : State) (s : State) (c : AutoConf) (s' : State), s = s₀.at t ∧ strm s id = some x ∧ strmTables s x = some (g, v) ∧ planeRuns s = true ∧ x.runAhead = true ∧ x.maskReady = true ∧ x.halted = false ∧ s.pwr.runAheadOff = false ∧ (s.tke.streams.any fun y => buildsMask y.2) = false ∧ successors g x.conf s = ([c], s') ∧ (x.built.any fun b => b.1 == c) = false ∧ m = confMask g v c s' ∧ m.1 = stOk) :=
  ⟨⟨0, 4095, _, _, _, _, (withTokens { strm0 with maskReady := false } up), _, _, rfl, someGet (by decide +kernel), somePair (by decide +kernel), by decide +kernel, by decide +kernel, rfl, rfl, by decide +kernel⟩,
   ⟨0, 4095, _, _, _, _, (withTokens { strm0 with maskReady := false } (modMm (fun m => { m with fault := [2000 * 32768 + 129] }) up)), _, _, rfl, someGet (by decide +kernel), somePair (by decide +kernel), by decide +kernel, by decide +kernel, rfl, rfl, by decide +kernel⟩,
   ⟨0, 4095, _, _, _, _, (withTokens strm0 up), _, { state := 0, stack := [] }, _, rfl, someGet (by decide +kernel), somePair (by decide +kernel), by decide +kernel, by decide +kernel, by decide +kernel, by decide +kernel, by decide +kernel, by decide +kernel, pairEq (by decide +kernel), by decide +kernel, rfl, by decide +kernel⟩⟩

/-- States and operands that meet the hypotheses of TransactionEventsComplete, clause by clause. -/
theorem wit_TransactionEventsComplete :
    (∃ (t : Nat) (s₀ : State) (s : State) (m : InMsg) (s' : State), s = s₀.at t ∧ cutStopped s = false ∧ takeMsg (fun m => isTxnMsg m && !isResponse m && !isTransit s m) s = some (m, s') ∧ s.txn.chip.isSome = true ∧ LagClear s) ∧
    (∃ (t : Nat) (s₀ : State) (s : State) (m : InMsg) (s' : State), s = s₀.at t ∧ cutStopped s = false ∧ takeMsg (fun m => isTxnMsg m && !isResponse m && !isTransit s m) s = some (m, s') ∧ s.txn.chip = none) ∧
    (∃ (t : Nat) (s₀ : State) (s : State) (h : HeldRsp) (s₁ : State), s = s₀.at t ∧ (s.txn.held.find? fun h => h.denial && decide (h.acceptedAt + 1000 ≤ s.now)) = some h ∧ s₁ = sendResponse (TxnHdr.of h.bytes) 1 [] (modTxn (fun x => { x with held := x.held.erase h }) { s with now := min s.now (h.acceptedAt + 1050) })) ∧
    (∃ (t : Nat) (s₀ : State) (s : State) (m : InMsg) (s' : State), s = s₀.at t ∧ cutStopped s = false ∧ takeMsg (fun m => isTxnMsg m && isResponse m && !isTransit s m) s = some (m, s') ∧ s.txn.chip.isSome = true ∧ LagClear s) ∧
    (∃ (t : Nat) (s₀ : State) (s : State) (m : InMsg) (s' : State), s = s₀.at t ∧ cutStopped s = false ∧ takeMsg (fun m => isTxnMsg m && isResponse m && !isTransit s m) s = some (m, s') ∧ s.txn.chip = none) ∧
    (∃ (t : Nat) (s₀ : State) (s : State) (m : InMsg) (s' : State), s = s₀.at t ∧ takeMsg (fun m => isBadGrove m || isGroveTransit s m || (!cutStopped s && isTransit s m && !transitBlocked s m)) s = some (m, s') ∧ isBadGrove m = true) ∧
    (∃ (t : Nat) (s₀ : State) (s : State) (m : InMsg) (s' : State), s = s₀.at t ∧ takeMsg (fun m => isBadGrove m || isGroveTransit s m || (!cutStopped s && isTransit s m && !transitBlocked s m)) s = some (m, s') ∧ isBadGrove m = false ∧ m.typ = 2) ∧
    (∃ (t : Nat) (s₀ : State) (s : State) (m : InMsg) (s' : State) (c : Nat), s = s₀.at t ∧ takeMsg (fun m => isBadGrove m || isGroveTransit s m || (!cutStopped s && isTransit s m && !transitBlocked s m)) s = some (m, s') ∧ isBadGrove m = false ∧ m.typ ≠ 2 ∧ msgDest m = some c) ∧
    (∃ (t : Nat) (s₀ : State) (s : State) (tag : Nat) (t0 : Nat) (x : Txn), s = s₀.at t ∧ tget tag s.txn.txns = some x ∧ x.sentAt = some t0 ∧ t0 + remoteT s ≤ s.now ∧ cutStopped s = false) ∧
    (∃ (t : Nat) (s₀ : State) (s : State) (lim : Nat), s = s₀.at t ∧ lim = s.now - remoteT s ∧ cutStopped s = false) ∧
    (∃ (t : Nat) (s₀ : State) (s : State) (m : InMsg), s = s₀.at t ∧ cutStopped s = false ∧ s.txn.inbox = [m] ∧ m.port.isSome = true ∧ m.at_ < s.now - remoteT s ∧ (∀ p v : Fin 8, (vcTx s p v).queue = [] ∧ (vcRx s p v).flits = [])) ∧
    (∃ (t : Nat) (s₀ : State) (s : State), s = s₀.at t ∧ cutStopped s = true) ∧
    (∃ (t : Nat) (s₀ : State) (s : State) (tag : Nat) (t0 : Nat), s = s₀.at t ∧ tget tag s.txn.quarantine = some t0 ∧ t0 + 32 * remoteT s ≤ s.now) ∧
    (∃ (t : Nat) (s₀ : State) (s : State), s = s₀.at t) :=
  ⟨⟨0, (gotMsg (msg0 1 1 hdr0.bytes) (inGrove port0 (withPart up))), _, _, _, rfl, by decide +kernel, somePair (by decide +kernel), by decide +kernel, (by unfold LagClear; decide +kernel)⟩,
   ⟨0, (gotMsg (msg0 1 1 hdr0.bytes) (withPart up)), _, _, _, rfl, by decide +kernel, somePair (by decide +kernel), by decide +kernel⟩,
   ⟨1000, (modTxn (fun x => { x with held := [{ bytes := hdr0.bytes, acceptedAt := 0, denial := true, mirrors := [], part := 5 }] }) up), _, _, _, rfl, someGet (by decide +kernel), rfl⟩,
   ⟨0, (gotMsg (msg0 1 1 (TxnHdr.bytes { hdr0 with op := 0x81, srcChip := 1 })) (inGrove port0 (withPart up))), _, _, _, rfl, by decide +kernel, somePair (by decide +kernel), by decide +kernel, (by unfold LagClear; decide +kernel)⟩,
   ⟨0, (gotMsg (msg0 1 1 (TxnHdr.bytes { hdr0 with op := 0x81, srcChip := 1 })) (withPart up)), _, _, _, rfl, by decide +kernel, somePair (by decide +kernel), by decide +kernel⟩,
   ⟨0, (gotMsg (msg0 4 2 (leBytes 1 0x9C ++ leBytes 2 1 ++ leBytes 2 2 ++ [0, 0, 0, 0])) (inGrove port0 up)), _, _, _, rfl, somePair (by decide +kernel), by decide +kernel⟩,
   ⟨0, (gotMsg (msg0 4 2 (leBytes 1 0x81 ++ leBytes 2 3 ++ leBytes 2 2 ++ [0, 0, 0, 0])) (inGrove port0 up)), _, _, _, rfl, somePair (by decide +kernel), by decide +kernel, by decide +kernel⟩,
   ⟨0, (gotMsg (msg0 1 1 (TxnHdr.bytes { hdr0 with addr := 0x83000000000000 })) (inGrove port0 up)), _, _, _, 2, rfl, somePair (by decide +kernel), by decide +kernel, by decide +kernel, by decide +kernel⟩,
   ⟨2000000, (modTxn (fun x => { x with txns := [(4095, txn0)] }) (withPart up)), _, 4095, 0, _, rfl, someGet (by decide +kernel), by decide +kernel, by decide +kernel, by decide +kernel⟩,
   ⟨4000001, (gotMsg (msg0 1 1 []) up), _, _, rfl, rfl, by decide +kernel⟩,
   ⟨4000001, (gotMsg (msg0 1 1 []) up), _, (msg0 1 1 []), rfl, by decide +kernel, by decide +kernel, by decide +kernel, by decide +kernel, by decide +kernel⟩,
   ⟨0, (modCut (fun c => { c with st := .firing }) up), _, rfl, by decide +kernel⟩,
   ⟨64000000, (modTxn (fun x => { x with quarantine := [(4095, 0)] }) up), _, 4095, 0, rfl, by decide +kernel, by decide +kernel⟩,
   ⟨0, up, _, rfl⟩⟩

/-- States and operands that meet the hypotheses of FlitEventsComplete, clause by clause. -/
theorem wit_FlitEventsComplete :
    (∃ (t : Nat) (p : Fin 8) (v : Fin 8) (l : Link) (s₀ : State) (s : State), s = s₀.at t ∧ l = (port s p).link ∧ (port s p).phys.st = 9 ∧ ((fins 8).any fun v => !(vcTx s p v).queue.isEmpty) = true) ∧
    (∃ (t : Nat) (p : Fin 8) (l : Link) (s₀ : State) (s : State) (w : Fin 8) (turn : Nat) (m : TxMsg), s = s₀.at t ∧ l = (port s p).link ∧ composes s p = true ∧ (l.resend.bind fun a => l.replay.find? fun f => f.seq == a) = none ∧ seqDist l.oldest l.next < 2048 ∧ pickVc s p = some (w, turn) ∧ nextMsg l w = some m) ∧
    (∃ (t : Nat) (p : Fin 8) (l : Link) (s₀ : State) (s : State), s = s₀.at t ∧ l = (port s p).link ∧ composes s p = true ∧ (l.resend.bind fun a => l.replay.find? fun f => f.seq == a) = none ∧ (2048 ≤ seqDist l.oldest l.next ∨ (pickVc s p = none ∧ (l.needNull = true ∨ l.nakDue = true)))) ∧
    (∃ (t : Nat) (p : Fin 8) (l : Link) (s₀ : State) (s : State) (f : SentFlit), s = s₀.at t ∧ l = (port s p).link ∧ composes s p = true ∧ (l.resend.bind fun a => l.replay.find? fun f => f.seq == a) = some f ∧ l.sinceNull < 256) ∧
    (∃ (t : Nat) (p : Fin 8) (l : Link) (s₀ : State) (s : State) (f : SentFlit), s = s₀.at t ∧ l = (port s p).link ∧ composes s p = true ∧ (l.resend.bind fun a => l.replay.find? fun f => f.seq == a) = some f ∧ 256 ≤ l.sinceNull) ∧
    (∃ (t : Nat) (p : Fin 8) (l : Link) (s₀ : State) (s : State) (w : Bytes) (laneErrs : List (Fin 9)) (s₁ : State) (h : FlitHdr), s = s₀.at t ∧ l = (port s p).link ∧ (port s p).phys.st = 8 ∧ s₁ = laneErrs.foldl (fun s l => symbolError p l s) s ∧ composes s₁ p = true ∧ w.length = 272 ∧ h = FlitHdr.of (unstripe w) ∧ badSlices w ≠ []) ∧
    (∃ (t : Nat) (p : Fin 8) (l : Link) (s₀ : State) (s : State) (w : Bytes) (laneErrs : List (Fin 9)) (s₁ : State) (h : FlitHdr) (pl : Bytes), s = s₀.at t ∧ l = (port s p).link ∧ (port s p).phys.st = 8 ∧ s₁ = laneErrs.foldl (fun s l => symbolError p l s) s ∧ composes s₁ p = true ∧ w.length = 272 ∧ h = FlitHdr.of (unstripe w) ∧ badSlices w = [] ∧ authFlit l s.now (unstripe w) = .clear pl) ∧
    (∃ (t : Nat) (p : Fin 8) (l : Link) (s₀ : State) (s : State) (w : Bytes) (laneErrs : List (Fin 9)) (s₁ : State) (h : FlitHdr) (pl : Bytes), s = s₀.at t ∧ l = (port s p).link ∧ (port s p).phys.st = 8 ∧ s₁ = laneErrs.foldl (fun s l => symbolError p l s) s ∧ composes s₁ p = true ∧ w.length = 272 ∧ h = FlitHdr.of (unstripe w) ∧ badSlices w = [] ∧ (authFlit l s.now (unstripe w) = .current pl ∨ authFlit l s.now (unstripe w) = .previous pl)) ∧
    (∃ (t : Nat) (p : Fin 8) (l : Link) (s₀ : State) (s : State) (w : Bytes) (laneErrs : List (Fin 9)) (s₁ : State) (h : FlitHdr) (pl : Bytes), s = s₀.at t ∧ l = (port s p).link ∧ (port s p).phys.st = 8 ∧ s₁ = laneErrs.foldl (fun s l => symbolError p l s) s ∧ composes s₁ p = true ∧ w.length = 272 ∧ h = FlitHdr.of (unstripe w) ∧ badSlices w = [] ∧ authFlit l s.now (unstripe w) = .next pl) ∧
    (∃ (t : Nat) (p : Fin 8) (l : Link) (s₀ : State) (s : State) (w : Bytes) (laneErrs : List (Fin 9)) (s₁ : State) (s₂ : State) (h : FlitHdr) (recent : List Nat), s = s₀.at t ∧ l = (port s p).link ∧ (port s p).phys.st = 8 ∧ s₁ = laneErrs.foldl (fun s l => symbolError p l s) s ∧ composes s₁ p = true ∧ w.length = 272 ∧ h = FlitHdr.of (unstripe w) ∧ badSlices w = [] ∧ authFlit l s.now (unstripe w) = .bad ∧ recent = l.tagFailTimes.filter (fun t => decide (s.now < t + 1000000)) ++ [s.now] ∧ s₂ = modLink p (fun l => needNak s.now { l with killed := sat32 (l.killed + 1) }) (modLink p (fun l => { l with tagFail := sat32 (l.tagFail + 1), tagFailTimes := recent }) s₁)) ∧
    (∃ (t : Nat) (p : Fin 8) (l : Link) (s₀ : State) (s : State), s = s₀.at t ∧ l = (port s p).link ∧ l.nakPending = true ∧ l.nakDue = false ∧ l.nakAt + 4000 ≤ s.now) ∧
    (∃ (t : Nat) (p : Fin 8) (l : Link) (s₀ : State) (s : State), s = s₀.at t ∧ l = (port s p).link ∧ (64 ≤ l.ackCount ∨ (0 < l.ackCount ∧ l.ackFirst + 500 ≤ s.now))) ∧
    (∃ (t : Nat) (p : Fin 8) (l : Link) (s₀ : State) (s : State), s = s₀.at t ∧ l = (port s p).link ∧ composes s p = true ∧ l.replay ≠ [] ∧ l.timer + 10000 ≤ s.now ∧ l.replays < 16) ∧
    (∃ (t : Nat) (p : Fin 8) (l : Link) (s₀ : State) (s : State), s = s₀.at t ∧ l = (port s p).link ∧ composes s p = true ∧ l.replay ≠ [] ∧ l.timer + 10000 ≤ s.now ∧ 16 ≤ l.replays) ∧
    (∃ (t : Nat) (p : Fin 8) (l : Link) (s₀ : State) (s : State), s = s₀.at t ∧ l = (port s p).link ∧ composes s p = true ∧ l.lastSent + 1000 ≤ s.now) ∧
    (∃ (t : Nat) (p : Fin 8) (l : Link) (s₀ : State) (s : State), s = s₀.at t ∧ l = (port s p).link ∧ composes s p = true ∧ l.lastIntact + (vget s.cfg.ports p).downUs * 1000 ≤ s.now) ∧
    (∃ (t : Nat) (p : Fin 8) (v : Fin 8) (l : Link) (s₀ : State) (s : State) (f : LandFlit) (x : LandFlit × State), s = s₀.at t ∧ l = (port s p).link ∧ ((vcRx s p v).flits.find? fun f => !f.ring) = some f ∧ (f.at_ + 2000 ≤ s.now ∨ 192 ≤ slotsUsed s p v) ∧ ringFill s p v < ringSize s p v ∧ x = spillFlit p v f s) ∧
    (∃ (t : Nat) (p : Fin 8) (v : Fin 8) (l : Link) (s₀ : State) (s : State) (f : LandFlit), s = s₀.at t ∧ l = (port s p).link ∧ ((vcRx s p v).flits.find? fun f => !f.ring) = some f ∧ (f.at_ + 2000 ≤ s.now ∨ 192 ≤ slotsUsed s p v) ∧ ringSize s p v ≤ ringFill s p v ∧ (vcRx s p v).wedged = false ∧ l.st ≠ .down) ∧
    (∃ (t : Nat) (p : Fin 8) (v : Fin 8) (l : Link) (s₀ : State) (s : State) (f : LandFlit) (rest : List LandFlit) (b : Bytes), s = s₀.at t ∧ l = (port s p).link ∧ (vcRx s p v).flits = f :: rest ∧ v ≠ 4 ∧ b = (vcRx s p v).asm ++ landedPayload s p v f ∧ (v = 7 ∨ (cutStopped s = false ∧ (s.txn.inbox.any fun m => m.port == some p && m.vc == v.val) = false ∧ (isTransit s { port := some p, vc := v.val, typ := f.typ, bytes := b, at_ := f.at_ } && transitBlocked s { port := some p, vc := v.val, typ := f.typ, bytes := b, at_ := f.at_ }) = false)) ∧ f.last = true) ∧
    (∃ (t : Nat) (p : Fin 8) (v : Fin 8) (l : Link) (s₀ : State) (s : State) (f : LandFlit) (rest : List LandFlit) (b : Bytes), s = s₀.at t ∧ l = (port s p).link ∧ (vcRx s p v).flits = f :: rest ∧ v ≠ 4 ∧ b = (vcRx s p v).asm ++ landedPayload s p v f ∧ (v = 7 ∨ (cutStopped s = false ∧ (s.txn.inbox.any fun m => m.port == some p && m.vc == v.val) = false ∧ (isTransit s { port := some p, vc := v.val, typ := f.typ, bytes := b, at_ := f.at_ } && transitBlocked s { port := some p, vc := v.val, typ := f.typ, bytes := b, at_ := f.at_ }) = false)) ∧ f.last = false) ∧
    (∃ (t : Nat) (p : Fin 8) (l : Link) (s₀ : State) (s : State) (f : LandFlit) (rest : List LandFlit) (a : Option CtrlAsm) (s₁ : State) (b : Bytes), s = s₀.at t ∧ l = (port s p).link ∧ (vcRx s p 4).flits = f :: rest ∧ s₁ = modRx p 4 (fun r => { r with flits := rest }) s ∧ takeCtrl (port s₁ p).link.ctrlAsm (landedPayload s₁ p 4 f) = some (a, some b)) ∧
    (∃ (t : Nat) (p : Fin 8) (l : Link) (s₀ : State) (s : State) (f : LandFlit) (rest : List LandFlit) (a : Option CtrlAsm) (s₁ : State), s = s₀.at t ∧ l = (port s p).link ∧ (vcRx s p 4).flits = f :: rest ∧ s₁ = modRx p 4 (fun r => { r with flits := rest }) s ∧ takeCtrl (port s₁ p).link.ctrlAsm (landedPayload s₁ p 4 f) = some (a, none)) ∧
    (∃ (t : Nat) (p : Fin 8) (l : Link) (s₀ : State) (s : State) (f : LandFlit) (rest : List LandFlit) (s₁ : State), s = s₀.at t ∧ l = (port s p).link ∧ (vcRx s p 4).flits = f :: rest ∧ s₁ = modRx p 4 (fun r => { r with flits := rest }) s ∧ takeCtrl (port s₁ p).link.ctrlAsm (landedPayload s₁ p 4 f) = none ∧ l.st ≠ .down) ∧
    (∃ (t : Nat) (p : Fin 8) (v : Fin 8) (l : Link) (s₀ : State) (s : State) (t0 : Nat), s = s₀.at t ∧ l = (port s p).link ∧ (vcTx s p v).stallAt = some t0 ∧ t0 + 1000 ≤ s.now) ∧
    (∃ (t : Nat) (p : Fin 8) (v : Fin 8) (l : Link) (s₀ : State) (s : State), s = s₀.at t ∧ l = (port s p).link ∧ (vcRx s p v).wedged = true ∧ s.root.alive = true ∧ (vcRx s p v).flits = [] ∧ parkedFlits s p v = 0 ∧ (vcRx s p v).emptyAt + 200000 ≤ s.now) ∧
    (∃ (t : Nat) (p : Fin 8) (l : Link) (s₀ : State) (s : State), s = s₀.at t ∧ l = (port s p).link ∧ composes s p = true ∧ l.mode = 0 ∧ 0x80000000 ≤ l.txCount) :=
  ⟨⟨0, 7, 7, _, (withPort 7 { (portL fun l => { l with tx := vset l.tx 7 { vget l.tx 7 with queue := [{ bytes := zeros 12, sent := 0, typ := 2, part := 0, tag := none, since := 0 }] } }) with phys := { port0.phys with st := 9 } } up), _, rfl, rfl, by decide +kernel, by decide +kernel⟩,
   ⟨0, 7, _, (withPort 7 (portL fun l => { l with tx := vset l.tx 7 { vget l.tx 7 with queue := [{ bytes := zeros 12, sent := 0, typ := 2, part := 0, tag := none, since := 0 }] } }) up), _, _, _, _, rfl, rfl, by decide +kernel, by decide +kernel, by decide +kernel, somePair (by decide +kernel), someGet (by decide +kernel)⟩,
   ⟨0, 7, _, (withPort 7 (portL fun l => { l with needNull := true }) up), _, rfl, rfl, by decide +kernel, by decide +kernel, by decide +kernel⟩,
   ⟨0, 7, _, (withPort 7 (portL fun l => { l with resend := some 4095, sinceNull := 255, replay := [{ seq := 4095, bytes := [], msg := none }] }) up), _, { seq := 4095, bytes := [], msg := none }, rfl, rfl, by decide +kernel, by decide +kernel, by decide +kernel⟩,
   ⟨0, 7, _, (withPort 7 (portL fun l => { l with resend := some 4095, sinceNull := 256, replay := [{ seq := 4095, bytes := [], msg := none }] }) up), _, { seq := 4095, bytes := [], msg := none }, rfl, rfl, by decide +kernel, by decide +kernel, by decide +kernel⟩,
   ⟨0, 7, _, (withPort 7 (portL fun l => { l with replays := 0 }) up), _, (zeros 272), [8], _, _, rfl, rfl, by decide +kernel, rfl, by decide +kernel, by decide +kernel, rfl, by decide +kernel⟩,
   ⟨0, 7, _, (withPort 7 (portL fun l => { l with st := .securing, mode := 2 }) up), _, (stripe (sealFlit 2 none (nullHdr 0) [])), [], _, _, (zeros 224), rfl, rfl, by decide +kernel, rfl, by decide +kernel, by decide +kernel, rfl, by decide +kernel, by decide +kernel⟩,
   ⟨0, 7, _, (withPort 7 (portL fun l => { l with replays := 0 }) up), _, (stripe (sealFlit 0 none (nullHdr 0) [])), [], _, _, (zeros 240), rfl, rfl, by decide +kernel, rfl, by decide +kernel, by decide +kernel, rfl, by decide +kernel, by decide +kernel⟩,
   ⟨0, 7, _, (withPort 7 (portL fun l => { l with mode := 1, txKey := some (key0 0), rxKey := some (key0 0), nextRx := some (key0 1) }) up), _, flit1, [], _, _, (zeros 224), rfl, rfl, by decide +kernel, rfl, by decide +kernel, by decide +kernel, rfl, by decide +kernel, by decide +kernel⟩,
   ⟨0, 7, _, (withPort 7 (portL fun l => { l with mode := 1, txKey := some (key0 0), rxKey := some (key0 0) }) up), _, flit1, [], _, _, _, _, rfl, rfl, by decide +kernel, rfl, by decide +kernel, by decide +kernel, rfl, by decide +kernel, by decide +kernel, rfl, rfl⟩,
   ⟨4000, 7, _, (withPort 7 (portL fun l => { l with nakPending := true }) up), _, rfl, rfl, by decide +kernel, by decide +kernel, by decide +kernel⟩,
   ⟨500, 7, _, (withPort 7 (portL fun l => { l with ackCount := 1 }) up), _, rfl, rfl, by decide +kernel⟩,
   ⟨10000, 7, _, (withPort 7 (portL fun l => { l with replay := [{ seq := 4095, bytes := [], msg := none }], replays := 15 }) up), _, rfl, rfl, by decide +kernel, by decide +kernel, by decide +kernel, by decide +kernel⟩,
   ⟨10000, 7, _, (withPort 7 (portL fun l => { l with replay := [{ seq := 4095, bytes := [], msg := none }], replays := 16 }) up), _, rfl, rfl, by decide +kernel, by decide +kernel, by decide +kernel, by decide +kernel⟩,
   ⟨1000, 7, _, (withPort 7 (portL fun l => { l with replays := 0 }) up), _, rfl, rfl, by decide +kernel, by decide +kernel⟩,
   ⟨20000, 7, _, (withPort 7 (portL fun l => { l with replays := 0 }) up), _, rfl, rfl, by decide +kernel, by decide +kernel⟩,
   ⟨2000, 7, 7, _, (withPort 7 (portL fun l => { l with rx := vset l.rx 7 { vget l.rx 7 with flits := [{ typ := 1, hdr := zeros 16, payload := zeros 240, at_ := 0, last := true, ring := false, entry := 0, sealed_ := false }] } }) up), _, { typ := 1, hdr := zeros 16, payload := zeros 240, at_ := 0, last := true, ring := false, entry := 0, sealed_ := false }, _, rfl, rfl, by decide +kernel, by decide +kernel, by decide +kernel, rfl⟩,
   ⟨2000, 7, 7, _, { (withPort 7 (portL fun l => { l with rx := vset l.rx 7 { vget l.rx 7 with flits := [{ typ := 1, hdr := zeros 16, payload := zeros 240, at_ := 0, last := true, ring := true, entry := 0, sealed_ := false }, { typ := 1, hdr := zeros 16, payload := zeros 240, at_ := 0, last := true, ring := false, entry := 0, sealed_ := false }] } }) up) with cfg := { Cfg.default with ports := vset Cfg.default.ports 7 { PortCfg.default with spillLog2 := Vector.replicate 8 8 } } }, _, { typ := 1, hdr := zeros 16, payload := zeros 240, at_ := 0, last := true, ring := false, entry := 0, sealed_ := false }, rfl, rfl, by decide +kernel, by decide +kernel, by decide +kernel, by decide +kernel, by decide +kernel⟩,
   ⟨0, 7, 7, _, (withPort 7 (portL fun l => { l with rx := vset l.rx 7 { vget l.rx 7 with flits := [{ typ := 1, hdr := zeros 16, payload := zeros 240, at_ := 0, last := true, ring := false, entry := 0, sealed_ := false }] } }) up), _, { typ := 1, hdr := zeros 16, payload := zeros 240, at_ := 0, last := true, ring := false, entry := 0, sealed_ := false }, [], _, rfl, rfl, by decide +kernel, by decide +kernel, rfl, by decide +kernel, by decide +kernel⟩,
   ⟨0, 7, 7, _, (withPort 7 (portL fun l => { l with rx := vset l.rx 7 { vget l.rx 7 with flits := [{ typ := 1, hdr := zeros 16, payload := zeros 240, at_ := 0, last := false, ring := false, entry := 0, sealed_ := false }] } }) up), _, { typ := 1, hdr := zeros 16, payload := zeros 240, at_ := 0, last := false, ring := false, entry := 0, sealed_ := false }, [], _, rfl, rfl, by decide +kernel, by decide +kernel, rfl, by decide +kernel, by decide +kernel⟩,
   ⟨0, 7, _, (withPort 7 (portL fun l => { l with rx := vset l.rx 4 { vget l.rx 4 with flits := [{ typ := 2, hdr := zeros 16, payload := [1, 0, 1, 0, 2, 0, 0, 0, 9, 9], at_ := 0, last := true, ring := false, entry := 0, sealed_ := false }] } }) up), _, { typ := 2, hdr := zeros 16, payload := [1, 0, 1, 0, 2, 0, 0, 0, 9, 9], at_ := 0, last := true, ring := false, entry := 0, sealed_ := false }, [], none, _, [1, 9, 9], rfl, rfl, by decide +kernel, rfl, by decide +kernel⟩,
   ⟨0, 7, _, (withPort 7 (portL fun l => { l with rx := vset l.rx 4 { vget l.rx 4 with flits := [{ typ := 2, hdr := zeros 16, payload := [1, 0, 2, 0, 4, 0, 0, 0, 9, 9], at_ := 0, last := true, ring := false, entry := 0, sealed_ := false }] } }) up), _, { typ := 2, hdr := zeros 16, payload := [1, 0, 2, 0, 4, 0, 0, 0, 9, 9], at_ := 0, last := true, ring := false, entry := 0, sealed_ := false }, [], (some { code := 1, segments := 2, length := 4, next := 1, bytes := [9, 9] }), _, rfl, rfl, by decide +kernel, rfl, by decide +kernel⟩,
   ⟨0, 7, _, (withPort 7 (portL fun l => { l with rx := vset l.rx 4 { vget l.rx 4 with flits := [{ typ := 2, hdr := zeros 16, payload := [1, 0, 1, 0, 4, 0, 0, 0, 9, 9], at_ := 0, last := true, ring := false, entry := 0, sealed_ := false }] } }) up), _, { typ := 2, hdr := zeros 16, payload := [1, 0, 1, 0, 4, 0, 0, 0, 9, 9], at_ := 0, last := true, ring := false, entry := 0, sealed_ := false }, [], _, rfl, rfl, by decide +kernel, rfl, by decide +kernel, by decide +kernel⟩,
   ⟨1000, 7, 7, _, (withPort 7 (portL fun l => { l with tx := vset l.tx 7 { vget l.tx 7 with stallAt := some 0 } }) up), _, 0, rfl, rfl, by decide +kernel, by decide +kernel⟩,
   ⟨200000, 7, 7, _, (withPort 7 (portL fun l => { l with rx := vset l.rx 7 { vget l.rx 7 with wedged := true } }) up), _, rfl, rfl, by decide +kernel, by decide +kernel, by decide +kernel, by decide +kernel, by decide +kernel⟩,
   ⟨0, 7, _, (withPort 7 (portL fun l => { l with txCount := 0x80000000 }) up), _, rfl, rfl, by decide +kernel, by decide +kernel, by decide +kernel⟩⟩

/-- States and operands that meet the hypotheses of HandshakeEventsComplete, clause by clause. -/
theorem wit_HandshakeEventsComplete :
    (∃ (t : Nat) (p : Fin 8) (l : Link) (s₀ : State) (s : State), s = s₀.at t ∧ l = (port s p).link ∧ composes s p = true ∧ s.root.alive = true ∧ l.mode ≠ 0 ∧ l.txKey.isSome = true ∧ l.shake = none ∧ l.epochAt + 1000000 ≤ s.now ∧ (l.rekeyDue = true ∨ l.rekeyWait.isSome = true ∨ 0x80000000 ≤ l.txCount ∨ (∃ k c : Nat, l.newest = some (k, c) ∧ k ≠ 4 ∧ 0x80000000 ≤ c) ∨ l.epochAt + 24 * 3600 * 1000000000 ≤ s.now)) ∧
    (∃ (t : Nat) (p : Fin 8) (l : Link) (b : Bytes) (s₀ : State) (s : State) (s' : State) (h : Handshake), s = s₀.at t ∧ l = (port s p).link ∧ takeShake p 1 s = some (b, s') ∧ composes s' p = true ∧ (l.shake.isSome = true ∨ l.txKey = none ∨ (s.root.alive = true ∧ l.epochAt + 1000000 ≤ s.now)) ∧ b.length = 140 ∧ zeroAt b 137 3 = true ∧ l.mode ≠ 0 ∧ l.shake.isSome = true ∧ (port s' p).link.shake = some h ∧ h.peer = none) ∧
    (∃ (t : Nat) (p : Fin 8) (l : Link) (b : Bytes) (s₀ : State) (s : State) (s' : State) (h : Handshake) (e : Nat), s = s₀.at t ∧ l = (port s p).link ∧ takeShake p 1 s = some (b, s') ∧ composes s' p = true ∧ (l.shake.isSome = true ∨ l.txKey = none ∨ (s.root.alive = true ∧ l.epochAt + 1000000 ≤ s.now)) ∧ b.length = 140 ∧ zeroAt b 137 3 = true ∧ l.mode ≠ 0 ∧ l.shake = none ∧ e = (if l.txKey.isSome then l.txEpoch + 1 else 0) ∧ u32At b 4 = e ∧ (port (startShake e p s') p).link.shake = some h) ∧
    (∃ (t : Nat) (p : Fin 8) (l : Link) (b : Bytes) (s₀ : State) (s : State) (s' : State), s = s₀.at t ∧ l = (port s p).link ∧ takeShake p 1 s = some (b, s') ∧ composes s' p = true ∧ (l.shake.isSome = true ∨ l.txKey = none ∨ (s.root.alive = true ∧ l.epochAt + 1000000 ≤ s.now)) ∧ (b.length ≠ 140 ∨ zeroAt b 137 3 = false)) ∧
    (∃ (t : Nat) (p : Fin 8) (l : Link) (b : Bytes) (s₀ : State) (s : State) (s' : State), s = s₀.at t ∧ l = (port s p).link ∧ takeShake p 1 s = some (b, s') ∧ composes s' p = true ∧ (l.shake.isSome = true ∨ l.txKey = none ∨ (s.root.alive = true ∧ l.epochAt + 1000000 ≤ s.now)) ∧ b.length = 140 ∧ zeroAt b 137 3 = true ∧ l.mode = 0) ∧
    (∃ (t : Nat) (p : Fin 8) (l : Link) (b : Bytes) (s₀ : State) (s : State) (s' : State) (h : Handshake) (q : Nat × Nat), s = s₀.at t ∧ l = (port s p).link ∧ takeShake p 2 s = some (b, s') ∧ composes s' p = true ∧ (port s' p).link.shake = some h ∧ h.peer.isSome = true ∧ h.proofOk = false ∧ b.length = 304 ∧ checkCert s' (b.take 208) = some q ∧ ecdsaVerify q (ascii "SAP-PROOF" ++ leBytes 1 (1 - shakeRole s' p) ++ h.th) (b.drop 208) = true) ∧
    (∃ (t : Nat) (p : Fin 8) (l : Link) (b : Bytes) (s₀ : State) (s : State) (s' : State) (h : Handshake) (q : Nat × Nat), s = s₀.at t ∧ l = (port s p).link ∧ takeShake p 2 s = some (b, s') ∧ composes s' p = true ∧ (port s' p).link.shake = some h ∧ h.peer.isSome = true ∧ h.proofOk = false ∧ b.length = 304 ∧ checkCert s' (b.take 208) = some q ∧ ecdsaVerify q (ascii "SAP-PROOF" ++ leBytes 1 (1 - shakeRole s' p) ++ h.th) (b.drop 208) = false) ∧
    (∃ (t : Nat) (p : Fin 8) (l : Link) (b : Bytes) (s₀ : State) (s : State) (s' : State) (h : Handshake), s = s₀.at t ∧ l = (port s p).link ∧ takeShake p 2 s = some (b, s') ∧ composes s' p = true ∧ (port s' p).link.shake = some h ∧ h.peer.isSome = true ∧ h.proofOk = false ∧ b.length = 304 ∧ checkCert s' (b.take 208) = none) ∧
    (∃ (t : Nat) (p : Fin 8) (l : Link) (b : Bytes) (s₀ : State) (s : State) (s' : State) (h : Handshake), s = s₀.at t ∧ l = (port s p).link ∧ takeShake p 2 s = some (b, s') ∧ composes s' p = true ∧ (port s' p).link.shake = some h ∧ (h.peer = none ∨ h.proofOk = true ∨ b.length ≠ 304)) ∧
    (∃ (t : Nat) (p : Fin 8) (l : Link) (b : Bytes) (s₀ : State) (s : State) (s' : State) (h : Handshake), s = s₀.at t ∧ l = (port s p).link ∧ takeShake p 3 s = some (b, s') ∧ composes s' p = true ∧ (port s' p).link.shake = some h ∧ b.length = 4 ∧ ofLe b = h.epoch) ∧
    (∃ (t : Nat) (p : Fin 8) (l : Link) (b : Bytes) (s₀ : State) (s : State) (s' : State) (h : Handshake), s = s₀.at t ∧ l = (port s p).link ∧ takeShake p 3 s = some (b, s') ∧ composes s' p = true ∧ (port s' p).link.shake = some h ∧ b.length = 4 ∧ ofLe b ≠ h.epoch) ∧
    (∃ (t : Nat) (p : Fin 8) (l : Link) (b : Bytes) (s₀ : State) (s : State) (s' : State) (h : Handshake), s = s₀.at t ∧ l = (port s p).link ∧ takeShake p 3 s = some (b, s') ∧ composes s' p = true ∧ (port s' p).link.shake = some h ∧ b.length ≠ 4) ∧
    (∃ (t : Nat) (p : Fin 8) (l : Link) (b : Bytes) (s₀ : State) (s : State) (s' : State), s = s₀.at t ∧ l = (port s p).link ∧ takeShake p 4 s = some (b, s')) ∧
    (∃ (t : Nat) (p : Fin 8) (l : Link) (s₀ : State) (s : State) (h : Handshake), s = s₀.at t ∧ l = (port s p).link ∧ l.shake = some h ∧ h.start + 10000000 ≤ s.now) ∧
    (∃ (t : Nat) (p : Fin 8) (l : Link) (s₀ : State) (s : State) (z : Nat), s = s₀.at t ∧ l = (port s p).link ∧ l.zeroiseAt = some z ∧ z ≤ s.now) :=
  ⟨⟨1000000, 7, _, (withPort 7 (portL fun l => { l with mode := 2, txKey := some (key0 0), rekeyDue := true }) up), _, rfl, rfl, by decide +kernel, by decide +kernel, by decide +kernel, by decide +kernel, by decide +kernel, by decide +kernel, Or.inl (by decide +kernel)⟩,
   ⟨0, 7, _, _, (gotMsg { msg0 7 2 (leBytes 1 1 ++ zeros 140) with port := some 7 } (withPort 7 (portL fun l => { l with shake := some shake0, mode := 2, st := .securing }) up)), _, _, _, rfl, rfl, somePair (by decide +kernel), by decide +kernel, by decide +kernel, by decide +kernel, by decide +kernel, by decide +kernel, by decide +kernel, someGet (by decide +kernel), by decide +kernel⟩,
   ⟨0, 7, _, _, (gotMsg { msg0 7 2 (leBytes 1 1 ++ zeros 140) with port := some 7 } (withPort 7 (portL fun l => { l with mode := 2, st := .securing }) up)), _, _, _, _, rfl, rfl, somePair (by decide +kernel), by decide +kernel, by decide +kernel, by decide +kernel, by decide +kernel, by decide +kernel, by decide +kernel, rfl, rfl, someGet (by decide +kernel)⟩,
   ⟨0, 7, _, _, (gotMsg { msg0 7 2 (leBytes 1 1 ++ zeros 139) with port := some 7 } (withPort 7 (portL fun l => { l with shake := some shake0, mode := 2, st := .securing }) up)), _, _, rfl, rfl, somePair (by decide +kernel), by decide +kernel, by decide +kernel, by decide +kernel⟩,
   ⟨0, 7, _, _, (gotMsg { msg0 7 2 (leBytes 1 1 ++ zeros 140) with port := some 7 } (withPort 7 (portL fun l => { l with st := .up }) up)), _, _, rfl, rfl, somePair (by decide +kernel), by decide +kernel, by decide +kernel, by decide +kernel, by decide +kernel, by decide +kernel⟩,
   ⟨0, 7, _, _, { (gotMsg { msg0 7 2 (leBytes 1 2 ++ (cert0 ++ ecdsaSign 1 1 (ascii "SAP-PROOF" ++ leBytes 1 0 ++ zeros 48))) with port := some 7 } (withPort 7 (portL fun l => { l with shake := some { shake0 with peer := some (zeros 140) }, mode := 2, st := .securing }) up)) with cfg := { Cfg.default with ownerKey := pointBytes p384G } }, _, _, _, _, rfl, rfl, somePair (by decide +kernel), by decide +kernel, someGet (by decide +kernel), by decide +kernel, by decide +kernel, by decide +kernel, someGet (by decide +kernel), by decide +kernel⟩,
   ⟨0, 7, _, _, { (gotMsg { msg0 7 2 (leBytes 1 2 ++ (cert0 ++ zeros 96)) with port := some 7 } (withPort 7 (portL fun l => { l with shake := some { shake0 with peer := some (zeros 140) }, mode := 2, st := .securing }) up)) with cfg := { Cfg.default with ownerKey := pointBytes p384G } }, _, _, _, _, rfl, rfl, somePair (by decide +kernel), by decide +kernel, someGet (by decide +kernel), by decide +kernel, by decide +kernel, by decide +kernel, someGet (by decide +kernel), by decide +kernel⟩,
   ⟨0, 7, _, _, (gotMsg { msg0 7 2 (leBytes 1 2 ++ zeros 304) with port := some 7 } (withPort 7 (portL fun l => { l with shake := some { shake0 with peer := some (zeros 140) }, mode := 2, st := .securing }) up)), _, _, _, rfl, rfl, somePair (by decide +kernel), by decide +kernel, someGet (by decide +kernel), by decide +kernel, by decide +kernel, by decide +kernel, by decide +kernel⟩,
   ⟨0, 7, _, _, (gotMsg { msg0 7 2 (leBytes 1 2 ++ zeros 304) with port := some 7 } (withPort 7 (portL fun l => { l with shake := some shake0, mode := 2, st := .securing }) up)), _, _, _, rfl, rfl, somePair (by decide +kernel), by decide +kernel, someGet (by decide +kernel), by decide +kernel⟩,
   ⟨0, 7, _, _, (gotMsg { msg0 7 2 (leBytes 1 3 ++ leBytes 4 0) with port := some 7 } (withPort 7 (portL fun l => { l with shake := some shake0, mode := 2, st := .securing }) up)), _, _, _, rfl, rfl, somePair (by decide +kernel), by decide +kernel, someGet (by decide +kernel), by decide +kernel, by decide +kernel⟩,
   ⟨0, 7, _, _, (gotMsg { msg0 7 2 (leBytes 1 3 ++ leBytes 4 1) with port := some 7 } (withPort 7 (portL fun l => { l with shake := some shake0, mode := 2, st := .securing }) up)), _, _, _, rfl, rfl, somePair (by decide +kernel), by decide +kernel, someGet (by decide +kernel), by decide +kernel, by decide +kernel⟩,
   ⟨0, 7, _, _, (gotMsg { msg0 7 2 (leBytes 1 3 ++ [0]) with port := some 7 } (withPort 7 (portL fun l => { l with shake := some shake0, mode := 2, st := .securing }) up)), _, _, _, rfl, rfl, somePair (by decide +kernel), by decide +kernel, someGet (by decide +kernel), by decide +kernel⟩,
   ⟨0, 7, _, _, (gotMsg { msg0 7 2 (leBytes 1 4 ++ [5]) with port := some 7 } (withPort 7 (portL fun l => { l with shake := some shake0, mode := 2, st := .securing }) up)), _, _, rfl, rfl, somePair (by decide +kernel)⟩,
   ⟨10000000, 7, _, (withPort 7 (portL fun l => { l with shake := some shake0, mode := 2 }) up), _, _, rfl, rfl, someGet (by decide +kernel), by decide +kernel⟩,
   ⟨5, 7, _, (withPort 7 (portL fun l => { l with zeroiseAt := some 5 }) up), _, _, rfl, rfl, someGet (by decide +kernel), by decide +kernel⟩⟩

/-- States and operands that meet the hypotheses of TrainingEventsComplete, clause by clause. -/
theorem wit_TrainingEventsComplete :
    (∃ (t : Nat) (p : Fin 8) (ln : Fin 9) (f : Frame) (ph : Phys) (s₀ : State) (s : State) (s₁ : State) (s₂ : State), s = atPort t p s₀ ∧ ph = (port s p).phys ∧ s₁ = noteFrame p f s ∧ ph.st ≠ 0 ∧ ph.st ≠ 11 ∧ s₂ = modRxLane p ln (fun r => { r with energyAt := some (r.energyAt.getD s.now) }) s) ∧
    (∃ (t : Nat) (p : Fin 8) (ln : Fin 9) (f : Frame) (ph : Phys) (s₀ : State) (s : State) (s₁ : State) (partner : Fin 9) (pat : Pilot) (inv : Bool) (timing : Nat) (mark : State → State) (s₂ : State), s = atPort t p s₀ ∧ ph = (port s p).phys ∧ s₁ = noteFrame p f s ∧ mark = modRxLane p ln (fun r => { r with partner := partner.val, inverted := inv, qualified := true, qualifiedAt := s.now, energyAt := none, timing := timing }) ∧ 1 ≤ ph.st ∧ ph.st ≤ 3 ∧ (ph.st = 1 → ph.listening = true → pat ≠ .train) ∧ s₂ = mark (if ph.st = 1 then enterPhys p 2 0 s else s)) ∧
    (∃ (t : Nat) (p : Fin 8) (ln : Fin 9) (f : Frame) (ph : Phys) (s₀ : State) (s : State) (s₁ : State) (partner : Fin 9) (pat : Pilot) (inv : Bool) (timing : Nat) (mark : State → State) (g : Nat) (sf : Nat) (g' : Nat), s = atPort t p s₀ ∧ ph = (port s p).phys ∧ s₁ = noteFrame p f s ∧ mark = modRxLane p ln (fun r => { r with partner := partner.val, inverted := inv, qualified := true, qualifiedAt := s.now, energyAt := none, timing := timing }) ∧ ph.st = 1 ∧ ph.listening = true ∧ pat = .train ∧ ph.last = some (g, sf) ∧ admitGrade s p g = some g') ∧
    (∃ (t : Nat) (p : Fin 8) (ln : Fin 9) (f : Frame) (ph : Phys) (s₀ : State) (s : State) (s₁ : State) (partner : Fin 9) (pat : Pilot) (inv : Bool) (timing : Nat) (mark : State → State), s = atPort t p s₀ ∧ ph = (port s p).phys ∧ s₁ = noteFrame p f s ∧ mark = modRxLane p ln (fun r => { r with partner := partner.val, inverted := inv, qualified := true, qualifiedAt := s.now, energyAt := none, timing := timing }) ∧ ph.st = 9 ∧ pat = .beacon) ∧
    (∃ (t : Nat) (p : Fin 8) (ln : Fin 9) (f : Frame) (ph : Phys) (s₀ : State) (s : State) (s₁ : State) (partner : Fin 9) (pat : Pilot) (inv : Bool) (timing : Nat) (mark : State → State), s = atPort t p s₀ ∧ ph = (port s p).phys ∧ s₁ = noteFrame p f s ∧ mark = modRxLane p ln (fun r => { r with partner := partner.val, inverted := inv, qualified := true, qualifiedAt := s.now, energyAt := none, timing := timing }) ∧ ph.st = 9 ∧ pat ≠ .beacon) ∧
    (∃ (t : Nat) (p : Fin 8) (ln : Fin 9) (f : Frame) (ph : Phys) (s₀ : State) (s : State) (s₁ : State) (t0 : Nat), s = atPort t p s₀ ∧ ph = (port s p).phys ∧ s₁ = noteFrame p f s ∧ (rxLane (s₀.at t) p ln).energyAt = some t0 ∧ t0 + 20000 ≤ (s₀.at t).now) ∧
    (∃ (t : Nat) (p : Fin 8) (f : Frame) (ph : Phys) (s₀ : State) (s : State) (s₁ : State) (m : Hello) (keep : State → State), s = atPort t p s₀ ∧ ph = (port s p).phys ∧ s₁ = noteFrame p f s ∧ frameNew s p f = true ∧ keep = (fun s => modPhys p (fun x => { x with peerHello := some m, rxSym := symDist (symBase s) (m.symbol + 16 * f.sf) }) s) ∧ ph.st = 3) ∧
    (∃ (t : Nat) (p : Fin 8) (f : Frame) (ph : Phys) (s₀ : State) (s : State) (s₁ : State) (m : Hello) (keep : State → State), s = atPort t p s₀ ∧ ph = (port s p).phys ∧ s₁ = noteFrame p f s ∧ frameNew s p f = true ∧ keep = (fun s => modPhys p (fun x => { x with peerHello := some m, rxSym := symDist (symBase s) (m.symbol + 16 * f.sf) }) s) ∧ ph.st = 9) ∧
    (∃ (t : Nat) (p : Fin 8) (f : Frame) (ph : Phys) (s₀ : State) (s : State) (s₁ : State) (m : Hello) (keep : State → State), s = atPort t p s₀ ∧ ph = (port s p).phys ∧ s₁ = noteFrame p f s ∧ frameNew s p f = true ∧ keep = (fun s => modPhys p (fun x => { x with peerHello := some m, rxSym := symDist (symBase s) (m.symbol + 16 * f.sf) }) s) ∧ ph.st = 10) ∧
    (∃ (t : Nat) (p : Fin 8) (f : Frame) (ph : Phys) (s₀ : State) (s : State) (s₁ : State), s = atPort t p s₀ ∧ ph = (port s p).phys ∧ s₁ = noteFrame p f s ∧ frameNew s p f = true ∧ ph.st = 3 ∧ ph.initiator = false ∧ ph.peerHello.isSome = true ∧ ph.quietAt = none) ∧
    (∃ (t : Nat) (p : Fin 8) (f : Frame) (ph : Phys) (s₀ : State) (s : State) (s₁ : State), s = atPort t p s₀ ∧ ph = (port s p).phys ∧ s₁ = noteFrame p f s ∧ frameNew s p f = true ∧ (ph.st = 4 ∨ ph.st = 5)) ∧
    (∃ (t : Nat) (p : Fin 8) (f : Frame) (ph : Phys) (s₀ : State) (s : State) (s₁ : State) (own : BitVec 9) (peer : BitVec 9) (s₂ : State), s = atPort t p s₀ ∧ ph = (port s p).phys ∧ s₁ = noteFrame p f s ∧ frameNew s p f = true ∧ s₂ = sendMgmt p 0x0A (leBytes 2 own.toNat ++ zeros 2) s₁ ∧ 8 ≤ ((List.range 9).filter fun i => own.getLsbD i).length ∧ 8 ≤ ((List.range 9).filter fun i => peer.getLsbD i).length ∧ ph.st = 7) ∧
    (∃ (t : Nat) (p : Fin 8) (f : Frame) (ph : Phys) (s₀ : State) (s : State) (s₁ : State) (own : BitVec 9) (peer : BitVec 9) (s₂ : State), s = atPort t p s₀ ∧ ph = (port s p).phys ∧ s₁ = noteFrame p f s ∧ frameNew s p f = true ∧ s₂ = sendMgmt p 0x0A (leBytes 2 own.toNat ++ zeros 2) s₁ ∧ 8 ≤ ((List.range 9).filter fun i => own.getLsbD i).length ∧ 8 ≤ ((List.range 9).filter fun i => peer.getLsbD i).length ∧ ph.st = 10) ∧
    (∃ (t : Nat) (p : Fin 8) (f : Frame) (ph : Phys) (s₀ : State) (s : State) (s₁ : State) (own : BitVec 9) (peer : BitVec 9) (s₂ : State), s = atPort t p s₀ ∧ ph = (port s p).phys ∧ s₁ = noteFrame p f s ∧ frameNew s p f = true ∧ s₂ = sendMgmt p 0x0A (leBytes 2 own.toNat ++ zeros 2) s₁ ∧ (((List.range 9).filter fun i => own.getLsbD i).length < 8 ∨ ((List.range 9).filter fun i => peer.getLsbD i).length < 8) ∧ ph.st = 7) ∧
    (∃ (t : Nat) (p : Fin 8) (f : Frame) (ph : Phys) (s₀ : State) (s : State) (s₁ : State) (own : BitVec 9) (peer : BitVec 9) (s₂ : State), s = atPort t p s₀ ∧ ph = (port s p).phys ∧ s₁ = noteFrame p f s ∧ frameNew s p f = true ∧ s₂ = sendMgmt p 0x0A (leBytes 2 own.toNat ++ zeros 2) s₁ ∧ (((List.range 9).filter fun i => own.getLsbD i).length < 8 ∨ ((List.range 9).filter fun i => peer.getLsbD i).length < 8) ∧ ph.st = 10) ∧
    (∃ (t : Nat) (p : Fin 8) (f : Frame) (ph : Phys) (s₀ : State) (s : State) (s₁ : State), s = atPort t p s₀ ∧ ph = (port s p).phys ∧ s₁ = noteFrame p f s ∧ ph.st = 1 ∧ ph.listening = false ∧ ph.since + 8000000 ≤ s.now) ∧
    (∃ (t : Nat) (p : Fin 8) (f : Frame) (ph : Phys) (s₀ : State) (s : State) (s₁ : State), s = atPort t p s₀ ∧ ph = (port s p).phys ∧ s₁ = noteFrame p f s ∧ ph.st = 2 ∧ 8 ≤ (qualifiedLanes s p).length ∧ ((qualifiedLanes s p).map fun l => (rxLane s p l).qualifiedAt).min?.getD s.now + 20000 ≤ s.now) ∧
    (∃ (t : Nat) (p : Fin 8) (f : Frame) (ph : Phys) (s₀ : State) (s : State) (s₁ : State), s = atPort t p s₀ ∧ ph = (port s p).phys ∧ s₁ = noteFrame p f s ∧ ph.st = 2 ∧ (qualifiedLanes s p).length < 8 ∧ ph.since + 20000 ≤ s.now) ∧
    (∃ (t : Nat) (p : Fin 8) (f : Frame) (ph : Phys) (s₀ : State) (s : State) (s₁ : State), s = atPort t p s₀ ∧ ph = (port s p).phys ∧ s₁ = noteFrame p f s ∧ 3 ≤ ph.st ∧ ph.st ≤ 7 ∧ ph.since + trainLimit ph.st ≤ s.now) ∧
    (∃ (t : Nat) (p : Fin 8) (f : Frame) (ph : Phys) (s₀ : State) (s : State) (s₁ : State), s = atPort t p s₀ ∧ ph = (port s p).phys ∧ s₁ = noteFrame p f s ∧ ph.st = 10 ∧ ph.since + 150000 ≤ s.now) ∧
    (∃ (t : Nat) (p : Fin 8) (f : Frame) (ph : Phys) (s₀ : State) (s : State) (s₁ : State), s = atPort t p s₀ ∧ ph = (port s p).phys ∧ s₁ = noteFrame p f s ∧ ph.st = 4) ∧
    (∃ (t : Nat) (p : Fin 8) (f : Frame) (ph : Phys) (s₀ : State) (s : State) (s₁ : State) (s₂ : State), s = atPort t p s₀ ∧ ph = (port s p).phys ∧ s₁ = noteFrame p f s ∧ ph.st = 8 ∧ s₂ = modPhys p (fun x => { x with tx := x.tx.map fun y => if y.role = .retrain then { y with table := probeTable } else y }) s) ∧
    (∃ (t : Nat) (p : Fin 8) (f : Frame) (ph : Phys) (s₀ : State) (s : State) (s₁ : State) (snr : List (List Int)) (s₂ : State) (g : Nat) (s₃ : State), s = atPort t p s₀ ∧ ph = (port s p).phys ∧ s₁ = noteFrame p f s ∧ s₂ = takeReports p snr (fun x r => { r with snr := x }) s ∧ g = ((gradesDown.find? fun g => decide (g ≤ min ph.target ((ph.peerHello.map (·.targetGrade)).getD ph.target) ∧ 8 ≤ (meeting s₂ p g).length)).getD 0) ∧ ph.st = 5 ∧ ph.ownGrade = none ∧ s₃ = sendMgmt p 0x02 (leBytes 1 6 ++ leBytes 1 g ++ zeros 2 ++ leBytes 4 (symTx s₂ p)) s₂) ∧
    (∃ (t : Nat) (p : Fin 8) (f : Frame) (ph : Phys) (s₀ : State) (s : State) (s₁ : State) (snr : List (List Int)) (s₂ : State) (g : Nat), s = atPort t p s₀ ∧ ph = (port s p).phys ∧ s₁ = noteFrame p f s ∧ s₂ = takeReports p snr (fun x r => { r with snr := x }) s ∧ g = ((gradesDown.find? fun g => decide (g ≤ min ph.target ((ph.peerHello.map (·.targetGrade)).getD ph.target) ∧ 8 ≤ (meeting s₂ p g).length)).getD 0) ∧ ph.st = 8) ∧
    (∃ (t : Nat) (p : Fin 8) (f : Frame) (ph : Phys) (s₀ : State) (s : State) (s₁ : State) (s₂ : State), s = atPort t p s₀ ∧ ph = (port s p).phys ∧ s₁ = noteFrame p f s ∧ s₂ = s₀.at t ∧ (port s₂ p).phys.st = 1 ∧ (port s₂ p).phys.listening = true ∧ (port s₂ p).phys.lastPilot + 1000000 ≤ s₂.now) ∧
    (∃ (t : Nat) (p : Fin 8) (f : Frame) (ph : Phys) (s₀ : State) (s : State) (s₁ : State) (s₂ : State) (s₃ : State) (g : Nat) (sf : Nat) (g' : Nat), s = atPort t p s₀ ∧ ph = (port s p).phys ∧ s₁ = noteFrame p f s ∧ s₂ = s₀.at t ∧ (port s₂ p).phys.st = 0 ∧ (port s₂ p).phys.autoAt.isSome = true ∧ s₂.root.alive = true ∧ (port s₂ p).phys.last = some (g, sf) ∧ s₃ = modPhys p (fun x => { x with autoAt := none }) s₂ ∧ admitGrade s₃ p g = some g') ∧
    (∃ (t : Nat) (p : Fin 8) (f : Frame) (ph : Phys) (s₀ : State) (s : State) (s₁ : State) (s₂ : State) (s₃ : State) (g : Nat) (sf : Nat), s = atPort t p s₀ ∧ ph = (port s p).phys ∧ s₁ = noteFrame p f s ∧ s₂ = s₀.at t ∧ (port s₂ p).phys.st = 0 ∧ (port s₂ p).phys.autoAt.isSome = true ∧ s₂.root.alive = true ∧ (port s₂ p).phys.last = some (g, sf) ∧ s₃ = modPhys p (fun x => { x with autoAt := none }) s₂ ∧ admitGrade s₃ p g = none) :=
  ⟨⟨0, 7, 8, frame0, _, (withPort 7 (portP fun x => { x with st := 1 }) up), _, _, _, rfl, rfl, rfl, by decide +kernel, by decide +kernel, rfl⟩,
   ⟨0, 7, 8, frame0, _, (withPort 7 (portP fun x => { x with st := 1 }) up), _, _, 8, .train, true, 8, _, _, rfl, rfl, rfl, rfl, by decide +kernel, by decide +kernel, by decide +kernel, rfl⟩,
   ⟨0, 7, 8, frame0, _, (withPort 7 (portP fun x => { x with st := 1, listening := true, last := some (250, 64) }) up), _, _, 8, .train, true, 8, _, _, _, _, rfl, rfl, rfl, rfl, by decide +kernel, by decide +kernel, by decide +kernel, somePair (by decide +kernel), someGet (by decide +kernel)⟩,
   ⟨0, 7, 8, frame0, _, (withPort 7 (portP fun x => { x with st := 9 }) up), _, _, 8, .beacon, true, 8, _, rfl, rfl, rfl, rfl, by decide +kernel, by decide +kernel⟩,
   ⟨0, 7, 8, frame0, _, (withPort 7 (portP fun x => { x with st := 9 }) up), _, _, 8, .wake, true, 8, _, rfl, rfl, rfl, rfl, by decide +kernel, by decide +kernel⟩,
   ⟨20000, 7, 8, frame0, _, (withPort 7 (portP fun x => withLane 8 (fun r => { r with energyAt := some 0 }) id x) up), _, _, 0, rfl, rfl, rfl, by decide +kernel, by decide +kernel⟩,
   ⟨0, 7, frame0, _, (withPort 7 (portP fun x => { x with st := 3 }) up), _, _, hello0, _, rfl, rfl, rfl, by decide +kernel, rfl, by decide +kernel⟩,
   ⟨0, 7, frame0, _, (withPort 7 (portP fun x => { x with st := 9 }) up), _, _, hello0, _, rfl, rfl, rfl, by decide +kernel, rfl, by decide +kernel⟩,
   ⟨0, 7, frame0, _, (withPort 7 (portP fun x => { x with st := 10 }) up), _, _, hello0, _, rfl, rfl, rfl, by decide +kernel, rfl, by decide +kernel⟩,
   ⟨0, 7, frame0, _, (withPort 7 (portP fun x => { x with st := 3, peerHello := some hello0 }) up), _, _, rfl, rfl, rfl, by decide +kernel, by decide +kernel, by decide +kernel, by decide +kernel, by decide +kernel⟩,
   ⟨0, 7, frame0, _, (withPort 7 (portP fun x => { x with st := 5 }) up), _, _, rfl, rfl, rfl, by decide +kernel, by decide +kernel⟩,
   ⟨0, 7, frame0, _, (withPort 7 (portP fun x => { x with st := 7 }) up), _, _, 0xFF, 0x1FE, _, rfl, rfl, rfl, by decide +kernel, rfl, by decide +kernel, by decide +kernel, by decide +kernel⟩,
   ⟨0, 7, frame0, _, (withPort 7 (portP fun x => { x with st := 10 }) up), _, _, 0xFF, 0x1FE, _, rfl, rfl, rfl, by decide +kernel, rfl, by decide +kernel, by decide +kernel, by decide +kernel⟩,
   ⟨0, 7, frame0, _, (withPort 7 (portP fun x => { x with st := 7 }) up), _, _, 0x7F, 0x1FF, _, rfl, rfl, rfl, by decide +kernel, rfl, by decide +kernel, by decide +kernel⟩,
   ⟨0, 7, frame0, _, (withPort 7 (portP fun x => { x with st := 10 }) up), _, _, 0x7F, 0x1FF, _, rfl, rfl, rfl, by decide +kernel, rfl, by decide +kernel, by decide +kernel⟩,
   ⟨8000000, 7, frame0, _, (withPort 7 (portP fun x => { x with st := 1 }) up), _, _, rfl, rfl, rfl, by decide +kernel, by decide +kernel, by decide +kernel⟩,
   ⟨20000, 7, frame0, _, (withPort 7 (portP fun x => { x with st := 2, rx := Vector.replicate 9 { RxLane.reset with qualified := true } }) up), _, _, rfl, rfl, rfl, by decide +kernel, by decide +kernel, by decide +kernel⟩,
   ⟨20000, 7, frame0, _, (withPort 7 (portP fun x => { x with st := 2 }) up), _, _, rfl, rfl, rfl, by decide +kernel, by decide +kernel, by decide +kernel⟩,
   ⟨100000000, 7, frame0, _, (withPort 7 (portP fun x => { x with st := 7 }) up), _, _, rfl, rfl, rfl, by decide +kernel, by decide +kernel, by decide +kernel⟩,
   ⟨150000, 7, frame0, _, (withPort 7 (portP fun x => { x with st := 10 }) up), _, _, rfl, rfl, rfl, by decide +kernel, by decide +kernel⟩,
   ⟨0, 7, frame0, _, (withPort 7 (portP fun x => { x with st := 4 }) up), _, _, rfl, rfl, rfl, by decide +kernel⟩,
   ⟨0, 7, frame0, _, (withPort 7 (portP fun x => { x with st := 8 }) up), _, _, _, rfl, rfl, rfl, by decide +kernel, rfl⟩,
   ⟨0, 7, frame0, _, (withPort 7 (portP fun x => { x with st := 5, target := 50, rx := Vector.replicate 9 { RxLane.reset with qualified := true } }) up), _, _, (List.replicate 9 (List.replicate 488 (200 : Int))), _, _, _, rfl, rfl, rfl, rfl, rfl, by decide +kernel, by decide +kernel, rfl⟩,
   ⟨0, 7, frame0, _, (withPort 7 (portP fun x => { x with st := 8 }) up), _, _, (List.replicate 9 (List.replicate 488 (200 : Int))), _, _, rfl, rfl, rfl, rfl, rfl, by decide +kernel⟩,
   ⟨1000000, 7, frame0, _, (withPort 7 (portP fun x => { x with st := 1, listening := true }) up), _, _, _, rfl, rfl, rfl, rfl, by decide +kernel, by decide +kernel, by decide +kernel⟩,
   ⟨0, 7, frame0, _, (withPort 7 (portP fun x => { x with st := 0, autoAt := some 0, last := some (250, 64) }) up), _, _, _, _, 250, 64, _, rfl, rfl, rfl, rfl, by decide +kernel, by decide +kernel, by decide +kernel, by decide +kernel, rfl, someGet (by decide +kernel)⟩,
   ⟨0, 7, frame0, _, { up with ports := Vector.ofFn fun p => if p = 7 then (portP fun x => { x with st := 0, autoAt := some 0, last := some (250, 64) }) else { port0 with phys := { port0.phys with grade := 250 } } }, _, _, _, _, 250, 64, rfl, rfl, rfl, rfl, by decide +kernel, by decide +kernel, by decide +kernel, by decide +kernel, rfl, by decide +kernel⟩⟩

/-- States and operands that meet the hypotheses of LaneUpkeepEventsComplete, clause by clause. -/
theorem wit_LaneUpkeepEventsComplete :
    (∃ (t : Nat) (p : Fin 8) (f : Frame) (s₀ : State) (s : State) (a : State) (a₁ : State) (m : BitTable) (ackEnd : Nat) (x : TxLane) (reply : Nat → State → State), s = s₀.at t ∧ a = atPort t p s₀ ∧ a₁ = noteFrame p f a ∧ frameNew a p f = true ∧ tablesLive (port a p).phys.st = true ∧ x = txLane a p m.lane ∧ reply = (fun r => sendLaneMgmt p m.lane.val 0x04 (leBytes 1 m.lane.val ++ leBytes 1 m.tableId ++ leBytes 1 r ++ zeros 1 ++ leBytes 4 m.swapSymbol)) ∧ tableValid (port a p).phys.grade x.tableId m = true ∧ x.pend = none ∧ (∀ l : Nat, x.lastAccepted = some l → l + 1000000 ≤ a.now) ∧ symLater ackEnd m.swapSymbol = true ∧ 256 ≤ symDist ackEnd m.swapSymbol) ∧
    (∃ (t : Nat) (p : Fin 8) (f : Frame) (s₀ : State) (s : State) (a : State) (a₁ : State) (m : BitTable) (ackEnd : Nat) (x : TxLane) (reply : Nat → State → State), s = s₀.at t ∧ a = atPort t p s₀ ∧ a₁ = noteFrame p f a ∧ frameNew a p f = true ∧ tablesLive (port a p).phys.st = true ∧ x = txLane a p m.lane ∧ reply = (fun r => sendLaneMgmt p m.lane.val 0x04 (leBytes 1 m.lane.val ++ leBytes 1 m.tableId ++ leBytes 1 r ++ zeros 1 ++ leBytes 4 m.swapSymbol)) ∧ tableValid (port a p).phys.grade x.tableId m = true ∧ x.pend = none ∧ (∀ l : Nat, x.lastAccepted = some l → l + 1000000 ≤ a.now) ∧ (symLater ackEnd m.swapSymbol = false ∨ symDist ackEnd m.swapSymbol < 256)) ∧
    (∃ (t : Nat) (p : Fin 8) (f : Frame) (s₀ : State) (s : State) (a : State) (a₁ : State) (m : BitTable) (x : TxLane) (reply : Nat → State → State), s = s₀.at t ∧ a = atPort t p s₀ ∧ a₁ = noteFrame p f a ∧ frameNew a p f = true ∧ tablesLive (port a p).phys.st = true ∧ x = txLane a p m.lane ∧ reply = (fun r => sendLaneMgmt p m.lane.val 0x04 (leBytes 1 m.lane.val ++ leBytes 1 m.tableId ++ leBytes 1 r ++ zeros 1 ++ leBytes 4 m.swapSymbol)) ∧ tableValid (port a p).phys.grade x.tableId m = true ∧ (x.pend.isSome = true ∨ ∃ l : Nat, x.lastAccepted = some l ∧ a.now < l + 1000000)) ∧
    (∃ (t : Nat) (p : Fin 8) (f : Frame) (s₀ : State) (s : State) (a : State) (a₁ : State) (m : BitTable) (x : TxLane) (reply : Nat → State → State) (recent : List Nat), s = s₀.at t ∧ a = atPort t p s₀ ∧ a₁ = noteFrame p f a ∧ frameNew a p f = true ∧ tablesLive (port a p).phys.st = true ∧ x = txLane a p m.lane ∧ reply = (fun r => sendLaneMgmt p m.lane.val 0x04 (leBytes 1 m.lane.val ++ leBytes 1 m.tableId ++ leBytes 1 r ++ zeros 1 ++ leBytes 4 m.swapSymbol)) ∧ tableValid (port a p).phys.grade x.tableId m = false ∧ recent = (port a p).phys.nakInvalid.filter (fun t => decide (a.now < t + 1000000000)) ++ [a.now] ∧ recent.length < 16) ∧
    (∃ (t : Nat) (p : Fin 8) (ln : Fin 9) (f : Frame) (s₀ : State) (s : State) (a : State) (a₁ : State) (l : Fin 9) (q : PendingTable), s = s₀.at t ∧ a = atPort t p s₀ ∧ a₁ = noteFrame p f a ∧ frameNew a p f = true ∧ hearing a p ln.val = some l ∧ (rxLane a p l).pend = some q) ∧
    (∃ (t : Nat) (p : Fin 8) (ln : Fin 9) (f : Frame) (s₀ : State) (s : State) (a : State) (a₁ : State) (l : Fin 9) (q : PendingTable), s = s₀.at t ∧ a = atPort t p s₀ ∧ a₁ = noteFrame p f a ∧ frameNew a p f = true ∧ hearing a p ln.val = some l ∧ (rxLane a p l).pend = some q) ∧
    (∃ (t : Nat) (p : Fin 8) (ln : Fin 9) (f : Frame) (s₀ : State) (s : State) (a : State) (a₁ : State) (l : Fin 9) (q : PendingTable) (r : TableResult), s = s₀.at t ∧ a = atPort t p s₀ ∧ a₁ = noteFrame p f a ∧ frameNew a p f = true ∧ hearing a p ln.val = some l ∧ (rxLane a p l).pend = some q ∧ r ≠ .ack ∧ r ≠ .nakLate) ∧
    (∃ (t : Nat) (p : Fin 8) (ln : Fin 9) (f : Frame) (s₀ : State) (s : State) (a : State) (a₁ : State) (position : Fin 8) (m : Fin 9), s = s₀.at t ∧ a = atPort t p s₀ ∧ a₁ = noteFrame p f a ∧ frameNew a p f = true ∧ txSpare a p = some m ∧ (port a p).phys.st = 8 ∧ (txLane a p ln).role = .data ∧ (txLane a p ln).position = position.val) ∧
    (∃ (t : Nat) (p : Fin 8) (f : Frame) (s₀ : State) (s : State) (a : State) (a₁ : State), s = s₀.at t ∧ a = atPort t p s₀ ∧ a₁ = noteFrame p f a ∧ frameNew a p f = true ∧ (port a p).phys.st = 8) ∧
    (∃ (t : Nat) (p : Fin 8) (ln : Fin 9) (f : Frame) (s₀ : State) (s : State) (a : State) (a₁ : State) (s₂ : State), s = s₀.at t ∧ a = atPort t p s₀ ∧ a₁ = noteFrame p f a ∧ frameNew a p f = true ∧ (port a p).phys.st = 8 ∧ s₂ = noteExchange p ln (retrainRx p ln (retrainTx p ln a₁))) ∧
    (∃ (t : Nat) (p : Fin 8) (ln : Fin 9) (f : Frame) (s₀ : State) (s : State) (a : State) (a₁ : State) (snr : List Int) (s₂ : State) (margin : Int), s = s₀.at t ∧ a = atPort t p s₀ ∧ a₁ = noteFrame p f a ∧ (port s p).phys.st = 8 ∧ ((rxLane s p ln).role = .data ∨ (rxLane s p ln).role = .spareReady) ∧ margin = (tableMargin snr (rxLane s p ln).table).getD 0 ∧ s₂ = modRxLane p ln (fun r => { r with snr := snr, margin := marginQuarters margin, fresh := false, untrimmed := untrimmedOf snr }) s ∧ candidate s₂ p ln = none) ∧
    (∃ (t : Nat) (p : Fin 8) (ln : Fin 9) (f : Frame) (s₀ : State) (s : State) (a : State) (a₁ : State) (snr : List Int) (s₂ : State) (margin : Int) (c : List (BitVec 8)), s = s₀.at t ∧ a = atPort t p s₀ ∧ a₁ = noteFrame p f a ∧ (port s p).phys.st = 8 ∧ ((rxLane s p ln).role = .data ∨ (rxLane s p ln).role = .spareReady) ∧ margin = (tableMargin snr (rxLane s p ln).table).getD 0 ∧ s₂ = modRxLane p ln (fun r => { r with snr := snr, margin := marginQuarters margin, fresh := false, untrimmed := untrimmedOf snr }) s ∧ candidate s₂ p ln = some c ∧ ((rxLane s p ln).fresh = true ∨ margin < 6 * quarterDb ∨ margin + 4 * quarterDb ≤ (tableMargin snr c).getD 0)) ∧
    (∃ (t : Nat) (p : Fin 8) (ln : Fin 9) (f : Frame) (s₀ : State) (s : State) (a : State) (a₁ : State) (snr : List Int) (s₂ : State) (margin : Int) (c : List (BitVec 8)), s = s₀.at t ∧ a = atPort t p s₀ ∧ a₁ = noteFrame p f a ∧ (port s p).phys.st = 8 ∧ ((rxLane s p ln).role = .data ∨ (rxLane s p ln).role = .spareReady) ∧ margin = (tableMargin snr (rxLane s p ln).table).getD 0 ∧ s₂ = modRxLane p ln (fun r => { r with snr := snr, margin := marginQuarters margin, fresh := false, untrimmed := untrimmedOf snr }) s ∧ candidate s₂ p ln = some c ∧ (rxLane s p ln).fresh = false ∧ 6 * quarterDb ≤ margin ∧ (tableMargin snr c).getD 0 < margin + 4 * quarterDb) ∧
    (∃ (t : Nat) (p : Fin 8) (ln : Fin 9) (f : Frame) (s₀ : State) (s : State) (a : State) (a₁ : State) (q : PendingTable) (symbol : Nat), s = s₀.at t ∧ a = atPort t p s₀ ∧ a₁ = noteFrame p f a ∧ (txLane s p ln).pend = some q ∧ symLater q.swapSymbol symbol = true) ∧
    (∃ (t : Nat) (p : Fin 8) (ln : Fin 9) (f : Frame) (s₀ : State) (s : State) (a : State) (a₁ : State) (q : PendingTable) (symbol : Nat), s = s₀.at t ∧ a = atPort t p s₀ ∧ a₁ = noteFrame p f a ∧ (rxLane s p ln).pend = some q ∧ symDist q.swapSymbol symbol ≤ 15) ∧
    (∃ (t : Nat) (p : Fin 8) (ln : Fin 9) (f : Frame) (s₀ : State) (s : State) (a : State) (a₁ : State) (q : PendingTable) (symbol : Nat), s = s₀.at t ∧ a = atPort t p s₀ ∧ a₁ = noteFrame p f a ∧ (rxLane s p ln).pend = some q ∧ symLater (q.swapSymbol + 16) symbol = true) ∧
    (∃ (t : Nat) (p : Fin 8) (ln : Fin 9) (f : Frame) (s₀ : State) (s : State) (a : State) (a₁ : State), s = s₀.at t ∧ a = atPort t p s₀ ∧ a₁ = noteFrame p f a ∧ (port s p).phys.st = 8 ∧ (rxLane s p ln).leaving = false ∧ (vget s.cfg.ports p).retireThreshold ≤ ((rxLane s p ln).errTimes.filter fun t => decide (s.now < t + (vget s.cfg.ports p).retireUs * 1000)).length ∧ (rxLane s p ln).role = .data ∧ (rxSpare s p).isSome = true) ∧
    (∃ (t : Nat) (p : Fin 8) (ln : Fin 9) (f : Frame) (s₀ : State) (s : State) (a : State) (a₁ : State), s = s₀.at t ∧ a = atPort t p s₀ ∧ a₁ = noteFrame p f a ∧ (port s p).phys.st = 8 ∧ (rxLane s p ln).leaving = false ∧ (vget s.cfg.ports p).retireThreshold ≤ ((rxLane s p ln).errTimes.filter fun t => decide (s.now < t + (vget s.cfg.ports p).retireUs * 1000)).length ∧ (rxLane s p ln).role = .data ∧ rxSpare s p = none) ∧
    (∃ (t : Nat) (p : Fin 8) (ln : Fin 9) (f : Frame) (s₀ : State) (s : State) (a : State) (a₁ : State), s = s₀.at t ∧ a = atPort t p s₀ ∧ a₁ = noteFrame p f a ∧ (port s p).phys.st = 8 ∧ (rxLane s p ln).leaving = false ∧ (vget s.cfg.ports p).retireThreshold ≤ ((rxLane s p ln).errTimes.filter fun t => decide (s.now < t + (vget s.cfg.ports p).retireUs * 1000)).length ∧ (rxLane s p ln).role = .spareReady ∧ s.root.alive = true) ∧
    (∃ (t : Nat) (p : Fin 8) (f : Frame) (s₀ : State) (s : State) (a : State) (a₁ : State) (position : Fin 8) (m : Fin 9) (l : Fin 9), s = s₀.at t ∧ a = atPort t p s₀ ∧ a₁ = noteFrame p f a ∧ rxSpare s p = some m ∧ ((fins 9).find? fun l => (rxLane s p l).leaving && (rxLane s p l).role == .data && (rxLane s p l).position == position.val) = some l) ∧
    (∃ (t : Nat) (p : Fin 8) (ln : Fin 9) (f : Frame) (s₀ : State) (s : State) (a : State) (a₁ : State) (passed : Bool) (peerPassed : Bool) (x : RxLane) (y : TxLane) (partner : Fin 9) (s₂ : State), s = s₀.at t ∧ a = atPort t p s₀ ∧ a₁ = noteFrame p f a ∧ (port s p).phys.st = 8 ∧ x = rxLane s p ln ∧ x.role = .retrain ∧ partner = finOf 9 x.partner ∧ y = txLane s p partner ∧ s₂ = (if passed = true ∧ peerPassed = true ∧ x.retabled = true ∧ s.now ≤ x.retrainBy then retrainTxDone p partner .spareReady (modRxLane p ln (fun r => { r with role := .spareReady, fresh := true, errTimes := [] }) s) else retrainFailed p ln partner s) ∧ (∀ w : Retrain, (port s p).phys.retrain = some w → w.lane ≠ ln.val)) ∧
    (∃ (t : Nat) (p : Fin 8) (ln : Fin 9) (f : Frame) (s₀ : State) (s : State) (a : State) (a₁ : State) (passed : Bool) (peerPassed : Bool) (x : RxLane) (y : TxLane) (partner : Fin 9) (s₂ : State) (w : Retrain), s = s₀.at t ∧ a = atPort t p s₀ ∧ a₁ = noteFrame p f a ∧ (port s p).phys.st = 8 ∧ x = rxLane s p ln ∧ x.role = .retrain ∧ partner = finOf 9 x.partner ∧ y = txLane s p partner ∧ s₂ = (if passed = true ∧ peerPassed = true ∧ x.retabled = true ∧ s.now ≤ x.retrainBy then retrainTxDone p partner .spareReady (modRxLane p ln (fun r => { r with role := .spareReady, fresh := true, errTimes := [] }) s) else retrainFailed p ln partner s) ∧ (port s p).phys.retrain = some w ∧ w.lane = ln.val) ∧
    (∃ (t : Nat) (p : Fin 8) (ln : Fin 9) (f : Frame) (s₀ : State) (s : State) (a : State) (a₁ : State) (d : Nat), s = s₀.at t ∧ a = atPort t p s₀ ∧ a₁ = noteFrame p f a ∧ (rxLane s p ln).retryAt = some d ∧ d ≤ s.now ∧ (port s p).phys.st = 8 ∧ (rxLane s p ln).role = .retired ∧ s.root.alive = true) :=
  ⟨⟨0, 7, frame0, (withPort 7 (portP fun x => { x with st := 6 }) up), _, _, _, { lane := 8, tableId := 255, grade := 200, runningSf := 1, swapSymbol := 256, totalBits := gradeBits 200, entries := tabl0 }, 0, _, _, rfl, rfl, rfl, by decide +kernel, by decide +kernel, rfl, rfl, by decide +kernel, by decide +kernel, noneAll (by decide +kernel), by decide +kernel, by decide +kernel⟩,
   ⟨0, 7, frame0, (withPort 7 (portP fun x => { x with st := 6 }) up), _, _, _, { lane := 8, tableId := 255, grade := 200, runningSf := 1, swapSymbol := 255, totalBits := gradeBits 200, entries := tabl0 }, 0, _, _, rfl, rfl, rfl, by decide +kernel, by decide +kernel, rfl, rfl, by decide +kernel, by decide +kernel, noneAll (by decide +kernel), by decide +kernel⟩,
   ⟨0, 7, frame0, (withPort 7 (portP fun x => withLane 8 id (fun r => { r with pend := some pend0 }) { x with st := 8  }) up), _, _, _, { lane := 8, tableId := 255, grade := 200, runningSf := 1, swapSymbol := 256, totalBits := gradeBits 200, entries := tabl0 }, _, _, rfl, rfl, rfl, by decide +kernel, by decide +kernel, rfl, rfl, by decide +kernel, Or.inl (by decide +kernel)⟩,
   ⟨0, 7, frame0, (withPort 7 (portP fun x => { x with st := 6 }) up), _, _, _, { lane := 8, tableId := 255, grade := 200, runningSf := 1, swapSymbol := 256, totalBits := 0, entries := tabl0 }, _, _, _, rfl, rfl, rfl, by decide +kernel, by decide +kernel, rfl, rfl, by decide +kernel, rfl, by decide +kernel⟩,
   ⟨0, 7, 8, frame0, (withPort 7 (portP fun x => withLane 8 (fun r => { r with qualified := true, partner := 8, pend := some pend0 }) id { x with st := 8  }) up), _, _, _, 8, pend0, rfl, rfl, rfl, by decide +kernel, by decide +kernel, by decide +kernel⟩,
   ⟨0, 7, 8, frame0, (withPort 7 (portP fun x => withLane 8 (fun r => { r with qualified := true, partner := 8, pend := some pend0 }) id { x with st := 8  }) up), _, _, _, 8, pend0, rfl, rfl, rfl, by decide +kernel, by decide +kernel, by decide +kernel⟩,
   ⟨0, 7, 8, frame0, (withPort 7 (portP fun x => withLane 8 (fun r => { r with qualified := true, partner := 8, pend := some pend0 }) id { x with st := 8  }) up), _, _, _, 8, pend0, .nakBusy, rfl, rfl, rfl, by decide +kernel, by decide +kernel, by decide +kernel, by decide +kernel, by decide +kernel⟩,
   ⟨0, 7, 0, frame0, (withPort 7 (portP fun x => withLane 0 id (fun r => { r with role := .data, position := 7 }) <| withLane 8 id (fun r => { r with role := .spareReady }) { x with st := 8  }) up), _, _, _, 7, 8, rfl, rfl, rfl, by decide +kernel, by decide +kernel, by decide +kernel, by decide +kernel, by decide +kernel⟩,
   ⟨0, 7, frame0, (withPort 7 (portP fun x => withLane 8 id (fun r => { r with role := .retired }) { x with st := 8  }) up), _, _, _, rfl, rfl, rfl, by decide +kernel, by decide +kernel⟩,
   ⟨0, 7, 8, frame0, (withPort 7 (portP fun x => withLane 8 id (fun r => { r with role := .retired }) { x with st := 8  }) up), _, _, _, _, rfl, rfl, rfl, by decide +kernel, by decide +kernel, rfl⟩,
   ⟨0, 7, 8, frame0, (withPort 7 (portP fun x => withLane 8 (fun r => { r with role := .spareReady }) id { x with st := 8  }) up), _, _, _, (snrOf 0), _, _, rfl, rfl, rfl, by decide +kernel, by decide +kernel, rfl, rfl, by decide +kernel⟩,
   ⟨0, 7, 8, frame0, (withPort 7 (portP fun x => withLane 8 (fun r => { r with role := .spareReady, fresh := true }) id { x with st := 8 , grade := 50 }) up), _, _, _, (snrOf 85), _, _, _, rfl, rfl, rfl, by decide +kernel, by decide +kernel, rfl, rfl, someGet (by decide +kernel), by decide +kernel⟩,
   ⟨0, 7, 8, frame0, (withPort 7 (portP fun x => withLane 8 (fun r => { r with role := .spareReady, fresh := false, table := table1 }) id { x with st := 8 , grade := 50 }) up), _, _, _, (snrOf 85), _, _, _, rfl, rfl, rfl, by decide +kernel, by decide +kernel, rfl, rfl, someGet (by decide +kernel), by decide +kernel, by decide +kernel, by decide +kernel⟩,
   ⟨0, 7, 8, frame0, (withPort 7 (portP fun x => withLane 8 id (fun r => { r with pend := some pend0 }) { x with st := 8  }) up), _, _, _, pend0, 1000, rfl, rfl, rfl, by decide +kernel, by decide +kernel⟩,
   ⟨0, 7, 8, frame0, (withPort 7 (portP fun x => withLane 8 (fun r => { r with pend := some pend0 }) id { x with st := 8  }) up), _, _, _, pend0, 1015, rfl, rfl, rfl, by decide +kernel, by decide +kernel⟩,
   ⟨0, 7, 8, frame0, (withPort 7 (portP fun x => withLane 8 (fun r => { r with pend := some pend0 }) id { x with st := 8  }) up), _, _, _, pend0, 1016, rfl, rfl, rfl, by decide +kernel, by decide +kernel⟩,
   ⟨0, 7, 0, frame0, (withPort 7 (portP fun x => withLane 8 (fun r => { r with role := .spareReady }) id <| withLane 0 (fun r => { r with role := .data, errTimes := List.replicate 8 0 }) id { x with st := 8  }) up), _, _, _, rfl, rfl, rfl, by decide +kernel, by decide +kernel, by decide +kernel, by decide +kernel, by decide +kernel⟩,
   ⟨0, 7, 8, frame0, (withPort 7 (portP fun x => withLane 8 (fun r => { r with role := .data, errTimes := List.replicate 8 0 }) id { x with st := 8  }) up), _, _, _, rfl, rfl, rfl, by decide +kernel, by decide +kernel, by decide +kernel, by decide +kernel, by decide +kernel⟩,
   ⟨0, 7, 8, frame0, (withPort 7 (portP fun x => withLane 8 (fun r => { r with role := .spareReady, errTimes := List.replicate 8 0 }) id { x with st := 8  }) up), _, _, _, rfl, rfl, rfl, by decide +kernel, by decide +kernel, by decide +kernel, by decide +kernel, by decide +kernel⟩,
   ⟨0, 7, frame0, (withPort 7 (portP fun x => withLane 8 (fun r => { r with role := .spareReady }) id <| withLane 0 (fun r => { r with role := .data, position := 7, leaving := true }) id { x with st := 8  }) up), _, _, _, 7, 8, 0, rfl, rfl, rfl, by decide +kernel, by decide +kernel⟩,
   ⟨0, 7, 8, frame0, (withPort 7 (portP fun x => withLane 8 (fun r => { r with role := .retrain }) id { x with st := 8 , grade := 50 }) up), _, _, _, true, true, _, _, _, _, rfl, rfl, rfl, by decide +kernel, rfl, by decide +kernel, rfl, rfl, rfl, noneAll (by decide +kernel)⟩,
   ⟨0, 7, 8, frame0, (withPort 7 (portP fun x => withLane 8 (fun r => { r with role := .retrain }) id { x with st := 8 , grade := 50, retrain := some { lane := 8, ticket := some (0, 1) } }) up), _, _, _, true, true, _, _, _, _, _, rfl, rfl, rfl, by decide +kernel, rfl, by decide +kernel, rfl, rfl, rfl, someGet (by decide +kernel), by decide +kernel⟩,
   ⟨5, 7, 8, frame0, (withPort 7 (portP fun x => withLane 8 (fun r => { r with role := .retired, retryAt := some 5 }) id { x with st := 8  }) up), _, _, _, 5, rfl, rfl, rfl, by decide +kernel, by decide +kernel, by decide +kernel, by decide +kernel, by decide +kernel⟩⟩

/-- States and operands that meet the hypotheses of LanePowerEventsComplete, clause by clause. -/
theorem wit_LanePowerEventsComplete :
    (∃ (t : Nat) (p : Fin 8) (f : Frame) (ph : Phys) (s₀ : State) (s : State) (a : State) (a₁ : State), s = s₀.at t ∧ ph = (port s p).phys ∧ a = atPort t p s₀ ∧ a₁ = noteFrame p f a ∧ frameNew a p f = true ∧ (port a p).phys.st = 8) ∧
    (∃ (t : Nat) (p : Fin 8) (f : Frame) (ph : Phys) (s₀ : State) (s : State) (a : State) (a₁ : State), s = s₀.at t ∧ ph = (port s p).phys ∧ a = atPort t p s₀ ∧ a₁ = noteFrame p f a ∧ frameNew a p f = true ∧ (port a p).phys.st = 8 ∧ (port a p).phys.lowAsked = true) ∧
    (∃ (t : Nat) (p : Fin 8) (f : Frame) (ph : Phys) (s₀ : State) (s : State) (a : State) (a₁ : State) (reason : Nat), s = s₀.at t ∧ ph = (port s p).phys ∧ a = atPort t p s₀ ∧ a₁ = noteFrame p f a ∧ frameNew a p f = true ∧ ¬ ((port a p).phys.st = 11 ∧ reason = 1)) ∧
    (∃ (t : Nat) (p : Fin 8) (f : Frame) (ph : Phys) (s₀ : State) (s : State) (a : State) (a₁ : State), s = s₀.at t ∧ ph = (port s p).phys ∧ a = atPort t p s₀ ∧ a₁ = noteFrame p f a ∧ frameNew a p f = false) ∧
    (∃ (t : Nat) (p : Fin 8) (f : Frame) (ph : Phys) (s₀ : State) (s : State) (a : State) (a₁ : State), s = s₀.at t ∧ ph = (port s p).phys ∧ a = atPort t p s₀ ∧ a₁ = noteFrame p f a ∧ ph.st = 9 ∧ ph.lastBeaconSent + ph.lowMs * 1000000 ≤ s.now) ∧
    (∃ (t : Nat) (p : Fin 8) (f : Frame) (ph : Phys) (s₀ : State) (s : State) (a : State) (a₁ : State), s = s₀.at t ∧ ph = (port s p).phys ∧ a = atPort t p s₀ ∧ a₁ = noteFrame p f a ∧ ph.st = 9 ∧ ph.lastBeacon + 3 * ph.lowMs * 1000000 ≤ s.now) ∧
    (∃ (t : Nat) (p : Fin 8) (f : Frame) (ph : Phys) (s₀ : State) (s : State) (a : State) (a₁ : State) (lanes : BitVec 9) (since : Nat), s = s₀.at t ∧ ph = (port s p).phys ∧ a = atPort t p s₀ ∧ a₁ = noteFrame p f a ∧ s.pwr.st = .deep ∧ (vget s.cfg.ports p).wakeOnLink = true ∧ 6 ≤ ((List.range 9).filter fun i => lanes.getLsbD i).length ∧ 50000 ≤ since) :=
  ⟨⟨0, 7, frame0, _, (withPort 7 (portP fun x => { x with st := 8 }) up), _, _, _, rfl, rfl, rfl, rfl, by decide +kernel, by decide +kernel⟩,
   ⟨0, 7, frame0, _, (withPort 7 (portP fun x => { x with st := 8, lowAsked := true }) up), _, _, _, rfl, rfl, rfl, rfl, by decide +kernel, by decide +kernel, by decide +kernel⟩,
   ⟨0, 7, frame0, _, (withPort 7 (portP fun x => { x with st := 10 }) up), _, _, _, 255, rfl, rfl, rfl, rfl, by decide +kernel, (by decide +kernel)⟩,
   ⟨0, 7, { frame0 with intact := false }, _, (withPort 7 (portP fun x => { x with st := 8 }) up), _, _, _, rfl, rfl, rfl, rfl, by decide +kernel⟩,
   ⟨1000000, 7, frame0, _, (withPort 7 (portP fun x => { x with st := 9, lowMs := 1 }) up), _, _, _, rfl, rfl, rfl, rfl, by decide +kernel, by decide +kernel⟩,
   ⟨3000000, 7, frame0, _, (withPort 7 (portP fun x => { x with st := 9, lowMs := 1 }) up), _, _, _, rfl, rfl, rfl, rfl, by decide +kernel, by decide +kernel⟩,
   ⟨0, 7, frame0, _, { (modPwr (fun p => { p with st := .deep }) up) with cfg := { Cfg.default with ports := vset Cfg.default.ports 7 { PortCfg.default with wakeOnLink := true } } }, _, _, _, 0x3F, 50000, rfl, rfl, rfl, rfl, by decide +kernel, by decide +kernel, by decide +kernel, by decide +kernel⟩⟩

/-- States and operands that meet the hypotheses of CollectiveEventsComplete, clause by clause. -/
theorem wit_CollectiveEventsComplete :
    (∃ (t : Nat) (m : InMsg) (s₀ : State) (s : State) (s' : State), s = s₀.at t ∧ cutStopped s = false ∧ takeMsg (isColMsg s 0x40) s = some (m, s') ∧ LagClear s) ∧
    (∃ (t : Nat) (m : InMsg) (s₀ : State) (s : State) (s' : State), s = s₀.at t ∧ cutStopped s = false ∧ takeMsg (isColMsg s 0x41) s = some (m, s') ∧ LagClear s) ∧
    (∃ (t : Nat) (m : InMsg) (s₀ : State) (s : State) (s' : State), s = s₀.at t ∧ cutStopped s = false ∧ takeMsg (isColMsg s 0x42) s = some (m, s') ∧ slotById s' (u64At m.bytes 16) = none) ∧
    (∃ (t : Nat) (m : InMsg) (s₀ : State) (s : State) (s' : State) (k : Nat) (g : Group) (s₁ : State), s = s₀.at t ∧ cutStopped s = false ∧ takeMsg (isColMsg s 0x42) s = some (m, s') ∧ slotById s' (u64At m.bytes 16) = some (k, g) ∧ s₁ = modSlot k (fun g => { g with broken := some (u16At m.bytes 48) }) (modCol (fun c => { c with abortsGot := sat32 (c.abortsGot + 1) }) s') ∧ g.broken.isSome = true) ∧
    (∃ (t : Nat) (m : InMsg) (s₀ : State) (s : State) (s' : State) (k : Nat) (g : Group) (s₁ : State), s = s₀.at t ∧ cutStopped s = false ∧ takeMsg (isColMsg s 0x42) s = some (m, s') ∧ slotById s' (u64At m.bytes 16) = some (k, g) ∧ s₁ = modSlot k (fun g => { g with broken := some (u16At m.bytes 48) }) (modCol (fun c => { c with abortsGot := sat32 (c.abortsGot + 1) }) s') ∧ g.broken = none ∧ g.op = none) ∧
    (∃ (t : Nat) (m : InMsg) (s₀ : State) (s : State) (s' : State) (k : Nat) (g : Group) (s₁ : State) (o : ColOp), s = s₀.at t ∧ cutStopped s = false ∧ takeMsg (isColMsg s 0x42) s = some (m, s') ∧ slotById s' (u64At m.bytes 16) = some (k, g) ∧ s₁ = modSlot k (fun g => { g with broken := some (u16At m.bytes 48) }) (modCol (fun c => { c with abortsGot := sat32 (c.abortsGot + 1) }) s') ∧ g.broken = none ∧ g.op = some o) ∧
    (∃ (t : Nat) (s₀ : State) (s : State) (k : Fin 256) (g : Group) (o : ColOp), s = s₀.at t ∧ cutStopped s = false ∧ slotOf s k.val = some g ∧ g.op = some o ∧ o.ready = true ∧ (((colExpects g o).any fun x => (o.have x.1 x.2.1 x.2.2.1).isNone) = true ∨ (o.kind = 4 ∧ recvCounts g o = none)) ∧ colUnsent s (colTag k.val o.opseq) = false ∧ colFinished s k.val g o = false ∧ o.timer + colT s ≤ s.now) ∧
    (∃ (t : Nat) (s₀ : State) (s : State), s = s₀.at t ∧ cutStopped s = false) :=
  ⟨⟨0, _, (gotMsg (colMsg0 0x40) (withGroup grp0 up)), _, _, rfl, by decide +kernel, somePair (by decide +kernel), (by unfold LagClear; decide +kernel)⟩,
   ⟨0, _, (gotMsg (colMsg0 0x41) (withGroup grp0 up)), _, _, rfl, by decide +kernel, somePair (by decide +kernel), (by unfold LagClear; decide +kernel)⟩,
   ⟨0, _, (gotMsg (colMsg0 0x42) (withGroup { grp0 with id := 78 } up)), _, _, rfl, by decide +kernel, somePair (by decide +kernel), by decide +kernel⟩,
   ⟨0, _, (gotMsg (colMsg0 0x42) (withGroup { grp0 with broken := some stPeerReset } up)), _, _, 255, { grp0 with broken := some stPeerReset }, _, rfl, by decide +kernel, somePair (by decide +kernel), by decide +kernel, rfl, by decide +kernel⟩,
   ⟨0, _, (gotMsg (colMsg0 0x42) (withGroup grp0 up)), _, _, 255, grp0, _, rfl, by decide +kernel, somePair (by decide +kernel), by decide +kernel, rfl, by decide +kernel, by decide +kernel⟩,
   ⟨0, _, (gotMsg (colMsg0 0x42) (withGroup { grp0 with op := some op0 } up)), _, _, 255, { grp0 with op := some op0 }, _, op0, rfl, by decide +kernel, somePair (by decide +kernel), by decide +kernel, rfl, by decide +kernel, by decide +kernel⟩,
   ⟨20000000, (withGroup { grp0 with op := some op0 } up), _, 255, { grp0 with op := some op0 }, op0, rfl, by decide +kernel, by decide +kernel, by decide +kernel, by decide +kernel, by decide +kernel, by decide +kernel, by decide +kernel, by decide +kernel⟩,
   ⟨0, up, _, rfl, by decide +kernel⟩⟩

/-- States and operands that meet the hypotheses of GroveEventsComplete, clause by clause. -/
theorem wit_GroveEventsComplete :
    (∃ (t : Nat) (m : InMsg) (s₀ : State) (s : State) (s' : State) (p : Fin 8), s = s₀.at t ∧ CtrlArrives 0x80 1 4 s m s' ∧ m.port = some p ∧ u16At (ctrlFields m) 0 < 1024) ∧
    (∃ (t : Nat) (m : InMsg) (s₀ : State) (s : State) (s' : State) (p : Fin 8), s = s₀.at t ∧ CtrlArrives 0x80 1 4 s m s' ∧ m.port = some p ∧ 1024 ≤ u16At (ctrlFields m) 0) ∧
    (∃ (t : Nat) (m : InMsg) (s₀ : State) (s : State) (s' : State), s = s₀.at t ∧ CtrlArrives 0x81 0 12 s m s' ∧ isTrunk s' = true ∧ tget (ctrlSrc m) s'.grv.reg = none) ∧
    (∃ (t : Nat) (m : InMsg) (s₀ : State) (s : State) (s' : State) (e : RegEntry), s = s₀.at t ∧ CtrlArrives 0x81 0 12 s m s' ∧ isTrunk s' = true ∧ tget (ctrlSrc m) s'.grv.reg = some e ∧ (e.st = .joined ∨ e.st = .silent) ∧ e.serial ≠ u64At (ctrlFields m) 0) ∧
    (∃ (t : Nat) (m : InMsg) (s₀ : State) (s : State) (s' : State), s = s₀.at t ∧ CtrlArrives 0x81 0 12 s m s' ∧ isTrunk s' = false) ∧
    (∃ (t : Nat) (m : InMsg) (s₀ : State) (s : State) (s' : State) (j : Joining), s = s₀.at t ∧ CtrlArrives 0x82 0 8 s m s' ∧ ctrlSrc m = s'.grv.trunk ∧ s'.grv.registered = false ∧ s'.grv.joining = some j ∧ isSuccess (u16At (ctrlFields m) 0) = true) ∧
    (∃ (t : Nat) (m : InMsg) (s₀ : State) (s : State) (s' : State) (j : Joining), s = s₀.at t ∧ CtrlArrives 0x82 0 8 s m s' ∧ ctrlSrc m = s'.grv.trunk ∧ s'.grv.registered = false ∧ s'.grv.joining = some j ∧ isSuccess (u16At (ctrlFields m) 0) = false) ∧
    (∃ (t : Nat) (m : InMsg) (s₀ : State) (s : State) (s' : State), s = s₀.at t ∧ CtrlArrives 0x82 0 8 s m s' ∧ ctrlSrc m = s'.grv.trunk ∧ s'.grv.registered = false ∧ s'.grv.joining = none ∧ isSuccess (u16At (ctrlFields m) 0) = true) ∧
    (∃ (t : Nat) (s₀ : State) (s : State) (j : Joining), s = s₀.at t ∧ s.grv.joining = some j ∧ j.since + 4000000 ≤ s.now) ∧
    (∃ (t : Nat) (m : InMsg) (s₀ : State) (s : State) (s' : State), s = s₀.at t ∧ CtrlArrives 0x83 0 28 s m s' ∧ isTrunk s' = true ∧ (∀ e : RegEntry, tget (ctrlSrc m) s'.grv.reg = some e → e.serial = u64At (ctrlFields m) 0)) ∧
    (∃ (t : Nat) (s₀ : State) (s : State) (s₁ : State), s = s₀.at t ∧ s.txn.chip.isSome = true ∧ s.grv.lastBeat + 10000000 ≤ s.now ∧ s₁ = (if s.grv.registered = true then modGrv (fun g => { g with lastBeat := s.now }) s else sendJoin (modGrv (fun g => { g with lastBeat := s.now }) s))) ∧
    (∃ (t : Nat) (s₀ : State) (s : State) (c : Fin 1024) (e : RegEntry), s = s₀.at t ∧ tget c.val s.grv.reg = some e ∧ isTrunk s = true ∧ e.st = .joined ∧ e.heard + 30000000 ≤ s.now) ∧
    (∃ (t : Nat) (m : InMsg) (s₀ : State) (s : State) (s' : State) (e : RegEntry), s = s₀.at t ∧ CtrlArrives 0x84 0 8 s m s' ∧ tget (ctrlSrc m) s'.grv.reg = some e ∧ isTrunk s' = true ∧ e.serial = u64At (ctrlFields m) 0) ∧
    (∃ (t : Nat) (m : InMsg) (s₀ : State) (s : State) (s' : State) (p : Fin 8), s = s₀.at t ∧ CtrlArrives 0x85 0 4 s m s' ∧ m.port = some p ∧ (port s' p).link.mode ≠ 0 ∧ s'.txn.chip.isSome = true ∧ isTrunk s' = false ∧ ctrlSrc m = s'.grv.trunk ∧ u16At (ctrlFields m) 0 ≤ 1023 ∧ u8At (ctrlFields m) 2 ≤ 2 ∧ s'.txn.chip ≠ some (u16At (ctrlFields m) 0)) ∧
    (∃ (t : Nat) (m : InMsg) (s₀ : State) (s : State) (s' : State) (p : Fin 8), s = s₀.at t ∧ CtrlArrives 0x85 0 4 s m s' ∧ m.port = some p ∧ ((port s' p).link.mode = 0 ∨ isTrunk s' = true ∨ ctrlSrc m ≠ s'.grv.trunk)) :=
  ⟨⟨0, _, (gotMsg (ctrl0 0 0x80 1 (leBytes 2 1023 ++ [0, 0])) (inGrove { port0 with link := { port0.link with mode := 1 } } up)), _, _, 0, rfl, ⟨somePair (by decide +kernel), by decide +kernel⟩, by decide +kernel, by decide +kernel⟩,
   ⟨0, _, (gotMsg (ctrl0 0 0x80 1 (leBytes 2 1024 ++ [0, 0])) (inGrove { port0 with link := { port0.link with mode := 1 } } up)), _, _, 0, rfl, ⟨somePair (by decide +kernel), by decide +kernel⟩, by decide +kernel, by decide +kernel⟩,
   ⟨0, _, (gotMsg (ctrl0 0 0x81 0 (zeros 12)) (trunk0 [] up)), _, _, rfl, ⟨somePair (by decide +kernel), by decide +kernel⟩, by decide +kernel, by decide +kernel⟩,
   ⟨0, _, (gotMsg (ctrl0 0 0x81 0 (zeros 12)) (trunk0 [(2, entry0 9)] up)), _, _, (entry0 9), rfl, ⟨somePair (by decide +kernel), by decide +kernel⟩, by decide +kernel, by decide +kernel, by decide +kernel, by decide +kernel⟩,
   ⟨0, _, (gotMsg (ctrl0 0 0x81 0 (zeros 12)) { (inGrove { port0 with link := { port0.link with mode := 1 } } up) with grv := { Grove.reset with trunk := 2 } }), _, _, rfl, ⟨somePair (by decide +kernel), by decide +kernel⟩, by decide +kernel⟩,
   ⟨0, _, (gotMsg (ctrl0 0 0x82 0 (leBytes 2 0x00FF ++ zeros 6)) { (inGrove { port0 with link := { port0.link with mode := 1 } } up) with grv := { Grove.reset with trunk := 2, joining := some { since := 0, ticket := none } } }), _, _, { since := 0, ticket := none }, rfl, ⟨somePair (by decide +kernel), by decide +kernel⟩, by decide +kernel, by decide +kernel, by decide +kernel, by decide +kernel⟩,
   ⟨0, _, (gotMsg (ctrl0 0 0x82 0 (leBytes 2 0x0100 ++ zeros 6)) { (inGrove { port0 with link := { port0.link with mode := 1 } } up) with grv := { Grove.reset with trunk := 2, joining := some { since := 0, ticket := none } } }), _, _, { since := 0, ticket := none }, rfl, ⟨somePair (by decide +kernel), by decide +kernel⟩, by decide +kernel, by decide +kernel, by decide +kernel, by decide +kernel⟩,
   ⟨0, _, (gotMsg (ctrl0 0 0x82 0 (leBytes 2 0 ++ zeros 6)) { (inGrove { port0 with link := { port0.link with mode := 1 } } up) with grv := { Grove.reset with trunk := 2 } }), _, _, rfl, ⟨somePair (by decide +kernel), by decide +kernel⟩, by decide +kernel, by decide +kernel, by decide +kernel, by decide +kernel⟩,
   ⟨4000000, { up with grv := { Grove.reset with joining := some { since := 0, ticket := none } } }, _, { since := 0, ticket := none }, rfl, by decide +kernel, by decide +kernel⟩,
   ⟨0, _, (gotMsg (ctrl0 0 0x83 0 (zeros 28)) (trunk0 [] up)), _, _, rfl, ⟨somePair (by decide +kernel), by decide +kernel⟩, by decide +kernel, noneAll (by decide +kernel)⟩,
   ⟨10000000, { (inGrove { port0 with link := { port0.link with mode := 1 } } up) with grv := { Grove.reset with trunk := 2, registered := true } }, _, _, rfl, by decide +kernel, by decide +kernel, rfl⟩,
   ⟨30000000, (trunk0 [(1023, entry0 9)] up), _, 1023, (entry0 9), rfl, by decide +kernel, by decide +kernel, by decide +kernel, by decide +kernel⟩,
   ⟨0, _, (gotMsg (ctrl0 0 0x84 0 (leBytes 8 9)) (trunk0 [(2, entry0 9)] up)), _, _, (entry0 9), rfl, ⟨somePair (by decide +kernel), by decide +kernel⟩, by decide +kernel, by decide +kernel, by decide +kernel⟩,
   ⟨0, _, (gotMsg (ctrl0 0 0x85 0 (leBytes 2 1023 ++ [2, 255])) { (inGrove { port0 with link := { port0.link with mode := 1 } } up) with grv := { Grove.reset with trunk := 2 } }), _, _, 0, rfl, ⟨somePair (by decide +kernel), by decide +kernel⟩, by decide +kernel, by decide +kernel, by decide +kernel, by decide +kernel, by decide +kernel, by decide +kernel, by decide +kernel, by decide +kernel⟩,
   ⟨0, _, (gotMsg (ctrl0 0 0x85 0 (leBytes 2 1023 ++ [2, 255])) (trunk0 [] up)), _, _, 0, rfl, ⟨somePair (by decide +kernel), by decide +kernel⟩, by decide +kernel, by decide +kernel⟩⟩

/-- States and operands that meet the hypotheses of TwinEventsComplete, clause by clause. -/
theorem wit_TwinEventsComplete :
    (∃ (t : Nat) (m : InMsg) (s₀ : State) (s : State) (s' : State) (k : Bytes) (e : KeyEntry) (s₁ : State) (s₂ : State), s = s₀.at t ∧ CtrlArrives 0x90 2 48 s m s' ∧ m.port = some 7 ∧ ctrlSrc m = s'.twn.chip ∧ s'.twn.st ≠ .none ∧ s'.twn.st ≠ .promoted ∧ (s'.twn.st = .pairing → (u8At (ctrlFields m) 13).testBit 0 = true) ∧ s₁ = modTwn (fun w => { w with peerNonce := some ((ctrlFields m).drop 16), peerSerial := u64At (ctrlFields m) 0, gen := if genLater w.gen (BitVec.ofNat 8 (u8At (ctrlFields m) 12)) then BitVec.ofNat 8 (u8At (ctrlFields m) 12) else w.gen }) s' ∧ s₂ = (if s'.twn.peerNonce = none ∧ s₁.twn.ownNonce ≠ [] then sendHello (s'.twn.st == .pairing) s₁ else s₁) ∧ keyEntry s₂ s₂.twn.pairKey = some e ∧ (pairBranch s₂).1 = some k ∧ e.keyId = u16At (ctrlFields m) 8 ∧ e.gen = u16At (ctrlFields m) 10) ∧
    (∃ (t : Nat) (m : InMsg) (s₀ : State) (s : State) (s' : State) (k : Bytes) (e : KeyEntry) (s₁ : State) (s₂ : State), s = s₀.at t ∧ CtrlArrives 0x90 2 48 s m s' ∧ m.port = some 7 ∧ ctrlSrc m = s'.twn.chip ∧ s'.twn.st ≠ .none ∧ s'.twn.st ≠ .promoted ∧ (s'.twn.st = .pairing → (u8At (ctrlFields m) 13).testBit 0 = true) ∧ s₁ = modTwn (fun w => { w with peerNonce := some ((ctrlFields m).drop 16), peerSerial := u64At (ctrlFields m) 0, gen := if genLater w.gen (BitVec.ofNat 8 (u8At (ctrlFields m) 12)) then BitVec.ofNat 8 (u8At (ctrlFields m) 12) else w.gen }) s' ∧ s₂ = (if s'.twn.peerNonce = none ∧ s₁.twn.ownNonce ≠ [] then sendHello (s'.twn.st == .pairing) s₁ else s₁) ∧ keyEntry s₂ s₂.twn.pairKey = some e ∧ (pairBranch s₂).1 = some k ∧ (e.keyId ≠ u16At (ctrlFields m) 8 ∨ e.gen ≠ u16At (ctrlFields m) 10)) ∧
    (∃ (t : Nat) (m : InMsg) (s₀ : State) (s : State) (s' : State) (k : Bytes), s = s₀.at t ∧ CtrlArrives 0x91 2 32 s m s' ∧ m.port = some 7 ∧ ctrlSrc m = s'.twn.chip ∧ s'.twn.proofSent = true ∧ s'.twn.proofOk = false ∧ (pairBranch s').1 = some k ∧ ctrlFields m = twinProofOf (pairBranch s').2 k (if twinLow (pairBranch s').2 then 1 else 0)) ∧
    (∃ (t : Nat) (m : InMsg) (s₀ : State) (s : State) (s' : State) (k : Bytes), s = s₀.at t ∧ CtrlArrives 0x91 2 32 s m s' ∧ m.port = some 7 ∧ ctrlSrc m = s'.twn.chip ∧ s'.twn.proofSent = true ∧ s'.twn.proofOk = false ∧ (pairBranch s').1 = some k ∧ ctrlFields m ≠ twinProofOf (pairBranch s').2 k (if twinLow (pairBranch s').2 then 1 else 0)) ∧
    (∃ (t : Nat) (m : InMsg) (s₀ : State) (s : State) (s' : State), s = s₀.at t ∧ CtrlArrives 0x91 2 32 s m s' ∧ m.port = some 7 ∧ ctrlSrc m = s'.twn.chip ∧ s'.twn.proofSent = true ∧ s'.twn.proofOk = false ∧ (pairBranch s').1 = none) ∧
    (∃ (t : Nat) (s₀ : State) (s : State) (w : TwinWait), s = s₀.at t ∧ s.twn.pairing = some w ∧ w.since + 8000000 ≤ s.now) ∧
    (∃ (t : Nat) (m : InMsg) (s₀ : State) (s : State) (s' : State) (g : BitVec 8), s = s₀.at t ∧ TaggedArrives 0x92 16 s m s' ∧ g = BitVec.ofNat 8 (u8At ((ctrlFields m).take 16) 0) ∧ g = s'.twn.gen) ∧
    (∃ (t : Nat) (m : InMsg) (s₀ : State) (s : State) (s' : State) (g : BitVec 8), s = s₀.at t ∧ TaggedArrives 0x92 16 s m s' ∧ g = BitVec.ofNat 8 (u8At ((ctrlFields m).take 16) 0) ∧ genLater s'.twn.gen g = true) ∧
    (∃ (t : Nat) (m : InMsg) (s₀ : State) (s : State) (s' : State) (g : BitVec 8), s = s₀.at t ∧ TaggedArrives 0x92 16 s m s' ∧ g = BitVec.ofNat 8 (u8At ((ctrlFields m).take 16) 0) ∧ g ≠ s'.twn.gen ∧ genLater s'.twn.gen g = false) ∧
    (∃ (t : Nat) (s₀ : State) (s : State) (k : Bytes), s = s₀.at t ∧ s.twn.st = .paired ∧ s.twn.lastBeatSent + 100000 ≤ s.now ∧ s.twn.kGraft = some k) ∧
    (∃ (t : Nat) (s₀ : State) (s : State), s = s₀.at t ∧ s.twn.st = .paired ∧ s.twn.lastBeat + 300000 ≤ s.now) ∧
    (∃ (t : Nat) (m : InMsg) (s₀ : State) (s : State) (s' : State) (g : BitVec 8) (s₁ : State), s = s₀.at t ∧ ProbeArrives 0x98 3 20 s m s' ∧ g = BitVec.ofNat 8 (u8At ((ctrlFields m).take 20) 0) ∧ s₁ = sendProbeKind 0x99 0 (leBytes 1 s'.twn.gen.toNat ++ zeros 3 ++ ((ctrlFields m).take 20).drop 4) s' ∧ s₁.twn.gen = s'.twn.gen ∧ g = s'.twn.gen) ∧
    (∃ (t : Nat) (m : InMsg) (s₀ : State) (s : State) (s' : State) (g : BitVec 8) (s₁ : State), s = s₀.at t ∧ ProbeArrives 0x98 3 20 s m s' ∧ g = BitVec.ofNat 8 (u8At ((ctrlFields m).take 20) 0) ∧ s₁ = sendProbeKind 0x99 0 (leBytes 1 s'.twn.gen.toNat ++ zeros 3 ++ ((ctrlFields m).take 20).drop 4) s' ∧ s₁.twn.gen = s'.twn.gen ∧ genLater s'.twn.gen g = true) ∧
    (∃ (t : Nat) (m : InMsg) (s₀ : State) (s : State) (s' : State) (g : BitVec 8) (s₁ : State), s = s₀.at t ∧ ProbeArrives 0x98 3 20 s m s' ∧ g = BitVec.ofNat 8 (u8At ((ctrlFields m).take 20) 0) ∧ s₁ = sendProbeKind 0x99 0 (leBytes 1 s'.twn.gen.toNat ++ zeros 3 ++ ((ctrlFields m).take 20).drop 4) s' ∧ s₁.twn.gen = s'.twn.gen ∧ g ≠ s'.twn.gen ∧ genLater s'.twn.gen g = false) ∧
    (∃ (t : Nat) (m : InMsg) (s₀ : State) (s : State) (s' : State) (w : TwinWait) (g : BitVec 8), s = s₀.at t ∧ ProbeArrives 0x99 0 20 s m s' ∧ g = BitVec.ofNat 8 (u8At ((ctrlFields m).take 20) 0) ∧ (g = s'.twn.gen ∨ genLater s'.twn.gen g = true) ∧ s'.twn.probing = some w ∧ w.nonce = ofLe (((ctrlFields m).take 20).drop 4)) ∧
    (∃ (t : Nat) (m : InMsg) (s₀ : State) (s : State) (s' : State) (g : BitVec 8), s = s₀.at t ∧ ProbeArrives 0x99 0 20 s m s' ∧ g = BitVec.ofNat 8 (u8At ((ctrlFields m).take 20) 0) ∧ g ≠ s'.twn.gen ∧ genLater s'.twn.gen g = false) ∧
    (∃ (t : Nat) (s₀ : State) (s : State) (w : TwinWait) (s₁ : State), s = s₀.at t ∧ s.twn.probing = some w ∧ w.since + 500000 ≤ s.now ∧ s₁ = logErr 0x0033 30 (leBytes 2 s.twn.chip) (modTwn (fun x => { x with probing := none, st := .lost }) s)) ∧
    (∃ (t : Nat) (m : InMsg) (s₀ : State) (s : State) (s' : State), s = s₀.at t ∧ TaggedArrives 0x96 4 s m s' ∧ BitVec.ofNat 8 (u8At ((ctrlFields m).take 4) 0) = s'.twn.gen ∧ s'.twn.st = .paired ∧ (s'.twn.yielding = none ∨ twinLow s' = false)) ∧
    (∃ (t : Nat) (m : InMsg) (s₀ : State) (s : State) (s' : State), s = s₀.at t ∧ TaggedArrives 0x96 4 s m s' ∧ BitVec.ofNat 8 (u8At ((ctrlFields m).take 4) 0) = s'.twn.gen ∧ s'.twn.st = .paired ∧ s'.twn.yielding.isSome = true ∧ twinLow s' = true) ∧
    (∃ (t : Nat) (m : InMsg) (s₀ : State) (s : State) (s' : State), s = s₀.at t ∧ TaggedArrives 0x97 4 s m s' ∧ BitVec.ofNat 8 (u8At ((ctrlFields m).take 4) 0) = s'.twn.gen ∧ s'.twn.yielding.isSome = true) ∧
    (∃ (t : Nat) (s₀ : State) (s : State) (w : TwinWait), s = s₀.at t ∧ s.twn.yielding = some w ∧ w.since + 500000 ≤ s.now) ∧
    (∃ (t : Nat) (m : InMsg) (s₀ : State) (s : State) (s' : State) (g : BitVec 8), s = s₀.at t ∧ ProbeArrives 0x9A 0 4 s m s' ∧ g = BitVec.ofNat 8 (u8At ((ctrlFields m).take 4) 0) ∧ g = s'.twn.gen) ∧
    (∃ (t : Nat) (m : InMsg) (s₀ : State) (s : State) (s' : State) (g : BitVec 8), s = s₀.at t ∧ ProbeArrives 0x9A 0 4 s m s' ∧ g = BitVec.ofNat 8 (u8At ((ctrlFields m).take 4) 0) ∧ g ≠ s'.twn.gen ∧ genLater s'.twn.gen g = true) ∧
    (∃ (t : Nat) (m : InMsg) (s₀ : State) (s : State) (s' : State) (g : BitVec 8), s = s₀.at t ∧ ProbeArrives 0x9A 0 4 s m s' ∧ g = BitVec.ofNat 8 (u8At ((ctrlFields m).take 4) 0) ∧ g ≠ s'.twn.gen ∧ genLater s'.twn.gen g = false) ∧
    (∃ (t : Nat) (m : InMsg) (s₀ : State) (s : State) (s' : State), s = s₀.at t ∧ TaggedArrives 0x9B 4 s m s') :=
  ⟨⟨0, _, (gotMsg (ctrl0 7 0x90 2 (leBytes 8 4 ++ leBytes 2 9 ++ leBytes 2 0 ++ [6, 0, 0, 0] ++ zeros 32)) { paired (withKey 9 16 (zeros 32) up) with twn := { (paired up).twn with pairKey := 7, peerNonce := some (zeros 32) } }), _, _, _, _, _, _, rfl, ⟨somePair (by decide +kernel), by decide +kernel⟩, by decide +kernel, by decide +kernel, by decide +kernel, by decide +kernel, by decide +kernel, rfl, rfl, someGet (by decide +kernel), someGet (by decide +kernel), by decide +kernel, by decide +kernel⟩,
   ⟨0, _, (gotMsg (ctrl0 7 0x90 2 (leBytes 8 4 ++ leBytes 2 8 ++ leBytes 2 0 ++ [6, 0, 0, 0] ++ zeros 32)) { paired (withKey 9 16 (zeros 32) up) with twn := { (paired up).twn with pairKey := 7, peerNonce := some (zeros 32) } }), _, _, _, _, _, _, rfl, ⟨somePair (by decide +kernel), by decide +kernel⟩, by decide +kernel, by decide +kernel, by decide +kernel, by decide +kernel, by decide +kernel, rfl, rfl, someGet (by decide +kernel), someGet (by decide +kernel), by decide +kernel⟩,
   ⟨0, _, (gotMsg (ctrl0 7 0x91 2 proof1) { paired (withKey 9 16 (zeros 32) up) with twn := { (paired up).twn with pairKey := 7, proofSent := true } }), _, _, (zeros 32), rfl, ⟨somePair (by decide +kernel), by decide +kernel⟩, by decide +kernel, by decide +kernel, by decide +kernel, by decide +kernel, by decide +kernel, by decide +kernel⟩,
   ⟨0, _, (gotMsg (ctrl0 7 0x91 2 (zeros 32)) { paired (withKey 9 16 (zeros 32) up) with twn := { (paired up).twn with pairKey := 7, proofSent := true } }), _, _, (zeros 32), rfl, ⟨somePair (by decide +kernel), by decide +kernel⟩, by decide +kernel, by decide +kernel, by decide +kernel, by decide +kernel, by decide +kernel, by decide +kernel⟩,
   ⟨0, _, (gotMsg (ctrl0 7 0x91 2 (zeros 32)) { paired up with twn := { (paired up).twn with pairKey := 7, proofSent := true } }), _, _, rfl, ⟨somePair (by decide +kernel), by decide +kernel⟩, by decide +kernel, by decide +kernel, by decide +kernel, by decide +kernel, by decide +kernel⟩,
   ⟨8000000, { paired up with twn := { (paired up).twn with st := .pairing, pairing := some { since := 0, nonce := 3, ticket := none } } }, _, { since := 0, nonce := 3, ticket := none }, rfl, by decide +kernel, by decide +kernel⟩,
   ⟨0, _, (gotMsg (tagged0 7 146 2 ([5] ++ zeros 15)) (paired up)), _, _, 5, rfl, ⟨⟨somePair (by decide +kernel), by decide +kernel⟩, by decide +kernel, by decide +kernel, by decide +kernel, _, someGet (by decide +kernel), by decide +kernel⟩, by decide +kernel, by decide +kernel⟩,
   ⟨0, _, (gotMsg (tagged0 7 146 2 ([6] ++ zeros 15)) (paired up)), _, _, 6, rfl, ⟨⟨somePair (by decide +kernel), by decide +kernel⟩, by decide +kernel, by decide +kernel, by decide +kernel, _, someGet (by decide +kernel), by decide +kernel⟩, by decide +kernel, by decide +kernel⟩,
   ⟨0, _, (gotMsg (tagged0 7 146 2 ([4] ++ zeros 15)) (paired up)), _, _, 4, rfl, ⟨⟨somePair (by decide +kernel), by decide +kernel⟩, by decide +kernel, by decide +kernel, by decide +kernel, _, someGet (by decide +kernel), by decide +kernel⟩, by decide +kernel, by decide +kernel, by decide +kernel⟩,
   ⟨100000, (paired up), _, _, rfl, by decide +kernel, by decide +kernel, someGet (by decide +kernel)⟩,
   ⟨300000, (paired up), _, rfl, by decide +kernel, by decide +kernel⟩,
   ⟨0, _, (gotMsg (tagged0 0 152 3 ([5] ++ zeros 19)) (paired up)), _, _, 5, _, rfl, ⟨⟨somePair (by decide +kernel), by decide +kernel⟩, by decide +kernel, _, someGet (by decide +kernel), by decide +kernel⟩, by decide +kernel, rfl, by decide +kernel, by decide +kernel⟩,
   ⟨0, _, (gotMsg (tagged0 0 152 3 ([6] ++ zeros 19)) (paired up)), _, _, 6, _, rfl, ⟨⟨somePair (by decide +kernel), by decide +kernel⟩, by decide +kernel, _, someGet (by decide +kernel), by decide +kernel⟩, by decide +kernel, rfl, by decide +kernel, by decide +kernel⟩,
   ⟨0, _, (gotMsg (tagged0 0 152 3 ([4] ++ zeros 19)) (paired up)), _, _, 4, _, rfl, ⟨⟨somePair (by decide +kernel), by decide +kernel⟩, by decide +kernel, _, someGet (by decide +kernel), by decide +kernel⟩, by decide +kernel, rfl, by decide +kernel, by decide +kernel, by decide +kernel⟩,
   ⟨0, _, (gotMsg (tagged0 0 153 0 ([132, 0, 0, 0] ++ leBytes 16 3)) { paired up with twn := { (paired up).twn with st := .graftDown, probing := some { since := 0, nonce := 3, ticket := none } } }), _, _, { since := 0, nonce := 3, ticket := none }, 132, rfl, ⟨⟨somePair (by decide +kernel), by decide +kernel⟩, by decide +kernel, _, someGet (by decide +kernel), by decide +kernel⟩, by decide +kernel, by decide +kernel, by decide +kernel, by decide +kernel⟩,
   ⟨0, _, (gotMsg (tagged0 0 153 0 ([4, 0, 0, 0] ++ leBytes 16 3)) { paired up with twn := { (paired up).twn with st := .graftDown, probing := some { since := 0, nonce := 3, ticket := none } } }), _, _, 4, rfl, ⟨⟨somePair (by decide +kernel), by decide +kernel⟩, by decide +kernel, _, someGet (by decide +kernel), by decide +kernel⟩, by decide +kernel, by decide +kernel, by decide +kernel⟩,
   ⟨500000, { paired up with twn := { (paired up).twn with st := .graftDown, probing := some { since := 0, nonce := 3, ticket := none } } }, _, { since := 0, nonce := 3, ticket := none }, _, rfl, by decide +kernel, by decide +kernel, rfl⟩,
   ⟨0, _, (gotMsg (tagged0 7 150 2 ([5, 0, 0, 0])) (paired up)), _, _, rfl, ⟨⟨somePair (by decide +kernel), by decide +kernel⟩, by decide +kernel, by decide +kernel, by decide +kernel, _, someGet (by decide +kernel), by decide +kernel⟩, by decide +kernel, by decide +kernel, by decide +kernel⟩,
   ⟨0, _, (gotMsg (tagged0 7 150 2 ([5, 0, 0, 0])) { paired up with twn := { (paired up).twn with yielding := some { since := 0, nonce := 3, ticket := none } } }), _, _, rfl, ⟨⟨somePair (by decide +kernel), by decide +kernel⟩, by decide +kernel, by decide +kernel, by decide +kernel, _, someGet (by decide +kernel), by decide +kernel⟩, by decide +kernel, by decide +kernel, by decide +kernel, by decide +kernel⟩,
   ⟨0, _, (gotMsg (tagged0 7 0x97 2 [5, 0, 0, 0]) { paired up with twn := { (paired up).twn with yielding := some { since := 0, nonce := 3, ticket := none } } }), _, _, rfl, ⟨⟨somePair (by decide +kernel), by decide +kernel⟩, by decide +kernel, by decide +kernel, by decide +kernel, _, someGet (by decide +kernel), by decide +kernel⟩, by decide +kernel, by decide +kernel⟩,
   ⟨500000, { paired up with twn := { (paired up).twn with yielding := some { since := 0, nonce := 3, ticket := none } } }, _, { since := 0, nonce := 3, ticket := none }, rfl, by decide +kernel, by decide +kernel⟩,
   ⟨0, _, (gotMsg (tagged0 0 154 0 ([5, 0, 0, 0])) (paired up)), _, _, 5, rfl, ⟨⟨somePair (by decide +kernel), by decide +kernel⟩, by decide +kernel, _, someGet (by decide +kernel), by decide +kernel⟩, by decide +kernel, by decide +kernel⟩,
   ⟨0, _, (gotMsg (tagged0 0 154 0 ([132, 0, 0, 0])) (paired up)), _, _, 132, rfl, ⟨⟨somePair (by decide +kernel), by decide +kernel⟩, by decide +kernel, _, someGet (by decide +kernel), by decide +kernel⟩, by decide +kernel, by decide +kernel, by decide +kernel⟩,
   ⟨0, _, (gotMsg (tagged0 0 154 0 ([4, 0, 0, 0])) (paired up)), _, _, 4, rfl, ⟨⟨somePair (by decide +kernel), by decide +kernel⟩, by decide +kernel, _, someGet (by decide +kernel), by decide +kernel⟩, by decide +kernel, by decide +kernel, by decide +kernel⟩,
   ⟨0, _, (gotMsg (tagged0 7 155 2 ([5, 0, 0, 0])) (paired up)), _, _, rfl, ⟨⟨somePair (by decide +kernel), by decide +kernel⟩, by decide +kernel, by decide +kernel, by decide +kernel, _, someGet (by decide +kernel), by decide +kernel⟩⟩⟩

/-- States and operands that meet the hypotheses of MirrorEventsComplete, clause by clause. -/
theorem wit_MirrorEventsComplete :
    (∃ (t : Nat) (m : InMsg) (f : Bytes) (s₀ : State) (s : State) (s' : State) (st : Nat), s = s₀.at t ∧ TaggedArrives 0x93 24 s m s' ∧ f = (ctrlFields m).take 24 ∧ st = openStatus s' (u8At f 4) (u8At f 5) (u64At f 8) (u64At f 16) ∧ st ≠ stOk) ∧
    (∃ (t : Nat) (m : InMsg) (f : Bytes) (s₀ : State) (s : State) (s' : State) (st : Nat) (k : Nat) (s₁ : State), s = s₀.at t ∧ TaggedArrives 0x93 24 s m s' ∧ f = (ctrlFields m).take 24 ∧ st = openStatus s' (u8At f 4) (u8At f 5) (u64At f 8) (u64At f 16) ∧ st = stOk ∧ addRegion (Region.make (u32At f 0) (u8At f 4) (u16At f 6) (u64At f 8) (u64At f 16) true (u16At f 6 != 0)) s' = some (k, s₁)) ∧
    (∃ (t : Nat) (m : InMsg) (f : Bytes) (s₀ : State) (s : State) (s' : State) (e : Nat × Region × (Fin 130 × Request)) (k : Nat) (s₁ : State), s = s₀.at t ∧ TaggedArrives 0x94 8 s m s' ∧ f = (ctrlFields m).take 8 ∧ (s'.twn.opening.find? fun e => e.2.1.id == u32At f 0) = some e ∧ isSuccess (u16At f 4) = true ∧ addRegion e.2.1 s' = some (k, s₁)) ∧
    (∃ (t : Nat) (m : InMsg) (f : Bytes) (s₀ : State) (s : State) (s' : State) (e : Nat × Region × (Fin 130 × Request)), s = s₀.at t ∧ TaggedArrives 0x94 8 s m s' ∧ f = (ctrlFields m).take 8 ∧ (s'.twn.opening.find? fun e => e.2.1.id == u32At f 0) = some e ∧ isSuccess (u16At f 4) = false) ∧
    (∃ (t : Nat) (m : InMsg) (f : Bytes) (s₀ : State) (s : State) (s' : State), s = s₀.at t ∧ TaggedArrives 0x95 8 s m s' ∧ f = (ctrlFields m).take 8) ∧
    (∃ (t : Nat) (m : InMsg) (s₀ : State) (s : State) (s' : State) (b : Bytes) (n : Nat) (off : Nat) (lines : List (Nat × Bool)) (answer : Nat → State → State) (k : Nat) (r : Region), s = s₀.at t ∧ cutStopped s = false ∧ takeMsg (isMirror 0x50) s = some (m, s') ∧ b = m.bytes ∧ n = u16At b 2 ∧ off = u64At b 16 ∧ 1 ≤ n ∧ n ≤ 64 ∧ m.vc = 5 ∧ off % 64 = 0 ∧ off % 4096 + 64 * n ≤ 4096 ∧ lines = (List.range n).map (fun i => (off + 64 * i, (u64At b 24).testBit i)) ∧ b.length = 32 + 64 * (lines.filter fun l => !l.2).length ∧ answer = (fun st s => withGen (u8At b 1) (fun s => s) (queueMsg 7 1 1 0 none (leBytes 1 0xD0 ++ leBytes 1 s.twn.gen.toNat ++ leBytes 2 st ++ leBytes 4 (u32At b 4) ++ slice b 8 8 ++ zeros 16) s)) ∧ (s'.twn.regions.find? fun e => e.2.target && e.2.id == u32At b 4) = some (k, r) ∧ BitVec.ofNat 8 (u8At b 1) = s'.twn.gen ∧ (r.st = .syncing ∨ r.st = .inSync) ∧ r.offset ≤ off ∧ off + 64 * n ≤ r.offset + r.length ∧ r.seq = u64At b 8) ∧
    (∃ (t : Nat) (m : InMsg) (s₀ : State) (s : State) (s' : State) (b : Bytes) (n : Nat) (off : Nat) (lines : List (Nat × Bool)) (answer : Nat → State → State) (k : Nat) (r : Region), s = s₀.at t ∧ cutStopped s = false ∧ takeMsg (isMirror 0x50) s = some (m, s') ∧ b = m.bytes ∧ n = u16At b 2 ∧ off = u64At b 16 ∧ 1 ≤ n ∧ n ≤ 64 ∧ m.vc = 5 ∧ off % 64 = 0 ∧ off % 4096 + 64 * n ≤ 4096 ∧ lines = (List.range n).map (fun i => (off + 64 * i, (u64At b 24).testBit i)) ∧ b.length = 32 + 64 * (lines.filter fun l => !l.2).length ∧ answer = (fun st s => withGen (u8At b 1) (fun s => s) (queueMsg 7 1 1 0 none (leBytes 1 0xD0 ++ leBytes 1 s.twn.gen.toNat ++ leBytes 2 st ++ leBytes 4 (u32At b 4) ++ slice b 8 8 ++ zeros 16) s)) ∧ (s'.twn.regions.find? fun e => e.2.target && e.2.id == u32At b 4) = some (k, r) ∧ BitVec.ofNat 8 (u8At b 1) = s'.twn.gen ∧ (r.st = .syncing ∨ r.st = .inSync) ∧ r.offset ≤ off ∧ off + 64 * n ≤ r.offset + r.length ∧ r.seq ≠ u64At b 8) ∧
    (∃ (t : Nat) (m : InMsg) (s₀ : State) (s : State) (s' : State) (b : Bytes) (n : Nat) (off : Nat) (lines : List (Nat × Bool)) (answer : Nat → State → State) (k : Nat) (r : Region), s = s₀.at t ∧ cutStopped s = false ∧ takeMsg (isMirror 0x50) s = some (m, s') ∧ b = m.bytes ∧ n = u16At b 2 ∧ off = u64At b 16 ∧ 1 ≤ n ∧ n ≤ 64 ∧ m.vc = 5 ∧ off % 64 = 0 ∧ off % 4096 + 64 * n ≤ 4096 ∧ lines = (List.range n).map (fun i => (off + 64 * i, (u64At b 24).testBit i)) ∧ b.length = 32 + 64 * (lines.filter fun l => !l.2).length ∧ answer = (fun st s => withGen (u8At b 1) (fun s => s) (queueMsg 7 1 1 0 none (leBytes 1 0xD0 ++ leBytes 1 s.twn.gen.toNat ++ leBytes 2 st ++ leBytes 4 (u32At b 4) ++ slice b 8 8 ++ zeros 16) s)) ∧ (s'.twn.regions.find? fun e => e.2.target && e.2.id == u32At b 4) = some (k, r) ∧ BitVec.ofNat 8 (u8At b 1) = s'.twn.gen ∧ ¬ ((r.st = .syncing ∨ r.st = .inSync) ∧ r.offset ≤ off ∧ off + 64 * n ≤ r.offset + r.length)) ∧
    (∃ (t : Nat) (m : InMsg) (s₀ : State) (s : State) (s' : State) (b : Bytes) (n : Nat) (off : Nat) (lines : List (Nat × Bool)) (answer : Nat → State → State) (k : Nat) (r : Region), s = s₀.at t ∧ cutStopped s = false ∧ takeMsg (isMirror 0x50) s = some (m, s') ∧ b = m.bytes ∧ n = u16At b 2 ∧ off = u64At b 16 ∧ 1 ≤ n ∧ n ≤ 64 ∧ m.vc = 5 ∧ off % 64 = 0 ∧ off % 4096 + 64 * n ≤ 4096 ∧ lines = (List.range n).map (fun i => (off + 64 * i, (u64At b 24).testBit i)) ∧ b.length = 32 + 64 * (lines.filter fun l => !l.2).length ∧ answer = (fun st s => withGen (u8At b 1) (fun s => s) (queueMsg 7 1 1 0 none (leBytes 1 0xD0 ++ leBytes 1 s.twn.gen.toNat ++ leBytes 2 st ++ leBytes 4 (u32At b 4) ++ slice b 8 8 ++ zeros 16) s)) ∧ (s'.twn.regions.find? fun e => e.2.target && e.2.id == u32At b 4) = some (k, r) ∧ BitVec.ofNat 8 (u8At b 1) ≠ s'.twn.gen) ∧
    (∃ (t : Nat) (m : InMsg) (s₀ : State) (s : State) (s' : State) (b : Bytes) (n : Nat) (off : Nat) (lines : List (Nat × Bool)) (answer : Nat → State → State), s = s₀.at t ∧ cutStopped s = false ∧ takeMsg (isMirror 0x50) s = some (m, s') ∧ b = m.bytes ∧ n = u16At b 2 ∧ off = u64At b 16 ∧ 1 ≤ n ∧ n ≤ 64 ∧ m.vc = 5 ∧ off % 64 = 0 ∧ off % 4096 + 64 * n ≤ 4096 ∧ lines = (List.range n).map (fun i => (off + 64 * i, (u64At b 24).testBit i)) ∧ b.length = 32 + 64 * (lines.filter fun l => !l.2).length ∧ answer = (fun st s => withGen (u8At b 1) (fun s => s) (queueMsg 7 1 1 0 none (leBytes 1 0xD0 ++ leBytes 1 s.twn.gen.toNat ++ leBytes 2 st ++ leBytes 4 (u32At b 4) ++ slice b 8 8 ++ zeros 16) s)) ∧ (s'.twn.regions.find? fun e => e.2.target && e.2.id == u32At b 4) = none ∧ BitVec.ofNat 8 (u8At b 1) = s'.twn.gen) ∧
    (∃ (t : Nat) (m : InMsg) (s₀ : State) (s : State) (s' : State) (g : BitVec 8) (k : Nat) (r : Region) (e : MirrorSent) (rest : List MirrorSent), s = s₀.at t ∧ cutStopped s = false ∧ takeMsg (isMirror 0xD0) s = some (m, s') ∧ g = BitVec.ofNat 8 (u8At m.bytes 1) ∧ g = s'.twn.gen ∧ (s'.twn.regions.find? fun e => !e.2.target && e.2.id == u32At m.bytes 4) = some (k, r) ∧ r.sent = e :: rest ∧ e.seq = u64At m.bytes 8 ∧ isSuccess (u16At m.bytes 2) = true) ∧
    (∃ (t : Nat) (m : InMsg) (s₀ : State) (s : State) (s' : State) (g : BitVec 8) (k : Nat) (r : Region) (e : MirrorSent) (rest : List MirrorSent), s = s₀.at t ∧ cutStopped s = false ∧ takeMsg (isMirror 0xD0) s = some (m, s') ∧ g = BitVec.ofNat 8 (u8At m.bytes 1) ∧ g = s'.twn.gen ∧ (s'.twn.regions.find? fun e => !e.2.target && e.2.id == u32At m.bytes 4) = some (k, r) ∧ r.sent = e :: rest ∧ e.seq = u64At m.bytes 8 ∧ isSuccess (u16At m.bytes 2) = false) ∧
    (∃ (t : Nat) (m : InMsg) (s₀ : State) (s : State) (s' : State) (g : BitVec 8), s = s₀.at t ∧ cutStopped s = false ∧ takeMsg (isMirror 0xD0) s = some (m, s') ∧ g = BitVec.ofNat 8 (u8At m.bytes 1) ∧ g ≠ s'.twn.gen ∧ genLater s'.twn.gen g = true) ∧
    (∃ (t : Nat) (m : InMsg) (s₀ : State) (s : State) (s' : State) (g : BitVec 8), s = s₀.at t ∧ cutStopped s = false ∧ takeMsg (isMirror 0xD0) s = some (m, s') ∧ g = BitVec.ofNat 8 (u8At m.bytes 1) ∧ g ≠ s'.twn.gen ∧ genLater s'.twn.gen g = false) ∧
    (∃ (t : Nat) (s₀ : State) (s : State) (k : Nat) (r : Region), s = s₀.at t ∧ tget k s.twn.regions = some r ∧ r.st = .syncing ∧ r.carried = r.length) :=
  ⟨⟨0, _, _, (gotMsg (tagged0 7 147 2 (leBytes 4 1 ++ [127] ++ zeros 11 ++ leBytes 8 0x400000)) (paired up)), _, _, _, rfl, ⟨⟨somePair (by decide +kernel), by decide +kernel⟩, by decide +kernel, by decide +kernel, by decide +kernel, _, someGet (by decide +kernel), by decide +kernel⟩, rfl, rfl, by decide +kernel⟩,
   ⟨0, _, _, (gotMsg (tagged0 7 147 2 (leBytes 4 1 ++ [5] ++ zeros 11 ++ leBytes 8 0x400000)) (paired (withPart up))), _, _, _, _, _, rfl, ⟨⟨somePair (by decide +kernel), by decide +kernel⟩, by decide +kernel, by decide +kernel, by decide +kernel, _, someGet (by decide +kernel), by decide +kernel⟩, rfl, rfl, rfl, somePair (by decide +kernel)⟩,
   ⟨0, _, _, (gotMsg (tagged0 7 148 2 (leBytes 4 1 ++ leBytes 2 0 ++ zeros 2)) { paired up with twn := { (paired up).twn with opening := [(0, region0 false, ((0 : Fin 130), req 0x704 []))] } }), _, _, (0, region0 false, ((0 : Fin 130), req 0x704 [])), _, _, rfl, ⟨⟨somePair (by decide +kernel), by decide +kernel⟩, by decide +kernel, by decide +kernel, by decide +kernel, _, someGet (by decide +kernel), by decide +kernel⟩, rfl, by decide +kernel, by decide +kernel, somePair (by decide +kernel)⟩,
   ⟨0, _, _, (gotMsg (tagged0 7 148 2 (leBytes 4 1 ++ leBytes 2 0x0100 ++ zeros 2)) { paired up with twn := { (paired up).twn with opening := [(0, region0 false, ((0 : Fin 130), req 0x704 []))] } }), _, _, (0, region0 false, ((0 : Fin 130), req 0x704 [])), rfl, ⟨⟨somePair (by decide +kernel), by decide +kernel⟩, by decide +kernel, by decide +kernel, by decide +kernel, _, someGet (by decide +kernel), by decide +kernel⟩, rfl, by decide +kernel, by decide +kernel⟩,
   ⟨0, _, _, (gotMsg (tagged0 7 149 2 (zeros 8)) (paired up)), _, _, rfl, ⟨⟨somePair (by decide +kernel), by decide +kernel⟩, by decide +kernel, by decide +kernel, by decide +kernel, _, someGet (by decide +kernel), by decide +kernel⟩, rfl⟩,
   ⟨0, _, (gotMsg { port := some 7, vc := 5, typ := 1, at_ := 0, bytes := [0x50, 5] ++ leBytes 2 64 ++ leBytes 4 1 ++ leBytes 8 0 ++ leBytes 8 0 ++ leBytes 8 0xFFFFFFFFFFFFFFFE ++ zeros 64 } (mirrored (region0 true) up)), _, _, _, _, _, _, _, 0, (region0 true), rfl, by decide +kernel, somePair (by decide +kernel), rfl, rfl, rfl, by decide +kernel, by decide +kernel, by decide +kernel, by decide +kernel, by decide +kernel, rfl, by decide +kernel, rfl, by decide +kernel, by decide +kernel, by decide +kernel, by decide +kernel, by decide +kernel, by decide +kernel⟩,
   ⟨0, _, (gotMsg { port := some 7, vc := 5, typ := 1, at_ := 0, bytes := [0x50, 5] ++ leBytes 2 64 ++ leBytes 4 1 ++ leBytes 8 1 ++ leBytes 8 0 ++ leBytes 8 0xFFFFFFFFFFFFFFFE ++ zeros 64 } (mirrored (region0 true) up)), _, _, _, _, _, _, _, 0, (region0 true), rfl, by decide +kernel, somePair (by decide +kernel), rfl, rfl, rfl, by decide +kernel, by decide +kernel, by decide +kernel, by decide +kernel, by decide +kernel, rfl, by decide +kernel, rfl, by decide +kernel, by decide +kernel, by decide +kernel, by decide +kernel, by decide +kernel, by decide +kernel⟩,
   ⟨0, _, (gotMsg { port := some 7, vc := 5, typ := 1, at_ := 0, bytes := [0x50, 5] ++ leBytes 2 64 ++ leBytes 4 1 ++ leBytes 8 0 ++ leBytes 8 4096 ++ leBytes 8 0xFFFFFFFFFFFFFFFE ++ zeros 64 } (mirrored (region0 true) up)), _, _, _, _, _, _, _, 0, (region0 true), rfl, by decide +kernel, somePair (by decide +kernel), rfl, rfl, rfl, by decide +kernel, by decide +kernel, by decide +kernel, by decide +kernel, by decide +kernel, rfl, by decide +kernel, rfl, by decide +kernel, by decide +kernel, by decide +kernel⟩,
   ⟨0, _, (gotMsg { port := some 7, vc := 5, typ := 1, at_ := 0, bytes := [0x50, 4] ++ leBytes 2 64 ++ leBytes 4 1 ++ leBytes 8 0 ++ leBytes 8 0 ++ leBytes 8 0xFFFFFFFFFFFFFFFE ++ zeros 64 } (mirrored (region0 true) up)), _, _, _, _, _, _, _, 0, (region0 true), rfl, by decide +kernel, somePair (by decide +kernel), rfl, rfl, rfl, by decide +kernel, by decide +kernel, by decide +kernel, by decide +kernel, by decide +kernel, rfl, by decide +kernel, rfl, by decide +kernel, by decide +kernel⟩,
   ⟨0, _, (gotMsg { port := some 7, vc := 5, typ := 1, at_ := 0, bytes := [0x50, 5] ++ leBytes 2 64 ++ leBytes 4 2 ++ leBytes 8 0 ++ leBytes 8 0 ++ leBytes 8 0xFFFFFFFFFFFFFFFE ++ zeros 64 } (mirrored (region0 true) up)), _, _, _, _, _, _, _, rfl, by decide +kernel, somePair (by decide +kernel), rfl, rfl, rfl, by decide +kernel, by decide +kernel, by decide +kernel, by decide +kernel, by decide +kernel, rfl, by decide +kernel, rfl, by decide +kernel, by decide +kernel⟩,
   ⟨0, _, (gotMsg { port := some 7, vc := 1, typ := 1, at_ := 0, bytes := [0xD0, 5] ++ leBytes 2 0 ++ leBytes 4 1 ++ leBytes 8 3 } (mirrored { region0 false with sent := [{ seq := 3, lines := 1, at_ := 0, copy := false }] } up)), _, _, 5, 0, { region0 false with sent := [{ seq := 3, lines := 1, at_ := 0, copy := false }] }, { seq := 3, lines := 1, at_ := 0, copy := false }, [], rfl, by decide +kernel, somePair (by decide +kernel), by decide +kernel, by decide +kernel, by decide +kernel, by decide +kernel, by decide +kernel, by decide +kernel⟩,
   ⟨0, _, (gotMsg { port := some 7, vc := 1, typ := 1, at_ := 0, bytes := [0xD0, 5] ++ leBytes 2 256 ++ leBytes 4 1 ++ leBytes 8 3 } (mirrored { region0 false with sent := [{ seq := 3, lines := 1, at_ := 0, copy := false }] } up)), _, _, 5, 0, { region0 false with sent := [{ seq := 3, lines := 1, at_ := 0, copy := false }] }, { seq := 3, lines := 1, at_ := 0, copy := false }, [], rfl, by decide +kernel, somePair (by decide +kernel), by decide +kernel, by decide +kernel, by decide +kernel, by decide +kernel, by decide +kernel, by decide +kernel⟩,
   ⟨0, _, (gotMsg { port := some 7, vc := 1, typ := 1, at_ := 0, bytes := [0xD0, 6] ++ leBytes 2 0 ++ leBytes 4 1 ++ leBytes 8 3 } (mirrored { region0 false with sent := [{ seq := 3, lines := 1, at_ := 0, copy := false }] } up)), _, _, 6, rfl, by decide +kernel, somePair (by decide +kernel), by decide +kernel, by decide +kernel, by decide +kernel⟩,
   ⟨0, _, (gotMsg { port := some 7, vc := 1, typ := 1, at_ := 0, bytes := [0xD0, 4] ++ leBytes 2 0 ++ leBytes 4 1 ++ leBytes 8 3 } (mirrored { region0 false with sent := [{ seq := 3, lines := 1, at_ := 0, copy := false }] } up)), _, _, 4, rfl, by decide +kernel, somePair (by decide +kernel), by decide +kernel, by decide +kernel, by decide +kernel⟩,
   ⟨0, (mirrored { region0 false with copied := 0x1000 } up), _, 0, { region0 false with copied := 0x1000 }, rfl, by decide +kernel, by decide +kernel, by decide +kernel⟩⟩

/-- States and operands that meet the hypotheses of BeatEventsComplete, clause by clause. -/
theorem wit_BeatEventsComplete :
    (∃ (t : Nat) (s₀ : State) (s : State) (b : Fin 64), s = s₀.at t ∧ (bough s b).st = .active ∧ crownAwake s = true ∧ (hartState s (.twig b)).halted = false ∧ s.root.alive = true) ∧
    (∃ (t : Nat) (s₀ : State) (s : State), s = s₀.at t ∧ (∀ b : Fin 64, countsMisses s b = true → s.now < (vget s.cmb.beats b).lastBeat + 300000 ∧ s.now < (vget s.cmb.beats b).tilesAt + s.cfg.progressMs * 1000000)) ∧
    (∃ (t : Nat) (s₀ : State) (s : State) (b : Fin 64), s = s₀.at t ∧ s.root.alive = true ∧ crownAwake s = true ∧ s.obs.cut.st ≠ .taken ∧ s.cmb.crownPending = none ∧ s.cmb.devicePending = none ∧ countsMisses s b = true ∧ s.now < (vget s.cmb.beats b).lastBeat + 300000 ∧ (boughRecord s b).1 ≠ 0xFFFFFFFF ∧ (vget s.cmb.beats b).tilesAt + s.cfg.progressMs * 1000000 ≤ s.now ∧ (∀ c : Fin 64, c ≠ b → countsMisses s c = false)) ∧
    (∃ (t : Nat) (s₀ : State) (s : State) (n : Nat) (s₁ : State), s = s₀.at t ∧ 5 ≤ s.boot.stage ∧ s.obs.rootHart.halted = false ∧ s.cmb.devicePending = none ∧ n = s.cmb.rootBeats + 1 ∧ s₁ = modCmb (fun c => { c with rootBeats := n, lastRootBeat := s.now, wdt := if 3 ≤ n then .armed else .unarmed }) s) ∧
    (∃ (t : Nat) (s₀ : State) (s : State) (e : Nat) (s₁ : State), s = s₀.at t ∧ s.cmb.wdt = .armed ∧ s.cmb.lastRootBeat + 3000000 ≤ s.now ∧ s.obs.rootHart.halted = false ∧ s.cmb.devicePending = none ∧ s₁ = modCmb (fun c => { c with wdt := .expired }) (logErr 0x0003 32 (leBytes 4 (sat32 (s.cmb.rootBeats - 3))) { s with root := { s.root with alive := false, downAt := s.now } }) ∧ s.cmb.restartEnd = some e ∧ s.now < e + 10000000000) ∧
    (∃ (t : Nat) (s₀ : State) (s : State) (e : Nat) (s₁ : State), s = s₀.at t ∧ s.cmb.wdt = .armed ∧ s.cmb.lastRootBeat + 3000000 ≤ s.now ∧ s.obs.rootHart.halted = false ∧ s.cmb.devicePending = none ∧ s₁ = modCmb (fun c => { c with wdt := .expired }) (logErr 0x0003 32 (leBytes 4 (sat32 (s.cmb.rootBeats - 3))) { s with root := { s.root with alive := false, downAt := s.now } }) ∧ (∀ e : Nat, s.cmb.restartEnd = some e → e + 10000000000 ≤ s.now) ∧ deviceReached (countDevice 3 s₁) = true) ∧
    (∃ (t : Nat) (s₀ : State) (s : State) (e : Nat) (s₁ : State), s = s₀.at t ∧ s.cmb.wdt = .armed ∧ s.cmb.lastRootBeat + 3000000 ≤ s.now ∧ s.obs.rootHart.halted = false ∧ s.cmb.devicePending = none ∧ s₁ = modCmb (fun c => { c with wdt := .expired }) (logErr 0x0003 32 (leBytes 4 (sat32 (s.cmb.rootBeats - 3))) { s with root := { s.root with alive := false, downAt := s.now } }) ∧ (∀ e : Nat, s.cmb.restartEnd = some e → e + 10000000000 ≤ s.now) ∧ deviceReached (countDevice 3 s₁) = false) ∧
    (∃ (t : Nat) (s₀ : State) (s : State) (sa : State) (sb : State) (sc : State) (s₂ : State) (s₃ : State), s = s₀.at t ∧ s.cmb.restarting = true ∧ s.cmb.devicePending = none ∧ sa = modTxn (fun x => { x with pendingImports := [] }) { s with twn := { s.twn with opening := [] } } ∧ (s.cmb.quarantine = none → sb = sa) ∧ (∀ b : Nat, s.cmb.quarantine = some b → sb = endQuarantine (finOf 64 b) sa) ∧ sc = (if sb.pwr.st = .entering then modPwr (fun p => { p with st := .run, phase := 0 }) sb else sb) ∧ s₂ = (fins 130).foldl restartTickets ((fins 130).foldl restartChan sc) ∧ s₃ = modCmb (fun c => { c with restarting := false, restartEnd := some s₂.now, wdt := if c.wdt = .expired then .unarmed else c.wdt }) { s₂ with root := { s₂.root with refusals := [] } }) ∧
    (∃ (t : Nat) (s₀ : State) (s : State) (r : Nat), s = s₀.at t ∧ s.cmb.restartAt = some r ∧ r + 100000000 ≤ s.now ∧ s.cmb.wdt ≠ .armed ∧ s.boot.stage = 5 ∧ s.obs.rootHart.halted = false) ∧
    (∃ (t : Nat) (s₀ : State) (s : State), s = s₀.at t ∧ s.cmb.restartAt = none ∧ s.boot.armedAt = none ∧ s.cmb.deviceAt + 5000000000 ≤ s.now ∧ s.cmb.wdt ≠ .armed ∧ s.boot.stage ≠ 0 ∧ s.boot.stage ≠ 7 ∧ s.obs.rootHart.halted = false) :=
  ⟨⟨0, (withPart up), _, 0, rfl, by decide +kernel, by decide +kernel, by decide +kernel, by decide +kernel⟩,
   ⟨299999, (withPart up), _, rfl, (by decide +kernel)⟩,
   ⟨100000000, (modCmb (fun c => { c with beats := vset c.beats 0 { Beats.reset with lastBeat := 100000000 } }) (modQueue 5 0 (fun x => { x with running := [Running.fresh 0 0 (zeros 64)] }) (rec1 0 [] up))), _, 0, rfl, by decide +kernel, by decide +kernel, by decide +kernel, by decide +kernel, by decide +kernel, by decide +kernel, by decide +kernel, by decide +kernel, by decide +kernel, by decide +kernel⟩,
   ⟨0, { up with boot := { up.boot with stage := 5 } }, _, _, _, rfl, by decide +kernel, by decide +kernel, by decide +kernel, rfl, rfl⟩,
   ⟨3000000, (modCmb (fun c => { c with wdt := .armed, restartEnd := some 0 }) up), _, 0, _, rfl, by decide +kernel, by decide +kernel, by decide +kernel, by decide +kernel, rfl, by decide +kernel, by decide +kernel⟩,
   ⟨3000000, (modCmb (fun c => { c with wdt := .armed, deviceHist := [0, 0, 0] }) up), _, 0, _, rfl, by decide +kernel, by decide +kernel, by decide +kernel, by decide +kernel, rfl, by decide +kernel, by decide +kernel⟩,
   ⟨3000000, (modCmb (fun c => { c with wdt := .armed }) up), _, 0, _, rfl, by decide +kernel, by decide +kernel, by decide +kernel, by decide +kernel, rfl, by decide +kernel, by decide +kernel⟩,
   ⟨0, { (modCmb (fun c => { c with restarting := true }) up) with boot := { up.boot with stage := 5 } }, _, _, _, _, _, _, rfl, by decide +kernel, by decide +kernel, rfl, (fun _ => rfl), (fun b (hb : (none : Option Nat) = some b) => nomatch hb), rfl, rfl, rfl⟩,
   ⟨100000000, { (modCmb (fun c => { c with restartAt := some 0 }) up) with boot := { up.boot with stage := 5 } }, _, 0, rfl, by decide +kernel, by decide +kernel, by decide +kernel, by decide +kernel, by decide +kernel⟩,
   ⟨5000000000, up, _, rfl, by decide +kernel, by decide +kernel, by decide +kernel, by decide +kernel, by decide +kernel, by decide +kernel, by decide +kernel⟩⟩

/-- States and operands that meet the hypotheses of MissedBeatsResetTheBough, clause by clause. -/
theorem wit_MissedBeatsResetTheBough :
    ∃ (t : Nat) (b : Fin 64) (s₀ : State) (s : State), s = s₀.at t ∧ s.root.alive = true ∧ crownAwake s = true ∧ s.obs.cut.st ≠ .taken ∧ s.cmb.crownPending = none ∧ s.cmb.devicePending = none ∧ countsMisses s b = true ∧ (vget s.cmb.beats b).lastBeat + 300000 ≤ s.now ∧ (∀ c : Fin 64, c ≠ b → countsMisses s c = false) :=
  ⟨300000, 0, (withPart up), _, rfl, by decide +kernel, by decide +kernel, by decide +kernel, by decide +kernel, by decide +kernel, by decide +kernel, by decide +kernel, by decide +kernel⟩

/-- States and operands that meet the hypotheses of ResetEventsComplete, clause by clause. -/
theorem wit_ResetEventsComplete :
    (∃ (t : Nat) (s₀ : State) (s : State) (b : Fin 64) (cause : Nat) (regs : Option CoreRegs) (s₁ : State) (sr : State) (s₂ : State), s = s₀.at t ∧ tget b.val s.cmb.boughPending = some cause ∧ s₁ = modCmb (fun c => { c with boughPending := tdel b.val c.boughPending }) (coreSample b 1 cause regs s) ∧ (∀ n : Nat, boughPart s b = some n → sr = if resetUnderWay s₁ n = true then s₁ else failRecords n s₁) ∧ (boughPart s b = none → sr = s₁) ∧ s₂ = retireBough b cause (reviveBough b 1 sr)) ∧
    (∃ (t : Nat) (s₀ : State) (s : State) (cause : Nat) (s₁ : State) (s₂ : State) (s₃ : State), s = s₀.at t ∧ s.cmb.crownPending = some cause ∧ s₁ = modCmb (fun c => { c with crownPending := none, boughPending := [] }) ((crownBoughs s).foldl (fun s b => crownSample b cause s) s) ∧ s₂ = (crownParts s₁).foldl (fun s n => failRecords n s) s₁ ∧ s₃ = (crownBoughs s).foldl (fun s b => reviveBough b 2 s) ((fins 64).foldl (fun s b => zeroScratch b s) s₂)) ∧
    (∃ (t : Nat) (s₀ : State) (s : State) (receiver : Fin 40), s = s₀.at t ∧ islandGated s receiver.val = true) ∧
    (∃ (t : Nat) (s₀ : State) (s : State) (receiver : Fin 40), s = s₀.at t ∧ islandGated s receiver.val = false) ∧
    (∃ (t : Nat) (s₀ : State) (s : State) (sender : Fin 40) (receiver : Fin 40), s = s₀.at t ∧ receiver.val < 16 ∧ s.root.alive = true ∧ (s.stalls.any fun x => x.sender == sender.val && x.receiver == receiver.val && decide (x.since + 10000000 ≤ s.now)) = true) ∧
    (∃ (t : Nat) (s₀ : State) (s : State) (cause : Nat), s = s₀.at t ∧ s.cmb.devicePending = some cause) ∧
    (∃ (t : Nat) (s₀ : State) (s : State) (x : Nat), s = s₀.at t ∧ s.root.resetAt = some x ∧ x ≤ s.now) ∧
    (∃ (t : Nat) (s₀ : State) (s : State), s = s₀.at t ∧ 0 < s.fjr.lost ∧ (s.fjr.held = true → s.fjr.buffer.flatten.length + 32 ≤ 0x40000)) :=
  ⟨⟨0, (modCmb (fun c => { c with boughPending := [(63, 1)] }) up), _, 63, 1, none, _, _, _, rfl, by decide +kernel, rfl, (fun n (hn : (none : Option Nat) = some n) => nomatch hn), (fun _ => rfl), rfl⟩,
   ⟨0, (modCmb (fun c => { c with crownPending := some 0 }) up), _, 0, _, _, _, rfl, by decide +kernel, rfl, rfl, rfl⟩,
   ⟨0, (modPwr (fun p => { p with st := .nap }) up), _, 33, rfl, by decide +kernel⟩,
   ⟨0, up, _, 39, rfl, by decide +kernel⟩,
   ⟨10000000, { up with stalls := [{ sender := 39, receiver := 15, since := 0 }] }, _, 39, 15, rfl, by decide +kernel, by decide +kernel, by decide +kernel⟩,
   ⟨0, (modCmb (fun c => { c with devicePending := some 0 }) up), _, 0, rfl, by decide +kernel⟩,
   ⟨1000, { up with root := { up.root with resetAt := some 1000 } }, _, 1000, rfl, by decide +kernel, by decide +kernel⟩,
   ⟨0, { up with fjr := { up.fjr with lost := 1 } }, _, rfl, by decide +kernel, by decide +kernel⟩⟩

/-- States and operands that meet the hypotheses of ObservationEventsComplete, clause by clause. -/
theorem wit_ObservationEventsComplete :
    (∃ (t : Nat) (s₀ : State) (s : State) (u : Fin 82), s = s₀.at t ∧ hbmOpen s = true ∧ 1024 ≤ (tgetD u.val [] s.obs.bufs).length) ∧
    (∃ (t : Nat) (s₀ : State) (s : State) (u : Fin 82) (e : Nat × Bytes) (rest : List (Nat × Bytes)), s = s₀.at t ∧ hbmOpen s = true ∧ tgetD u.val [] s.obs.bufs = e :: rest ∧ e.1 + 100000 ≤ s.now) ∧
    (∃ (t : Nat) (s₀ : State) (s : State), s = s₀.at t ∧ s.obs.exportOn = true ∧ s.pwr.pcieUp = true) ∧
    (∃ (t : Nat) (s₀ : State) (s : State) (u : Fin 82) (stall : Nat) (h : Hart), s = s₀.at t ∧ unitHart u.val = some h ∧ s.obs.traceMask.testBit (unitIsland u.val) = true ∧ unitAsleep s u.val = false ∧ ((hartState s h).halted = true ∨ stallOk u.val stall = true) ∧ (∀ x : Nat, tget u.val s.obs.sampledAt = some x → x + sampleNs s u.val ≤ s.now)) ∧
    (∃ (t : Nat) (s₀ : State) (s : State) (u : Fin 82) (x : Nat), s = s₀.at t ∧ tget u.val s.obs.sampledAt = some x ∧ s.now < x + sampleNs s u.val) ∧
    (∃ (t : Nat) (s₀ : State) (s : State) (p : Fin 8), s = s₀.at t ∧ (port s p).phys.st = 8 ∧ (port s p).link.st = .up ∧ s.obs.syncInterval ≠ 0 ∧ (port s p).link.lastSync + s.obs.syncInterval * 1000 ≤ s.now) ∧
    (∃ (t : Nat) (s₀ : State) (s : State) (m : InMsg) (p : Fin 8) (s' : State), s = s₀.at t ∧ takeMsg (fun m => m.typ == 4) s = some (m, s') ∧ m.port = some p) ∧
    (∃ (t : Nat) (s₀ : State) (s : State), s = s₀.at t) ∧
    (∃ (t : Nat) (s₀ : State) (s : State), s = s₀.at t) ∧
    (∃ (t : Nat) (s₀ : State) (s : State), s = s₀.at t) ∧
    (∃ (t : Nat) (s₀ : State) (s : State) (b : Fin 64), s = s₀.at t ∧ (vget s.obs.boughs b).frozen ≠ frozenNow s) :=
  ⟨⟨0, (modObs (fun o => { o with bufs := [(81, List.replicate 1024 (0, zeros 16))] }) up), _, 81, rfl, by decide +kernel, by decide +kernel⟩,
   ⟨100000, (modObs (fun o => { o with bufs := [(81, [(0, zeros 16)])] }) up), _, 81, (0, zeros 16), [], rfl, by decide +kernel, by decide +kernel, by decide +kernel⟩,
   ⟨0, (modObs (fun o => { o with exportOn := true }) up), _, rfl, by decide +kernel, by decide +kernel⟩,
   ⟨0, (modObs (fun o => { o with traceMask := 1 }) up), _, 0, 9, _, rfl, someGet (by decide +kernel), by decide +kernel, by decide +kernel, by decide +kernel, by decide +kernel⟩,
   ⟨100, (modObs (fun o => { o with sampledAt := [(0, 5)] }) up), _, 0, 5, rfl, by decide +kernel, by decide +kernel⟩,
   ⟨1000000, (withPort 7 port0 up), _, 7, rfl, by decide +kernel, by decide +kernel, by decide +kernel, by decide +kernel⟩,
   ⟨0, (gotMsg { msg0 7 4 (zeros 16) with port := some 7 } up), _, _, 7, _, rfl, somePair (by decide +kernel), by decide +kernel⟩,
   ⟨0, up, _, rfl⟩,
   ⟨0, up, _, rfl⟩,
   ⟨0, up, _, rfl⟩,
   ⟨0, (modObs (fun o => { o with freezeTime := some 0 }) up), _, 63, rfl, by decide +kernel⟩⟩

/-- States and operands that meet the hypotheses of CutEventsComplete, clause by clause. -/
theorem wit_CutEventsComplete :
    (∃ (t : Nat) (s₀ : State) (s : State), s = s₀.at t) ∧
    (∃ (t : Nat) (m : InMsg) (p : Fin 8) (s₀ : State) (s : State) (s' : State), s = s₀.at t ∧ takeMsg (fun m => m.typ == 3) s = some (m, s') ∧ m.port = some p ∧ s'.obs.cut.st ≠ .idle ∧ s'.obs.cut.id = u32At m.bytes 0 ∧ peerInMap s' p = true ∧ vget s'.obs.cut.received p = false ∧ channelClosed s' p = true) ∧
    (∃ (t : Nat) (m : InMsg) (p : Fin 8) (s₀ : State) (s : State) (s' : State), s = s₀.at t ∧ takeMsg (fun m => m.typ == 3) s = some (m, s') ∧ m.port = some p ∧ (s'.obs.cut.st = .idle ∨ s'.obs.cut.id ≠ u32At m.bytes 0 ∨ peerInMap s' p = false ∨ vget s'.obs.cut.received p = true ∨ channelClosed s' p = false)) ∧
    (∃ (t : Nat) (s₀ : State) (s : State) (s₁ : State), s = s₀.at t ∧ s.obs.cut.st = .firing ∧ s₁ = modCut (fun c => { c with st := .taken, time := min s.now (c.firedAt + 50000), waiting := 0 }) s) :=
  ⟨⟨0, up, _, rfl⟩,
   ⟨0, _, 7, (gotMsg { msg0 7 3 (leBytes 4 9 ++ leBytes 2 2 ++ zeros 12) with port := some 7 } (withPort 7 port0 (modCut (fun c => { c with st := .armed, scope := 1, id := 9, map := 6, chanClosed := Vector.replicate 8 (Vector.replicate 8 (some 0)) }) up))), _, _, rfl, somePair (by decide +kernel), by decide +kernel, by decide +kernel, by decide +kernel, by decide +kernel, by decide +kernel, by decide +kernel⟩,
   ⟨0, _, 7, (gotMsg { msg0 7 3 (leBytes 4 9 ++ leBytes 2 2 ++ zeros 12) with port := some 7 } up), _, _, rfl, somePair (by decide +kernel), by decide +kernel, Or.inl (by decide +kernel)⟩,
   ⟨0, (modCut (fun c => { c with st := .firing }) up), _, _, rfl, by decide +kernel, rfl⟩⟩

/-- States and operands that meet the hypotheses of DebugEventsComplete, clause by clause. -/
theorem wit_DebugEventsComplete :
    (∃ (t : Nat) (s₀ : State) (s : State) (h : Hart) (regs : CoreRegs) (s₁ : State), s = s₀.at t ∧ mayHalt s h = true ∧ triggerSet (hartState s h) = true ∧ s₁ = haltHart h 2 2 regs s) ∧
    (∃ (t : Nat) (s₀ : State) (s : State) (h : Hart), s = s₀.at t ∧ mayHalt s h = false) ∧
    (∃ (t : Nat) (s₀ : State) (s : State) (h : Hart), s = s₀.at t ∧ mayHalt s h = true ∧ (hartState s h).dcsr.testBit 2 = true) ∧
    (∃ (t : Nat) (s₀ : State) (s : State) (h : Hart), s = s₀.at t ∧ mayHalt s h = true ∧ (hartState s h).dcsr.testBit 2 = false) ∧
    (∃ (t : Nat) (s₀ : State) (s : State) (h : Hart), s = s₀.at t ∧ debugOn s = true ∧ hartSealed s h = false) ∧
    (∃ (t : Nat) (s₀ : State) (s : State), s = s₀.at t ∧ reaches s .pf = true) ∧
    (∃ (t : Nat) (s₀ : State) (s : State), s = s₀.at t ∧ reaches s .pf = true) ∧
    (∃ (t : Nat) (s₀ : State) (s : State), s = s₀.at t) ∧
    (∃ (t : Nat) (s₀ : State) (s : State) (m : InMsg) (p : Fin 8) (s' : State), s = s₀.at t ∧ takeMsg (fun m => isDebugRequest m && debugReady s m) s = some (m, s') ∧ m.port = some p ∧ debugVerdict s' p (u32At m.bytes 4) = stBadArg) ∧
    (∃ (t : Nat) (s₀ : State) (s : State) (m : InMsg) (p : Fin 8) (s' : State), s = s₀.at t ∧ takeMsg (fun m => isDebugRequest m && debugReady s m) s = some (m, s') ∧ m.port = some p ∧ debugVerdict s' p (u32At m.bytes 4) = stAccessDenied) ∧
    (∃ (t : Nat) (s₀ : State) (s : State) (m : InMsg) (p : Fin 8) (s' : State), s = s₀.at t ∧ takeMsg (fun m => isDebugRequest m && debugReady s m) s = some (m, s') ∧ m.port = some p ∧ debugVerdict s' p (u32At m.bytes 4) = stOk ∧ u8At m.bytes 0 ≠ 0x60) ∧
    (∃ (t : Nat) (s₀ : State) (s : State) (m : InMsg) (p : Fin 8) (s' : State) (x : Nat × State), s = s₀.at t ∧ takeMsg (fun m => isDebugRequest m && debugReady s m) s = some (m, s') ∧ m.port = some p ∧ debugVerdict s' p (u32At m.bytes 4) = stOk ∧ u8At m.bytes 0 = 0x60 ∧ x = readKeyed .pf (0x100100000 + u32At m.bytes 4) (0x100000 + u32At m.bytes 4) s') ∧
    (∃ (t : Nat) (s₀ : State) (s : State) (m : InMsg) (tag : Nat) (at_ : Nat) (s' : State), s = s₀.at t ∧ takeMsg isDebugAnswer s = some (m, s') ∧ s'.obs.rdbg.waiting = some (tag, at_) ∧ tag = u16At m.bytes 2 ∧ m.port = some (finOf 8 s'.obs.rdbg.port)) ∧
    (∃ (t : Nat) (s₀ : State) (s : State) (tag : Nat) (since : Nat), s = s₀.at t ∧ s.obs.rdbg.waiting = some (tag, since) ∧ since + 100000 ≤ s.now) :=
  ⟨⟨0, { up with cfg := { Cfg.default with debugEnable := true }, obs := { up.obs with rootHart := { HartState.reset with tdata1 := Vector.replicate 4 4 } } }, _, .root, CoreRegs.zero, _, rfl, by decide +kernel, by decide +kernel, rfl⟩,
   ⟨0, up, _, .root, rfl, by decide +kernel⟩,
   ⟨0, { up with cfg := { Cfg.default with debugEnable := true }, obs := { up.obs with rootHart := { HartState.reset with dcsr := 0x40000007 } } }, _, .root, rfl, by decide +kernel, by decide +kernel⟩,
   ⟨0, { up with cfg := { Cfg.default with debugEnable := true }, obs := { up.obs with freezeAt := 0 } }, _, (.twig 63), rfl, by decide +kernel, by decide +kernel⟩,
   ⟨0, { up with cfg := { Cfg.default with debugEnable := true }, obs := { up.obs with freezeAt := 0 } }, _, .root, rfl, by decide +kernel, by decide +kernel⟩,
   ⟨0, up, _, rfl, by decide +kernel⟩,
   ⟨0, up, _, rfl, by decide +kernel⟩,
   ⟨0, up, _, rfl⟩,
   ⟨0, (gotMsg { msg0 7 1 ([0x60, 0, 0, 0, 2] ++ zeros 11) with port := some 7 } (withPort 7 { port0 with link := { port0.link with mode := 1 } } { up with cfg := { Cfg.default with debugEnable := true }, obs := { up.obs with freezeAt := 0 } })), _, _, 7, _, rfl, somePair (by decide +kernel), by decide +kernel, by decide +kernel⟩,
   ⟨1000, (gotMsg { msg0 7 1 ([0x60, 0] ++ zeros 14) with port := some 7 } up), _, _, 7, _, rfl, somePair (by decide +kernel), by decide +kernel, by decide +kernel⟩,
   ⟨0, (gotMsg { msg0 7 1 ([0x61, 0] ++ zeros 14) with port := some 7 } (withPort 7 { port0 with link := { port0.link with mode := 1 } } { up with cfg := { Cfg.default with debugEnable := true }, obs := { up.obs with freezeAt := 0 } })), _, _, 7, _, rfl, somePair (by decide +kernel), by decide +kernel, by decide +kernel, by decide +kernel⟩,
   ⟨0, (gotMsg { msg0 7 1 ([0x60, 0] ++ zeros 14) with port := some 7 } (withPort 7 { port0 with link := { port0.link with mode := 1 } } { up with cfg := { Cfg.default with debugEnable := true }, obs := { up.obs with freezeAt := 0 } })), _, _, 7, _, _, rfl, somePair (by decide +kernel), by decide +kernel, by decide +kernel, by decide +kernel, rfl⟩,
   ⟨0, (gotMsg { msg0 7 1 ([0xE0, 0] ++ zeros 14) with port := some 7 } { up with obs := { up.obs with rdbg := { up.obs.rdbg with port := 7, waiting := some (0, 0) } } }), _, _, 0, 0, _, rfl, somePair (by decide +kernel), by decide +kernel, by decide +kernel, by decide +kernel⟩,
   ⟨100000, { up with obs := { up.obs with rdbg := { up.obs.rdbg with waiting := some (9, 0) } } }, _, 9, 0, rfl, by decide +kernel, by decide +kernel⟩⟩

/-- States and operands that meet the hypotheses of PowerEventsComplete, clause by clause. -/
theorem wit_PowerEventsComplete :
    (∃ (t : Nat) (s₀ : State) (s : State) (mw : Nat) (l : List (Nat × Nat)), s = s₀.at t ∧ s.root.alive = true ∧ (∀ x : Nat × Nat, s.pwr.samples.getLast? = some x → x.1 + 100000 ≤ s.now) ∧ l = (s.pwr.samples.filter fun x => decide (s.now < x.1 + 1000000)) ++ [(s.now, mw)]) ∧
    (∃ (t : Nat) (s₀ : State) (s : State) (x : Nat × Nat), s = s₀.at t ∧ s.pwr.samples.getLast? = some x ∧ s.now < x.1 + 100000) ∧
    (∃ (t : Nat) (s₀ : State) (s : State), s = s₀.at t) ∧
    (∃ (t : Nat) (s₀ : State) (s : State) (v : List Int), s = s₀.at t ∧ v.length = 12 ∧ (∀ x ∈ v, x < 420)) ∧
    (∃ (t : Nat) (s₀ : State) (s : State) (v : List Int) (i : Nat), s = s₀.at t ∧ v.length = 12 ∧ (v.findIdx? fun x => decide (420 ≤ x)) = some i ∧ s.pwr.st ≠ .tripped) ∧
    (∃ (t : Nat) (s₀ : State) (s : State) (c : Nat), s = s₀.at t ∧ s.pwr.coolSince = some c ∧ s.pwr.st = .tripped ∧ s.pwr.stuckTripped = false ∧ c + 10000000000 ≤ s.now) ∧
    (∃ (t : Nat) (s₀ : State) (s : State) (m : Fin 8) (mv : Nat), s = s₀.at t ∧ monitorOn s m = true ∧ outside m mv 5 = true ∧ (∀ w : Nat, vget s.pwr.lastWarn m = some w → w + 1000000000 ≤ s.now)) ∧
    (∃ (t : Nat) (s₀ : State) (s : State) (m : Fin 8) (mv : Nat), s = s₀.at t ∧ monitorOn s m = true ∧ outside m mv 8 = true) ∧
    (∃ (t : Nat) (s₀ : State) (s : State) (m : Option (Fin 8)) (s₁ : State), s = s₀.at t ∧ (∀ x : Fin 8, m = some x → x.val ≤ 1 ∧ monitorOn s x = true) ∧ s₁ = logErr 0x0052 32 (leBytes 1 ((m.map (·.val)).getD 0xFE)) s) ∧
    (∃ (t : Nat) (s₀ : State) (s : State) (absent : Bool) (ppm : Int) (limit : Int), s = s₀.at t ∧ (s.pwr.enables.toList.any id) = true ∧ limit = (if s.pwr.xtalFallback = true then 30000 else 1000) ∧ (absent = true ∨ limit < ppm ∨ ppm < -limit)) ∧
    (∃ (t : Nat) (s₀ : State) (s : State) (ppm : Int) (limit : Int), s = s₀.at t ∧ limit = (if s.pwr.xtalFallback = true then 30000 else 1000) ∧ ppm ≤ limit ∧ -limit ≤ ppm) ∧
    (∃ (t : Nat) (s₀ : State) (s : State), s = s₀.at t ∧ s.pwr.xtalFallback = false) ∧
    (∃ (t : Nat) (s₀ : State) (s : State), s = s₀.at t) :=
  ⟨⟨0, up, _, 95000, _, rfl, by decide +kernel, noneAll (by decide +kernel), rfl⟩,
   ⟨99999, (modPwr (fun p => { p with samples := [(0, 9)] }) up), _, (0, 9), rfl, by decide +kernel, by decide +kernel⟩,
   ⟨0, up, _, rfl⟩,
   ⟨0, (modPwr (fun p => { p with st := .nap }) up), _, (List.replicate 12 419), rfl, by decide +kernel, by decide +kernel⟩,
   ⟨0, (modPwr (fun p => { p with st := .nap }) up), _, (List.replicate 12 420), 0, rfl, by decide +kernel, by decide +kernel, by decide +kernel⟩,
   ⟨10000000000, (modPwr (fun p => { p with st := .tripped, coolSince := some 0 }) up), _, 0, rfl, by decide +kernel, by decide +kernel, by decide +kernel, by decide +kernel⟩,
   ⟨0, (modPwr (fun p => { p with enables := Vector.replicate 3 true, groupsUp := 3 }) up), _, 7, 0, rfl, by decide +kernel, by decide +kernel, by decide +kernel⟩,
   ⟨0, (modPwr (fun p => { p with enables := Vector.replicate 3 true, groupsUp := 3 }) up), _, 0, 0, rfl, by decide +kernel, by decide +kernel⟩,
   ⟨0, (modPwr (fun p => { p with enables := Vector.replicate 3 true, groupsUp := 3 }) up), _, (some 1), _, rfl, by decide +kernel, rfl⟩,
   ⟨0, (modPwr (fun p => { p with enables := Vector.replicate 3 true, groupsUp := 3 }) up), _, false, (-1001), _, rfl, by decide +kernel, rfl, (by decide +kernel)⟩,
   ⟨0, (modPwr (fun p => { p with enables := Vector.replicate 3 true, groupsUp := 3 }) up), _, 1000, _, rfl, rfl, by decide +kernel, by decide +kernel⟩,
   ⟨0, up, _, rfl, by decide +kernel⟩,
   ⟨0, up, _, rfl⟩⟩

/-- States and operands that meet the hypotheses of SequenceEventsComplete, clause by clause. -/
theorem wit_SequenceEventsComplete :
    (∃ (t : Nat) (s₀ : State) (s : State), s = s₀.at t ∧ s.pwr.st = .leaving ∧ s.pwr.phase = 0) ∧
    (∃ (t : Nat) (s₀ : State) (s : State) (g : Fin 3), s = s₀.at t ∧ s.pwr.st = .leaving ∧ s.pwr.phase = 3 ∧ s.pwr.groupsUp = g.val ∧ vget s.pwr.enables g = true) ∧
    (∃ (t : Nat) (s₀ : State) (s : State) (m : Fin 8), s = s₀.at t ∧ s.pwr.st = .leaving ∧ s.pwr.phase = 3 ∧ s.pwr.groupsUp = (railGroup m).val ∧ vget s.pwr.enables (railGroup m) = true ∧ s.pwr.phaseAt + 10000000 ≤ s.now) ∧
    (∃ (t : Nat) (s₀ : State) (s : State) (s' : State), s = s₀.at t ∧ s' = modPwr (fun p => { p with perstHigh := false, pcieUp := false }) s ∧ endpointPowered s' = true) ∧
    (∃ (t : Nat) (s₀ : State) (s : State) (s' : State), s = s₀.at t ∧ s' = modPwr (fun p => { p with perstHigh := false, pcieUp := false }) s ∧ endpointPowered s' = false) ∧
    (∃ (t : Nat) (s₀ : State) (s : State) (s' : State), s = s₀.at t ∧ s' = modPwr (fun p => { p with perstHigh := true, pcieWakeAt := none }) s ∧ endpointPowered s' = true) ∧
    (∃ (t : Nat) (s₀ : State) (s : State) (s' : State), s = s₀.at t ∧ s' = modPwr (fun p => { p with perstHigh := true, pcieWakeAt := none }) s ∧ endpointPowered s' = false) ∧
    (∃ (t : Nat) (s₀ : State) (s : State), s = s₀.at t ∧ s.pwr.pcieUp = true) ∧
    (∃ (t : Nat) (s₀ : State) (s : State), s = s₀.at t ∧ s.pwr.pcieUp = true) ∧
    (∃ (t : Nat) (s₀ : State) (s : State) (s₁ : State), s = s₀.at t ∧ s.pwr.st = .leaving ∧ s.pwr.phase = 2 ∧ s₁ = backToRun 2 (wakeUp true ((fins 64).foldl (fun s b => zeroScratch b s) (modObs (fun o => { o with harts := [] }) (flushJournal s))))) ∧
    (∃ (t : Nat) (s₀ : State) (s : State), s = s₀.at t ∧ s.pwr.st = .leaving ∧ s.pwr.phase = 1) ∧
    (∃ (t : Nat) (s₀ : State) (s : State) (w : Nat), s = s₀.at t ∧ s.pwr.pcieWakeAt = some w ∧ s.pwr.perstHigh = true ∧ w + 100000 ≤ s.now) ∧
    (∃ (t : Nat) (s₀ : State) (s : State), s = s₀.at t) :=
  ⟨⟨0, State.reset, _, rfl, by decide +kernel, by decide +kernel⟩,
   ⟨0, (modPwr (fun p => { p with st := .leaving, phase := 3, groupsUp := 2, enables := Vector.replicate 3 true }) up), _, 2, rfl, by decide +kernel, by decide +kernel, by decide +kernel, by decide +kernel⟩,
   ⟨10000000, (modPwr (fun p => { p with st := .leaving, phase := 3, groupsUp := 2, enables := Vector.replicate 3 true }) up), _, 0, rfl, by decide +kernel, by decide +kernel, by decide +kernel, by decide +kernel, by decide +kernel⟩,
   ⟨0, up, _, _, rfl, rfl, by decide +kernel⟩,
   ⟨0, State.reset, _, _, rfl, rfl, by decide +kernel⟩,
   ⟨0, up, _, _, rfl, rfl, by decide +kernel⟩,
   ⟨0, State.reset, _, _, rfl, rfl, by decide +kernel⟩,
   ⟨0, up, _, rfl, by decide +kernel⟩,
   ⟨0, up, _, rfl, by decide +kernel⟩,
   ⟨0, (modPwr (fun p => { p with st := .leaving, phase := 2 }) up), _, _, rfl, by decide +kernel, by decide +kernel, rfl⟩,
   ⟨0, (modPwr (fun p => { p with st := .leaving, phase := 1 }) up), _, rfl, by decide +kernel, by decide +kernel⟩,
   ⟨100000, (modPwr (fun p => { p with pcieWakeAt := some 0, perstHigh := true }) up), _, 0, rfl, by decide +kernel, by decide +kernel, by decide +kernel⟩,
   ⟨0, up, _, rfl⟩⟩

/-- States and operands that meet the hypotheses of BootEventsComplete, clause by clause. -/
theorem wit_BootEventsComplete_1 :
    ∃ (t : Nat) (s₀ : State) (s : State) (x : BootProbe) (sh : State), s = s₀.at t ∧ s.boot.stage = 1 ∧ s.pwr.st = .run ∧ sh = modPwr (fun p => { p with pcieUp := p.perstHigh }) (hwdReset (!x.heartwoodPasses) s) ∧ (x.sfdpValid = false ∨ x.quadMode = false) :=
  ⟨0, { up with boot := { up.boot with stage := 1 } }, _, { sfdpValid := false, quadMode := true, spiErrorA := false, spiErrorB := false, stacksFailed := 0, heartwoodPasses := true }, _, rfl, by decide +kernel, by decide +kernel, rfl, by decide +kernel⟩

/-- States and operands that meet the hypotheses of BootEventsComplete, clause by clause. -/
theorem wit_BootEventsComplete_2 :
    ∃ (t : Nat) (s₀ : State) (s : State) (x : BootProbe) (sh : State) (s₁ : State) (sd : State) (s₂ : State) (a : Nat) (b : Nat), s = s₀.at t ∧ s.boot.stage = 1 ∧ s.pwr.st = .run ∧ x.sfdpValid = true ∧ x.quadMode = true ∧ sh = modPwr (fun p => { p with pcieUp := p.perstHigh }) (hwdReset (!x.heartwoodPasses) s) ∧ s₁ = (if x.heartwoodPasses = true then sh else logErr 0x0041 31 (leBytes 1 3) sh) ∧ sd = (if s₁.boot.trialFault = true ∧ (directory s₁).trial = true then updateDirectory (1 - (directory s₁).slot) false s₁ else s₁) ∧ s₂ = { sd with boot := { sd.boot with trial := (directory sd).trial, trialFault := false, failedStacks := x.stacksFailed.toNat } } ∧ a = slotResult s₂ 0 x.spiErrorA ∧ b = slotResult s₂ 1 x.spiErrorB ∧ x.stacksFailed ≠ 0 :=
  ⟨0, { up with boot := { up.boot with stage := 1 } }, _, { sfdpValid := true, quadMode := true, spiErrorA := false, spiErrorB := false, stacksFailed := 63, heartwoodPasses := true }, _, _, _, _, _, _, rfl, by decide +kernel, by decide +kernel, by decide +kernel, by decide +kernel, rfl, rfl, rfl, rfl, rfl, rfl, by decide +kernel⟩

/-- States and operands that meet the hypotheses of BootEventsComplete, clause by clause. -/
theorem wit_BootEventsComplete_3 :
    ∃ (t : Nat) (s₀ : State) (s : State) (x : BootProbe) (sh : State) (s₁ : State) (sd : State) (s₂ : State) (a : Nat) (b : Nat), s = s₀.at t ∧ s.boot.stage = 1 ∧ s.pwr.st = .run ∧ x.sfdpValid = true ∧ x.quadMode = true ∧ sh = modPwr (fun p => { p with pcieUp := p.perstHigh }) (hwdReset (!x.heartwoodPasses) s) ∧ s₁ = (if x.heartwoodPasses = true then sh else logErr 0x0041 31 (leBytes 1 3) sh) ∧ sd = (if s₁.boot.trialFault = true ∧ (directory s₁).trial = true then updateDirectory (1 - (directory s₁).slot) false s₁ else s₁) ∧ s₂ = { sd with boot := { sd.boot with trial := (directory sd).trial, trialFault := false, failedStacks := x.stacksFailed.toNat } } ∧ a = slotResult s₂ 0 x.spiErrorA ∧ b = slotResult s₂ 1 x.spiErrorB ∧ x.stacksFailed = 0 ∧ (directory sd).slot = 0 ∧ a = 1 :=
  ⟨0, (flashed 0x10000 { up with boot := { up.boot with stage := 1 } }), _, { sfdpValid := true, quadMode := true, spiErrorA := false, spiErrorB := false, stacksFailed := 0, heartwoodPasses := true }, _, _, _, _, 1, 2, rfl, by decide +kernel, by decide +kernel, by decide +kernel, by decide +kernel, rfl, rfl, rfl, rfl, (by decide +kernel), (by decide +kernel), by decide +kernel, by decide +kernel, by decide +kernel⟩

/-- States and operands that meet the hypotheses of BootEventsComplete, clause by clause. -/
theorem wit_BootEventsComplete_4 :
    ∃ (t : Nat) (s₀ : State) (s : State) (x : BootProbe) (sh : State) (s₁ : State) (sd : State) (s₂ : State) (a : Nat) (b : Nat), s = s₀.at t ∧ s.boot.stage = 1 ∧ s.pwr.st = .run ∧ x.sfdpValid = true ∧ x.quadMode = true ∧ sh = modPwr (fun p => { p with pcieUp := p.perstHigh }) (hwdReset (!x.heartwoodPasses) s) ∧ s₁ = (if x.heartwoodPasses = true then sh else logErr 0x0041 31 (leBytes 1 3) sh) ∧ sd = (if s₁.boot.trialFault = true ∧ (directory s₁).trial = true then updateDirectory (1 - (directory s₁).slot) false s₁ else s₁) ∧ s₂ = { sd with boot := { sd.boot with trial := (directory sd).trial, trialFault := false, failedStacks := x.stacksFailed.toNat } } ∧ a = slotResult s₂ 0 x.spiErrorA ∧ b = slotResult s₂ 1 x.spiErrorB ∧ x.stacksFailed = 0 ∧ (directory sd).slot = 0 ∧ a ≠ 1 ∧ b = 1 :=
  ⟨0, (flashed 0x800000 { up with boot := { up.boot with stage := 1 } }), _, { sfdpValid := true, quadMode := true, spiErrorA := false, spiErrorB := false, stacksFailed := 0, heartwoodPasses := true }, _, _, _, _, 2, 1, rfl, by decide +kernel, by decide +kernel, by decide +kernel, by decide +kernel, rfl, rfl, rfl, rfl, (by decide +kernel), (by decide +kernel), by decide +kernel, by decide +kernel, by decide +kernel, by decide +kernel⟩

/-- States and operands that meet the hypotheses of BootEventsComplete, clause by clause. -/
theorem wit_BootEventsComplete_5 :
    ∃ (t : Nat) (s₀ : State) (s : State) (x : BootProbe) (sh : State) (s₁ : State) (sd : State) (s₂ : State) (a : Nat) (b : Nat), s = s₀.at t ∧ s.boot.stage = 1 ∧ s.pwr.st = .run ∧ x.sfdpValid = true ∧ x.quadMode = true ∧ sh = modPwr (fun p => { p with pcieUp := p.perstHigh }) (hwdReset (!x.heartwoodPasses) s) ∧ s₁ = (if x.heartwoodPasses = true then sh else logErr 0x0041 31 (leBytes 1 3) sh) ∧ sd = (if s₁.boot.trialFault = true ∧ (directory s₁).trial = true then updateDirectory (1 - (directory s₁).slot) false s₁ else s₁) ∧ s₂ = { sd with boot := { sd.boot with trial := (directory sd).trial, trialFault := false, failedStacks := x.stacksFailed.toNat } } ∧ a = slotResult s₂ 0 x.spiErrorA ∧ b = slotResult s₂ 1 x.spiErrorB ∧ x.stacksFailed = 0 ∧ (directory sd).slot = 1 ∧ b = 1 :=
  ⟨0, (updateDirectory 1 false (flashed 0x800000 { up with boot := { up.boot with stage := 1 } })), _, { sfdpValid := true, quadMode := true, spiErrorA := false, spiErrorB := false, stacksFailed := 0, heartwoodPasses := true }, _, _, _, _, 2, 1, rfl, by decide +kernel, by decide +kernel, by decide +kernel, by decide +kernel, rfl, rfl, rfl, rfl, (by decide +kernel), (by decide +kernel), by decide +kernel, by decide +kernel, by decide +kernel⟩

/-- States and operands that meet the hypotheses of BootEventsComplete, clause by clause. -/
theorem wit_BootEventsComplete_6 :
    ∃ (t : Nat) (s₀ : State) (s : State) (x : BootProbe) (sh : State) (s₁ : State) (sd : State) (s₂ : State) (a : Nat) (b : Nat), s = s₀.at t ∧ s.boot.stage = 1 ∧ s.pwr.st = .run ∧ x.sfdpValid = true ∧ x.quadMode = true ∧ sh = modPwr (fun p => { p with pcieUp := p.perstHigh }) (hwdReset (!x.heartwoodPasses) s) ∧ s₁ = (if x.heartwoodPasses = true then sh else logErr 0x0041 31 (leBytes 1 3) sh) ∧ sd = (if s₁.boot.trialFault = true ∧ (directory s₁).trial = true then updateDirectory (1 - (directory s₁).slot) false s₁ else s₁) ∧ s₂ = { sd with boot := { sd.boot with trial := (directory sd).trial, trialFault := false, failedStacks := x.stacksFailed.toNat } } ∧ a = slotResult s₂ 0 x.spiErrorA ∧ b = slotResult s₂ 1 x.spiErrorB ∧ x.stacksFailed = 0 ∧ (directory sd).slot = 1 ∧ b ≠ 1 ∧ a = 1 :=
  ⟨0, (updateDirectory 1 false (flashed 0x10000 { up with boot := { up.boot with stage := 1 } })), _, { sfdpValid := true, quadMode := true, spiErrorA := false, spiErrorB := false, stacksFailed := 0, heartwoodPasses := true }, _, _, _, _, 1, 2, rfl, by decide +kernel, by decide +kernel, by decide +kernel, by decide +kernel, rfl, rfl, rfl, rfl, (by decide +kernel), (by decide +kernel), by decide +kernel, by decide +kernel, by decide +kernel, by decide +kernel⟩

/-- States and operands that meet the hypotheses of BootEventsComplete, clause by clause. -/
theorem wit_BootEventsComplete_7 :
    ∃ (t : Nat) (s₀ : State) (s : State) (x : BootProbe) (sh : State) (s₁ : State) (sd : State) (s₂ : State) (a : Nat) (b : Nat), s = s₀.at t ∧ s.boot.stage = 1 ∧ s.pwr.st = .run ∧ x.sfdpValid = true ∧ x.quadMode = true ∧ sh = modPwr (fun p => { p with pcieUp := p.perstHigh }) (hwdReset (!x.heartwoodPasses) s) ∧ s₁ = (if x.heartwoodPasses = true then sh else logErr 0x0041 31 (leBytes 1 3) sh) ∧ sd = (if s₁.boot.trialFault = true ∧ (directory s₁).trial = true then updateDirectory (1 - (directory s₁).slot) false s₁ else s₁) ∧ s₂ = { sd with boot := { sd.boot with trial := (directory sd).trial, trialFault := false, failedStacks := x.stacksFailed.toNat } } ∧ a = slotResult s₂ 0 x.spiErrorA ∧ b = slotResult s₂ 1 x.spiErrorB ∧ x.stacksFailed = 0 ∧ a ≠ 1 ∧ b ≠ 1 :=
  ⟨0, { up with boot := { up.boot with stage := 1 } }, _, { sfdpValid := true, quadMode := true, spiErrorA := false, spiErrorB := false, stacksFailed := 0, heartwoodPasses := true }, _, _, _, _, _, _, rfl, by decide +kernel, by decide +kernel, by decide +kernel, by decide +kernel, rfl, rfl, rfl, rfl, rfl, rfl, by decide +kernel, by decide +kernel, by decide +kernel⟩

/-- States and operands that meet the hypotheses of BootEventsComplete, clause by clause. -/
theorem wit_BootEventsComplete_8 :
    ∃ (t : Nat) (s₀ : State) (s : State) (d : Bytes × State) (e : Bytes × State) (s₁ : State) (s₂ : State) (s₃ : State) (s₄ : State), s = s₀.at t ∧ s.boot.stage = 5 ∧ d = drawBytes 64 s ∧ e = drawBytes 64 d.2 ∧ s₁ = modMm (fun m => { m with lendKey := d.1, spillKey := e.1, spillGranules := spillGranulesOf s.cfg }) e.2 ∧ s₂ = modCmb (fun c => { c with inReset := false }) { s₁ with boot := { s₁.boot with stage := 6, readyAt := s₁.now } } ∧ s₃ = { s₂ with fjr := { s₂.fjr with recording := true, seq := 0, held := false } } ∧ s₄ = journal 0x09 30 (leBytes 4 s₃.root.bootCount ++ leBytes 4 s₃.mm.journalMib ++ zeros 8) s₃ :=
  ⟨0, { (modCmb (fun c => { c with outOfService := true }) up) with boot := { up.boot with stage := 5 } }, _, _, _, _, _, _, _, rfl, by decide +kernel, rfl, rfl, rfl, rfl, rfl, rfl⟩

/-- States and operands that meet the hypotheses of BootEventsComplete, clause by clause. -/
theorem wit_BootEventsComplete_9 :
    ∃ (t : Nat) (s₀ : State) (s : State) (a : Nat), s = s₀.at t ∧ s.boot.armedAt = some a ∧ s.boot.stage = 6 ∧ s.boot.trial = true ∧ s.boot.trialFault = false ∧ s.boot.activateAt = none ∧ s.cmb.wdt = .armed ∧ a + 60000000000 ≤ s.now :=
  ⟨60000000000, { (modCmb (fun c => { c with wdt := .armed }) up) with boot := { up.boot with armedAt := some 0, trial := true } }, _, 0, rfl, by decide +kernel, by decide +kernel, by decide +kernel, by decide +kernel, by decide +kernel, by decide +kernel, by decide +kernel⟩

/-- States and operands that meet the hypotheses of BootEventsComplete, clause by clause. -/
theorem wit_BootEventsComplete_10 :
    ∃ (t : Nat) (s₀ : State) (s : State) (a : Nat), s = s₀.at t ∧ s.boot.activateAt = some a ∧ a ≤ s.now :=
  ⟨7, { up with boot := { up.boot with activateAt := some 7 } }, _, 7, rfl, by decide +kernel, by decide +kernel⟩

/-- States and operands that meet the hypotheses of UpkeepEventsComplete, clause by clause. -/
theorem wit_UpkeepEventsComplete :
    (∃ (t : Nat) (s₀ : State) (s : State) (g : Nat), s = s₀.at t ∧ memoryRuns s = true ∧ s.mm.zeroing.contains g = true) ∧
    (∃ (t : Nat) (s₀ : State) (s : State) (bad : List Nat) (soft : List Nat) (s₁ : State), s = s₀.at t ∧ memoryRuns s = true ∧ bad = s.mm.eccBad.filter (scrubbed s) ∧ soft = (s.mm.eccSoft.filter fun dl => scrubbed s dl && !bad.contains dl) ∧ s₁ = soft.foldl (fun s dl => correctLine dl s) (bad.foldl (fun s dl => lineUncorrectable dl s) s)) ∧
    (∃ (t : Nat) (s₀ : State) (s : State) (row : Nat) (s₁ : State), s = s₀.at t ∧ memoryRuns s = true ∧ s.cfg.rowErrors ≤ (tgetD row [] (countRow row 0 s).mm.rowErrors).length ∧ s₁ = modMm (fun m => { m with rowErrors := tdel row m.rowErrors }) (countRow row 0 s)) ∧
    (∃ (t : Nat) (s₀ : State) (s : State) (row : Nat) (s₁ : State) (h : Nat), s = s₀.at t ∧ memoryRuns s = true ∧ s.cfg.rowErrors ≤ (tgetD row [] (countRow row 0 s).mm.rowErrors).length ∧ s₁ = modMm (fun m => { m with rowErrors := tdel row m.rowErrors }) (countRow row 0 s) ∧ freeGranules s₁ ≠ 0 ∧ ((takeGranules s₁ 2).find? fun h => h != row / 2048) = some h) ∧
    (∃ (t : Nat) (s₀ : State) (s : State) (row : Nat) (s₁ : State), s = s₀.at t ∧ memoryRuns s = true ∧ s.cfg.rowErrors ≤ (tgetD row [] (countRow row 0 s).mm.rowErrors).length ∧ s₁ = modMm (fun m => { m with rowErrors := tdel row m.rowErrors }) (countRow row 0 s) ∧ freeGranules s₁ = 0) ∧
    (∃ (t : Nat) (s₀ : State) (s : State) (n : Fin 128) (p : Partition) (upTo : Nat) (lim : Nat) (s₁ : State), s = s₀.at t ∧ part s n = some p ∧ p.oldPair.isSome = true ∧ memoryRuns s = true ∧ lim = max p.sweep (upTo / 64 * 64) ∧ s₁ = ((writtenLines s p).filter fun o => decide (p.sweep ≤ o ∧ o < lim)).foldl (sweepLine n) s ∧ (p.pages.any fun e => decide (lim < (e.1 + 1) * granuleBytes)) = true) ∧
    (∃ (t : Nat) (s₀ : State) (s : State) (n : Fin 128) (p : Partition) (upTo : Nat) (lim : Nat) (s₁ : State), s = s₀.at t ∧ part s n = some p ∧ p.oldPair.isSome = true ∧ memoryRuns s = true ∧ lim = max p.sweep (upTo / 64 * 64) ∧ s₁ = ((writtenLines s p).filter fun o => decide (p.sweep ≤ o ∧ o < lim)).foldl (sweepLine n) s ∧ (p.pages.any fun e => decide (lim < (e.1 + 1) * granuleBytes)) = false) ∧
    (∃ (t : Nat) (s₀ : State) (s : State) (c : Fin 64), s = s₀.at t ∧ (vget s.hwd.counters c).erasing = true) ∧
    (∃ (t : Nat) (s₀ : State) (s : State), s = s₀.at t ∧ s.root.alive = true) ∧
    (∃ (t : Nat) (s₀ : State) (s : State) (ch : Fin 130) (p : PendingImport) (r : Request), s = s₀.at t ∧ s.root.alive = true ∧ (s.txn.pendingImports.find? fun p => p.ch == ch) = some p ∧ p.ticket = 0 ∧ acceptedReq s ch = some r ∧ r.cmd = 0x0106) ∧
    (∃ (t : Nat) (s₀ : State) (s : State) (e : Nat × Region × (Fin 130 × Request)), s = s₀.at t ∧ (s.twn.opening.find? fun e => decide (e.1 + 2000000 ≤ s.now)) = some e) :=
  ⟨⟨0, (modMm (fun m => { m with zeroing := [73727] }) up), _, 73727, rfl, by decide +kernel, by decide +kernel⟩,
   ⟨0, up, _, _, _, _, rfl, by decide +kernel, rfl, rfl, rfl⟩,
   ⟨0, (modMm (fun m => { m with rowErrors := [(7, [0, 0, 0, 0])] }) up), _, 7, _, rfl, by decide +kernel, by decide +kernel, rfl⟩,
   ⟨0, (modMm (fun m => { m with rowErrors := [(7, [0, 0, 0, 0])] }) up), _, 7, _, _, rfl, by decide +kernel, by decide +kernel, rfl, by decide +kernel, someGet (by decide +kernel)⟩,
   ⟨0, (modMm (fun m => { m with rowErrors := [(7, [0, 0, 0, 0])], parts := [(5, { part0 with quota := 73728 })] }) up), _, 7, _, rfl, by decide +kernel, by decide +kernel, rfl, by decide +kernel⟩,
   ⟨0, (modMm (fun m => { m with parts := [(5, { part0 with mode := 2, pair := some { xts := zeros 64, tag := zeros 16 }, oldPair := some { xts := zeros 64, tag := zeros 16 } })] }) up), _, 5, _, 64, _, _, rfl, someGet (by decide +kernel), by decide +kernel, by decide +kernel, rfl, rfl, by decide +kernel⟩,
   ⟨0, (modMm (fun m => { m with parts := [(5, { part0 with mode := 2, pair := some { xts := zeros 64, tag := zeros 16 }, oldPair := some { xts := zeros 64, tag := zeros 16 } })] }) up), _, 5, _, 0x400000, _, _, rfl, someGet (by decide +kernel), by decide +kernel, by decide +kernel, rfl, rfl, by decide +kernel⟩,
   ⟨0, (modHwd (fun h => { h with counters := vset h.counters 63 { UseCounter.reset with erasing := true } }) up), _, 63, rfl, by decide +kernel⟩,
   ⟨0, up, _, rfl, by decide +kernel⟩,
   ⟨0, (modTxn (fun x => { x with pendingImports := [{ ch := 0, ticket := 0, part := 5, chip := 2, remote := 3, id := 1 }] }) (at0 0x106 [] up)), _, 0, _, _, rfl, by decide +kernel, someGet (by decide +kernel), by decide +kernel, someGet (by decide +kernel), by decide +kernel⟩,
   ⟨2000000, { up with twn := { up.twn with opening := [(0, region0 false, ((0 : Fin 130), req 0x704 []))] } }, _, _, rfl, someGet (by decide +kernel)⟩⟩

/-- States and operands that meet the hypotheses of MemoryReadsBackWhatWasStored, clause by clause. -/
theorem wit_MemoryReadsBackWhatWasStored :
    ∃ (d : BitVec 8) (m : Mem), Mem.wf d m = true :=
  ⟨0, [(0, 1), (0xFFFFFFFF, 255)], by decide +kernel⟩

/-- States and operands that meet the hypotheses of EventTailMovesOnlyOverWrittenEvents, clause by clause. -/
theorem wit_EventTailMovesOnlyOverWrittenEvents :
    (∃ (t : Nat) (ch : Fin 130) (v : BitVec 32) (s₀ : State) (s : State), s = s₀.at t ∧ reaches s (chanRequester ch) = true ∧ v.toNat < 64 ∧ (v.toNat + 64 - (chan s ch).tail) % 64 ≤ ((chan s ch).head + 64 - (chan s ch).tail) % 64 ∧ (chan s ch).head < 64) ∧
    (∃ (t : Nat) (ch : Fin 130) (v : BitVec 32) (s₀ : State) (s : State), s = s₀.at t ∧ reaches s (chanRequester ch) = true ∧ ¬ (v.toNat < 64 ∧ (v.toNat + 64 - (chan s ch).tail) % 64 ≤ ((chan s ch).head + 64 - (chan s ch).tail) % 64)) :=
  ⟨⟨0, 129, 63, (setChan 129 { Chan.reset with tail := 63, head := 63 } { up with pwr := up.pwr }), _, rfl, by decide +kernel, by decide +kernel, by decide +kernel⟩,
   ⟨0, 129, 64, (setChan 129 { Chan.reset with tail := 63, head := 63 } up), _, rfl, by decide +kernel, by decide +kernel⟩⟩

/-- States and operands that meet the hypotheses of LatchesStandApart, clause by clause. -/
theorem wit_LatchesStandApart :
    ∃ (t : Nat) (s₀ : State) (s : State), s = s₀.at t :=
  ⟨0, up, _, rfl⟩

/-- States and operands that meet the hypotheses of DeviceResetClearsTheChannels, clause by clause. -/
theorem wit_DeviceResetClearsTheChannels :
    (∃ (t : Nat) (s₀ : State) (s : State) (ch : Fin 130) (r : Request) (ms : Nat) (s₁ : State), s = s₀.at t ∧ Ready 0x0902 t ch r s₀ s ∧ parseArgs [4] r.args = some [ms] ∧ ms ≤ 1000 ∧ s₁ = respond ch r stOk 0 [] s) ∧
    (∃ (t : Nat) (s₀ : State) (s : State) (x : Nat), s = s₀.at t ∧ s.root.resetAt = some x ∧ x ≤ s.now ∧ s.cmb.devicePending = none) ∧
    (∃ (t : Nat) (s₀ : State) (s : State) (cause : Nat), s = s₀.at t ∧ s.cmb.devicePending = some cause) :=
  ⟨⟨0, (taken 0 (req 2306 (args [(4, 1000)])) up), _, 0, (req 2306 (args [(4, 1000)])), 1000, _, rfl, ⟨rfl, by decide +kernel⟩, by decide +kernel, by decide +kernel, rfl⟩,
   ⟨1000, { up with root := { up.root with resetAt := some 1000 } }, _, 1000, rfl, by decide +kernel, by decide +kernel, by decide +kernel⟩,
   ⟨0, (modCmb (fun c => { c with devicePending := some 0 }) up), _, 0, rfl, by decide +kernel⟩⟩

/-- States and operands that meet the hypotheses of ReturnToServiceClearsHistories, clause by clause. -/
theorem wit_ReturnToServiceClearsHistories :
    (∃ (t : Nat) (ch : Fin 130) (r : Request) (s₀ : State) (s : State), Ready 0x0907 t ch r s₀ s ∧ noArgs r.args = some () ∧ s.cmb.outOfService = false) ∧
    (∃ (t : Nat) (ch : Fin 130) (r : Request) (s₀ : State) (s : State), Ready 0x0907 t ch r s₀ s ∧ noArgs r.args = some () ∧ s.cmb.outOfService = true ∧ s.cmb.devicePending = none) ∧
    (∃ (t : Nat) (ch : Fin 130) (r : Request) (s₀ : State) (s : State) (u₀ : State) (u : State), Ready 0x0907 t ch r s₀ s ∧ noArgs r.args = some () ∧ u = u₀.at t ∧ u.cmb.devicePending = some 0 ∧ u.cmb.outOfService = false) :=
  ⟨⟨0, 0, (req 2311 []), (taken 0 (req 2311 []) up), _, ⟨rfl, by decide +kernel⟩, by decide +kernel, by decide +kernel⟩,
   ⟨0, 0, (req 2311 []), (taken 0 (req 2311 []) (modCmb (fun c => { c with outOfService := true }) up)), _, ⟨rfl, by decide +kernel⟩, by decide +kernel, by decide +kernel, by decide +kernel⟩,
   ⟨0, 0, (req 2311 []), (taken 0 (req 2311 []) up), _, (modCmb (fun c => { c with devicePending := some 0 }) up), _, ⟨rfl, by decide +kernel⟩, by decide +kernel, rfl, by decide +kernel, by decide +kernel⟩⟩

/-- States and operands that meet the hypotheses of TrunkRegistersMembers, clause by clause. -/
theorem wit_TrunkRegistersMembers :
    (∃ (t : Nat) (m : InMsg) (s₀ : State) (s : State) (s' : State), s = s₀.at t ∧ isTrunk s' = true ∧ CtrlArrives 0x81 0 12 s m s' ∧ (∃ e : RegEntry, tget (ctrlSrc m) s'.grv.reg = some e ∧ (e.st = .joined ∨ e.st = .silent) ∧ e.serial ≠ u64At (ctrlFields m) 0)) ∧
    (∃ (t : Nat) (m : InMsg) (s₀ : State) (s : State) (s' : State), s = s₀.at t ∧ isTrunk s' = true ∧ CtrlArrives 0x81 0 12 s m s' ∧ (∀ e : RegEntry, tget (ctrlSrc m) s'.grv.reg = some e → e.st = .joined ∨ e.st = .silent → e.serial = u64At (ctrlFields m) 0)) ∧
    (∃ (t : Nat) (m : InMsg) (s₀ : State) (s : State) (s' : State) (e : RegEntry), s = s₀.at t ∧ isTrunk s' = true ∧ CtrlArrives 0x83 0 28 s m s' ∧ tget (ctrlSrc m) s'.grv.reg = some e ∧ e.serial ≠ u64At (ctrlFields m) 0) :=
  ⟨⟨0, (ctrl0 0 0x81 0 (zeros 12)), (gotMsg (ctrl0 0 0x81 0 (zeros 12)) (trunk0 [(2, entry0 9)] up)), _, (modTxn (fun x => { x with inbox := [] }) ((gotMsg (ctrl0 0 0x81 0 (zeros 12)) (trunk0 [(2, entry0 9)] up)).at 0)), rfl, by decide +kernel, ⟨rfl, by decide +kernel⟩, ⟨entry0 9, by decide +kernel, by decide +kernel, by decide +kernel⟩⟩,
   ⟨0, (ctrl0 0 0x81 0 (zeros 12)), (gotMsg (ctrl0 0 0x81 0 (zeros 12)) (trunk0 [] up)), _, (modTxn (fun x => { x with inbox := [] }) ((gotMsg (ctrl0 0 0x81 0 (zeros 12)) (trunk0 [] up)).at 0)), rfl, by decide +kernel, ⟨rfl, by decide +kernel⟩, (fun _ (he : (none : Option RegEntry) = some _) => nomatch he)⟩,
   ⟨0, (ctrl0 0 0x83 0 (zeros 28)), (gotMsg (ctrl0 0 0x83 0 (zeros 28)) (trunk0 [(2, entry0 9)] up)), _, (modTxn (fun x => { x with inbox := [] }) ((gotMsg (ctrl0 0 0x83 0 (zeros 28)) (trunk0 [(2, entry0 9)] up)).at 0)), (entry0 9), rfl, by decide +kernel, ⟨rfl, by decide +kernel⟩, by decide +kernel, by decide +kernel⟩⟩

/-- States and operands that meet the hypotheses of CutsStopRecords, clause by clause. -/
theorem wit_CutsStopRecords :
    (∃ (t : Nat) (s₀ : State) (s : State), s = s₀.at t ∧ cutStopped s = true) ∧
    (∃ (t : Nat) (s₀ : State) (s : State), s = s₀.at t ∧ cutStopped s = true) ∧
    (∃ (t : Nat) (s₀ : State) (s : State), s = s₀.at t ∧ cutStopped s = true) ∧
    (∃ (t : Nat) (s₀ : State) (s : State), s = s₀.at t ∧ cutStopped s = true) ∧
    (∃ (t : Nat) (s₀ : State) (s : State), s = s₀.at t ∧ cutStopped s = true) ∧
    (∃ (t : Nat) (s₀ : State) (s : State), s = s₀.at t ∧ cutStopped s = true) ∧
    (∃ (t : Nat) (s₀ : State) (s : State), s = s₀.at t ∧ cutStopped s = true) ∧
    (∃ (t : Nat) (s₀ : State) (s : State), s = s₀.at t ∧ cutStopped s = true) ∧
    (∃ (t : Nat) (s₀ : State) (s : State), s = s₀.at t ∧ cutStopped s = true) ∧
    (∃ (t : Nat) (s₀ : State) (s : State), s = s₀.at t ∧ cutStopped s = true) ∧
    (∃ (t : Nat) (s₀ : State) (s : State), s = s₀.at t ∧ cutStopped s = true) ∧
    (∃ (t : Nat) (s₀ : State) (s : State), s = s₀.at t ∧ cutStopped s = true) ∧
    (∃ (t : Nat) (s₀ : State) (s : State), s = s₀.at t ∧ cutStopped s = true) ∧
    (∃ (t : Nat) (s₀ : State) (s : State), s = s₀.at t ∧ cutStopped s = true) ∧
    (∃ (t : Nat) (s₀ : State) (s : State), s = s₀.at t ∧ cutStopped s = true) ∧
    (∃ (t : Nat) (s₀ : State) (s : State), s = s₀.at t ∧ cutStopped s = true) :=
  ⟨⟨0, (modCut (fun c => { c with st := .firing }) up), _, rfl, by decide +kernel⟩,
   ⟨0, (modCut (fun c => { c with st := .firing }) up), _, rfl, by decide +kernel⟩,
   ⟨0, (modCut (fun c => { c with st := .firing }) up), _, rfl, by decide +kernel⟩,
   ⟨0, (modCut (fun c => { c with st := .firing }) up), _, rfl, by decide +kernel⟩,
   ⟨0, (modCut (fun c => { c with st := .firing }) up), _, rfl, by decide +kernel⟩,
   ⟨0, (modCut (fun c => { c with st := .firing }) up), _, rfl, by decide +kernel⟩,
   ⟨0, (modCut (fun c => { c with st := .firing }) up), _, rfl, by decide +kernel⟩,
   ⟨0, (modCut (fun c => { c with st := .firing }) up), _, rfl, by decide +kernel⟩,
   ⟨0, (modCut (fun c => { c with st := .firing }) up), _, rfl, by decide +kernel⟩,
   ⟨0, (modCut (fun c => { c with st := .firing }) up), _, rfl, by decide +kernel⟩,
   ⟨0, (modCut (fun c => { c with st := .firing }) up), _, rfl, by decide +kernel⟩,
   ⟨0, (modCut (fun c => { c with st := .firing }) up), _, rfl, by decide +kernel⟩,
   ⟨0, (modCut (fun c => { c with st := .firing }) up), _, rfl, by decide +kernel⟩,
   ⟨0, (modCut (fun c => { c with st := .firing }) up), _, rfl, by decide +kernel⟩,
   ⟨0, (modCut (fun c => { c with st := .firing }) up), _, rfl, by decide +kernel⟩,
   ⟨0, (modCut (fun c => { c with st := .firing }) up), _, rfl, by decide +kernel⟩⟩

/-- States and operands that meet the hypotheses of RegistersChangeNoCommandState, clause by clause. -/
theorem wit_RegistersChangeNoCommandState :
    ∃ (t : Nat) (off : Nat) (r : Requester) (v : BitVec 32) (s₀ : State) (s : State) (s' : State), s = s₀.at t ∧ 0x4000 ≤ off ∧ s.obs.rootHart.halted = false ∧ exec (.registerWrite t r off v) s₀ = .next s' :=
  ⟨0, 0x4000, .pf, 0, up, _, _, rfl, by decide +kernel, by decide +kernel, rfl⟩

/-- States and operands that meet the hypotheses of TheRequestIsTheContentAtCapture, clause by clause. -/
theorem wit_TheRequestIsTheContentAtCapture :
    ∃ (t : Nat) (off : Nat) (ch : Fin 130) (r : Request) (s₀ : State) (s : State), s = s₀.at t ∧ reaches s (chanRequester ch) = true ∧ (chan s ch).st ≠ .idle ∧ (chan s ch).cur = some r ∧ off < 0x2000 :=
  ⟨0, 0x1FFC, 0, _, (at0 6 [] up), _, rfl, by decide +kernel, by decide +kernel, someGet (by decide +kernel), by decide +kernel⟩

end Sys2Proof.Tests
end

section
/-! SUPPORT. The lines of device memory and scratch, the mirror regions and the running records are served outside Root: each of their
operations takes no time and leaves Root as it was (02 R61 needs this of a link that goes down). -/

namespace Sys2Proof.Machine

/-- What every step of a fold keeps, the fold keeps. -/
theorem foldl_keeps {α β : Type} {f : State → α → State} (p : State → β) (hf : ∀ s a, p (f s a) = p s) (l : List α) (s : State) :
    p (l.foldl f s) = p s := by
  induction l generalizing s with
  | nil => rfl
  | cons a l ih => exact (ih (f s a)).trans (hf s a)

/-- A fold of steps that take no time and leave Root alone takes no time and leaves Root alone. -/
theorem foldl_now_root {α : Type} {f : State → α → State} (hf : ∀ s a, (f s a).now = s.now ∧ (f s a).root = s.root)
    (l : List α) (s : State) : (l.foldl f s).now = s.now ∧ (l.foldl f s).root = s.root :=
  ⟨foldl_keeps State.now (fun s a => (hf s a).1) l s, foldl_keeps State.root (fun s a => (hf s a).2) l s⟩

/-- The same of a fold that begins after earlier steps of the kind. -/
theorem foldl_now_root_from {α : Type} {f : State → α → State} {l : List α} {s s₀ : State}
    (h₀ : s₀.now = s.now ∧ s₀.root = s.root) (hf : ∀ s a, (f s a).now = s.now ∧ (f s a).root = s.root) :
    (l.foldl f s₀).now = s.now ∧ (l.foldl f s₀).root = s.root := by
  obtain ⟨hn, hr⟩ := foldl_now_root hf l s₀
  exact ⟨hn.trans h₀.1, hr.trans h₀.2⟩

/-! Free values. -/

@[simp] theorem drawNat_now_root (s : State) : (drawNat s).2.now = s.now ∧ (drawNat s).2.root = s.root := ⟨rfl, rfl⟩

@[simp] theorem drawBytes_now_root (n : Nat) (s : State) : (drawBytes n s).2.now = s.now ∧ (drawBytes n s).2.root = s.root :=
  ⟨rfl, rfl⟩

/-! Faults of lines and of scratch. -/

@[simp] theorem faultLine_now_root (who : Nat × Nat) (n o cause : Nat) (s : State) :
    (faultLine who n o cause s).now = s.now ∧ (faultLine who n o cause s).root = s.root := by
  unfold faultLine
  repeat' split
  all_goals simp

@[simp] theorem faultScratch_now_root (who : Nat × Nat) (cause l : Nat) (s : State) :
    (faultScratch who cause l s).now = s.now ∧ (faultScratch who cause l s).root = s.root := by
  unfold faultScratch
  split <;> simp

@[simp] theorem findScratch_now_root (who : Nat × Nat) (ls : List Nat) (s : State) :
    (findScratch who ls s).now = s.now ∧ (findScratch who ls s).root = s.root :=
  foldl_now_root (fun s l => faultScratch_now_root who 2 l s) _ _

@[simp] theorem poisonScratch_now_root (who : Nat × Nat) (a len : Nat) (s : State) :
    (poisonScratch who a len s).now = s.now ∧ (poisonScratch who a len s).root = s.root :=
  foldl_now_root (fun s l => faultScratch_now_root who 3 l s) _ _

@[simp] theorem countRow_now_root (row k : Nat) (s : State) :
    (countRow row k s).now = s.now ∧ (countRow row k s).root = s.root := ⟨rfl, rfl⟩

@[simp] theorem correctLine_now_root (dl : Nat) (s : State) :
    (correctLine dl s).now = s.now ∧ (correctLine dl s).root = s.root := by
  simp [correctLine]

@[simp] theorem noteBadLine_now_root (dl part : Nat) (line : Bytes) (s : State) :
    (noteBadLine dl part line s).now = s.now ∧ (noteBadLine dl part line s).root = s.root := by
  simp [noteBadLine]

/-! The mirror regions of the twin. -/

@[simp] theorem queueMsg_now_root (p vc : Fin 8) (ty part : Nat) (tag : Option Nat) (b : Bytes) (s : State) :
    (queueMsg p vc ty part tag b s).now = s.now ∧ (queueMsg p vc ty part tag b s).root = s.root := by
  simp [queueMsg]

@[simp] theorem sendMirror_now_root (copy : Bool) (k : Nat) (r : Region) (lines : List Nat) (s : State) :
    (sendMirror copy k r lines s).now = s.now ∧ (sendMirror copy k r lines s).root = s.root := by
  simp [sendMirror]

@[simp] theorem markRegion_now_root (id lines upTo : Nat) (s : State) :
    (markRegion id lines upTo s).now = s.now ∧ (markRegion id lines upTo s).root = s.root := ⟨rfl, rfl⟩

@[simp] theorem captureRun_now_root (n : Nat) (run : List Nat) (s : State) :
    (captureRun n run s).now = s.now ∧ (captureRun n run s).root = s.root := by
  unfold captureRun
  dsimp only
  repeat' split
  all_goals simp

@[simp] theorem captureLines_now_root (n : Nat) (lines : List Nat) (s : State) :
    (captureLines n lines s).now = s.now ∧ (captureLines n lines s).root = s.root := by
  unfold captureLines
  split
  · exact ⟨rfl, rfl⟩
  · exact foldl_now_root (fun s run => captureRun_now_root n run s) _ _

/-! Poison. -/

@[simp] theorem poisonRange_now_root (who : Nat × Nat) (n o len : Nat) (s : State) :
    (poisonRange who n o len s).now = s.now ∧ (poisonRange who n o len s).root = s.root := by
  have h := foldl_now_root (fun s l => faultLine_now_root who n l 3 s)
    (((lineCuts o len).map (·.1)).filter fun l => lineWritable s false n l) s
  simpa [poisonRange] using h

@[simp] theorem poisonLoc_now_root (n : Nat) (l : Loc) (len : Nat) (s : State) :
    (poisonLoc n l len s).now = s.now ∧ (poisonLoc n l len s).root = s.root := by
  cases l with
  | part o => simp [poisonLoc]
  | scratch a => exact foldl_now_root (fun s p => poisonScratch_now_root (localWho s n) p.1 p.2 s) _ _

@[simp] theorem poisonRest_now_root (n : Nat) (l : Loc) (len : Nat) (done : List (Nat × Nat)) (s : State) :
    (poisonRest n l len done s).now = s.now ∧ (poisonRest n l len done s).root = s.root := by
  refine foldl_now_root (fun s p => ?_) _ _
  dsimp only
  split <;> simp

/-! The tags of sealed lines. -/

@[simp] theorem loseTags_now_root (dl part : Nat) (s : State) :
    (loseTags dl part s).now = s.now ∧ (loseTags dl part s).root = s.root := by
  simp [loseTags]

@[simp] theorem evictTag_now_root (dl : Nat) (s : State) : (evictTag dl s).now = s.now ∧ (evictTag dl s).root = s.root := by
  unfold evictTag
  repeat' split
  all_goals simp

@[simp] theorem loadTag_now_root (part ta : Nat) (s : State) :
    (loadTag part ta s).now = s.now ∧ (loadTag part ta s).root = s.root := by
  simp [loadTag, apply_ite State.now, apply_ite State.root]

@[simp] theorem writeTag_now_root (part ta : Nat) (tag : Bytes) (s : State) :
    (writeTag part ta tag s).now = s.now ∧ (writeTag part ta tag s).root = s.root := by
  simp [writeTag]

/-! Reads and writes of lines. -/

@[simp] theorem storeLine_now_root (n o : Nat) (d : Bytes) (s : State) :
    (storeLine n o d s).now = s.now ∧ (storeLine n o d s).root = s.root := by
  unfold storeLine
  repeat' split
  all_goals simp

@[simp] theorem touchLine_now_root (n o : Nat) (st : LineState) (s : State) :
    (touchLine n o st s).now = s.now ∧ (touchLine n o st s).root = s.root := by
  unfold touchLine
  dsimp only
  repeat' split
  all_goals simp

@[simp] theorem failLine_now_root (who : Nat × Nat) (n o : Nat) (st : LineState) (s : State) :
    (failLine who n o st s).2.now = s.now ∧ (failLine who n o st s).2.root = s.root := by
  cases st <;> simp [failLine]

@[simp] theorem readLine_now_root (who : Nat × Nat) (n o : Nat) (s : State) :
    (readLine who n o s).2.2.now = s.now ∧ (readLine who n o s).2.2.root = s.root := by
  unfold readLine
  split <;> simp

@[simp] theorem writeLine_now_root (who : Nat × Nat) (mirror : Bool) (n o off : Nat) (d : Bytes) (s : State) :
    (writeLine who mirror n o off d s).2.now = s.now ∧ (writeLine who mirror n o off d s).2.root = s.root := by
  unfold writeLine
  repeat' split
  all_goals simp

@[simp] theorem readCuts_now_root (who : Nat × Nat) (n : Nat) (cs : List (Nat × Nat × Nat)) (s : State) :
    (readCuts who n cs s).2.2.now = s.now ∧ (readCuts who n cs s).2.2.root = s.root := by
  induction cs generalizing s with
  | nil => exact ⟨rfl, rfl⟩
  | cons c cs ih => simp [readCuts, ih]

@[simp] theorem writeCuts_now_root (who : Nat × Nat) (mirror : Bool) (n : Nat) (cs : List (Nat × Nat × Nat)) (d : Bytes) (s : State) :
    (writeCuts who mirror n cs d s).2.2.now = s.now ∧ (writeCuts who mirror n cs d s).2.2.root = s.root := by
  induction cs generalizing d s with
  | nil => exact ⟨rfl, rfl⟩
  | cons c cs ih => simp [writeCuts, ih]

@[simp] theorem readRange_now_root (who : Nat × Nat) (n o len : Nat) (s : State) :
    (readRange who n o len s).2.2.now = s.now ∧ (readRange who n o len s).2.2.root = s.root := by
  simp [readRange]

@[simp] theorem writeRange_now_root (who : Nat × Nat) (mirror : Bool) (n o : Nat) (d : Bytes) (s : State) :
    (writeRange who mirror n o d s).2.now = s.now ∧ (writeRange who mirror n o d s).2.root = s.root := by
  simp [writeRange]

/-! Reads and writes of scratch. -/

@[simp] theorem readScratch_now_root (who : Nat × Nat) (a len : Nat) (s : State) :
    (readScratch who a len s).2.2.now = s.now ∧ (readScratch who a len s).2.2.root = s.root := by
  unfold readScratch
  dsimp only
  split <;> simp

@[simp] theorem readPieces_now_root (who : Nat × Nat) (ps : List (Nat × Nat)) (s : State) :
    (readPieces who ps s).2.2.now = s.now ∧ (readPieces who ps s).2.2.root = s.root := by
  induction ps generalizing s with
  | nil => exact ⟨rfl, rfl⟩
  | cons p ps ih => simp [readPieces, ih]

@[simp] theorem writeScratchCuts_now_root (who : Nat × Nat) (cs : List (Nat × Nat × Nat)) (d : Bytes) (s : State) :
    (writeScratchCuts who cs d s).2.now = s.now ∧ (writeScratchCuts who cs d s).2.root = s.root := by
  induction cs generalizing d s with
  | nil => exact ⟨rfl, rfl⟩
  | cons c cs ih => simp [writeScratchCuts, ih, apply_ite State.now, apply_ite State.root]

@[simp] theorem writeScratch_now_root (who : Nat × Nat) (a : Nat) (d : Bytes) (s : State) :
    (writeScratch who a d s).2.now = s.now ∧ (writeScratch who a d s).2.root = s.root :=
  writeScratchCuts_now_root who _ d s

@[simp] theorem writePieces_now_root (who : Nat × Nat) (ps : List (Nat × Nat)) (d : Bytes) (s : State) :
    (writePieces who ps d s).2.now = s.now ∧ (writePieces who ps d s).2.root = s.root := by
  induction ps generalizing d s with
  | nil => exact ⟨rfl, rfl⟩
  | cons p ps ih => simp [writePieces, ih]

@[simp] theorem readLoc_now_root (n : Nat) (l : Loc) (len : Nat) (s : State) :
    (readLoc n l len s).2.2.now = s.now ∧ (readLoc n l len s).2.2.root = s.root := by
  cases l with
  | part o => simp [readLoc]
  | scratch a =>
    unfold readLoc
    dsimp only
    split <;> simp

@[simp] theorem writeLoc_now_root (n : Nat) (l : Loc) (d : Bytes) (s : State) :
    (writeLoc n l d s).2.now = s.now ∧ (writeLoc n l d s).2.root = s.root := by
  cases l with
  | part o => simp [writeLoc]
  | scratch a =>
    unfold writeLoc
    dsimp only
    split <;> simp

/-! The ends of records. -/

@[simp] theorem noteMirrors_now_root (n q num : Nat) (s : State) :
    (noteMirrors n q num s).now = s.now ∧ (noteMirrors n q num s).root = s.root := by
  simp [noteMirrors, takeMarks]

@[simp] theorem endRecord_now_root (n q num status : Nat) (result : Bytes) (s : State) :
    (endRecord n q num status result s).now = s.now ∧ (endRecord n q num status result s).root = s.root := by
  simp [endRecord]

@[simp] theorem endRemote_now_root (n q num word : Nat) (result : Bytes) (s : State) :
    (endRemote n q num word result s).now = s.now ∧ (endRemote n q num word result s).root = s.root := by
  simp [endRemote]

end Sys2Proof.Machine
end

section
/-! SUPPORT. Remote transactions, collectives and the twin's link are served outside Root: each of their operations takes no time and
leaves Root as it was. -/

namespace Sys2Proof.Machine

/-! Completions of transactions at their records. -/

@[simp] theorem remoteOpDone_now_root (n q num word : Nat) (data : Bytes) (s : State) :
    (remoteOpDone n q num word data s).now = s.now ∧ (remoteOpDone n q num word data s).root = s.root := by
  unfold remoteOpDone
  dsimp only
  repeat' split
  all_goals simp

@[simp] theorem poisonPull_now_root (n : Nat) (b : Bytes) (r : Running) (word : Nat) (s : State) :
    (poisonPull n b r word s).now = s.now ∧ (poisonPull n b r word s).root = s.root := by
  unfold poisonPull
  split <;> simp

@[simp] theorem finishBulk_now_root (n q num : Nat) (s : State) :
    (finishBulk n q num s).now = s.now ∧ (finishBulk n q num s).root = s.root := by
  unfold finishBulk
  dsimp only
  repeat' split
  all_goals simp

@[simp] theorem cancelChunks_now_root (n q num : Nat) (s : State) :
    (cancelChunks n q num s).now = s.now ∧ (cancelChunks n q num s).root = s.root := by
  simp [cancelChunks]

@[simp] theorem chunkDone_now_root (n q num k word : Nat) (data : Bytes) (s : State) :
    (chunkDone n q num k word data s).now = s.now ∧ (chunkDone n q num k word data s).root = s.root := by
  unfold chunkDone
  dsimp only
  repeat' split
  all_goals simp

@[simp] theorem tailDone_now_root (n q num k word : Nat) (data : Bytes) (s : State) :
    (tailDone n q num k word data s).now = s.now ∧ (tailDone n q num k word data s).root = s.root := by
  simp [tailDone]

@[simp] theorem settle_now_root (t : Txn) (word : Nat) (data : Bytes) (s : State) :
    (settle t word data s).now = s.now ∧ (settle t word data s).root = s.root := by
  unfold settle
  repeat' split
  all_goals simp

@[simp] theorem countSynth_now_root (status : Nat) (s : State) :
    (countSynth status s).now = s.now ∧ (countSynth status s).root = s.root := by
  unfold countSynth
  dsimp only
  split <;> simp

@[simp] theorem retire_now_root (tag : Nat) (synth : Bool) (s : State) :
    (retire tag synth s).now = s.now ∧ (retire tag synth s).root = s.root := ⟨rfl, rfl⟩

@[simp] theorem synthesise_now_root (status tag : Nat) (s : State) :
    (synthesise status tag s).now = s.now ∧ (synthesise status tag s).root = s.root := by
  unfold synthesise
  split <;> simp

@[simp] theorem synthesiseAll_now_root (status : Nat) (p : Txn → Bool) (s : State) :
    (synthesiseAll status p s).now = s.now ∧ (synthesiseAll status p s).root = s.root :=
  foldl_now_root (fun s tag => synthesise_now_root status tag s) _ _

@[simp] theorem staleSlot_now_root (k : Nat) (s : State) : (staleSlot k s).now = s.now ∧ (staleSlot k s).root = s.root := by
  simp [staleSlot]

@[simp] theorem acceptResponse_now_root (m : InMsg) (s : State) :
    (acceptResponse m s).now = s.now ∧ (acceptResponse m s).root = s.root := by
  unfold acceptResponse
  dsimp only
  repeat' split
  all_goals simp

/-! Issue. -/

@[simp] theorem raIssued_now_root (o : RaOwner) (s : State) : (raIssued o s).now = s.now ∧ (raIssued o s).root = s.root := by
  unfold raIssued
  dsimp only
  repeat' split
  all_goals simp

@[simp] theorem atIssue_now_root (t : Txn) (status : Nat) (s : State) :
    (atIssue t status s).now = s.now ∧ (atIssue t status s).root = s.root := by
  simp [atIssue]

@[simp] theorem launch_now_root (t : Txn) (tag : Nat) (p : Option (Fin 8)) (s : State) :
    (launch t tag p s).now = s.now ∧ (launch t tag p s).root = s.root := by
  unfold launch
  dsimp only
  repeat' split
  all_goals simp

/-- An attempt to issue a transaction that does not leave it waiting takes no time and leaves Root alone. -/
theorem tryIssue_now_root (t : Txn) (s : State) : ∀ s', tryIssue t s = some s' → s'.now = s.now ∧ s'.root = s.root := by
  unfold tryIssue
  dsimp only
  repeat' split
  all_goals simp

theorem pumpWaiting_now_root (s : State) (before rest : List Txn) :
    ∀ s', pumpWaiting s before rest = some s' → s'.now = s.now ∧ s'.root = s.root := by
  induction rest generalizing before with
  | nil => exact fun s' h => nomatch h
  | cons t rest ih =>
    intro s' h
    unfold pumpWaiting at h
    dsimp only at h
    split at h
    · rename_i s₁ h₁
      cases h
      split at h₁
      · cases h₁
      · simpa using tryIssue_now_root t _ s' h₁
    · exact ih _ s' h

@[simp] theorem issueTxn_now_root (t : Txn) (s : State) : (issueTxn t s).now = s.now ∧ (issueTxn t s).root = s.root := by
  unfold issueTxn
  dsimp only
  split
  · simp
  · split
    · rename_i s' h
      exact tryIssue_now_root t s s' h
    · simp

@[simp] theorem issueChunk_now_root (n q num : Nat) (r : Running) (s : State) :
    (issueChunk n q num r s).now = s.now ∧ (issueChunk n q num r s).root = s.root := by
  simp [issueChunk, apply_ite State.now, apply_ite State.root]

@[simp] theorem pumpLoop_now_root (fuel : Nat) (s : State) :
    (pumpLoop fuel s).now = s.now ∧ (pumpLoop fuel s).root = s.root := by
  induction fuel generalizing s with
  | zero => exact ⟨rfl, rfl⟩
  | succ fuel ih =>
    unfold pumpLoop
    split
    · rename_i s' h
      obtain ⟨hn, hr⟩ := pumpWaiting_now_root s [] _ s' h
      rw [← hn, ← hr]
      exact ih s'
    · split <;> simp [ih]

@[simp] theorem pump_now_root (s : State) : (pump s).now = s.now ∧ (pump s).root = s.root := by
  unfold pump
  generalize 1048576 = fuel
  exact pumpLoop_now_root fuel s

/-! Responses that are sent and forwarded. -/

theorem sendTo_now_root (chip sel vc prt : Nat) (tag : Option Nat) (b : Bytes) (s : State) :
    ∀ s', sendTo chip sel vc prt tag b s = some s' → s'.now = s.now ∧ s'.root = s.root := by
  unfold sendTo
  split <;> simp

@[simp] theorem sendResponse_now_root (h : TxnHdr) (vc : Nat) (data : Bytes) (s : State) :
    (sendResponse h vc data s).now = s.now ∧ (sendResponse h vc data s).root = s.root := by
  unfold sendResponse
  split
  · rename_i s' h'
    exact sendTo_now_root _ _ _ _ _ _ s s' h'
  · exact ⟨rfl, rfl⟩

@[simp] theorem forwardCompletion_now_root (h : TxnHdr) (status : Nat) (s : State) :
    (forwardCompletion h status s).now = s.now ∧ (forwardCompletion h status s).root = s.root := by
  simp [forwardCompletion]

@[simp] theorem releaseHeld_now_root (s : State) : (releaseHeld s).now = s.now ∧ (releaseHeld s).root = s.root :=
  foldl_now_root (fun s _ => sendResponse_now_root _ _ _ s) _ _

@[simp] theorem mirrorResume_now_root (s : State) : (mirrorResume s).now = s.now ∧ (mirrorResume s).root = s.root := by
  simp [mirrorResume]

@[simp] theorem linkDownTxns_now_root (p : Fin 8) (s : State) :
    (linkDownTxns p s).now = s.now ∧ (linkDownTxns p s).root = s.root :=
  foldl_now_root_from (by simp) fun s _ => forwardCompletion_now_root _ stLinkDown s

/-! Collectives over a link that is lost. -/

@[simp] theorem colStopSending_now_root (tag : Nat) (s : State) :
    (colStopSending tag s).now = s.now ∧ (colStopSending tag s).root = s.root :=
  foldl_now_root (f := fun s p => modLink p _ s) (fun _ _ => ⟨rfl, rfl⟩) (fins 8) s

@[simp] theorem colPoison_now_root (g : Group) (o : ColOp) (s : State) :
    (colPoison g o s).now = s.now ∧ (colPoison g o s).root = s.root := by
  unfold colPoison
  split <;> simp

@[simp] theorem colRelease_now_root (k : Nat) (o : ColOp) (s : State) :
    (colRelease k o s).now = s.now ∧ (colRelease k o s).root = s.root := by
  simp [colRelease, restage]

@[simp] theorem colEndRecord_now_root (g : Group) (o : ColOp) (status : Nat) (synth : Bool) (responder : Nat) (s : State) :
    (colEndRecord g o status synth responder s).now = s.now ∧ (colEndRecord g o status synth responder s).root = s.root := by
  simp [colEndRecord]

@[simp] theorem colFailOp_now_root (k : Nat) (g : Group) (o : ColOp) (status responder : Nat) (s : State) :
    (colFailOp k g o status responder s).now = s.now ∧ (colFailOp k g o status responder s).root = s.root := by
  unfold colFailOp
  split <;> simp

@[simp] theorem breakGroup_now_root (k status : Nat) (s : State) :
    (breakGroup k status s).now = s.now ∧ (breakGroup k status s).root = s.root := by
  unfold breakGroup
  split
  · exact ⟨rfl, rfl⟩
  · rename_i g _
    split
    · exact ⟨rfl, rfl⟩
    · dsimp only
      cases g.op with
      | none =>
        refine foldl_now_root_from ⟨rfl, rfl⟩ fun s j => ?_
        split <;> simp
      | some o =>
        simp only [colFailOp_now_root]
        refine foldl_now_root_from (by simp) fun s j => ?_
        split <;> simp

@[simp] theorem colLinkLost_now_root (p : Fin 8) (s : State) :
    (colLinkLost p s).now = s.now ∧ (colLinkLost p s).root = s.root :=
  foldl_now_root (fun s k => breakGroup_now_root k stLinkDown s) _ _

/-! The twin over a link that is lost. -/

@[simp] theorem dropGrove_now_root (s : State) : (dropGrove s).now = s.now ∧ (dropGrove s).root = s.root := ⟨rfl, rfl⟩

@[simp] theorem sendProbeKind_now_root (code path : Nat) (fields : Bytes) (s : State) :
    (sendProbeKind code path fields s).now = s.now ∧ (sendProbeKind code path fields s).root = s.root := by
  unfold sendProbeKind
  repeat' split
  all_goals simp

@[simp] theorem detachAll_now_root (s : State) : (detachAll s).now = s.now ∧ (detachAll s).root = s.root := ⟨rfl, rfl⟩

@[simp] theorem declareLost_now_root (s : State) : (declareLost s).now = s.now ∧ (declareLost s).root = s.root := by
  unfold declareLost
  split <;> simp

@[simp] theorem twinLinkDown_now_root (s : State) : (twinLinkDown s).now = s.now ∧ (twinLinkDown s).root = s.root := by
  simp [twinLinkDown]

end Sys2Proof.Machine
end

section
/-! SUPPORT. A link that goes down takes no time, and of Root it changes the channels and the SMBus alert only: it counts no boot. -/

namespace Sys2Proof.Machine

/-! Frames and flits. -/

@[simp] theorem sendFrames_now_root (p : Fin 8) (ls : List (Fin 9)) (ty : Nat) (b : Fin 9 → Bytes) (s : State) :
    (sendFrames p ls ty b s).now = s.now ∧ (sendFrames p ls ty b s).root = s.root :=
  foldl_now_root (f := fun s _ => emit _ s) (fun _ _ => ⟨rfl, rfl⟩) ls _

@[simp] theorem sendMgmt_now_root (p : Fin 8) (ty : Nat) (b : Bytes) (s : State) :
    (sendMgmt p ty b s).now = s.now ∧ (sendMgmt p ty b s).root = s.root := by
  simp [sendMgmt]

@[simp] theorem pushInbox_now_root (m : InMsg) (s : State) : (pushInbox m s).now = s.now ∧ (pushInbox m s).root = s.root :=
  ⟨rfl, rfl⟩

@[simp] theorem afterTake_now_root (p v : Fin 8) (s : State) : (afterTake p v s).now = s.now ∧ (afterTake p v s).root = s.root :=
  ⟨rfl, rfl⟩

@[simp] theorem deliverFlit_now_root (p v : Fin 8) (s : State) :
    (deliverFlit p v s).2.now = s.now ∧ (deliverFlit p v s).2.root = s.root := by
  unfold deliverFlit
  dsimp only
  repeat' split
  all_goals simp

@[simp] theorem deliverAll_now_root (p v : Fin 8) (n : Nat) (s : State) :
    (deliverAll p v n s).now = s.now ∧ (deliverAll p v n s).root = s.root := by
  induction n generalizing s with
  | zero => exact ⟨rfl, rfl⟩
  | succ n ih => simp [deliverAll, ih]

theorem takeMsg_now_root {p : InMsg → Bool} {m : InMsg} {s s' : State} (h : takeMsg p s = some (m, s')) :
    s'.now = s.now ∧ s'.root = s.root := by
  unfold takeMsg at h
  split at h
  · cases h
    exact ⟨rfl, rfl⟩
  · cases h

@[simp] theorem takeResponses_now_root (p : Fin 8) (n : Nat) (s : State) :
    (takeResponses p n s).now = s.now ∧ (takeResponses p n s).root = s.root := by
  induction n generalizing s with
  | zero => exact ⟨rfl, rfl⟩
  | succ n ih =>
    unfold takeResponses
    split
    · rename_i m s' h
      obtain ⟨hn, hr⟩ := takeMsg_now_root h
      rw [← hn, ← hr]
      simp [ih]
    · exact ⟨rfl, rfl⟩

@[simp] theorem settlePort_now_root (p : Fin 8) (s : State) :
    (settlePort p s).now = s.now ∧ (settlePort p s).root = s.root := by
  have h := foldl_now_root (fun s v => deliverAll_now_root p v (vcRx s p v).flits.length s) (fins 8) s
  simpa [settlePort] using h

@[simp] theorem settleDown_now_root (p : Fin 8) (s : State) :
    (settleDown p s).now = s.now ∧ (settleDown p s).root = s.root := by
  unfold settleDown
  split <;> simp

/-! Tickets that end: the one way in which a link reaches Root. -/

@[simp] theorem channelIrq_bootCount (ch : Fin 130) (s : State) : (channelIrq ch s).root.bootCount = s.root.bootCount := by
  unfold channelIrq
  split <;> rfl

@[simp] theorem pushEvent_bootCount (ch : Fin 130) (b : Bytes) (s : State) :
    (pushEvent ch b s).root.bootCount = s.root.bootCount := by
  unfold pushEvent
  dsimp only
  repeat' split
  all_goals simp

@[simp] theorem finishTicket_bootCount (ch : Fin 130) (num status : Nat) (result : Bytes) (s : State) :
    (finishTicket ch num status result s).root.bootCount = s.root.bootCount := by
  unfold finishTicket
  repeat' split
  all_goals simp

@[simp] theorem finishRef_bootCount (ref : Option TicketRef) (status : Nat) (result : Bytes) (s : State) :
    (finishRef ref status result s).root.bootCount = s.root.bootCount := by
  cases ref <;> simp [finishRef]

/-! The link that goes down (05 R158). -/

@[simp] theorem physDown_now_bootCount (p : Fin 8) (reason : Nat) (s : State) :
    (physDown p reason s).now = s.now ∧ (physDown p reason s).root.bootCount = s.root.bootCount := by
  simp [physDown, linkTrace]

@[simp] theorem endLink_now_bootCount (p : Fin 8) (s : State) :
    (endLink p s).now = s.now ∧ (endLink p s).root.bootCount = s.root.bootCount := by
  unfold endLink
  dsimp only
  repeat' split
  all_goals simp

/-- A link that goes down takes no time and counts no boot. -/
@[simp] theorem linkGoesDown_now_bootCount (p : Fin 8) (reason : Nat) (sent : Bool) (s : State) :
    (linkGoesDown p reason sent s).now = s.now ∧ (linkGoesDown p reason sent s).root.bootCount = s.root.bootCount := by
  unfold linkGoesDown
  dsimp only
  repeat' split
  all_goals simp

end Sys2Proof.Machine
end

section
/-! SUPPORT. The event queue of a channel when its reader moves TAIL (02 R46, R47). -/

namespace Sys2Proof.Machine

/-- A held event that finds room is written at HEAD, and HEAD advances (02 R47). -/
theorem flushHeld_writes {ch : Fin 130} {n : Nat} {s : State} {b : Bytes} {rest : List Bytes} (hheld : (chan s ch).held = b :: rest)
    (hroom : ((chan s ch).head + 1) % 64 ≠ (chan s ch).tail) : ∃ s', flushHeld ch (n + 1) s = flushHeld ch n s'
      ∧ chan s' ch = { chan s ch with evq := tset (chan s ch).head b (chan s ch).evq, head := ((chan s ch).head + 1) % 64, held := rest } := by
  refine ⟨_, by rw [flushHeld]; simp only [hheld]; rw [if_neg hroom], ?_⟩
  split <;> simp

/-- Held events that move into free slots: TAIL and EVQ_REJECT stay, and so does every slot between TAIL and HEAD (02 R47). -/
theorem flushHeld_keeps_unread (ch : Fin 130) (n : Nat) {s : State} (ht : (chan s ch).tail < 64) (hh : (chan s ch).head < 64) :
    (chan (flushHeld ch n s) ch).tail = (chan s ch).tail ∧ (chan (flushHeld ch n s) ch).evqReject = (chan s ch).evqReject
      ∧ ∀ k, k < ((chan s ch).head + 64 - (chan s ch).tail) % 64 →
        tget (((chan s ch).tail + k) % 64) (chan (flushHeld ch n s) ch).evq = tget (((chan s ch).tail + k) % 64) (chan s ch).evq := by
  induction n generalizing s with
  | zero => exact ⟨rfl, rfl, fun _ _ => rfl⟩
  | succ n ih =>
    cases hheld : (chan s ch).held with
    | nil => simp [flushHeld, hheld]
    | cons b rest =>
      by_cases hroom : ((chan s ch).head + 1) % 64 = (chan s ch).tail
      · simp [flushHeld, hheld, hroom]
      · obtain ⟨s', hstep, hc⟩ := flushHeld_writes (n := n) hheld hroom
        have ih := @ih s'
        rw [hc] at ih
        obtain ⟨htail, hrej, hslots⟩ := ih ht (Nat.mod_lt _ (by decide))
        rw [hstep]
        refine ⟨htail, hrej, fun k hk => ?_⟩
        have hlonger : k < (((chan s ch).head + 1) % 64 + 64 - (chan s ch).tail) % 64 := by omega
        have hother : ((chan s ch).tail + k) % 64 ≠ (chan s ch).head := by omega
        exact (hslots k hlonger).trans (tget_tset_of_ne b _ hother)

/-- A value outside the written events leaves the queue as it was and sets EVQ_REJECT. -/
theorem moveTail_rejects {ch : Fin 130} {v : Nat} {s : State}
    (h : ¬ (v < 64 ∧ (v + 64 - (chan s ch).tail) % 64 ≤ ((chan s ch).head + 64 - (chan s ch).tail) % 64)) :
    moveTail ch v s = setChan ch { chan s ch with evqReject := true } s :=
  if_neg h

/-- A value within the written events becomes TAIL; EVQ_REJECT and the events from there to HEAD stay. -/
theorem moveTail_accepts {ch : Fin 130} {v : Nat} {s : State} (hv : v < 64) (hh : (chan s ch).head < 64)
    (h : (v + 64 - (chan s ch).tail) % 64 ≤ ((chan s ch).head + 64 - (chan s ch).tail) % 64) :
    (chan (moveTail ch v s) ch).tail = v ∧ (chan (moveTail ch v s) ch).evqReject = (chan s ch).evqReject
      ∧ ∀ k, k < ((chan s ch).head + 64 - v) % 64 →
        tget ((v + k) % 64) (chan (moveTail ch v s) ch).evq = tget ((v + k) % 64) (chan s ch).evq := by
  have hf := flushHeld_keeps_unread ch (chan s ch).held.length (s := setChan ch { chan s ch with tail := v } s)
  simp only [chan_setChan_self] at hf
  simpa [moveTail, hv, h] using hf hv hh

theorem evqTail_reaches {t : Nat} {ch : Fin 130} {v : BitVec 32} {s₀ s : State} (hs : s = s₀.at t)
    (hr : reaches s (chanRequester ch) = true) : exec (.evqTail t ch v) s₀ = .next (moveTail ch v.toNat s) := by
  subst hs
  show Host.Outcome.next (evqTail t ch v s₀) = _
  unfold evqTail
  dsimp only
  rw [if_pos hr]

/-- Settles O53: an accepted TAIL frees slots into which held events move, and those are never slots of unread events. -/
theorem eventTailMovesOnlyOverWrittenEvents : Obligations.EventTailMovesOnlyOverWrittenEvents := by
  unfold Obligations.EventTailMovesOnlyOverWrittenEvents
  intro t ch v s₀ s hs hr
  rw [evqTail_reaches hs hr]
  refine ⟨fun ⟨hv, hle⟩ hh => ⟨_, rfl, moveTail_accepts hv hh hle⟩, fun h => ?_⟩
  rw [moveTail_rejects h]

end Sys2Proof.Machine
end

section
/-! SUPPORT. The device warm reset: what its log, its crash dump and its links leave of Root, and what Root holds after it (02 R61). -/

namespace Sys2Proof.Machine

/-! The log and the crash dump. -/

@[simp] theorem logReset_now_root (island scope cause bough count : Nat) (s : State) :
    (logReset island scope cause bough count s).now = s.now ∧ (logReset island scope cause bough count s).root = s.root := by
  simp [logReset]

@[simp] theorem journalReset_now_root (scope cause bough : Nat) (n : Option Nat) (s : State) :
    (journalReset scope cause bough n s).now = s.now ∧ (journalReset scope cause bough n s).root = s.root := by
  cases n <;> simp [journalReset]

@[simp] theorem rawCopy_now_root (src dst n : Nat) (s : State) :
    (rawCopy src dst n s).now = s.now ∧ (rawCopy src dst n s).root = s.root := by
  simp [rawCopy]

@[simp] theorem dumpJournal_now_root (dst : Nat) (s : State) :
    (dumpJournal dst s).now = s.now ∧ (dumpJournal dst s).root = s.root := by
  simp only [dumpJournal]
  split <;> simp

theorem dumpJournal_now_root_from {dst : Nat} {s s₀ : State} (h : s₀.now = s.now ∧ s₀.root = s.root) :
    (dumpJournal dst s₀).now = s.now ∧ (dumpJournal dst s₀).root = s.root := by
  simpa using h

@[simp] theorem crashDump_now_root (s : State) : (crashDump s).now = s.now ∧ (crashDump s).root = s.root := by
  simp only [crashDump]
  split
  · exact ⟨rfl, rfl⟩
  · refine dumpJournal_now_root_from (foldl_now_root_from (foldl_now_root_from ?_ fun s u => ?_) fun s u => ?_)
    · exact ⟨rfl, rfl⟩
    · exact ⟨rfl, rfl⟩
    · exact ⟨rfl, rfl⟩

/-! Root. -/

/-- Every channel that Root keeps over a reset of the islands is a fresh one, but for its floor (02 R61). -/
theorem kept_chan (r : Root) (ch : Fin 130) : ∃ f, vget r.kept.chans ch = { Chan.reset with floor := f } := by
  by_cases h1 : ch = 1
  · subst h1
    exact ⟨_, vget_vset_self _ _ _⟩
  · by_cases h0 : ch = 0
    · subst h0
      exact ⟨_, (vget_vset_of_ne _ _ h1).trans (vget_vset_self _ _ _)⟩
    · refine ⟨0, (vget_vset_of_ne _ _ h1).trans ((vget_vset_of_ne _ _ h0).trans ?_)⟩
      simp [vget, Root.reset, Chan.reset]

/-- Root where the islands have lost their state and one boot more is counted: what is kept of a Root with the boots before it. -/
theorem islandsLost_boots {n : Nat} (f : Cmb → Cmb) (g : Pwr → Pwr) (s : State) (h : s.root.bootCount = n) :
    ∃ r : Root, r.bootCount = n ∧ (modPwr g (modCmb f { islandsLost true s with root := { (islandsLost true s).root with
      bootCount := ((islandsLost true s).root.bootCount + 1) % 2 ^ 32 } })).root
        = { r.kept with bootCount := (r.bootCount + 1) % 2 ^ 32 } :=
  ⟨s.root, h, rfl⟩

/-- Root after a device warm reset: none of the steps before the islands lose their state counts a boot. -/
theorem deviceWarmReset_root {t cause : Nat} {s : State} (h : s.cmb.devicePending = some cause) :
    ∃ r : Root, r.bootCount = s.root.bootCount
      ∧ (deviceWarmReset t s).root = { r.kept with bootCount := (r.bootCount + 1) % 2 ^ 32 } := by
  unfold deviceWarmReset
  dsimp only
  split
  · rename_i hnone
    exact nomatch hnone.symm.trans h
  · refine islandsLost_boots _ _ _ ?_
    refine (foldl_keeps (fun s : State => s.root.bootCount) (fun s u => ?_) _ _).trans
      ((foldl_keeps (fun s : State => s.root.bootCount) (fun s p => ?_) _ _).trans ?_)
    · simp
    · split <;> simp
    · simp

/-! The commands. -/

theorem exec_deviceWarmReset (t : Nat) (s : State) : exec (.deviceWarmReset t) s = .next (deviceWarmReset t s) := rfl

theorem exec_resetDelayExpire (t : Nat) (s : State) : exec (.resetDelayExpire t) s = .next (resetDelayExpire t s) := rfl

theorem exec_resetDevice (t : Nat) (ch : Fin 130) (s : State) : exec (.resetDevice t ch) s = .next (resetDevice t ch s) := rfl

/-- RESET_DEVICE is answered, and the reset is set for its delay or for the earlier one that waits (02 R61). -/
theorem resetDevice_runs {t ms : Nat} {ch : Fin 130} {r : Request} {s₀ s s₁ : State} (h : Ready 0x0902 t ch r s₀ s)
    (hargs : parseArgs [4] r.args = some [ms]) (hms : ms ≤ 1000) (hs₁ : s₁ = respond ch r stOk 0 [] s) :
    resetDevice t ch s₀ = { s₁ with root := { s₁.root with
      resetAt := some (min (s₁.now + ms * 1000000) (s₁.root.resetAt.getD (s₁.now + ms * 1000000))) } } := by
  rw [resetDevice, onCmd_runs h hargs (decide_eq_true hms)]
  simp only [List.headD_cons, answer, hs₁]

@[simp] theorem noteReset_devicePending (scope cause bough : Nat) (s : State) :
    (noteReset scope cause bough s).cmb.devicePending = s.cmb.devicePending := by
  unfold noteReset
  dsimp only
  split <;> rfl

/-- A reset at device scope that a command causes begins as one: no escalation replaces its cause. -/
theorem startDevice_command {s : State} (h : s.cmb.devicePending = none) : (startDevice 0 s).cmb.devicePending = some 0 := by
  simp [startDevice, h]

/-- A reset whose instant has come begins. -/
theorem resetDelayExpire_due {t x : Nat} {s₀ s : State} (hs : s = s₀.at t) (hx : s.root.resetAt = some x) (hle : x ≤ s.now) :
    resetDelayExpire t s₀ = startDevice 0 s := by
  subst hs
  unfold resetDelayExpire
  dsimp only
  rw [hx]
  exact if_pos hle

/-- Settles O55: Root keeps of its channels only their floors, and none of the reset's own steps (its log entry, its crash dump, the links
that it takes down) counts a boot. -/
theorem deviceResetClearsTheChannels : Obligations.DeviceResetClearsTheChannels := by
  unfold Obligations.DeviceResetClearsTheChannels
  intro t s₀ s hs
  refine ⟨fun ch r ms s₁ hr hargs hms hs₁ => ?_, fun x hx hle hp => ?_, fun cause hc => ?_⟩
  · rw [exec_resetDevice, resetDevice_runs hr hargs hms hs₁]
  · refine ⟨_, exec_resetDelayExpire t s₀, ?_⟩
    rw [resetDelayExpire_due hs hx hle]
    exact startDevice_command hp
  · subst hs
    obtain ⟨r, hboot, hroot⟩ := deviceWarmReset_root (t := t) (s := s₀) hc
    refine ⟨_, exec_deviceWarmReset t s₀, fun ch => ?_, ?_⟩
    · obtain ⟨f, hf⟩ := kept_chan r ch
      have hchan : chan (deviceWarmReset t s₀) ch = { Chan.reset with floor := f } := by
        rw [chan, hroot]
        exact hf
      rw [hchan]
      exact ⟨rfl, rfl, rfl, rfl, rfl, rfl⟩
    · rw [hroot, State.at_root, ← hboot]

end Sys2Proof.Machine
end

section
/-! SUPPORT. A doorbell write: what it leaves of its queue in each case of 08 R243, and the wake that follows a TAIL that moved
(14 Table 14-8). -/

namespace Sys2Proof.Machine

@[simp] theorem queue_journal (ty island : Nat) (body : Bytes) (s : State) (n q : Nat) :
    queue (journal ty island body s) n q = queue s n q := by
  simp only [queue, journal_crn]

@[simp] theorem queue_modQueue_self (n q : Nat) (f : Queue → Queue) (s : State) :
    queue (modQueue n q f s) n q = (queue s n q).map f :=
  tget_tmod_self (qKey n q) f s.crn.queues

/-! The doorbell itself. -/

theorem doorbell_absent {n : Fin 128} {q : Fin 16} {s : State} (hq : queue s n q = none) (v : BitVec 32) :
    doorbell n q v s = s := by
  simp only [doorbell, hq]

theorem doorbell_same_tail {n : Fin 128} {q : Fin 16} {s : State} {x : Queue} (hq : queue s n q = some x) :
    doorbell n q x.tail s = s := by
  simp only [doorbell, hq, if_true]

theorem doorbell_accepts {n : Fin 128} {q : Fin 16} {v : BitVec 32} {s : State} {x : Queue} (hq : queue s n q = some x)
    (hne : v ≠ x.tail) (hin : 0 < numDist x.tail v ∧ numDist x.head v ≤ x.entries) :
    doorbell n q v s = journal 0x03 34 (leBytes 1 n ++ leBytes 1 q ++ leBytes 2 0 ++ leBytes 4 v.toNat ++ zeros 8)
      (modQueue n q (fun x => { x with tail := v }) s) := by
  simp only [doorbell, hq, if_neg hne, if_pos hin]

theorem doorbell_rejects {n : Fin 128} {q : Fin 16} {v : BitVec 32} {s : State} {x : Queue} (hq : queue s n q = some x)
    (hne : v ≠ x.tail) (hout : ¬ (0 < numDist x.tail v ∧ numDist x.head v ≤ x.entries)) :
    doorbell n q v s = modQueue n q (fun x => { x with dbReject := true }) s := by
  simp only [doorbell, hq, if_neg hne, if_neg hout]

/-! The wake after it. -/

/-- A doorbell that leaves TAIL where it was wakes nothing. -/
theorem ringDoorbell_tail_kept {n : Fin 128} {q : Fin 16} {v : BitVec 32} {s s₁ : State} (hd : doorbell n q v s = s₁)
    (hkept : (queue s₁ n q).map (·.tail) = (queue s n q).map (·.tail)) : ringDoorbell n q v s = s₁ := by
  simp only [ringDoorbell, hd, if_pos hkept]

/-- One that moves TAIL wakes the device, but for a queue of a class that does not run in Crown while the device is in QUIET. -/
theorem ringDoorbell_tail_moved {n : Fin 128} {q : Fin 16} {v : BitVec 32} {s s₁ : State} (hd : doorbell n q v s = s₁)
    (hmoved : (queue s₁ n q).map (·.tail) ≠ (queue s n q).map (·.tail)) :
    ringDoorbell n q v s = if s₁.pwr.st = .quiet ∧ crownClass q = false then s₁ else wakeDevice 1 s₁ := by
  simp only [ringDoorbell, hd, if_neg hmoved]

/-- The command of a requester that reaches the queue's doorbell. -/
theorem exec_doorbell_reaches {t : Nat} {r : Requester} {n : Fin 128} {q : Fin 16} {s₀ s : State} (hs : s = s₀.at t)
    (hr : reaches s r = true) (hm : mayRing r n = true) (v : BitVec 32) :
    exec (.doorbell t r n q v) s₀ = .next (ringDoorbell n q v s) := by
  subst hs
  show Host.Outcome.next (doorbellWrite t r n q v s₀) = _
  simp only [doorbellWrite, hr, hm, Bool.and_true, if_true]

/-- Settles O25: the accepted write alone moves TAIL, so it alone can wake the device, and its journal record changes neither the queue
nor the power state that the wake asks for. -/
theorem doorbellFollowsTheRule : Obligations.DoorbellFollowsTheRule := by
  unfold Obligations.DoorbellFollowsTheRule
  intro t r n q v s₀ s hs hr hm
  rw [exec_doorbell_reaches hs hr hm]
  refine ⟨fun x s₁ hq hpos hle hne hs₁ => ?_, fun x hq hv => ?_, fun x hq hne hout => ?_, fun hq => ?_⟩
  · have hd : doorbell n q v s = s₁ := (doorbell_accepts hq hne ⟨hpos, hle⟩).trans hs₁.symm
    have htail : (queue s₁ n q).map (·.tail) = some v := by simp [hs₁, hq]
    have hpwr : s₁.pwr = s.pwr := by simp [hs₁]
    have hmoved : (queue s₁ n q).map (·.tail) ≠ (queue s n q).map (·.tail) := by simpa [htail, hq] using hne
    exact ⟨htail, by rw [ringDoorbell_tail_moved hd hmoved, hpwr]⟩
  · subst hv
    rw [ringDoorbell_tail_kept (doorbell_same_tail hq) rfl]
  · rw [ringDoorbell_tail_kept (doorbell_rejects hq hne hout) (by simp [hq])]
  · rw [ringDoorbell_tail_kept (doorbell_absent hq v) rfl]

end Sys2Proof.Machine
end

section
/-! SUPPORT. The trunk's registry of members: what a GRV_JOIN and a GRV_BEAT do to the sender's entry (11 R326). -/

namespace Sys2Proof.Machine

/-- The entry that the trunk writes of a member: JOINED, with the serial and the route generation that the member reports. -/
theorem enterMember_entry (c serial rg : Nat) (bundles : Option (List (Nat × Nat))) (s : State) :
    ∃ e : RegEntry, tget c (enterMember c serial rg bundles s).grv.reg = some e ∧ e.st = .joined ∧ e.serial = serial
      ∧ e.routeGen = rg :=
  ⟨_, tget_tset_self c _ s.grv.reg, rfl, rfl, rfl⟩

@[simp] theorem enterMember_txn (c serial rg : Nat) (bundles : Option (List (Nat × Nat))) (s : State) :
    (enterMember c serial rg bundles s).txn = s.txn := rfl

section
variable {t : Nat} {m : InMsg} {s₀ s s' : State} {e : RegEntry}

/-- A join under a serial other than the one that holds the entry. -/
theorem grvJoin_duplicate (hs : s = s₀.at t) (h : CtrlArrives 0x81 0 12 s m s') (ht : isTrunk s' = true)
    (he : tget (ctrlSrc m) s'.grv.reg = some e) (hst : e.st = .joined ∨ e.st = .silent)
    (hne : e.serial ≠ u64At (ctrlFields m) 0) :
    grvJoin t s₀ = sendRouted 0x82 (ctrlSrc m) 0 (leBytes 2 stBadArg ++ zeros 2 ++ leBytes 4 s'.txn.routeGen) s' := by
  rw [grvJoin, onCtrl_arrives hs h]
  simp [ht, he, hst, hne]

/-- A join of an entry that is free, or held under the same serial. -/
theorem grvJoin_enters (hs : s = s₀.at t) (h : CtrlArrives 0x81 0 12 s m s') (ht : isTrunk s' = true)
    (hown : ∀ e : RegEntry, tget (ctrlSrc m) s'.grv.reg = some e → e.st = .joined ∨ e.st = .silent →
      e.serial = u64At (ctrlFields m) 0) :
    grvJoin t s₀ = sendRouted 0x82 (ctrlSrc m) 0 (leBytes 2 stOk ++ zeros 2 ++ leBytes 4 s'.txn.routeGen)
      (enterMember (ctrlSrc m) (u64At (ctrlFields m) 0) (u32At (ctrlFields m) 8) none s') := by
  rw [grvJoin, onCtrl_arrives hs h]
  cases he : tget (ctrlSrc m) s'.grv.reg with
  | none => simp [ht, he]
  | some e =>
    by_cases hst : e.st = .joined ∨ e.st = .silent
    · simp [ht, he, hown e he hst]
    · simp [ht, he, hst]

/-- A beat under a serial other than the registered one. -/
theorem grvBeat_foreign (hs : s = s₀.at t) (h : CtrlArrives 0x83 0 28 s m s')
    (he : tget (ctrlSrc m) s'.grv.reg = some e) (hne : e.serial ≠ u64At (ctrlFields m) 0) : grvBeat t s₀ = s' := by
  rw [grvBeat, onCtrl_arrives hs h]
  simp [he, hne]

end

theorem exec_grvJoin (t : Nat) (s : State) : exec (.grvJoin t) s = .next (grvJoin t s) := rfl

theorem exec_grvBeat (t : Nat) (s : State) : exec (.grvBeat t) s = .next (grvBeat t s) := rfl

/-- Settles O57: a join is refused exactly where another serial holds the sender's entry, and otherwise writes the entry before the
acknowledgement goes out; a beat of another serial writes none. -/
theorem trunkRegistersMembers : Obligations.TrunkRegistersMembers := by
  unfold Obligations.TrunkRegistersMembers
  intro t m s₀ s s' hs ht
  refine ⟨fun h => ⟨fun ⟨e, he, hst, hne⟩ => ?_, fun hown => ?_⟩, fun e h he hne => ?_⟩
  · rw [exec_grvJoin, grvJoin_duplicate hs h ht he hst hne]
  · obtain ⟨e, he, hst, hserial, hgen⟩ :=
      enterMember_entry (ctrlSrc m) (u64At (ctrlFields m) 0) (u32At (ctrlFields m) 8) none s'
    exact ⟨e, _, he, hst, hserial, hgen, by rw [exec_grvJoin, grvJoin_enters hs h ht hown]⟩
  · rw [exec_grvBeat, grvBeat_foreign hs h he hne]

end Sys2Proof.Machine
end

section
/-! SUPPORT. The step, the commands' answers and the reset state. -/

namespace Sys2Proof.Machine

/-- Settles O1: `step` reads the queue and nothing else to choose what it does. -/
theorem stepRunsTheFrontCommand : Obligations.StepRunsTheFrontCommand := by
  unfold Obligations.StepRunsTheFrontCommand
  refine ⟨fun s c rest h => ?_, fun s h => ?_⟩
  · unfold step
    rw [h]
  · unfold step
    rw [h]

/-- Settles O2: every row of the dispatch table is an operation of the model whose answer is a next state. -/
theorem everyCommandAnswers : Obligations.EveryCommandAnswers := by
  unfold Obligations.EveryCommandAnswers
  intro c s
  cases c <;> exact ⟨_, rfl⟩

/-- Settles O3: by the reset values of each part, those of a table read at any index. -/
theorem resetLeavesColdPower : Obligations.ResetLeavesColdPower := by
  unfold Obligations.ResetLeavesColdPower
  refine ⟨rfl, rfl, rfl, rfl, rfl, rfl, rfl, rfl, rfl, fun p => ?_, fun b => ?_, fun ch => ?_⟩
  · simp [port, vget, State.reset, Port.reset, Phys.reset, Link.reset]
  · simp [bough, vget, State.reset, Crown.reset]
  · simp [chan, vget, State.reset, Root.reset, Chan.reset]

end Sys2Proof.Machine
end

section
/-! SUPPORT. What keeps the sparse memories of a state canonical: the forms that a change of the state takes. -/

namespace Sys2Proof.Machine

theorem memsOk_bytes {s : State} (h : s.memsOk = true) : Mem.wf 0 s.mm.bytes = true := ((memsOk_iff s).1 h).1

theorem memsOk_scratch {s : State} (h : s.memsOk = true) : Mem.wf 0 s.crn.scratch = true := ((memsOk_iff s).1 h).2.1

theorem memsOk_maps {s : State} (h : s.memsOk = true) : Mem.wf 0 s.obs.maps = true := ((memsOk_iff s).1 h).2.2.1

theorem memsOk_flash {s : State} (h : s.memsOk = true) : Mem.wf 0xFF s.flash = true := ((memsOk_iff s).1 h).2.2.2.1

theorem memsOk_modMm_of_bytes {f : MemState → MemState} {s : State} (h : s.memsOk = true)
    (hf : ∀ m, (f m).bytes = m.bytes) :
    (modMm f s).memsOk = true :=
  memsOk_modMm h ((congrArg (Mem.wf 0) (hf s.mm)).trans (memsOk_bytes h))

theorem memsOk_modObs_of_maps {f : Obs → Obs} {s : State} (h : s.memsOk = true) (hf : ∀ o, (f o).maps = o.maps) :
    (modObs f s).memsOk = true :=
  memsOk_modObs h ((congrArg (Mem.wf 0) (hf s.obs)).trans (memsOk_maps h))

theorem memsOk_modChan_of_req {ch : Fin 130} {f : Chan → Chan} {s : State} (h : s.memsOk = true)
    (hf : ∀ c, (f c).req = c.req) :
    (modChan ch f s).memsOk = true :=
  memsOk_modChan h ((congrArg (Mem.wf 0) (hf (chan s ch))).trans (memsOk_chan h ch))

theorem memsOk_congr {s s' : State} (h : s.memsOk = true) (hb : s'.mm.bytes = s.mm.bytes)
    (hc : s'.crn.scratch = s.crn.scratch)
    (hm : s'.obs.maps = s.obs.maps) (hf : s'.flash = s.flash) (hr : s'.root.chans = s.root.chans) : s'.memsOk =
        true := by
  unfold State.memsOk
  rw [hb, hc, hm, hf, hr]
  exact h

theorem memsOk_of_snd {α : Type} {x : α × State} {a : α} {s : State} (hx : x = (a, s)) (h : x.2.memsOk = true)
    : s.memsOk = true := by
  subst hx
  exact h

theorem foldl_keeps_snd {α β : Type} {f : β × State → α → β × State}
    (hf : ∀ x a, x.2.memsOk = true → (f x a).2.memsOk = true) (l : List α) {x : β × State} (h : x.2.memsOk = true) :
    (l.foldl f x).2.memsOk = true := by
  induction l generalizing x with
  | nil => exact h
  | cons a l ih => exact ih (hf x a h)

theorem foldl_keeps_snd_snd {α β γ : Type} {f : β × γ × State → α → β × γ × State}
    (hf : ∀ x a, x.2.2.memsOk = true → (f x a).2.2.memsOk = true) (l : List α) {x : β × γ × State}
        (h : x.2.2.memsOk = true) :
    (l.foldl f x).2.2.memsOk = true := by
  induction l generalizing x with
  | nil => exact h
  | cons a l ih => exact ih (hf x a h)

theorem Mem.wf_foldl {α : Type} {d : BitVec 8} {f : Mem → α → Mem} (hf : ∀ m a, Mem.wf d m = true → Mem.wf d (f m a) =
    true) (l : List α)
    {m : Mem} (h : Mem.wf d m = true) : Mem.wf d (l.foldl f m) = true := by
  induction l generalizing m with
  | nil => exact h
  | cons a l ih => exact ih (hf m a h)

theorem memsOk_ite {c : Prop} [Decidable c] {a b : State} (ha : a.memsOk = true) (hb : b.memsOk = true) :
    (if c then a else b).memsOk = true := by
  split
  · exact ha
  · exact hb

end Sys2Proof.Machine
end

section
/-! SUPPORT. The sparse memories stay canonical: state. -/

namespace Sys2Proof.Machine

theorem memsOk_State_reset : State.reset.memsOk = true := by
  refine (memsOk_iff _).2 ⟨rfl, rfl, rfl, rfl, fun ch => ?_⟩
  simp [chan, vget, State.reset, Root.reset, Chan.reset]

end Sys2Proof.Machine
end

section
/-! SUPPORT. The sparse memories stay canonical: shared operations. -/

namespace Sys2Proof.Machine

theorem memsOk_drawNat {s : State} (h : s.memsOk = true) : (drawNat s).2.memsOk = true := by
  unfold drawNat
  dsimp only
  exact memsOk_congr h rfl rfl rfl rfl rfl

theorem memsOk_drawBytes (n : Nat) {s : State} (h : s.memsOk = true) : (drawBytes n s).2.memsOk = true := by
  unfold drawBytes
  dsimp only
  exact memsOk_congr h rfl rfl rfl rfl rfl

theorem memsOk_journalPlace (b : Bytes) {s : State} (h : s.memsOk = true) : (journalPlace b s).memsOk = true := by
  unfold journalPlace
  extract_lets _ _ _ s₁ _
  have hs₁ : s₁.memsOk = true := memsOk_rawWrite _ _ h
  exact memsOk_congr hs₁ rfl rfl rfl rfl rfl

end Sys2Proof.Machine
end

section
/-! SUPPORT. The sparse memories stay canonical: lines and byte ranges. -/

namespace Sys2Proof.Machine

theorem memsOk_modRx (p v : Fin 8) (f : VcRx → VcRx) {s : State} (h : s.memsOk = true) :
    (modRx p v f s).memsOk = true :=
  (memsOk_modLink _ _ _).trans h

theorem memsOk_modTx (p v : Fin 8) (f : VcTx → VcTx) {s : State} (h : s.memsOk = true) :
    (modTx p v f s).memsOk = true :=
  (memsOk_modLink _ _ _).trans h

theorem memsOk_afterTake (p v : Fin 8) {s : State} (h : s.memsOk = true) : (afterTake p v s).memsOk = true := by
  unfold afterTake
  extract_lets _ _
  exact memsOk_modRx _ _ _ h

theorem memsOk_spillFlit (p v : Fin 8) (f : LandFlit) {s : State} (h : s.memsOk = true) :
    (spillFlit p v f s).2.memsOk = true := by
  unfold spillFlit
  extract_lets _ _ _ _
  dsimp only
  exact memsOk_modRx _ _ _ (memsOk_rawWrite _ _ h)

theorem memsOk_countRow (row k : Nat) {s : State} (h : s.memsOk = true) : (countRow row k s).memsOk = true := by
  unfold countRow
  extract_lets _ _
  exact memsOk_congr h rfl rfl rfl rfl rfl

theorem memsOk_setRegion (k : Nat) (r : Region) {s : State} (h : s.memsOk = true) :
    (setRegion k r s).memsOk = true := by
  unfold setRegion
  extract_lets _
  exact memsOk_congr h rfl rfl rfl rfl rfl

theorem memsOk_markRegion (id lines upTo : Nat) {s : State} (h : s.memsOk = true) :
    (markRegion id lines upTo s).memsOk = true := by
  unfold markRegion
  extract_lets _
  exact memsOk_congr h rfl rfl rfl rfl rfl

theorem memsOk_takeMarks {s : State} (h : s.memsOk = true) : (takeMarks s).2.memsOk = true := by
  unfold takeMarks
  extract_lets _
  dsimp only
  exact memsOk_congr h rfl rfl rfl rfl rfl

end Sys2Proof.Machine
end

section
/-! SUPPORT. The sparse memories stay canonical: queues and records. -/

namespace Sys2Proof.Machine

theorem memsOk_readPieces (who : Nat × Nat) (l : List (Nat × Nat)) {s : State} (h : s.memsOk = true) :
    (readPieces who l s).2.2.memsOk = true := by
  induction l generalizing s with
  | nil =>
    unfold readPieces
    dsimp only
    exact h
  | cons a l ih =>
    unfold readPieces
    extract_lets r rest
    have hr : r.2.2.memsOk = true := memsOk_readScratch _ _ _ h
    have hrest : rest.2.2.memsOk = true := ih hr
    dsimp only
    exact hrest

theorem memsOk_readLoc (n : Nat) (l : Loc) (len : Nat) {s : State} (h : s.memsOk = true) :
    (readLoc n l len s).2.2.memsOk = true := by
  unfold readLoc
  split
  · exact memsOk_readRange _ _ _ _ ((memsOk_modPartCtr _ _ _).trans h)
  · split
    · extract_lets r
      have hr : r.2.2.memsOk = true := memsOk_readPieces _ _ h
      dsimp only
      exact hr
    · dsimp only
      exact h

theorem memsOk_writePieces (who : Nat × Nat) (l : List (Nat × Nat)) (k : Bytes) {s : State} (h : s.memsOk = true) :
    (writePieces who l k s).2.memsOk = true := by
  induction l generalizing who k s with
  | nil =>
    unfold writePieces
    dsimp only
    exact h
  | cons a l ih =>
    unfold writePieces
    extract_lets r rest
    have hr : r.2.memsOk = true := memsOk_writeScratch _ _ _ h
    have hrest : rest.2.memsOk = true := ih _ _ hr
    dsimp only
    exact hrest

theorem memsOk_writeLoc (n : Nat) (l : Loc) (d : Bytes) {s : State} (h : s.memsOk = true) :
    (writeLoc n l d s).2.memsOk = true := by
  unfold writeLoc
  split
  · exact memsOk_writeRange _ _ _ _ _ ((memsOk_modPartCtr _ _ _).trans h)
  · split
    · exact memsOk_writePieces _ _ _ h
    · dsimp only
      exact h

theorem memsOk_poisonLoc (n : Nat) (l : Loc) (len : Nat) {s : State} (h : s.memsOk = true) :
    (poisonLoc n l len s).memsOk = true := by
  unfold poisonLoc
  split
  · exact memsOk_poisonRange _ _ _ _ h
  · exact memsOk_foldl (fun _ _ hs => memsOk_poisonScratch _ _ _ hs) _ h

theorem memsOk_poisonUnwritten (n : Nat) (l : Loc) (len : Nat) (wrote : List (Bool × Nat)) {s : State}
    (h : s.memsOk = true) :
    (poisonUnwritten n l len wrote s).memsOk = true :=
  memsOk_foldl (fun _ _ hs => memsOk_ite hs (memsOk_poisonLoc _ _ _ hs)) _ h

theorem memsOk_poisonRest (n : Nat) (l : Loc) (len : Nat) (done : List (Nat × Nat)) {s : State} (h : s.memsOk = true) :
    (poisonRest n l len done s).memsOk = true := by
  unfold poisonRest
  extract_lets _
  exact memsOk_foldl (fun _ _ hs => memsOk_ite hs (memsOk_poisonLoc _ _ _ hs)) _ h

theorem memsOk_takeRecord (n q : Nat) (x : Queue) (b : Bytes) {s : State} (h : s.memsOk = true) :
    (takeRecord n q x b s).memsOk = true := by
  unfold takeRecord
  extract_lets _ s₁
  have hs₁ : s₁.memsOk = true := (memsOk_modQueue _ _ _ _).trans h
  exact (memsOk_traceRec _ _ _ _ _).trans hs₁

theorem memsOk_nopBody (n q num : Nat) (b : Bytes) {s : State} (h : s.memsOk = true) :
    (nopBody n q num b s).memsOk = true :=
  memsOk_checkedRecord (fun _ _ _ _ _ hs => (memsOk_endRecord _ _ _ _ _ _).trans hs) _ _ _ _ h

theorem memsOk_divideTotal (total : Nat) (l : List Nat) {s : State} (h : s.memsOk = true) :
    (divideTotal total l s).2.memsOk = true := by
  induction l generalizing total s with
  | nil => exact h
  | cons b bs ih =>
    cases bs with
    | nil => exact h
    | cons b' bs => exact ih _ (memsOk_drawNat h)

theorem memsOk_bumpCounter (b : Nat) (j : Fin 16) (d : Nat) {s : State} (h : s.memsOk = true) :
    (bumpCounter b j d s).memsOk = true :=
  (memsOk_modBoughCtr _ _ _).trans h

theorem memsOk_growCounters (b : Nat) {s : State} (h : s.memsOk = true) : (growCounters b s).memsOk = true := by
  unfold growCounters
  extract_lets _ s₁
  have hs₁ : s₁.memsOk = true := (memsOk_modBoughCtr _ _ _).trans h
  refine memsOk_foldl (fun s' a hs => ?_) _ hs₁
  extract_lets _ d
  have hd : d.2.memsOk = true := memsOk_drawNat hs
  exact memsOk_ite (memsOk_bumpCounter _ _ _ hd) hs

theorem memsOk_growAtEnd (b : Nat) (mine : Bool) (share : Nat → Option Nat) {s : State} (h : s.memsOk = true) :
    (growAtEnd b mine share s).memsOk = true := by
  unfold growAtEnd
  refine memsOk_foldl (fun s' a hs => ?_) _ h
  extract_lets _ _ d
  have hd : d.2.memsOk = true := memsOk_drawNat hs
  refine memsOk_ite hs ?_
  split
  · exact memsOk_bumpCounter _ _ _ hs
  · exact memsOk_bumpCounter _ _ _ hd

theorem memsOk_eventShares (n : Nat) (r : Running) {s : State} (h : s.memsOk = true) :
    (eventShares n r s).2.memsOk = true := by
  unfold eventShares
  refine foldl_keeps_snd (fun a e ha => ?_) _ h
  dsimp only
  split
  · exact memsOk_divideTotal _ _ ha
  · exact ha

theorem memsOk_followNext (n b : Nat) {s : State} (h : s.memsOk = true) : (followNext n b s).memsOk = true := by
  unfold followNext
  split
  · exact (memsOk_modBoughCtr _ _ _).trans h
  · exact (memsOk_modBoughCtr _ _ _).trans h

theorem memsOk_boughRecordEnd (n q num : Nat) (r : Running) {s : State} (h : s.memsOk = true) :
    (boughRecordEnd n q num r s).memsOk = true := by
  unfold boughRecordEnd
  extract_lets sh _ _
  have hsh : sh.2.memsOk = true := memsOk_eventShares _ _ h
  refine memsOk_foldl (fun s' a hs => ?_) _ hsh
  extract_lets _ s₁ s₂
  have hs₁ : s₁.memsOk = true := memsOk_growAtEnd _ _ _ hs
  have hs₂ : s₂.memsOk = true := (memsOk_modBoughCtr _ _ _).trans hs₁
  exact memsOk_ite (memsOk_followNext _ _ ((memsOk_modBoughCtr _ _ _).trans hs₂)) hs₂

theorem memsOk_countBoughNs (n : Nat) {s : State} (h : s.memsOk = true) : (countBoughNs n s).memsOk = true := by
  unfold countBoughNs
  extract_lets _
  exact (memsOk_modPartCtr _ _ _).trans h

theorem memsOk_remoteDone (n q : Nat) (r : Running) (word : Nat) {s : State} (h : s.memsOk = true) :
    (remoteDone n q r word s).memsOk = true := by
  unfold remoteDone
  extract_lets _ _ _ _ _ f _
  have hf : f.2.memsOk = true := memsOk_drawNat h
  exact memsOk_ite h (memsOk_journal _ _ _ (memsOk_ite hf h))

theorem memsOk_queueIrq (n : Nat) (x : Queue) {s : State} (h : s.memsOk = true) : (queueIrq n x s).memsOk = true :=
  memsOk_ite h ((memsOk_emit _ _).trans h)

theorem memsOk_checkpoint (n q : Nat) (force : Bool) {s : State} (h : s.memsOk = true) :
    (checkpoint n q force s).memsOk = true := by
  unfold checkpoint
  extract_lets _ s₁
  have hs₁ : s₁.memsOk = true := (memsOk_modQueue _ _ _ _).trans h
  split
  · exact h
  · exact memsOk_ite (memsOk_journal _ _ _ hs₁) h

theorem memsOk_completeRecord (n q : Nat) (r : Running) (word : Nat) {s : State} (h : s.memsOk = true) :
    (completeRecord n q r word s).memsOk = true := by
  unfold completeRecord
  extract_lets s₁
  have hs₁ : s₁.memsOk = true := memsOk_countBoughNs _ h
  split
  · exact h
  · extract_lets _ _ s₂ s₃ s₄ s₅ s₆ s₇
    have hs₂ : s₂.memsOk = true := memsOk_ite ((memsOk_emit _ _).trans hs₁)
        (memsOk_takeMarks (memsOk_writeRange _ _ _ _ _ hs₁))
    have hs₃ : s₃.memsOk = true := (memsOk_modQueue _ _ _ _).trans hs₂
    have hs₄ : s₄.memsOk = true := memsOk_ite (memsOk_queueIrq _ _ hs₃) hs₃
    have hs₅ : s₅.memsOk = true := (memsOk_traceRec _ _ _ _ _).trans hs₄
    have hs₆ : s₆.memsOk = true := (memsOk_modPartCtr _ _ _).trans hs₅
    have hs₇ : s₇.memsOk = true := memsOk_ite (memsOk_boughRecordEnd _ _ _ _ hs₆) hs₆
    exact memsOk_checkpoint _ _ _ (memsOk_remoteDone _ _ _ _ hs₇)

theorem memsOk_recordSkip (t : Nat) (n : Fin 128) (q : Fin 16) (host : Bytes) {s : State} (h : s.memsOk = true) :
    (recordSkip t n q host s).memsOk = true := by
  unfold recordSkip
  extract_lets s₁
  have hs₁ : s₁.memsOk = true := (memsOk_at _ _).trans h
  split
  · exact hs₁
  · extract_lets f s₂ _
    have hf : f.2.2.memsOk = true := memsOk_fetchRec _ _ _ hs₁
    have hs₂ : s₂.memsOk = true := memsOk_takeRecord _ _ _ _ hf
    refine memsOk_ite hs₁ ?_
    split
    · exact memsOk_ite (memsOk_completeRecord _ _ _ _ hs₂) hs₁
    · exact hs₁

theorem memsOk_doorbell (n : Fin 128) (q : Fin 16) (v : BitVec 32) {s : State} (h : s.memsOk = true) :
    (doorbell n q v s).memsOk = true := by
  unfold doorbell
  extract_lets s₁
  have hs₁ : s₁.memsOk = true := (memsOk_modQueue _ _ _ _).trans h
  split
  · exact h
  · exact memsOk_ite h (memsOk_ite (memsOk_journal _ _ _ hs₁) ((memsOk_modQueue _ _ _ _).trans h))

end Sys2Proof.Machine
end

section
/-! SUPPORT. The sparse memories stay canonical: transactions. -/

namespace Sys2Proof.Machine

theorem memsOk_sendTo {chip sel vc prt : Nat} {tag : Option Nat} {b : Bytes} {s s' : State}
    (hs : sendTo chip sel vc prt tag b s = some s')
    (h : s.memsOk = true) : s'.memsOk = true := by
  unfold sendTo at hs
  split at hs
  · cases hs
    exact (memsOk_modTxn _ _).trans h
  · obtain ⟨p, -, rfl⟩ := Option.map_eq_some_iff.1 hs
    exact (memsOk_queueMsg _ _ _ _ _ _ _).trans h

theorem memsOk_dropHeld {s : State} (h : s.memsOk = true) : (dropHeld s).memsOk = true :=
  (memsOk_modTxn _ _).trans h

theorem memsOk_sendResponse (hd : TxnHdr) (vc : Nat) (data : Bytes) {s : State} (h : s.memsOk = true) :
    (sendResponse hd vc data s).memsOk = true := by
  unfold sendResponse
  split
  · exact memsOk_sendTo ‹_› h
  · exact memsOk_dropHeld h

theorem memsOk_countSynth (status : Nat) {s : State} (h : s.memsOk = true) : (countSynth status s).memsOk = true := by
  unfold countSynth
  extract_lets i
  clear_value i
  split
  · exact (memsOk_modTxn _ _).trans h
  · exact h

theorem memsOk_forwardCompletion (hd : TxnHdr) (status : Nat) {s : State} (h : s.memsOk = true) :
    (forwardCompletion hd status s).memsOk = true := by
  unfold forwardCompletion
  extract_lets s₁
  have hs₁ : s₁.memsOk = true := memsOk_countSynth _ h
  exact memsOk_sendResponse _ _ _ hs₁

theorem memsOk_endRemote (n q num word : Nat) (result : Bytes) {s : State} (h : s.memsOk = true) :
    (endRemote n q num word result s).memsOk = true :=
  (memsOk_modRunning _ _ _ _ _).trans ((memsOk_noteMirrors _ _ _ _).trans h)

theorem memsOk_poisonPull (n : Nat) (b : Bytes) (r : Running) (word : Nat) {s : State} (h : s.memsOk = true) :
    (poisonPull n b r word s).memsOk = true :=
  memsOk_ite (memsOk_poisonRest _ _ _ _ h) h

theorem memsOk_finishBulk (n q num : Nat) {s : State} (h : s.memsOk = true) : (finishBulk n q num s).memsOk = true := by
  unfold finishBulk
  split
  · extract_lets _
    refine memsOk_ite h ?_
    split
    · exact memsOk_endRemote _ _ _ _ _ (memsOk_poisonPull _ _ _ _ h)
    · refine memsOk_ite h ?_
      split
      · exact (memsOk_endRecord _ _ _ _ _ _).trans h
      · exact memsOk_endRemote _ _ _ _ _ h
  · exact h

theorem memsOk_cancelChunks (n q num : Nat) {s : State} (h : s.memsOk = true) :
    (cancelChunks n q num s).memsOk = true := by
  unfold cancelChunks
  extract_lets _ _
  exact (memsOk_modRunning _ _ _ _ _).trans ((memsOk_modTxn _ _).trans h)

theorem memsOk_chunkDone (n q num k word : Nat) (data : Bytes) {s : State} (h : s.memsOk = true) :
    (chunkDone n q num k word data s).memsOk = true := by
  unfold chunkDone
  extract_lets s₁ s₂
  have hs₁ : s₁.memsOk = true := (memsOk_modRunning _ _ _ _ _).trans h
  have hs₂ : s₂.memsOk = true := (memsOk_modRunning _ _ _ _ _).trans hs₁
  split
  · extract_lets _ _ w s₃
    have hw : w.2.memsOk = true := by
      unfold w
      split
      · exact memsOk_writeLoc _ _ _ hs₂
      · dsimp only
        exact hs₂
    have hs₃ : s₃.memsOk = true := memsOk_ite hw ((memsOk_modRunning _ _ _ _ _).trans hw)
    exact memsOk_ite (memsOk_finishBulk _ _ _ ((memsOk_noteMirrors _ _ _ _).trans hs₃))
        (memsOk_finishBulk _ _ _ (memsOk_cancelChunks _ _ _ ((memsOk_modRunning _ _ _ _ _).trans hs₁)))
  · exact h

theorem memsOk_remoteOpDone (n q num word : Nat) (data : Bytes) {s : State} (h : s.memsOk = true) :
    (remoteOpDone n q num word data s).memsOk = true := by
  unfold remoteOpDone
  extract_lets s₁
  have hs₁ : s₁.memsOk = true := (memsOk_modRunning _ _ _ _ _).trans h
  split
  · extract_lets _ _ _ w
    have hw : w.2.memsOk = true := memsOk_writeLoc _ _ _ hs₁
    exact memsOk_ite (memsOk_endRemote _ _ _ _ _ (memsOk_poisonLoc _ _ _ h))
        (memsOk_ite (memsOk_ite (memsOk_endRemote _ _ _ _ _ hw) ((memsOk_endRecord _ _ _ _ _ _).trans hw))
        (memsOk_endRemote _ _ _ _ _ h))
  · exact h

theorem memsOk_tailDone (n q num k word : Nat) (data : Bytes) {s : State} (h : s.memsOk = true) :
    (tailDone n q num k word data s).memsOk = true :=
  (memsOk_modRunning _ _ _ _ _).trans h

theorem memsOk_raIssued (o : RaOwner) {s : State} (h : s.memsOk = true) : (raIssued o s).memsOk = true := by
  unfold raIssued
  split
  · extract_lets _ _ s₁
    have hs₁ : s₁.memsOk = true := (memsOk_modRunning _ _ _ _ _).trans h
    split
    · exact memsOk_ite (memsOk_ite ((memsOk_endRecord _ _ _ _ _ _).trans hs₁) hs₁) h
    · exact h
  · exact h

theorem memsOk_settle (t : Txn) (word : Nat) (data : Bytes) {s : State} (h : s.memsOk = true) :
    (settle t word data s).memsOk = true := by
  unfold settle
  split
  · exact memsOk_remoteOpDone _ _ _ _ _ h
  · exact memsOk_chunkDone _ _ _ _ _ _ h
  · exact memsOk_tailDone _ _ _ _ _ _ h
  · extract_lets _
    exact memsOk_ite (memsOk_ite ((memsOk_modTxn _ _).trans h) h) h

theorem memsOk_atIssue (t : Txn) (status : Nat) {s : State} (h : s.memsOk = true) :
    (atIssue t status s).memsOk = true :=
  memsOk_settle _ _ _ (memsOk_countSynth _ h)

theorem memsOk_launch (t : Txn) (tag : Nat) (p : Option (Fin 8)) {s : State} (h : s.memsOk = true) :
    (launch t tag p s).memsOk = true := by
  unfold launch
  extract_lets _ _ s₁ _ s₂ s₃
  have hs₁ : s₁.memsOk = true := (memsOk_modTxn _ _).trans h
  have hs₂ : s₂.memsOk = true := (memsOk_modPartCtr _ _ _).trans hs₁
  have hs₃ : s₃.memsOk = true := by
    unfold s₃
    split
    · exact (memsOk_queueMsg _ _ _ _ _ _ _).trans hs₂
    · exact (memsOk_modTxn _ _).trans hs₁
  split
  · exact memsOk_raIssued _ hs₃
  · exact hs₃

theorem memsOk_tryIssue {t : Txn} {s s' : State} (hs : tryIssue t s = some s') (h : s.memsOk = true) : s'.memsOk =
    true := by
  unfold tryIssue at hs
  extract_lets t₁ fail at hs
  have hfail : ∀ {st : Nat} {s s' : State}, fail st s = some s' → s.memsOk = true → s'.memsOk = true := by
    intro st s s' hs h
    cases hs
    refine memsOk_atIssue _ _ ?_
    split
    · exact memsOk_raIssued _ h
    · exact h
  have hlaunch : ∀ {o : Option Nat} {f : Nat → Txn} {p : Option (Fin 8)}, o.map (fun g => launch (f g) g p s) = some s'
      → s'.memsOk = true := by
    intro o f p ho
    obtain ⟨g, -, rfl⟩ := Option.map_eq_some_iff.1 ho
    exact memsOk_launch _ _ _ h
  clear_value fail
  dsimp only at hs
  split at hs
  · exact hfail hs h
  split at hs
  · exact hfail hs h
  split at hs
  · exact hfail hs h
  split at hs
  · exact hfail hs h
  split at hs
  · exact hfail hs h
  split at hs
  · exact hfail hs h
  split at hs
  · cases hs
    exact memsOk_settle _ _ _ ((memsOk_modTxn _ _).trans h)
  split at hs
  · exact hlaunch hs
  split at hs
  · exact hfail hs h
  · cases hs
  split at hs
  · cases hs
    exact memsOk_launch _ _ _ h
  · cases hs

theorem memsOk_issueTxn (t : Txn) {s : State} (h : s.memsOk = true) : (issueTxn t s).memsOk = true := by
  unfold issueTxn
  extract_lets _
  refine memsOk_ite ((memsOk_modTxn _ _).trans h) ?_
  split
  · exact memsOk_tryIssue ‹_› h
  · exact (memsOk_modTxn _ _).trans h

theorem memsOk_pumpWaiting {l k : List Txn} {s s' : State} (hs : pumpWaiting s l k = some s') (h : s.memsOk = true)
    : s'.memsOk = true := by
  induction k generalizing l with
  | nil => cases hs
  | cons t rest ih =>
    unfold pumpWaiting at hs
    dsimp only at hs
    split at hs
    · rename_i s₁ heq
      cases hs
      split at heq
      · cases heq
      · exact memsOk_tryIssue heq ((memsOk_modTxn _ _).trans h)
    · exact ih hs

theorem memsOk_issueChunk (n q num : Nat) (r : Running) {s : State} (h : s.memsOk = true) :
    (issueChunk n q num r s).memsOk = true := by
  unfold issueChunk
  extract_lets _ _ _ _ _ s₁ _ s₂ _ d
  have hs₁ : s₁.memsOk = true := (memsOk_modRunning _ _ _ _ _).trans h
  have hs₂ : s₂.memsOk = true := memsOk_ite (memsOk_issueTxn _ hs₁) hs₁
  have hd : d.2.2.memsOk = true := memsOk_readLoc _ _ _ hs₂
  exact memsOk_ite (memsOk_issueTxn _ hs₂) (memsOk_ite (memsOk_issueTxn _ hd) (memsOk_chunkDone _ _ _ _ _ _ hd))

theorem memsOk_pumpLoop (fuel : Nat) {s : State} (h : s.memsOk = true) : (pumpLoop fuel s).memsOk = true := by
  induction fuel generalizing s with
  | zero => exact h
  | succ fuel ih =>
    unfold pumpLoop
    split
    · exact ih (memsOk_pumpWaiting ‹_› h)
    · split
      · exact ih (memsOk_issueChunk _ _ _ _ h)
      · exact h

theorem memsOk_pump {s : State} (h : s.memsOk = true) : (pump s).memsOk = true :=
  memsOk_pumpLoop _ h

theorem memsOk_retire (tag : Nat) (synth : Bool) {s : State} (h : s.memsOk = true) :
    (retire tag synth s).memsOk = true :=
  (memsOk_modTxn _ _).trans h

theorem memsOk_synthesise (status tag : Nat) {s : State} (h : s.memsOk = true) :
    (synthesise status tag s).memsOk = true := by
  unfold synthesise
  split
  · exact memsOk_settle _ _ _ (memsOk_countSynth _ (memsOk_retire _ _ h))
  · exact h

theorem memsOk_synthesiseAll (status : Nat) (p : Txn → Bool) {s : State} (h : s.memsOk = true) :
    (synthesiseAll status p s).memsOk = true :=
  memsOk_foldl (fun _ _ hs => memsOk_synthesise _ _ hs) _ h

theorem memsOk_staleSlot (k : Nat) {s : State} (h : s.memsOk = true) : (staleSlot k s).memsOk = true := by
  unfold staleSlot
  extract_lets s₁
  have hs₁ : s₁.memsOk = true := (memsOk_modTxn _ _).trans h
  exact memsOk_synthesiseAll _ _ hs₁

theorem memsOk_dropReadAhead (p : RaOwner → Bool) {s : State} (h : s.memsOk = true) :
    (dropReadAhead p s).memsOk = true :=
  (memsOk_modTxn _ _).trans h

theorem memsOk_endTxnsOf (n : Nat) {s : State} (h : s.memsOk = true) : (endTxnsOf n s).memsOk = true :=
  (memsOk_modTxn _ _).trans h

theorem memsOk_endWindowsOf (n : Nat) {s : State} (h : s.memsOk = true) : (endWindowsOf n s).memsOk = true :=
  (memsOk_modTxn _ _).trans h

theorem memsOk_linkDownTxns (p : Fin 8) {s : State} (h : s.memsOk = true) : (linkDownTxns p s).memsOk = true := by
  unfold linkDownTxns
  extract_lets s₁ _ s₂
  have hs₁ : s₁.memsOk = true := memsOk_synthesiseAll _ _ h
  have hs₂ : s₂.memsOk = true := (memsOk_modTxn _ _).trans hs₁
  exact memsOk_foldl (fun _ _ hs => memsOk_forwardCompletion _ _ hs) _ hs₂

theorem memsOk_partnerWedgedTxns (p v : Fin 8) {s : State} (h : s.memsOk = true) :
    (partnerWedgedTxns p v s).memsOk = true :=
  memsOk_synthesiseAll _ _ h

theorem memsOk_ownWedgedTxns (p v : Fin 8) {s : State} (h : s.memsOk = true) : (ownWedgedTxns p v s).memsOk = true :=
  memsOk_synthesiseAll _ _ h

theorem memsOk_acceptResponse (m : InMsg) {s : State} (h : s.memsOk = true) : (acceptResponse m s).memsOk = true := by
  unfold acceptResponse
  extract_lets _ _ _
  split
  · exact (memsOk_modTxn _ _).trans h
  · extract_lets s₁
    have hs₁ : s₁.memsOk = true := memsOk_ite ((memsOk_modPartCtr _ _ _).trans h) h
    exact memsOk_ite ((memsOk_modTxn _ _).trans h)
        (memsOk_ite (memsOk_ite (memsOk_staleSlot _ hs₁) (memsOk_settle _ _ _ (memsOk_retire _ _ hs₁)))
        (memsOk_settle _ _ _ (memsOk_retire _ _ hs₁)))

theorem memsOk_serveAccess (hd : TxnHdr) (data : Bytes) {s : State} (h : s.memsOk = true) :
    (serveAccess hd data s).2.2.memsOk = true := by
  unfold serveAccess
  extract_lets _ _ _ w r
  have hw : w.2.memsOk = true := memsOk_writeRange _ _ _ _ _ h
  have hr : r.2.2.memsOk = true := memsOk_readRange _ _ _ _ h
  split
  · dsimp only
    exact hw
  · split
    · dsimp only
      exact hr
    · split
      · split
        · extract_lets w₁
          have hw₁ : w₁.2.memsOk = true := memsOk_writeRange _ _ _ _ _ hr
          dsimp only
          exact hw₁
        · dsimp only
          exact hr
      · dsimp only
        exact hr

theorem memsOk_answerRequest (hd : TxnHdr) (status : Nat) (data : Bytes) (marks : List MirrorMark) {s : State}
    (h : s.memsOk = true) :
    (answerRequest hd status data marks s).memsOk = true := by
  unfold answerRequest
  extract_lets _
  exact memsOk_ite (memsOk_sendResponse _ _ _ h) ((memsOk_modTxn _ _).trans h)

theorem memsOk_serveRequest (m : InMsg) {s : State} (h : s.memsOk = true) : (serveRequest m s).memsOk = true := by
  unfold serveRequest
  extract_lets _ _ _ _ r m₁
  have hr : r.2.2.memsOk = true := memsOk_serveAccess _ _ h
  have hm₁ : m₁.2.memsOk = true := memsOk_takeMarks ((memsOk_modTxn _ _).trans hr)
  exact memsOk_ite (memsOk_dropHeld h) (memsOk_ite ((memsOk_modTxn _ _).trans h)
      (memsOk_ite (memsOk_answerRequest _ _ _ _ h) (memsOk_ite ((memsOk_modTxn _ _).trans h)
      (memsOk_answerRequest _ _ _ _ hm₁))))

theorem memsOk_releaseHeld {s : State} (h : s.memsOk = true) : (releaseHeld s).memsOk = true := by
  unfold releaseHeld
  extract_lets _ s₁
  have hs₁ : s₁.memsOk = true := (memsOk_modTxn _ _).trans h
  refine memsOk_foldl (fun s' a hs => ?_) _ hs₁
  extract_lets _ _
  exact memsOk_sendResponse _ _ _ hs

theorem memsOk_remoteRequest (t : Nat) {s : State} (h : s.memsOk = true) : (remoteRequest t s).memsOk = true := by
  unfold remoteRequest
  extract_lets s₁
  have hs₁ : s₁.memsOk = true := (memsOk_at _ _).trans h
  refine memsOk_ite hs₁ ?_
  split
  · exact memsOk_ite (memsOk_dropHeld (memsOk_takeMsg ‹_› hs₁))
        (memsOk_awaitLag hs₁ (memsOk_pump (memsOk_serveRequest _ (memsOk_takeMsg ‹_› hs₁))))
  · exact hs₁

theorem memsOk_denialReady (t : Nat) {s : State} (h : s.memsOk = true) : (denialReady t s).memsOk = true := by
  unfold denialReady
  extract_lets s₁
  have hs₁ : s₁.memsOk = true := (memsOk_at _ _).trans h
  split
  · extract_lets _ s₂
    have hs₂ : s₂.memsOk = true := memsOk_sendResponse _ _ _
        ((memsOk_modTxn _ _).trans (memsOk_congr hs₁ rfl rfl rfl rfl rfl))
    exact memsOk_congr hs₂ rfl rfl rfl rfl rfl
  · exact hs₁

theorem memsOk_remoteResponse (t : Nat) {s : State} (h : s.memsOk = true) : (remoteResponse t s).memsOk = true := by
  unfold remoteResponse
  extract_lets s₁
  have hs₁ : s₁.memsOk = true := (memsOk_at _ _).trans h
  refine memsOk_ite hs₁ ?_
  split
  · exact memsOk_ite (memsOk_dropHeld (memsOk_takeMsg ‹_› hs₁))
        (memsOk_awaitLag hs₁ (memsOk_pump (memsOk_acceptResponse _ (memsOk_takeMsg ‹_› hs₁))))
  · exact hs₁

theorem memsOk_remoteTimeout (t tag : Nat) {s : State} (h : s.memsOk = true) :
    (remoteTimeout t tag s).memsOk = true := by
  unfold remoteTimeout
  extract_lets s₁
  have hs₁ : s₁.memsOk = true := (memsOk_at _ _).trans h
  split
  · split
    · exact memsOk_ite (memsOk_pump (memsOk_synthesise _ _ hs₁)) hs₁
    · exact hs₁
  · exact hs₁

theorem memsOk_tagQuarantineExpire (t tag : Nat) {s : State} (h : s.memsOk = true) :
    (tagQuarantineExpire t tag s).memsOk = true := by
  unfold tagQuarantineExpire
  extract_lets s₁
  have hs₁ : s₁.memsOk = true := (memsOk_at _ _).trans h
  split
  · exact memsOk_ite (memsOk_pump ((memsOk_modTxn _ _).trans hs₁)) hs₁
  · exact hs₁

theorem memsOk_readAheadExpire (t : Nat) {s : State} (h : s.memsOk = true) : (readAheadExpire t s).memsOk = true := by
  unfold readAheadExpire
  extract_lets s₁
  have hs₁ : s₁.memsOk = true := (memsOk_at _ _).trans h
  exact (memsOk_modTxn _ _).trans hs₁

theorem memsOk_forgetForwarded (hd : TxnHdr) {s : State} (h : s.memsOk = true) : (forgetForwarded hd s).memsOk = true :=
  (memsOk_modTxn _ _).trans h

theorem memsOk_forwardData (m : InMsg) (dest : Nat) {s : State} (h : s.memsOk = true) :
    (forwardData m dest s).memsOk = true := by
  unfold forwardData
  extract_lets _ _ _ _ _
  refine memsOk_ite (memsOk_ite (memsOk_forwardCompletion _ _ h) h) ?_
  split
  · exact memsOk_ite (memsOk_dropHeld h) (memsOk_ite (memsOk_forwardCompletion _ _ h) h)
  · extract_lets s₁ s₂
    have hs₁ : s₁.memsOk = true := (memsOk_queueMsg _ _ _ _ _ _ _).trans h
    have hs₂ : s₂.memsOk = true := (memsOk_modTxn _ _).trans hs₁
    exact memsOk_ite hs₂ (memsOk_ite (memsOk_forgetForwarded _ hs₂) ((memsOk_modTxn _ _).trans hs₂))

theorem memsOk_forwardGrove (m : InMsg) {s : State} (h : s.memsOk = true) : (forwardGrove m s).memsOk = true := by
  unfold forwardGrove
  refine memsOk_ite ((memsOk_dropGrove _).trans h) ?_
  split
  · exact (memsOk_queueMsg _ _ _ _ _ _ _).trans h
  · exact (memsOk_dropGrove _).trans h

theorem memsOk_messageForward (t : Nat) {s : State} (h : s.memsOk = true) : (messageForward t s).memsOk = true := by
  unfold messageForward
  extract_lets s₁
  have hs₁ : s₁.memsOk = true := (memsOk_at _ _).trans h
  split
  · refine memsOk_ite ((memsOk_dropGrove _).trans (memsOk_takeMsg ‹_› hs₁))
        (memsOk_ite (memsOk_forwardGrove _ (memsOk_takeMsg ‹_› hs₁)) ?_)
    split
    · exact memsOk_forwardData _ _ (memsOk_takeMsg ‹_› hs₁)
    · exact memsOk_takeMsg ‹_› hs₁
  · exact hs₁

end Sys2Proof.Machine
end

section
/-! SUPPORT. The sparse memories stay canonical: MATH records. -/

namespace Sys2Proof.Machine

theorem memsOk_readOpt (n : Nat) (l : Loc) (l' : List (Nat × Nat)) {s : State} (h : s.memsOk = true) :
    (readOpt n l l' s).2.2.memsOk = true := by
  induction l' generalizing s with
  | nil =>
    unfold readOpt
    dsimp only
    exact h
  | cons a l ih =>
    unfold readOpt
    extract_lets r rest
    have hr : r.2.2.memsOk = true := memsOk_readLoc _ _ _ h
    have hrest : rest.2.2.memsOk = true := ih hr
    split
    · dsimp only
      exact hrest
    · dsimp only
      exact hrest

theorem memsOk_readOperand (n : Nat) (l : Loc) (len : Nat) {s : State} (h : s.memsOk = true) :
    (readOperand n l len s).2.2.memsOk = true :=
  memsOk_readOpt _ _ _ h

theorem memsOk_writeOpt (n : Nat) (l : Loc) (failed : Bool) (choice : Nat) (out : OBytes) (l' : List (Nat × Nat))
    {s : State} (h : s.memsOk = true) :
    (writeOpt n l failed choice out l' s).2.memsOk = true := by
  induction l' generalizing s with
  | nil =>
    unfold writeOpt
    dsimp only
    exact h
  | cons a l ih =>
    unfold writeOpt
    extract_lets r rest
    have hr : r.2.memsOk = true := by
      unfold r
      split
      · split
        · exact memsOk_writeLoc _ _ _ h
        · dsimp only
          exact memsOk_poisonLoc _ _ _ h
      · dsimp only
        exact memsOk_poisonLoc _ _ _ h
    have hrest : rest.2.memsOk = true := ih hr
    dsimp only
    exact hrest

theorem memsOk_writeOutput (n : Nat) (l : Loc) (failed : Bool) (choice : Nat) (out : OBytes) {s : State}
    (h : s.memsOk = true) :
    (writeOutput n l failed choice out s).2.memsOk = true :=
  memsOk_writeOpt _ _ _ _ _ _ h

theorem memsOk_endMath (n q num : Nat) (fails : List Nat) (choice wr ok : Nat) (result : Bytes) {s : State}
    (h : s.memsOk = true) :
    (endMath n q num fails choice wr ok result s).memsOk = true := by
  unfold endMath
  extract_lets f _
  have hf : f.2.memsOk = true := memsOk_drawBytes _ h
  exact memsOk_ite (memsOk_ite ((memsOk_endRecord _ _ _ _ _ _).trans h) ((memsOk_modRunning _ _ _ _ _).trans
      ((memsOk_endRecord _ _ _ _ _ _).trans h))) ((memsOk_modRunning _ _ _ _ _).trans
      ((memsOk_endRecord _ _ _ _ _ _).trans hf))

theorem memsOk_matmulOutput (n : Nat) (r : Running) {s : State} (h : s.memsOk = true) :
    (matmulOutput n r s).2.2.memsOk = true := by
  unfold matmulOutput
  extract_lets _ a _ b c _ _ _ _
  have ha : a.2.2.memsOk = true := memsOk_readOperand _ _ _ h
  have hb : b.2.2.memsOk = true := memsOk_readOperand _ _ _ ha
  have hc : c.2.2.memsOk = true := by
    unfold c
    split
    · exact memsOk_readOperand _ _ _ hb
    · dsimp only
      exact hb
  dsimp only
  exact hc

theorem memsOk_matmulFinish (n q num : Nat) {s : State} (h : s.memsOk = true) :
    (matmulFinish n q num s).memsOk = true := by
  unfold matmulFinish
  split
  · extract_lets _ o f _ w
    have ho : o.2.2.memsOk = true := memsOk_matmulOutput _ _ h
    have hf : f.2.memsOk = true := memsOk_drawNat ho
    have hw : w.2.memsOk = true := memsOk_writeOutput _ _ _ _ _ hf
    exact memsOk_endMath _ _ _ _ _ _ _ _ hw
  · exact h

theorem memsOk_readTailAhead (n k : Nat) {s : State} (h : s.memsOk = true) : (readTailAhead n k s).memsOk = true := by
  unfold readTailAhead
  split
  · refine memsOk_foldl (fun s' a hs => ?_) _ h
    extract_lets _
    exact memsOk_issueTxn _ hs
  · exact h

theorem memsOk_matmulTail (n q num : Nat) (x : Matmul) {s : State} (h : s.memsOk = true) :
    (matmulTail n q num x s).memsOk = true := by
  unfold matmulTail
  extract_lets _ s₁ s₂
  have hs₁ : s₁.memsOk = true := (memsOk_modRunning _ _ _ _ _).trans h
  have hs₂ : s₂.memsOk = true := memsOk_foldl (fun _ _ hs => memsOk_issueTxn _ hs) _ hs₁
  exact memsOk_pump (memsOk_readTailAhead _ _ hs₂)

theorem memsOk_gatherRows (n : Nat) (x : Vec) (nums : List (Option Nat)) {s : State} (h : s.memsOk = true) :
    (gatherRows n x nums s).2.2.2.memsOk = true := by
  induction nums generalizing s with
  | nil => exact h
  | cons i ns ih =>
    cases i with
    | none => exact ih h
    | some i =>
      unfold gatherRows
      dsimp only
      split
      · exact h
      · split
        · exact h
        · exact ih (memsOk_readOperand _ _ _ h)

theorem memsOk_vecWork (n q num : Nat) (b : Bytes) {s : State} (h : s.memsOk = true) :
    (vecWork n q num b s).memsOk = true := by
  unfold vecWork
  extract_lets _ f s2 _ g _ _ w s1 _ _ w₁
  have hf : f.2.memsOk = true := memsOk_drawNat h
  have hs2 : s2.2.2.memsOk = true := memsOk_readOperand _ _ _ hf
  have hg : g.2.2.2.memsOk = true := memsOk_gatherRows _ _ _ hs2
  have hw : w.2.memsOk = true := memsOk_writeOutput _ _ _ _ _ hg
  have hs1 : s1.2.2.memsOk = true := memsOk_readOperand _ _ _ hs2
  have hw₁ : w₁.2.memsOk = true := memsOk_writeOutput _ _ _ _ _ hs1
  exact memsOk_ite (memsOk_endMath _ _ _ _ _ _ _ _ hw) (memsOk_endMath _ _ _ _ _ _ _ _ hw₁)

theorem memsOk_vecBody (n q num : Nat) (b : Bytes) {s : State} (h : s.memsOk = true) :
    (vecBody n q num b s).memsOk = true :=
  memsOk_checkedRecord (fun _ _ _ _ _ hs => memsOk_vecWork _ _ _ _ hs) _ _ _ _ h

theorem memsOk_convertWork (n q num : Nat) (b : Bytes) {s : State} (h : s.memsOk = true) :
    (convertWork n q num b s).memsOk = true := by
  unfold convertWork
  extract_lets _ f src _ _ w _ w2
  have hf : f.2.memsOk = true := memsOk_drawNat h
  have hsrc : src.2.2.memsOk = true := memsOk_readOperand _ _ _ hf
  have hw : w.2.memsOk = true := memsOk_writeOutput _ _ _ _ _ hsrc
  have hw2 : w2.2.memsOk = true := by
    unfold w2
    split
    · exact memsOk_writeOutput _ _ _ _ _ hw
    · dsimp only
      exact hw
  exact memsOk_endMath _ _ _ _ _ _ _ _ hw2

theorem memsOk_convertBody (n q num : Nat) (b : Bytes) {s : State} (h : s.memsOk = true) :
    (convertBody n q num b s).memsOk = true :=
  memsOk_checkedRecord (fun _ _ _ _ _ hs => memsOk_convertWork _ _ _ _ hs) _ _ _ _ h

theorem memsOk_attendRead (n : Nat) (x : Attend) (l : List Nat) {s : State} (h : s.memsOk = true) :
    (attendRead n x l s).2.2.2.2.memsOk = true := by
  induction l generalizing s with
  | nil =>
    unfold attendRead
    dsimp only
    exact h
  | cons a l ih =>
    unfold attendRead
    extract_lets e r row
    have he : e.2.2.memsOk = true := memsOk_readOperand _ _ _ h
    have hr : r.2.2.2.2.memsOk = true := ih he
    have hrow : row.2.2.memsOk = true := memsOk_readOperand _ _ _ he
    split
    · dsimp only
      exact hr
    · extract_lets _ _ _
      split
      · extract_lets k v r₁
        have hk : k.2.2.memsOk = true := memsOk_readOperand _ _ _ hrow
        have hv : v.2.2.memsOk = true := memsOk_readOperand _ _ _ hk
        have hr₁ : r₁.2.2.2.2.memsOk = true := ih hv
        split
        · dsimp only
          exact he
        · split
          · dsimp only
            exact hr
          · split
            · dsimp only
              exact he
            · dsimp only
              exact hr₁
      · dsimp only
        exact he

theorem memsOk_attendPart (n : Nat) (l : Loc) (len : Nat) (d : Option Bytes) {s : State} (h : s.memsOk = true) :
    (attendPart n l len d s).2.memsOk = true := by
  unfold attendPart
  split
  · exact memsOk_writeLoc _ _ _ h
  · dsimp only
    exact memsOk_poisonLoc _ _ _ h

theorem memsOk_attendWrite (n : Nat) (x : Attend) (failed : Bool) (choice : Nat) (q : AttSeq) {s : State}
    (h : s.memsOk = true) :
    (attendWrite n x failed choice q s).2.memsOk = true := by
  unfold attendWrite
  extract_lets _ _ _ a b c w o
  have ha : a.2.memsOk = true := memsOk_attendPart _ _ _ _ h
  have hb : b.2.memsOk = true := memsOk_attendPart _ _ _ _ ha
  have hc : c.2.memsOk = true := by
    unfold c
    split
    · exact memsOk_writeLoc _ _ _ hb
    · dsimp only
      exact hb
  have hw : w.2.memsOk = true := by
    unfold w
    split
    · dsimp only
      exact hc
    · dsimp only
      exact h
  have ho : o.2.memsOk = true := memsOk_writeOutput _ _ _ _ _ hw
  dsimp only
  exact ho

theorem memsOk_attendWork (n q num : Nat) (b : Bytes) {s : State} (h : s.memsOk = true) :
    (attendWork n q num b s).memsOk = true := by
  unfold attendWork
  extract_lets x f r fails s₁ w ok
  have hr : r.2.2.2.2.memsOk = true := memsOk_attendRead _ _ _ (memsOk_drawNat h)
  have hs₁ : s₁.memsOk = true := (memsOk_modRunning _ _ _ _ _).trans hr
  have hw : w.2.memsOk = true := by
    refine foldl_keeps_snd (x := (stOk, s₁)) ?_ _ hs₁
    intro a sq ha
    exact memsOk_attendWrite _ _ _ _ _ ha
  exact memsOk_endMath _ _ _ _ _ _ _ _ hw

theorem memsOk_attendBody (n q num : Nat) (b : Bytes) {s : State} (h : s.memsOk = true) :
    (attendBody n q num b s).memsOk = true :=
  memsOk_checkedRecord (fun _ _ _ _ _ hs => memsOk_attendWork _ _ _ _ hs) _ _ _ _ h

end Sys2Proof.Machine
end

section
/-! SUPPORT. The sparse memories stay canonical: token engine. -/

namespace Sys2Proof.Machine

theorem memsOk_readTable (g : Image) (off len : Nat) {s : State} (h : s.memsOk = true) :
    (readTable g off len s).2.2.memsOk = true :=
  memsOk_readRange _ _ _ _ ((memsOk_modPartCtr _ _ _).trans h)

theorem memsOk_readHdr (g : Image) {s : State} (h : s.memsOk = true) : (readHdr g s).2.2.memsOk = true := by
  unfold readHdr
  extract_lets r
  have hr : r.2.2.memsOk = true := memsOk_readTable _ _ _ h
  dsimp only
  exact hr

theorem memsOk_readHdrs (g v : Image) {s : State} (h : s.memsOk = true) : (readHdrs g v s).2.2.2.memsOk = true := by
  unfold readHdrs
  extract_lets a b
  have ha : a.2.2.memsOk = true := memsOk_readHdr _ h
  have hb : b.2.2.memsOk = true := memsOk_readHdr _ ha
  dsimp only
  exact hb

theorem memsOk_readPiece (v : Image) (t : Nat) {s : State} (h : s.memsOk = true) :
    (readPiece v t s).2.2.2.memsOk = true := by
  unfold readPiece
  extract_lets e _ b
  have he : e.2.2.memsOk = true := memsOk_readTable _ _ _ h
  have hb : b.2.2.memsOk = true := memsOk_readTable _ _ _ he
  split
  · dsimp only
    exact he
  · split
    · dsimp only
      exact hb
    · dsimp only
      exact he

theorem memsOk_confEntry (g : Image) (c : AutoConf) {s : State} (h : s.memsOk = true) :
    (confEntry g c s).2.2.2.memsOk = true := by
  unfold confEntry
  extract_lets r _ _ t _ _ _
  have hr : r.2.2.memsOk = true := memsOk_readTable _ _ _ h
  have ht : t.2.2.memsOk = true := memsOk_readTable _ _ _ hr
  split
  · dsimp only
    exact hr
  · split
    · dsimp only
      exact hr
    · split
      · dsimp only
        exact ht
      · dsimp only
        exact ht

theorem memsOk_readRows (g : Image) (n : Nat) (l : List Nat) {s : State} (h : s.memsOk = true) :
    (readRows g n l s).2.2.memsOk = true := by
  induction l generalizing s with
  | nil =>
    unfold readRows
    dsimp only
    exact h
  | cons a l ih =>
    unfold readRows
    extract_lets d rest
    have hd : d.2.2.memsOk = true := memsOk_readTable _ _ _ h
    have hrest : rest.2.2.memsOk = true := ih hd
    split
    · dsimp only
      exact hd
    · dsimp only
      exact hrest

theorem memsOk_confMask (g v : Image) (c : AutoConf) {s : State} (h : s.memsOk = true) :
    (confMask g v c s).2.2.memsOk = true := by
  unfold confMask
  extract_lets t _ _ _ e _
  have ht : t.2.2.2.memsOk = true := memsOk_readHdrs _ _ h
  have he : e.2.2.2.memsOk = true := memsOk_confEntry _ _ ht
  split
  · dsimp only
    exact ht
  · split
    · dsimp only
      exact he
    · split
      · dsimp only
        exact he
      · extract_lets r _ _
        have hr : r.2.2.memsOk = true := memsOk_readRows _ _ _ he
        dsimp only
        exact hr

theorem memsOk_dropBuilt (id : Nat) {s : State} (h : s.memsOk = true) : (dropBuilt id s).memsOk = true := by
  unfold dropBuilt
  extract_lets _
  exact (memsOk_modStrm _ _ _).trans ((memsOk_modTke _ _).trans h)

theorem memsOk_stopStream (id reason index : Nat) {s : State} (h : s.memsOk = true) :
    (stopStream id reason index s).memsOk = true :=
  (memsOk_modStrm _ _ _).trans (memsOk_dropBuilt _ h)

theorem memsOk_pendStop (id reason : Nat) {s : State} (h : s.memsOk = true) : (pendStop id reason s).memsOk = true :=
  (memsOk_modStrm _ _ _).trans (memsOk_dropBuilt _ h)

theorem memsOk_reachConf (id : Nat) {s : State} (h : s.memsOk = true) : (reachConf id s).memsOk = true := by
  unfold reachConf
  split
  · extract_lets s₁
    have hs₁ : s₁.memsOk = true := (memsOk_modTke _ _).trans h
    split
    · exact (memsOk_modStrm _ _ _).trans hs₁
    · exact (memsOk_modStrm _ _ _).trans (memsOk_dropBuilt _ h)
  · exact h

theorem memsOk_readTrans (g : Image) (e : AutoEntry) {s : State} (h : s.memsOk = true) :
    (readTrans g e s).2.2.memsOk = true := by
  unfold readTrans
  extract_lets _ r
  have hr : r.2.2.memsOk = true := memsOk_readTable _ _ _ h
  dsimp only
  exact hr

theorem memsOk_advanceConf (g v : Image) (c : AutoConf) (t : Nat) {s : State} (h : s.memsOk = true) :
    (advanceConf g v c t s).2.memsOk = true := by
  unfold advanceConf
  extract_lets h₁ _ _ _ e
  have hh₁ : h₁.2.2.2.memsOk = true := memsOk_readHdrs _ _ h
  have he : e.2.2.2.memsOk = true := memsOk_confEntry _ _ hh₁
  split
  · dsimp only
    exact hh₁
  · split
    · dsimp only
      exact he
    · split
      · dsimp only
        exact he
      · split
        · dsimp only
          exact he
        · extract_lets r ts
          have hr : r.2.2.memsOk = true := memsOk_readRows _ _ _ he
          have hts : ts.2.2.memsOk = true := memsOk_readTrans _ _ hr
          split
          · dsimp only
            exact hr
          · split
            · dsimp only
              exact hr
            · split
              · dsimp only
                exact hts
              · split
                · dsimp only
                  exact hts
                · split
                  · dsimp only
                    exact hts
                  · dsimp only
                    exact hts

theorem memsOk_sampledAdvance (id t : Nat) {s : State} (h : s.memsOk = true) :
    (sampledAdvance id t s).memsOk = true := by
  unfold sampledAdvance
  split
  · exact h
  · split
    · exact h
    · extract_lets a s₁
      have ha : a.2.memsOk = true := memsOk_advanceConf _ _ _ _ h
      have hs₁ : s₁.memsOk = true := (memsOk_modStrm _ _ _).trans ha
      split
      · exact memsOk_stopStream _ _ _ hs₁
      · exact memsOk_pendStop _ _ hs₁
      · exact memsOk_reachConf _ ((memsOk_modStrm _ _ _).trans hs₁)

theorem memsOk_forcedAdvance (id t : Nat) {s : State} (h : s.memsOk = true) :
    (forcedAdvance id t s).2.memsOk = true := by
  unfold forcedAdvance
  split
  · dsimp only
    exact h
  · split
    · dsimp only
      exact h
    · extract_lets a
      have ha : a.2.memsOk = true := memsOk_advanceConf _ _ _ _ h
      split
      · dsimp only
        exact ha
      · dsimp only
        exact memsOk_stopStream _ _ _ ha
      · dsimp only
        exact memsOk_reachConf _ ((memsOk_modStrm _ _ _).trans ha)

theorem memsOk_resolveToken (id t : Nat) {s : State} (h : s.memsOk = true) : (resolveToken id t s).2.memsOk = true := by
  unfold resolveToken
  split
  · dsimp only
    exact h
  · split
    · exact memsOk_forcedAdvance _ _ h
    · extract_lets s₁ s₂
      have hs₁ : s₁.memsOk = true := (memsOk_modStrm _ _ _).trans h
      have hs₂ : s₂.memsOk = true := (memsOk_modStrm _ _ _).trans h
      split
      · split
        · dsimp only
          exact memsOk_stopStream _ _ _ hs₁
        · dsimp only
          exact hs₁
      · split
        · exact memsOk_forcedAdvance _ _ (memsOk_reachConf _ (memsOk_dropBuilt _ hs₂))
        · dsimp only
          exact memsOk_stopStream _ _ _ h

theorem memsOk_buildMask (id : Nat) {s : State} (h : s.memsOk = true) : (buildMask id s).memsOk = true := by
  unfold buildMask
  split
  · exact h
  · split
    · exact h
    · extract_lets m _ s₁
      have hm : m.2.2.memsOk = true := memsOk_confMask _ _ _ h
      have hs₁ : s₁.memsOk = true := (memsOk_modTke _ _).trans hm
      exact memsOk_ite ((memsOk_modStrm _ _ _).trans hs₁) (memsOk_stopStream _ _ _ hs₁)

theorem memsOk_successors (g : Image) (c : AutoConf) {s : State} (h : s.memsOk = true) :
    (successors g c s).2.memsOk = true := by
  unfold successors
  extract_lets h₁ _ e
  have hh₁ : h₁.2.2.memsOk = true := memsOk_readHdr _ h
  have he : e.2.2.2.memsOk = true := by
    unfold e
    split
    · exact memsOk_confEntry _ _ hh₁
    · dsimp only
      exact hh₁
  split
  · dsimp only
    exact he
  · extract_lets ts _ _
    have hts : ts.2.2.memsOk = true := memsOk_readTrans _ _ he
    dsimp only
    exact hts

theorem memsOk_runaheadBuild (t id : Nat) {s : State} (h : s.memsOk = true) : (runaheadBuild t id s).memsOk = true := by
  unfold runaheadBuild
  extract_lets s₁
  have hs₁ : s₁.memsOk = true := (memsOk_at _ _).trans h
  split
  · exact hs₁
  · refine memsOk_ite hs₁ ?_
    split
    · exact hs₁
    · extract_lets cs
      have hcs : cs.2.memsOk = true := memsOk_successors _ _ hs₁
      refine memsOk_foldl (fun s' a hs => memsOk_ite hs ?_) _ hcs
      extract_lets m
      have hm : m.2.2.memsOk = true := memsOk_confMask _ _ _ hs
      exact memsOk_ite ((memsOk_modStrm _ _ _).trans ((memsOk_modTke _ _).trans hm)) hm

theorem memsOk_sampleOne (x : Sample) (id : Nat) (logits : List Nat) {s : State} (h : s.memsOk = true) :
    (sampleOne x id logits s).2.2.memsOk = true := by
  unfold sampleOne
  extract_lets _
  split
  · dsimp only
    exact h
  · extract_lets _ order _ s₁
    have hs₁ : s₁.memsOk = true := memsOk_ite h ((memsOk_modStrm _ _ _).trans h)
    split
    · dsimp only
      exact memsOk_ite h (memsOk_stopStream _ _ _ h)
    · clear_value order
      split
      · dsimp only
        exact h
      · extract_lets _
        dsimp only
        exact memsOk_ite (memsOk_sampledAdvance _ _ hs₁) hs₁

theorem memsOk_sampleEnd (n q num : Nat) {s : State} (h : s.memsOk = true) : (sampleEnd n q num s).memsOk = true := by
  unfold sampleEnd
  split
  · exact (memsOk_endRecord _ _ _ _ _ _).trans h
  · exact h

theorem memsOk_sampleFail (n q num i status : Nat) {s : State} (h : s.memsOk = true) :
    (sampleFail n q num i status s).memsOk = true := by
  unfold sampleFail
  split
  · extract_lets _ _ _ _ s₁ f
    have hs₁ : s₁.memsOk = true := memsOk_ite (memsOk_poisonLoc _ _ _ h) h
    have hf : f.2.memsOk = true := memsOk_drawBytes _ hs₁
    exact (memsOk_endRecord _ _ _ _ _ _).trans hf
  · exact h

theorem memsOk_sampleLoop (n q num : Nat) (x : Sample) (ids : List Nat) (limit : Option Nat) (l k : Nat) {s : State}
    (h : s.memsOk = true) :
    (sampleLoop n q num x ids limit l k s).memsOk = true := by
  induction l generalizing n q num x ids limit k s with
  | zero => exact h
  | succ n ih =>
    unfold sampleLoop
    extract_lets _ r l _ r₁ w s₁
    have hr : r.2.2.memsOk = true := memsOk_readOperand _ _ _ h
    have hl : l.2.2.memsOk = true := memsOk_readOperand _ _ _ h
    have hr₁ : r₁.2.2.memsOk = true := memsOk_sampleOne _ _ _ hl
    have hw : w.2.memsOk = true := memsOk_writeLoc _ _ _ hr₁
    have hs₁ : s₁.memsOk = true := (memsOk_modRunning _ _ _ _ _).trans ((memsOk_noteMirrors _ _ _ _).trans hw)
    exact memsOk_ite (memsOk_sampleFail _ _ _ _ _ hr) (memsOk_ite (memsOk_sampleEnd _ _ _ h)
        (memsOk_ite ((memsOk_modRunning _ _ _ _ _).trans h) (ih _ _ _ _ _ _ _ hs₁)))

theorem memsOk_sampleRun (n q num : Nat) {s : State} (h : s.memsOk = true) : (sampleRun n q num s).memsOk = true := by
  unfold sampleRun
  extract_lets f
  have hf : f.2.memsOk = true := memsOk_drawNat h
  split
  · extract_lets _ bad
    refine memsOk_ite h ?_
    clear_value bad
    split
    · exact memsOk_sampleLoop _ _ _ _ _ _ _ _ hf
    · exact memsOk_sampleLoop _ _ _ _ _ _ _ _ h
  · exact h

theorem memsOk_sampleAll {s : State} (h : s.memsOk = true) : (sampleAll s).memsOk = true :=
  memsOk_foldl (fun _ _ hs => memsOk_foldl (fun _ _ hs => memsOk_ite (memsOk_sampleRun _ _ _ hs) hs) _ hs) _ h

theorem memsOk_sampleWork (n q num : Nat) (b : Bytes) {s : State} (h : s.memsOk = true) :
    (sampleWork n q num b s).memsOk = true := by
  unfold sampleWork
  extract_lets _ r
  have hr : r.2.2.memsOk = true := memsOk_readOperand _ _ _ h
  split
  · exact memsOk_sampleFail _ _ _ _ _ hr
  · extract_lets _
    exact memsOk_ite (memsOk_sampleRun _ _ _ ((memsOk_modRunning _ _ _ _ _).trans hr))
        ((memsOk_endRecord _ _ _ _ _ _).trans hr)

theorem memsOk_sampleBody (n q num : Nat) (b : Bytes) {s : State} (h : s.memsOk = true) :
    (sampleBody n q num b s).memsOk = true :=
  memsOk_checkedRecord (fun _ _ _ _ _ hs => memsOk_sampleWork _ _ _ _ hs) _ _ _ _ h

theorem memsOk_maskReady (t id : Nat) {s : State} (h : s.memsOk = true) : (maskReady t id s).memsOk = true := by
  unfold maskReady
  extract_lets s₁
  have hs₁ : s₁.memsOk = true := (memsOk_at _ _).trans h
  exact memsOk_ite (memsOk_sampleAll (memsOk_buildMask _ hs₁)) hs₁

theorem memsOk_searchPiece (v : Image) (key : Bytes) (l k x : Nat) {s : State} (h : s.memsOk = true) :
    (searchPiece v key l k x s).2.2.memsOk = true := by
  induction l generalizing v key k x s with
  | zero =>
    unfold searchPiece
    dsimp only
    exact h
  | succ n ih =>
    unfold searchPiece
    extract_lets _ ix _ p
    have hix : ix.2.2.memsOk = true := memsOk_readTable _ _ _ h
    have hp : p.2.2.2.memsOk = true := memsOk_readPiece _ _ hix
    split
    · dsimp only
      exact h
    · split
      · dsimp only
        exact hix
      · split
        · dsimp only
          exact hp
        · split
          · dsimp only
            exact hp
          · split
            · exact ih _ _ _ _ hp
            · exact ih _ _ _ _ hp

theorem memsOk_lookPiece (id : Nat) (v : Image) (key : Bytes) {s : State} (h : s.memsOk = true) :
    (lookPiece id v key s).2.2.memsOk = true := by
  unfold lookPiece
  extract_lets r d s₁
  have hr : r.2.2.memsOk = true := memsOk_searchPiece _ _ _ _ _ ((memsOk_modTke _ _).trans h)
  have hd : d.2.memsOk = true := memsOk_drawNat hr
  have hs₁ : s₁.memsOk = true := memsOk_ite hr ((memsOk_modTke _ _).trans hd)
  split
  · dsimp only
    exact h
  · split
    · exact hr
    · dsimp only
      exact (memsOk_modTke _ _).trans hs₁

theorem memsOk_pieceEdges (id : Nat) (v : Image) (text : Bytes) (start : Nat) (l : List Nat) {s : State}
    (h : s.memsOk = true) :
    (pieceEdges id v text start l s).2.2.memsOk = true := by
  induction l generalizing s with
  | nil =>
    unfold pieceEdges
    dsimp only
    exact h
  | cons a l ih =>
    unfold pieceEdges
    extract_lets r rest _
    have hr : r.2.2.memsOk = true := memsOk_lookPiece _ _ _ h
    have hrest : rest.2.2.memsOk = true := ih hr
    split
    · dsimp only
      exact hr
    · dsimp only
      exact hrest

theorem memsOk_textEdges (id : Nat) (v : Image) (text : Bytes) (l : List (Nat × Nat)) {s : State} (h : s.memsOk = true)
    :
    (textEdges id v text l s).2.2.memsOk = true := by
  induction l generalizing s with
  | nil =>
    unfold textEdges
    dsimp only
    exact h
  | cons a l ih =>
    unfold textEdges
    extract_lets _ r rest
    have hr : r.2.2.memsOk = true := memsOk_pieceEdges _ _ _ _ _ h
    have hrest : rest.2.2.memsOk = true := ih hr
    split
    · dsimp only
      exact hr
    · dsimp only
      exact hrest

theorem memsOk_tokenFail (n q num status : Nat) (out : Loc) (len : Nat) {s : State} (h : s.memsOk = true) :
    (tokenFail n q num status out len s).memsOk = true := by
  unfold tokenFail
  extract_lets f
  have hf : f.2.memsOk = true := memsOk_drawBytes _ (memsOk_poisonLoc _ _ _ h)
  exact (memsOk_endRecord _ _ _ _ _ _).trans hf

theorem memsOk_prefixReadAhead (n q num : Nat) (v : Image) (toks : List Nat) {s : State} (h : s.memsOk = true) :
    (prefixReadAhead n q num v toks s).memsOk = true := by
  unfold prefixReadAhead
  extract_lets _ _ d s₁
  have hd : d.2.2.memsOk = true := memsOk_readRange _ _ _ _ h
  have hs₁ : s₁.memsOk = true := (memsOk_modTke _ _).trans hd
  refine memsOk_ite h (memsOk_ite hd ?_)
  split
  · exact hd
  · extract_lets _ _ _
    exact memsOk_ite (memsOk_pump (memsOk_foldl (fun _ _ hs => memsOk_issueTxn _ hs) _ hs₁))
        ((memsOk_modTke _ _).trans hs₁)

theorem memsOk_tokenizeWork (n q num : Nat) (b : Bytes) {s : State} (h : s.memsOk = true) :
    (tokenizeWork n q num b s).memsOk = true := by
  unfold tokenizeWork
  extract_lets _ _ t s₁
  have ht : t.2.2.memsOk = true := memsOk_readLoc _ _ _ h
  have hs₁ : s₁.memsOk = true := (memsOk_modTke _ _).trans ht
  split
  · exact (memsOk_endRecord _ _ _ _ _ _).trans h
  · extract_lets h₁ _ es _ _ w _ _ s₂
    have hh₁ : h₁.2.2.memsOk = true := memsOk_readHdr _ hs₁
    have hes : es.2.2.memsOk = true := memsOk_textEdges _ _ _ _ hh₁
    have hw : w.2.memsOk = true := memsOk_writeLoc _ _ _ hes
    have hs₂ : s₂.memsOk = true := (memsOk_endRecord _ _ _ _ _ _).trans hw
    exact memsOk_ite ((memsOk_endRecord _ _ _ _ _ _).trans h) (memsOk_ite (memsOk_tokenFail _ _ _ _ _ _ hs₁)
        (memsOk_ite (memsOk_tokenFail _ _ _ _ _ _ hh₁) (memsOk_ite (memsOk_tokenFail _ _ _ _ _ _ hes)
        (memsOk_prefixReadAhead _ _ _ _ _ hs₂))))

theorem memsOk_tokenizeBody (n q num : Nat) (b : Bytes) {s : State} (h : s.memsOk = true) :
    (tokenizeBody n q num b s).memsOk = true := by
  unfold tokenizeBody
  extract_lets _
  exact memsOk_checkedRecord (fun _ _ _ _ _ hs => memsOk_tokenizeWork _ _ _ _ hs) _ _ _ _ h

theorem memsOk_detok (id : Nat) (tb : Bytes) {s : State} (h : s.memsOk = true) : (detok id tb s).2.memsOk = true := by
  unfold detok
  extract_lets s₁
  have hs₁ : s₁.memsOk = true := (memsOk_modStrm _ _ _).trans h
  split
  · dsimp only
    exact h
  · extract_lets _ _
    split
    · extract_lets _
      dsimp only
      exact memsOk_ite (memsOk_stopStream _ _ _ hs₁) hs₁
    · dsimp only
      exact (memsOk_modStrm _ _ _).trans h

theorem memsOk_stepEntry (id t : Nat) {s : State} (h : s.memsOk = true) : (stepEntry id t s).2.2.memsOk = true := by
  unfold stepEntry
  split
  · dsimp only
    exact h
  · split
    · dsimp only
      exact h
    · split
      · dsimp only
        exact h
      · extract_lets h₁ _ s₁ d d₁ p s₂ d₂ _ a d₃
        have hh₁ : h₁.2.2.memsOk = true := by
          unfold h₁
          split
          · dsimp only
            exact h
          · exact memsOk_readHdr _ h
        have hs₁ : s₁.memsOk = true := hh₁
        have hd : d.2.memsOk = true := memsOk_detok _ _ (memsOk_stopStream _ _ _ hh₁)
        have hd₁ : d₁.2.memsOk = true := memsOk_detok _ _ (memsOk_stopStream _ _ _ hh₁)
        have hp : p.2.2.2.memsOk = true := memsOk_readPiece _ _ hh₁
        have hs₂ : s₂.memsOk = true := hp
        have hd₂ : d₂.2.memsOk = true := memsOk_detok _ _ (memsOk_stopStream _ _ _ hp)
        have ha : a.2.memsOk = true := by
          unfold a
          split
          · exact memsOk_resolveToken _ _ hp
          · split
            · dsimp only
              exact memsOk_stopStream _ _ _ hp
            · dsimp only
              exact hp
        have hd₃ : d₃.2.memsOk = true := memsOk_detok _ _ ha
        split
        · dsimp only
          exact hd
        · split
          · dsimp only
            exact hh₁
          · split
            · dsimp only
              exact hd₁
            · split
              · dsimp only
                exact hp
              · split
                · dsimp only
                  exact hd₂
                · split
                  · dsimp only
                    exact ha
                  · dsimp only
                    exact hd₃

theorem memsOk_stepLoop (n : Nat) (x : StepRec) (l : List (Nat × Nat × Nat)) (k : List (Bool × Nat)) (x' : Nat)
    {s : State} (h : s.memsOk = true) :
    (stepLoop n x l k x' s).2.2.memsOk = true := by
  induction l generalizing n x k x' s with
  | nil =>
    unfold stepLoop
    dsimp only
    exact h
  | cons a l ih =>
    unfold stepLoop
    extract_lets e _ _ s₁ w1 w2 _
    have he : e.2.2.memsOk = true := memsOk_stepEntry _ _ h
    have hs₁ : s₁.memsOk = true := memsOk_poisonUnwritten _ _ _ _ he
    have hw1 : w1.2.memsOk = true := by
      unfold w1
      split
      · dsimp only
        exact he
      · exact memsOk_writeLoc _ _ _ he
    have hw2 : w2.2.memsOk = true := memsOk_writeLoc _ _ _ hw1
    split
    · dsimp only
      exact memsOk_poisonUnwritten _ _ _ _ hs₁
    · exact ih _ _ _ _ hw2

theorem memsOk_stepWork (n q num : Nat) (b : Bytes) {s : State} (h : s.memsOk = true) :
    (stepWork n q num b s).memsOk = true := by
  unfold stepWork
  extract_lets _ r s₁ _ _ s₂ f
  have hr : r.2.2.memsOk = true := memsOk_readLoc _ _ _ h
  have hs₁ : s₁.memsOk = true := memsOk_poisonLoc _ _ _ hr
  have hs₂ : s₂.memsOk = true := (memsOk_modRunning _ _ _ _ _).trans hr
  have hf : f.2.2.memsOk = true := memsOk_stepLoop _ _ _ _ _ hs₂
  exact memsOk_ite ((memsOk_endRecord _ _ _ _ _ _).trans (memsOk_poisonLoc _ _ _ hs₁))
      (memsOk_ite ((memsOk_endRecord _ _ _ _ _ _).trans hr)
      (memsOk_sampleAll ((memsOk_endRecord _ _ _ _ _ _).trans hf)))

theorem memsOk_stepBody (n q num : Nat) (b : Bytes) {s : State} (h : s.memsOk = true) :
    (stepBody n q num b s).memsOk = true := by
  unfold stepBody
  extract_lets _
  exact memsOk_checkedRecord (fun _ _ _ _ _ hs => memsOk_stepWork _ _ _ _ hs) _ _ _ _ h

end Sys2Proof.Machine
end

section
/-! SUPPORT. The sparse memories stay canonical: collectives. -/

namespace Sys2Proof.Machine

theorem memsOk_setParked (f : List InMsg → List InMsg) {s : State} (h : s.memsOk = true) :
    (setParked f s).memsOk = true := by
  unfold setParked
  extract_lets s₁
  have hs₁ : s₁.memsOk = true := (memsOk_modCol _ _).trans h
  exact memsOk_foldl (fun _ _ hs => memsOk_ite hs (memsOk_afterTake _ _ hs)) _ hs₁

theorem memsOk_park (m : InMsg) {s : State} (h : s.memsOk = true) : (park m s).memsOk = true :=
  memsOk_setParked _ h

theorem memsOk_restage {s : State} (h : s.memsOk = true) : (restage s).memsOk = true := by
  unfold restage
  extract_lets _
  exact (memsOk_modCol _ _).trans h

theorem memsOk_makeTiles (k : Nat) {s : State} (h : s.memsOk = true) : (makeTiles k s).memsOk = true := by
  unfold makeTiles
  extract_lets s₁
  have hs₁ : s₁.memsOk = true := memsOk_restage h
  split
  · split
    · extract_lets _ _
      exact memsOk_ite (memsOk_restage ((memsOk_modOp _ _ _).trans hs₁)) h
    · exact h
  · exact h

theorem memsOk_colQueue {slot opseq chip seg prt : Nat} {b : Bytes} {s s' : State}
    (hs : colQueue slot opseq chip seg prt b s = some s')
    (h : s.memsOk = true) : s'.memsOk = true := by
  obtain ⟨p, -, rfl⟩ := Option.map_eq_some_iff.1 hs
  exact (memsOk_queueMsg _ _ _ _ _ _ _).trans h

theorem memsOk_colEndRecord (g : Group) (o : ColOp) (status : Nat) (synth : Bool) (responder : Nat) {s : State}
    (h : s.memsOk = true) :
    (colEndRecord g o status synth responder s).memsOk = true := by
  unfold colEndRecord
  extract_lets s₁
  have hs₁ : s₁.memsOk = true := (memsOk_endRecord _ _ _ _ _ _).trans h
  exact (memsOk_modRunning _ _ _ _ _).trans hs₁

theorem memsOk_colPoison (g : Group) (o : ColOp) {s : State} (h : s.memsOk = true) :
    (colPoison g o s).memsOk = true := by
  unfold colPoison
  extract_lets _
  exact memsOk_ite h (memsOk_poisonRest _ _ _ _ h)

theorem memsOk_colStopSending (tag : Nat) {s : State} (h : s.memsOk = true) : (colStopSending tag s).memsOk = true :=
  memsOk_foldl (fun _ _ hs => (memsOk_modLink _ _ _).trans hs) _ h

theorem memsOk_dropParked (gid opseq : Nat) {s : State} (h : s.memsOk = true) :
    (dropParked gid opseq s).memsOk = true :=
  memsOk_setParked _ h

theorem memsOk_colRelease (k : Nat) (o : ColOp) {s : State} (h : s.memsOk = true) : (colRelease k o s).memsOk = true :=
  memsOk_restage ((memsOk_modSlot _ _ _).trans h)

theorem memsOk_colFailOp (k : Nat) (g : Group) (o : ColOp) (status responder : Nat) {s : State} (h : s.memsOk = true) :
    (colFailOp k g o status responder s).memsOk = true := by
  unfold colFailOp
  extract_lets s₁ s₂ s₃
  have hs₁ : s₁.memsOk = true := memsOk_colStopSending _ h
  have hs₂ : s₂.memsOk = true := memsOk_ite (memsOk_colPoison _ _ hs₁) hs₁
  have hs₃ : s₃.memsOk = true := memsOk_colRelease _ _ hs₂
  exact memsOk_colEndRecord _ _ _ _ _ hs₃

theorem memsOk_breakGroup (k status : Nat) {s : State} (h : s.memsOk = true) :
    (breakGroup k status s).memsOk = true := by
  unfold breakGroup
  extract_lets s₁ s₂
  have hs₁ : s₁.memsOk = true := (memsOk_modSlot _ _ _).trans h
  have hs₂ : s₂.memsOk = true := (memsOk_modCol _ _).trans hs₁
  split
  · exact h
  · extract_lets _ s₃ _ _ _ _ _ s₄
    have hs₃ : s₃.memsOk = true := by
      unfold s₃
      split
      · exact memsOk_colStopSending _ hs₂
      · exact hs₂
    have hs₄ : s₄.memsOk = true := by
      unfold s₄
      refine memsOk_foldl (fun s' a hs => ?_) _ hs₃
      extract_lets _
      split
      · exact (memsOk_queueMsg _ _ _ _ _ _ _).trans hs
      · exact hs
    refine memsOk_ite h ?_
    split
    · exact memsOk_colFailOp _ _ _ _ _ hs₄
    · exact hs₄

theorem memsOk_breakSlotsOf (n status : Nat) {s : State} (h : s.memsOk = true) :
    (breakSlotsOf n status s).memsOk = true :=
  memsOk_foldl (fun _ _ hs => memsOk_breakGroup _ _ hs) _ h

theorem memsOk_breakRunning (p : Group → Bool) (status : Nat) {s : State} (h : s.memsOk = true) :
    (breakRunning p status s).memsOk = true :=
  memsOk_foldl (fun _ _ hs => memsOk_breakGroup _ _ hs) _ h

theorem memsOk_colLinkLost (p : Fin 8) {s : State} (h : s.memsOk = true) : (colLinkLost p s).memsOk = true := by
  unfold colLinkLost
  extract_lets _ _
  exact memsOk_foldl (fun _ _ hs => memsOk_breakGroup _ _ hs) _ h

theorem memsOk_colWedged (p : Fin 8) {s : State} (h : s.memsOk = true) : (colWedged p s).memsOk = true :=
  memsOk_breakRunning _ _ h

theorem memsOk_colSendOne (k : Nat) (x : ColSend) {s : State} (h : s.memsOk = true) :
    (colSendOne k x s).memsOk = true := by
  unfold colSendOne
  split
  · exact h
  · split
    · split
      · exact h
      · dsimp only
        split
        · exact (memsOk_modOp _ _ _).trans (memsOk_colQueue ‹_› h)
        · exact memsOk_breakGroup _ _ h
    · exact h

theorem memsOk_colWriteOne (k : Nat) (x : ColWrite) {s : State} (h : s.memsOk = true) :
    (colWriteOne k x s).memsOk = true := by
  unfold colWriteOne
  split
  · exact h
  · split
    · extract_lets w
      have hw : w.2.memsOk = true := memsOk_writeLoc _ _ _ h
      exact memsOk_ite h ((memsOk_modOp _ _ _).trans ((memsOk_noteMirrors _ _ _ _).trans hw))
    · exact h

theorem memsOk_colCounts (k : Nat) {s : State} (h : s.memsOk = true) : (colCounts k s).memsOk = true := by
  unfold colCounts
  split
  · exact h
  · split
    · exact h
    · split
      · exact h
      · extract_lets w s₁
        have hw : w.2.memsOk = true := memsOk_writeLoc _ _ _ h
        have hs₁ : s₁.memsOk = true := (memsOk_modOp _ _ _).trans ((memsOk_noteMirrors _ _ _ _).trans hw)
        exact memsOk_ite (memsOk_breakGroup _ _ hs₁) hs₁

theorem memsOk_colProgress (k : Nat) {s : State} (h : s.memsOk = true) : (colProgress k s).memsOk = true := by
  unfold colProgress
  extract_lets s₁ s₂
  have hs₁ : s₁.memsOk = true := memsOk_colCounts _ h
  have hs₂ : s₂.memsOk = true := by
    unfold s₂
    split
    · split
      · exact memsOk_foldl (fun _ _ hs => memsOk_colWriteOne _ _ hs) _ hs₁
      · exact hs₁
    · exact hs₁
  split
  · split
    · exact memsOk_foldl (fun _ _ hs => memsOk_colSendOne _ _ hs) _ hs₂
    · exact hs₂
  · exact hs₂

theorem memsOk_colComplete (k : Nat) {s : State} (h : s.memsOk = true) : (colComplete k s).memsOk = true := by
  unfold colComplete
  split
  · exact h
  · split
    · exact h
    · extract_lets s₁
      have hs₁ : s₁.memsOk = true := memsOk_colRelease _ _ h
      exact memsOk_ite h (memsOk_colEndRecord _ _ _ _ _ hs₁)

theorem memsOk_colUnmatched {s : State} (h : s.memsOk = true) : (colUnmatched s).memsOk = true :=
  (memsOk_modCol _ _).trans h

theorem memsOk_colLate {s : State} (h : s.memsOk = true) : (colLate s).memsOk = true :=
  (memsOk_modCol _ _).trans h

theorem memsOk_colTake (k : Nat) (g : Group) (o : ColOp) (m : InMsg) {s : State} (h : s.memsOk = true) :
    (colTake k g o m s).memsOk = true := by
  unfold colTake
  extract_lets _ _ _ _ _ _ s₁ s₂
  have hs₁ : s₁.memsOk = true := (memsOk_modSlot _ _ _).trans h
  have hs₂ : s₂.memsOk = true := (memsOk_modSlot _ _ _).trans hs₁
  exact memsOk_ite (memsOk_breakGroup _ _ h) (memsOk_ite (memsOk_breakGroup _ _ hs₁)
      (memsOk_ite (memsOk_ite (memsOk_breakGroup _ _ hs₁) ((memsOk_modOp _ _ _).trans hs₁))
      (memsOk_ite ((memsOk_modOp _ _ _).trans hs₂) (memsOk_breakGroup _ _ hs₁))))

theorem memsOk_takeParked (k l : Nat) {s : State} (h : s.memsOk = true) : (takeParked k l s).memsOk = true := by
  induction l generalizing s with
  | zero => exact h
  | succ n ih =>
    unfold takeParked
    split
    · split
      · extract_lets _
        split
        · exact ih (memsOk_colTake _ _ _ _ (memsOk_setParked _ h))
        · exact h
      · exact h
    · exact h

theorem memsOk_colAdvance (k l : Nat) {s : State} (h : s.memsOk = true) : (colAdvance k l s).memsOk = true := by
  induction l generalizing s with
  | zero => exact h
  | succ n ih =>
    unfold colAdvance
    extract_lets s₁
    have hs₁ : s₁.memsOk = true := memsOk_colProgress _ (memsOk_makeTiles _ (memsOk_takeParked _ _ h))
    exact memsOk_ite (ih hs₁) (memsOk_restage hs₁)

theorem memsOk_colGo (k : Nat) {s : State} (h : s.memsOk = true) : (colGo k s).memsOk = true := by
  unfold colGo
  extract_lets _
  exact memsOk_colAdvance _ _ h

theorem memsOk_parkFor (k opseq : Nat) (m : InMsg) {s : State} (h : s.memsOk = true) :
    (parkFor k opseq m s).memsOk = true :=
  memsOk_park _ ((memsOk_modSlot _ _ _).trans h)

theorem memsOk_colReceive (m : InMsg) {s : State} (h : s.memsOk = true) : (colReceive m s).memsOk = true := by
  unfold colReceive
  extract_lets _ _
  split
  · exact memsOk_colUnmatched h
  · extract_lets _ _
    refine memsOk_ite (memsOk_colUnmatched h) (memsOk_ite (memsOk_colLate h) ?_)
    split
    · exact memsOk_ite (memsOk_ite (memsOk_park _ h) (memsOk_colGo _ (memsOk_colTake _ _ _ _ h)))
          (memsOk_parkFor _ _ _ h)
    · exact memsOk_parkFor _ _ _ h

theorem memsOk_seg (t : Nat) {s : State} (h : s.memsOk = true) : (seg t s).memsOk = true := by
  unfold seg
  extract_lets s₁
  have hs₁ : s₁.memsOk = true := (memsOk_at _ _).trans h
  refine memsOk_ite hs₁ ?_
  split
  · exact memsOk_awaitLag hs₁ (memsOk_colReceive _ (memsOk_takeMsg ‹_› hs₁))
  · exact hs₁

theorem memsOk_countsMsg (t : Nat) {s : State} (h : s.memsOk = true) : (countsMsg t s).memsOk = true := by
  unfold countsMsg
  extract_lets s₁
  have hs₁ : s₁.memsOk = true := (memsOk_at _ _).trans h
  refine memsOk_ite hs₁ ?_
  split
  · exact memsOk_awaitLag hs₁ (memsOk_colReceive _ (memsOk_takeMsg ‹_› hs₁))
  · exact hs₁

theorem memsOk_colAbort (m : InMsg) {s : State} (h : s.memsOk = true) : (colAbort m s).memsOk = true := by
  unfold colAbort
  extract_lets _ _ s₁
  have hs₁ : s₁.memsOk = true := (memsOk_modCol _ _).trans h
  split
  · exact memsOk_colUnmatched h
  · extract_lets s₂
    have hs₂ : s₂.memsOk = true := (memsOk_modSlot _ _ _).trans hs₁
    refine memsOk_ite (memsOk_colUnmatched h) ?_
    split
    · exact memsOk_colFailOp _ _ _ _ _ hs₂
    · exact hs₂

theorem memsOk_abortMsg (t : Nat) {s : State} (h : s.memsOk = true) : (abortMsg t s).memsOk = true := by
  unfold abortMsg
  extract_lets s₁
  have hs₁ : s₁.memsOk = true := (memsOk_at _ _).trans h
  refine memsOk_ite hs₁ ?_
  split
  · exact memsOk_colAbort _ (memsOk_takeMsg ‹_› hs₁)
  · exact hs₁

theorem memsOk_colTimeout (t : Nat) (k : Fin 256) {s : State} (h : s.memsOk = true) :
    (colTimeout t k s).memsOk = true := by
  unfold colTimeout
  extract_lets s₁
  have hs₁ : s₁.memsOk = true := (memsOk_at _ _).trans h
  split
  · split
    · extract_lets _ _
      exact memsOk_ite (memsOk_breakGroup _ _ hs₁) hs₁
    · exact hs₁
  · exact hs₁

theorem memsOk_parkExpire (t : Nat) {s : State} (h : s.memsOk = true) : (parkExpire t s).memsOk = true := by
  unfold parkExpire
  extract_lets s₁ _
  have hs₁ : s₁.memsOk = true := (memsOk_at _ _).trans h
  exact memsOk_ite hs₁ (memsOk_setParked _ ((memsOk_modCol _ _).trans hs₁))

theorem memsOk_colEnter (k : Nat) (g : Group) (o : ColOp) {s : State} (h : s.memsOk = true) :
    (colEnter k g o s).memsOk = true := by
  unfold colEnter
  extract_lets _ _
  exact (memsOk_modSlot _ _ _).trans h

theorem memsOk_colBegin (k : Nat) (g : Group) (o : ColOp) {s : State} (h : s.memsOk = true) :
    (colBegin k g o s).memsOk = true :=
  memsOk_colGo _ (memsOk_colEnter _ _ _ h)

theorem memsOk_endBroken (n q num status : Nat) {s : State} (h : s.memsOk = true) :
    (endBroken n q num status s).memsOk = true :=
  memsOk_endRemote _ _ _ _ _ h

theorem memsOk_collectiveStart (k : Nat) (g : Group) (x : Collective) (sends : List Nat) (l k' x' : Nat) (y : Bytes)
    {s : State} (h : s.memsOk = true) :
    (collectiveStart k g x sends l k' x' y s).memsOk = true := by
  unfold collectiveStart
  extract_lets d _ _ s₁
  have hd : d.2.2.memsOk = true := by
    unfold d
    split
    · exact memsOk_readLoc _ _ _ h
    · dsimp only
      exact h
  have hs₁ : s₁.memsOk = true := memsOk_colEnter _ _ _ hd
  split
  · exact memsOk_endBroken _ _ _ _ h
  · exact memsOk_ite (memsOk_colBegin _ _ _ hd) (memsOk_breakGroup _ _ (memsOk_takeParked _ _ hs₁))

theorem memsOk_collectiveBody (n q num : Nat) (b : Bytes) {s : State} (h : s.memsOk = true) :
    (collectiveBody n q num b s).memsOk = true := by
  unfold collectiveBody
  extract_lets _ _
  refine memsOk_ite ((memsOk_endRecord _ _ _ _ _ _).trans h) ?_
  split
  · exact (memsOk_endRecord _ _ _ _ _ _).trans h
  · extract_lets _ c
    have hc : c.2.2.memsOk = true := memsOk_readLoc _ _ _ h
    refine memsOk_ite ((memsOk_endRecord _ _ _ _ _ _).trans h)
        (memsOk_ite (memsOk_ite ((memsOk_endRecord _ _ _ _ _ _).trans h)
        (memsOk_ite ((memsOk_endRecord _ _ _ _ _ _).trans h) ?_)) (memsOk_ite ((memsOk_endRecord _ _ _ _ _ _).trans h)
        ?_))
    · split
      · exact memsOk_endBroken _ _ _ _ h
      · refine memsOk_ite (memsOk_ite ((memsOk_endRecord _ _ _ _ _ _).trans hc) ?_)
            (memsOk_breakGroup _ _ (memsOk_colEnter _ _ _ hc))
        extract_lets _
        exact memsOk_ite ((memsOk_endRecord _ _ _ _ _ _).trans hc) (memsOk_ite ((memsOk_endRecord _ _ _ _ _ _).trans hc)
            (memsOk_collectiveStart _ _ _ _ _ _ _ _ hc))
    · extract_lets _
      exact memsOk_ite ((memsOk_endRecord _ _ _ _ _ _).trans h) (memsOk_ite ((memsOk_endRecord _ _ _ _ _ _).trans h)
          (memsOk_collectiveStart _ _ _ _ _ _ _ _ h))

theorem memsOk_suffixFeed (k n q num : Nat) {s : State} (h : s.memsOk = true) :
    (suffixFeed k n q num s).memsOk = true := by
  unfold suffixFeed
  split
  · exact h
  · extract_lets m _ _ _ s₁
    have hm : m.2.2.memsOk = true := memsOk_matmulOutput _ _ h
    have hs₁ : s₁.memsOk = true := (memsOk_modOp _ _ _).trans hm
    split
    · exact memsOk_colGo _ hs₁
    · exact memsOk_breakGroup _ _ hm

theorem memsOk_suffixWork (k : Nat) (g : Group) (n q num : Nat) (b : Bytes) {s : State} (h : s.memsOk = true) :
    (suffixWork k g n q num b s).memsOk = true := by
  unfold suffixWork
  extract_lets _ _ _ _ _ s₁
  have hs₁ : s₁.memsOk = true := memsOk_colBegin _ _ _ h
  split
  · exact memsOk_endBroken _ _ _ _ h
  · exact memsOk_ite (memsOk_suffixFeed _ _ _ _ hs₁) (memsOk_matmulTail _ _ _ _ hs₁)

theorem memsOk_matmulWork (n q num : Nat) (b : Bytes) {s : State} (h : s.memsOk = true) :
    (matmulWork n q num b s).memsOk = true := by
  unfold matmulWork
  extract_lets _
  exact memsOk_ite (memsOk_matmulFinish _ _ _ h) (memsOk_matmulTail _ _ _ _ h)

theorem memsOk_matmulBody (n q num : Nat) (b : Bytes) {s : State} (h : s.memsOk = true) :
    (matmulBody n q num b s).memsOk = true := by
  unfold matmulBody
  extract_lets _
  refine memsOk_ite (memsOk_checkedRecord (fun _ _ _ _ _ hs => memsOk_matmulWork _ _ _ _ hs) _ _ _ _ h) ?_
  split
  · exact (memsOk_endRecord _ _ _ _ _ _).trans h
  · exact memsOk_checkedRecord (fun _ _ _ _ _ hs => memsOk_suffixWork _ _ _ _ _ _ hs) _ _ _ _ h

theorem memsOk_startOnSlot (op : Nat) {body : RecBody} (t : Nat) (n : Fin 128) (q : Fin 16) (host : Bytes)
    (hbody : ∀ a0 a1 a2 a3 s, s.memsOk = true → (body a0 a1 a2 a3 s).memsOk = true) {s : State} (h : s.memsOk = true) :
    (startOnSlot op body t n q host s).memsOk = true := by
  unfold startOnSlot
  split
  · exact (memsOk_at _ _).trans h
  · exact memsOk_ite (memsOk_startRecord (fun _ _ _ _ _ hs => hbody _ _ _ _ _ hs) h) ((memsOk_at _ _).trans h)

theorem memsOk_settleRecord (n q num : Nat) {s : State} (h : s.memsOk = true) :
    (settleRecord n q num s).memsOk = true := by
  unfold settleRecord
  split
  · exact h
  · refine memsOk_ite h ?_
    split
    · split
      · extract_lets s₁
        have hs₁ : s₁.memsOk = true := memsOk_ite (memsOk_suffixFeed _ _ _ _ h) h
        exact memsOk_colComplete _ hs₁
      · exact h
    · exact memsOk_ite (memsOk_matmulFinish _ _ _ h) (memsOk_ite (memsOk_sampleRun _ _ _ h) h)

theorem memsOk_recordComplete (t : Nat) (n : Fin 128) (q : Fin 16) (num : BitVec 32) {s : State} (h : s.memsOk = true) :
    (recordComplete t n q num s).memsOk = true := by
  unfold recordComplete
  extract_lets s₁ s₂
  have hs₁ : s₁.memsOk = true := (memsOk_at _ _).trans h
  have hs₂ : s₂.memsOk = true := (memsOk_tallyHbm _ _ _ _ _).trans (memsOk_settleRecord _ _ _ hs₁)
  split
  · exact hs₁
  · refine memsOk_ite hs₁ ?_
    split
    · exact memsOk_awaitLag hs₁ (memsOk_ite (memsOk_completeRecord _ _ _ _ hs₂) hs₂)
    · exact hs₂

end Sys2Proof.Machine
end

section
/-! SUPPORT. The sparse memories stay canonical: grove. -/

namespace Sys2Proof.Machine

theorem memsOk_endWaiting (n : Nat) {s : State} (h : s.memsOk = true) : (endWaiting n s).memsOk = true :=
  memsOk_foldl (fun _ _ hs => memsOk_foldl (fun _ _ hs => memsOk_ite ((memsOk_endRecord _ _ _ _ _ _).trans hs) hs) _ hs)
      _ h

theorem memsOk_genChange (n : Nat) {s : State} (h : s.memsOk = true) : (genChange n s).memsOk = true := by
  unfold genChange
  extract_lets _ s₁ s₂
  have hs₁ : s₁.memsOk = true := memsOk_congr h rfl rfl rfl rfl rfl
  have hs₂ : s₂.memsOk = true := memsOk_endTxnsOf _ (memsOk_endWindowsOf _ hs₁)
  exact memsOk_endWaiting _ (memsOk_breakSlotsOf _ _ hs₂)

theorem memsOk_sendPort (p : Fin 8) (code dst path : Nat) (fields : Bytes) {s : State} (h : s.memsOk = true) :
    (sendPort p code dst path fields s).memsOk = true :=
  (memsOk_queueMsg _ _ _ _ _ _ _).trans h

theorem memsOk_sendRouted (code dst path : Nat) (fields : Bytes) {s : State} (h : s.memsOk = true) :
    (sendRouted code dst path fields s).memsOk = true := by
  unfold sendRouted
  extract_lets _
  refine memsOk_ite ((memsOk_modTxn _ _).trans h) ?_
  split
  · exact (memsOk_queueMsg _ _ _ _ _ _ _).trans h
  · exact (memsOk_dropGrove _).trans h

theorem memsOk_bundlePeers (p : Fin 8) (c : Nat) {s : State} (h : s.memsOk = true) :
    (bundlePeers p c s).memsOk = true :=
  memsOk_foldl (fun _ _ hs => memsOk_ite ((memsOk_modTxn _ _).trans hs) hs) _ h

theorem memsOk_recordPeer (p : Fin 8) (c : Nat) {s : State} (h : s.memsOk = true) : (recordPeer p c s).memsOk = true :=
  memsOk_pump (memsOk_bundlePeers _ _ ((memsOk_modLink _ _ _).trans h))

theorem memsOk_announceOn (p : Fin 8) {s : State} (h : s.memsOk = true) : (announceOn p s).memsOk = true := by
  unfold announceOn
  split
  · exact memsOk_ite (memsOk_sendPort _ _ _ _ _ h) h
  · exact h

theorem memsOk_announce {s : State} (h : s.memsOk = true) : (announce s).memsOk = true :=
  memsOk_foldl (fun _ _ hs => memsOk_announceOn _ hs) _ h

theorem memsOk_grvId (t : Nat) {s : State} (h : s.memsOk = true) : (grvId t s).memsOk = true := by
  unfold grvId
  refine memsOk_onCtrl (fun m b s' hs => ?_) h
  split
  · exact memsOk_ite (memsOk_recordPeer _ _ hs) ((memsOk_dropGrove _).trans hs)
  · exact (memsOk_dropGrove _).trans hs

theorem memsOk_sendJoin {s : State} (h : s.memsOk = true) : (sendJoin s).memsOk = true :=
  memsOk_sendRouted _ _ _ _ h

theorem memsOk_enterMember (c serial rg : Nat) (bundles : Option (List (Nat × Nat))) {s : State} (h : s.memsOk = true) :
    (enterMember c serial rg bundles s).memsOk = true := by
  unfold enterMember
  extract_lets _ _
  exact (memsOk_modGrv _ _).trans h

theorem memsOk_unassign {s : State} (h : s.memsOk = true) : (unassign s).memsOk = true :=
  (memsOk_modGrv _ _).trans ((memsOk_modTxn _ _).trans h)

theorem memsOk_grvJoin (t : Nat) {s : State} (h : s.memsOk = true) : (grvJoin t s).memsOk = true := by
  unfold grvJoin
  refine memsOk_onCtrl (fun m b s' hs => memsOk_ite hs ?_) h
  extract_lets _ _ s₁
  have hs₁ : s₁.memsOk = true := memsOk_ite hs (memsOk_enterMember _ _ _ _ hs)
  exact memsOk_sendRouted _ _ _ _ hs₁

theorem memsOk_grvJoinAck (t : Nat) {s : State} (h : s.memsOk = true) : (grvJoinAck t s).memsOk = true := by
  unfold grvJoinAck
  refine memsOk_onCtrl (fun m b s' hs => memsOk_ite hs ?_) h
  extract_lets _ s₁
  have hs₁ : s₁.memsOk = true := (memsOk_modGrv _ _).trans hs
  split
  · exact memsOk_ite (memsOk_finishRef _ _ _ ((memsOk_modGrv _ _).trans hs₁))
        (memsOk_finishRef _ _ _ (memsOk_unassign hs₁))
  · exact memsOk_ite ((memsOk_modGrv _ _).trans hs) hs

theorem memsOk_joinTimeout (t : Nat) {s : State} (h : s.memsOk = true) : (joinTimeout t s).memsOk = true := by
  unfold joinTimeout
  extract_lets s₁
  have hs₁ : s₁.memsOk = true := (memsOk_at _ _).trans h
  split
  · exact memsOk_ite (memsOk_finishRef _ _ _ ((memsOk_modGrv _ _).trans hs₁)) hs₁
  · exact hs₁

theorem memsOk_grvBeat (t : Nat) {s : State} (h : s.memsOk = true) : (grvBeat t s).memsOk = true := by
  unfold grvBeat
  refine memsOk_onCtrl (fun m b s' hs => memsOk_ite hs ?_) h
  extract_lets _ _ _
  exact memsOk_ite hs (memsOk_enterMember _ _ _ _ hs)

theorem memsOk_grvBeatTimer (t : Nat) {s : State} (h : s.memsOk = true) : (grvBeatTimer t s).memsOk = true := by
  unfold grvBeatTimer
  extract_lets s₁ s₂ s₃
  have hs₁ : s₁.memsOk = true := (memsOk_at _ _).trans h
  have hs₂ : s₂.memsOk = true := (memsOk_modGrv _ _).trans hs₁
  have hs₃ : s₃.memsOk = true := memsOk_ite hs₂ (memsOk_sendJoin hs₂)
  exact memsOk_ite hs₁ (memsOk_sendRouted _ _ _ _ hs₃)

theorem memsOk_grvMemberSilent (t : Nat) (c : Fin 1024) {s : State} (h : s.memsOk = true) :
    (grvMemberSilent t c s).memsOk = true := by
  unfold grvMemberSilent
  extract_lets s₁
  have hs₁ : s₁.memsOk = true := (memsOk_at _ _).trans h
  split
  · exact memsOk_ite ((memsOk_logErr _ _ _ _).trans ((memsOk_modGrv _ _).trans hs₁)) hs₁
  · exact hs₁

theorem memsOk_grvLeave (t : Nat) {s : State} (h : s.memsOk = true) : (grvLeave t s).memsOk = true := by
  unfold grvLeave
  refine memsOk_onCtrl (fun m b s' hs => ?_) h
  split
  · exact memsOk_ite ((memsOk_modGrv _ _).trans hs) hs
  · exact hs

theorem memsOk_downEffects (c : Nat) {s : State} (h : s.memsOk = true) : (downEffects c s).memsOk = true := by
  unfold downEffects
  extract_lets s₁
  have hs₁ : s₁.memsOk = true := (memsOk_modTxn _ _).trans h
  exact memsOk_pump (memsOk_breakRunning _ _ (memsOk_synthesiseAll _ _ hs₁))

theorem memsOk_applyNotice (c st g : Nat) {s : State} (h : s.memsOk = true) : (applyNotice c st g s).memsOk = true := by
  unfold applyNotice
  extract_lets _ s₁ _
  have hs₁ : s₁.memsOk = true := (memsOk_modGrv _ _).trans h
  exact memsOk_ite ((memsOk_modGrv _ _).trans h) (memsOk_ite ((memsOk_modTxn _ _).trans hs₁)
      (memsOk_ite (memsOk_downEffects _ hs₁)
      (memsOk_pump (memsOk_breakRunning _ _ (memsOk_foldl (fun _ _ hs => memsOk_staleSlot _ hs) _ hs₁)))))

theorem memsOk_grvNotify (t : Nat) {s : State} (h : s.memsOk = true) : (grvNotify t s).memsOk = true := by
  unfold grvNotify
  refine memsOk_onCtrl (fun m b s' hs => ?_) h
  extract_lets _ _
  exact memsOk_ite ((memsOk_modGrv _ _).trans hs) (memsOk_ite ((memsOk_dropGrove _).trans hs)
      (memsOk_applyNotice _ _ _ hs))

theorem memsOk_relayNotice (c st g : Nat) {s : State} (h : s.memsOk = true) : (relayNotice c st g s).memsOk = true :=
  memsOk_ite h (memsOk_foldl (fun _ _ hs => memsOk_sendRouted _ _ _ _ hs) _ h)

end Sys2Proof.Machine
end

section
/-! SUPPORT. The sparse memories stay canonical: stopping of queues. -/

namespace Sys2Proof.Machine

theorem memsOk_undefine (n : Nat) (l : Loc) (len : Nat) {s : State} (h : s.memsOk = true) :
    (undefine n l len s).memsOk = true := by
  unfold undefine
  extract_lets f
  have hf : f.2.memsOk = true := memsOk_drawBytes _ h
  refine memsOk_ite ?_ h
  split
  · exact memsOk_takeMarks (memsOk_writeRange _ _ _ _ _ hf)
  · exact memsOk_writePieces _ _ _ hf

theorem memsOk_undefineDests (n q : Nat) {s : State} (h : s.memsOk = true) : (undefineDests n q s).memsOk = true := by
  unfold undefineDests
  split
  · exact h
  · exact memsOk_foldl (fun _ _ hs => memsOk_foldl (fun _ _ hs => memsOk_undefine _ _ _ hs) _ hs) _ h

theorem memsOk_stopOps (n q : Nat) {s : State} (h : s.memsOk = true) : (stopOps n q s).memsOk = true := by
  unfold stopOps
  refine memsOk_foldl (fun s' a hs => ?_) _ h
  extract_lets _ s₁
  have hs₁ : s₁.memsOk = true := memsOk_dropParked _ _ (memsOk_colStopSending _ hs)
  exact memsOk_restage ((memsOk_modSlot _ _ _).trans hs₁)

theorem memsOk_discardTxns (n q : Nat) {s : State} (h : s.memsOk = true) : (discardTxns n q s).memsOk = true :=
  (memsOk_modTxn _ _).trans h

theorem memsOk_stopQueue (n q : Nat) {s : State} (h : s.memsOk = true) : (stopQueue n q s).memsOk = true := by
  unfold stopQueue
  extract_lets s₁ _ s₂ s₃
  have hs₁ : s₁.memsOk = true := memsOk_discardTxns _ _
      (memsOk_stopOps _ _ (memsOk_undefineDests _ _ (memsOk_countBoughNs _ h)))
  have hs₂ : s₂.memsOk = true := memsOk_congr hs₁ rfl rfl rfl rfl rfl
  have hs₃ : s₃.memsOk = true := by
    unfold s₃
    refine memsOk_foldl (fun s' a hs => ?_) _ hs₂
    split
    · exact memsOk_ite (memsOk_followNext _ _ hs) hs
    · exact hs
  exact memsOk_pump hs₃

theorem memsOk_stopQueues (n : Nat) {s : State} (h : s.memsOk = true) : (stopQueues n s).memsOk = true :=
  memsOk_foldl (fun _ _ hs => memsOk_stopQueue _ _ hs) _ h

end Sys2Proof.Machine
end

section
/-! SUPPORT. The sparse memories stay canonical: keys of Heartwood. -/

namespace Sys2Proof.Machine

theorem memsOk_takeSlot (use : SlotUse) (m : Bytes) (pin : Bool) {s : State} (h : s.memsOk = true) :
    (takeSlot use m pin s).memsOk = true := by
  unfold takeSlot
  extract_lets d
  have hd : d.2.memsOk = true := memsOk_drawBytes _ h
  exact (memsOk_modHwd _ _).trans hd

theorem memsOk_reshare (use : SlotUse) {s : State} (h : s.memsOk = true) : (reshare use s).memsOk = true := by
  unfold reshare
  split
  · exact memsOk_takeSlot _ _ _ h
  · exact h

theorem memsOk_dropSlot (use : SlotUse) {s : State} (h : s.memsOk = true) : (dropSlot use s).memsOk = true :=
  (memsOk_modHwd _ _).trans h

theorem memsOk_orphanEntry (idx : Nat) {s : State} (h : s.memsOk = true) : (orphanEntry idx s).memsOk = true := by
  unfold orphanEntry
  extract_lets _ s₁ s₂
  have hs₁ : s₁.memsOk = true := memsOk_dropSlot _ h
  have hs₂ : s₂.memsOk = true := memsOk_ite (memsOk_dropSlot _ hs₁) hs₁
  exact (memsOk_modHwd _ _).trans hs₂

theorem memsOk_orphanTree (idx : Nat) {s : State} (h : s.memsOk = true) : (orphanTree idx s).memsOk = true := by
  unfold orphanTree
  split
  · exact h
  · extract_lets _
    exact memsOk_foldl (fun _ _ hs => memsOk_orphanEntry _ hs) _ (memsOk_orphanEntry _ h)

theorem memsOk_orphanStale {s : State} (h : s.memsOk = true) : (orphanStale s).memsOk = true :=
  memsOk_foldl (fun _ _ hs => memsOk_orphanEntry _ hs) _ h

theorem memsOk_writeGen (kid g : Nat) {s : State} (h : s.memsOk = true) : (writeGen kid g s).memsOk = true :=
  memsOk_orphanStale ((memsOk_modHwd _ _).trans h)

theorem memsOk_matLoop (l k : Nat) {s : State} (h : s.memsOk = true) : (matLoop l k s).2.memsOk = true := by
  induction l generalizing k s with
  | zero =>
    unfold matLoop
    dsimp only
    exact h
  | succ n ih =>
    unfold matLoop
    split
    · dsimp only
      exact h
    · extract_lets up s₁ _
      have hup : up.2.memsOk = true := by
        unfold up
        split
        · dsimp only
          exact h
        · split
          · exact ih _ h
          · dsimp only
            exact h
      have hs₁ : s₁.memsOk = true := (memsOk_modHwd _ _).trans hup
      split
      · dsimp only
        exact memsOk_takeSlot _ _ _ h
      · split
        · dsimp only
          exact memsOk_takeSlot _ _ _ hs₁
        · dsimp only
          exact memsOk_orphanTree _ hs₁

theorem memsOk_material (idx : Nat) {s : State} (h : s.memsOk = true) : (material idx s).2.memsOk = true := by
  unfold material
  split
  · dsimp only
    exact h
  · exact memsOk_matLoop _ _ h

theorem memsOk_bindCounter (kid : Nat) {s : State} (h : s.memsOk = true) : (bindCounter kid s).memsOk = true := by
  unfold bindCounter
  extract_lets _
  split
  · exact (memsOk_modHwd _ _).trans h
  · exact h

theorem memsOk_releaseCounter (kid : Nat) {s : State} (h : s.memsOk = true) : (releaseCounter kid s).memsOk = true := by
  unfold releaseCounter
  split
  · exact (memsOk_modHwd _ _).trans h
  · exact h

theorem memsOk_countUse (idx : Nat) {s : State} (h : s.memsOk = true) : (countUse idx s).2.memsOk = true := by
  unfold countUse
  split
  · dsimp only
    exact h
  · extract_lets s₁
    have hs₁ : s₁.memsOk = true := by
      unfold s₁
      split
      · exact (memsOk_modHwd _ _).trans h
      · exact h
    split
    · dsimp only
      exact h
    · dsimp only
      exact (memsOk_modHwd _ _).trans hs₁

theorem memsOk_useKey (hd bit : Nat) {s : State} (h : s.memsOk = true) : (useKey hd bit s).2.memsOk = true := by
  unfold useKey
  split
  · exact h
  · rename_i i _
    split
    · exact h
    · have hm := memsOk_material i h
      split
      · exact memsOk_countUse _ (memsOk_of_snd ‹_› hm)
      · exact hm

theorem memsOk_blobRefused (reason : Nat) {s : State} (h : s.memsOk = true) :
    (blobRefused reason s).2.2.memsOk = true := by
  unfold blobRefused
  dsimp only
  exact (memsOk_modHwd _ _).trans h

theorem memsOk_checkBlob (ch : Nat) (u : BlobUse) (b : Bytes) {s : State} (h : s.memsOk = true) :
    (checkBlob ch u b s).2.2.memsOk = true := by
  unfold checkBlob
  extract_lets r finish
  have hfinish : ∀ (pm : Option Bytes) (chain : List (Nat × Nat)) (s : State), s.memsOk = true →
      (finish pm chain s).2.2.memsOk = true := by
    intro pm chain s h
    unfold finish
    split
    · exact h
    · exact memsOk_blobRefused _ h
  split
  · exact memsOk_blobRefused _ h
  · split
    · exact hfinish _ _ _ h
    · rename_i i e _
      have hm := memsOk_material i h
      split
      · exact memsOk_blobRefused _ (memsOk_of_snd ‹_› hm)
      · extract_lets c
        have hs' := memsOk_of_snd ‹_› hm
        split
        · exact memsOk_blobRefused _ hs'
        · exact hfinish _ _ _ (memsOk_countUse _ hs')

theorem memsOk_registerKey (idx ch : Nat) (st : Staged) {s : State} (h : s.memsOk = true) :
    (registerKey idx ch st s).memsOk = true := by
  unfold registerKey
  extract_lets s₁ s₂
  have hs₁ : s₁.memsOk = true := (memsOk_modHwd _ _).trans h
  have hs₂ : s₂.memsOk = true := memsOk_ite (memsOk_bindCounter _ hs₁) hs₁
  exact memsOk_takeSlot _ _ _ hs₂

theorem memsOk_deriveLog {s : State} (h : s.memsOk = true) : (deriveLog s).memsOk = true := by
  unfold deriveLog
  extract_lets _
  exact memsOk_ite (memsOk_dropSlot _ h) (memsOk_takeSlot _ _ _ h)

theorem memsOk_bindOwner (ch : Nat) (st : Staged) {s : State} (h : s.memsOk = true) :
    (bindOwner ch st s).memsOk = true := by
  unfold bindOwner
  extract_lets s₁ s₂
  have hs₁ : s₁.memsOk = true := memsOk_registerKey _ _ _ h
  have hs₂ : s₂.memsOk = true := memsOk_takeSlot _ _ _ hs₁
  exact memsOk_ite (memsOk_deriveLog hs₂) hs₂

theorem memsOk_setOwner (ch : Nat) (b : Option Bytes) {s : State} (h : s.memsOk = true) :
    (setOwner ch b s).memsOk = true :=
  (memsOk_modHwd _ _).trans h

theorem memsOk_reloadOwner (ch : Nat) {s : State} (h : s.memsOk = true) : (reloadOwner ch s).memsOk = true := by
  unfold reloadOwner
  split
  · exact h
  · extract_lets m
    clear_value m
    split
    · exact memsOk_bindOwner _ _ h
    · exact memsOk_setOwner _ _ h

theorem memsOk_hwdReset (failed : Bool) {s : State} (h : s.memsOk = true) : (hwdReset failed s).memsOk = true := by
  unfold hwdReset
  extract_lets _ d s₁
  have hd : d.2.memsOk = true := memsOk_drawNat h
  have hs₁ : s₁.memsOk = true := (memsOk_modHwd _ _).trans hd
  exact memsOk_ite hs₁ (memsOk_deriveLog (memsOk_reloadOwner _ (memsOk_reloadOwner _ hs₁)))

theorem memsOk_requestKey (ch : Nat) {s : State} (h : s.memsOk = true) : (requestKey ch s).2.2.memsOk = true := by
  unfold requestKey
  dsimp only
  split
  · exact h
  · split
    · split
      · exact memsOk_reshare _ h
      · exact h
    · split
      · exact h
      · rename_i i _
        have hm := memsOk_material i h
        split
        · exact memsOk_of_snd (x := material i s) ‹_› hm
        · have hs' := memsOk_of_snd (x := material i s) ‹_› hm
          split
          · exact memsOk_countUse i hs'
          · exact hs'

theorem memsOk_raiseWater (ch counter : Nat) {s : State} (h : s.memsOk = true) :
    (raiseWater ch counter s).memsOk = true := by
  unfold raiseWater
  extract_lets _
  exact memsOk_ite ((memsOk_modHwd _ _).trans h) (memsOk_ite ((memsOk_modHwd _ _).trans h) h)

theorem memsOk_bankEraseDone (t : Nat) (c : Fin 64) {s : State} (h : s.memsOk = true) :
    (bankEraseDone t c s).memsOk = true := by
  unfold bankEraseDone
  extract_lets s₁
  have hs₁ : s₁.memsOk = true := (memsOk_at _ _).trans h
  exact (memsOk_modHwd _ _).trans hs₁

end Sys2Proof.Machine
end

section
/-! SUPPORT. The sparse memories stay canonical: twin. -/

namespace Sys2Proof.Machine

theorem memsOk_modRegions (p : Region → Bool) (f : Region → Region) {s : State} (h : s.memsOk = true) :
    (modRegions p f s).memsOk = true :=
  (memsOk_modTwn _ _).trans h

theorem memsOk_reprobe (hd : Nat) (branch : Bytes) {s : State} (h : s.memsOk = true) :
    (reprobe hd branch s).memsOk = true :=
  memsOk_ite ((memsOk_modTwn _ _).trans h) h

theorem memsOk_pairBranch {s : State} (h : s.memsOk = true) : (pairBranch s).2.memsOk = true := by
  unfold pairBranch
  split
  · exact memsOk_material _ h
  · dsimp only
    exact h

theorem memsOk_sendGraft (b : Bytes) {s : State} (h : s.memsOk = true) : (sendGraft b s).memsOk = true :=
  (memsOk_queueMsg _ _ _ _ _ _ _).trans h

theorem memsOk_sendTagged (code : Nat) (fields : Bytes) {s : State} (h : s.memsOk = true) :
    (sendTagged code fields s).memsOk = true := by
  unfold sendTagged
  split
  · exact memsOk_sendGraft _ h
  · exact h

theorem memsOk_sendProbeKind (code path : Nat) (fields : Bytes) {s : State} (h : s.memsOk = true) :
    (sendProbeKind code path fields s).memsOk = true := by
  unfold sendProbeKind
  split
  · extract_lets _
    split
    · exact (memsOk_queueMsg _ _ _ _ _ _ _).trans h
    · exact (memsOk_dropGrove _).trans h
  · exact h

theorem memsOk_sendStale {s : State} (h : s.memsOk = true) : (sendStale s).memsOk = true :=
  memsOk_sendProbeKind _ _ _ h

theorem memsOk_answerStale {s : State} (h : s.memsOk = true) : (answerStale s).memsOk = true := by
  unfold answerStale
  extract_lets _
  exact memsOk_ite (memsOk_sendStale ((memsOk_modTwn _ _).trans h)) h

theorem memsOk_mirrorResume {s : State} (h : s.memsOk = true) : (mirrorResume s).memsOk = true :=
  memsOk_pump (memsOk_releaseHeld h)

theorem memsOk_detachAll {s : State} (h : s.memsOk = true) : (detachAll s).memsOk = true :=
  memsOk_modRegions _ _ h

theorem memsOk_copyPage (k : Nat) {s : State} (h : s.memsOk = true) : (copyPage k s).memsOk = true := by
  unfold copyPage
  split
  · exact memsOk_ite (memsOk_sendMirror _ _ _ _ h) h
  · exact h

theorem memsOk_copyRegion (k : Nat) {s : State} (h : s.memsOk = true) : (copyRegion k s).memsOk = true := by
  unfold copyRegion
  split
  · exact memsOk_foldl (fun _ _ hs => memsOk_copyPage _ hs) _ h
  · exact h

theorem memsOk_restartRegion (k : Nat) {s : State} (h : s.memsOk = true) : (restartRegion k s).memsOk = true := by
  unfold restartRegion
  split
  · extract_lets _ s₁
    have hs₁ : s₁.memsOk = true := (memsOk_modTwn _ _).trans h
    exact memsOk_ite hs₁ (memsOk_copyRegion _ hs₁)
  · exact h

theorem memsOk_dropRegions (p : Region → Bool) {s : State} (h : s.memsOk = true) : (dropRegions p s).memsOk = true := by
  unfold dropRegions
  extract_lets _ s₁ s₂
  have hs₁ : s₁.memsOk = true := (memsOk_modTwn _ _).trans h
  have hs₂ : s₂.memsOk = true := memsOk_ite (memsOk_foldl (fun _ _ hs => memsOk_sendTagged _ _ hs) _ hs₁) hs₁
  exact memsOk_mirrorResume hs₂

theorem memsOk_sendHello (pair : Bool) {s : State} (h : s.memsOk = true) : (sendHello pair s).memsOk = true := by
  unfold sendHello
  split
  · exact memsOk_sendGraft _ h
  · exact h

theorem memsOk_startSession {s : State} (h : s.memsOk = true) : (startSession s).memsOk = true := by
  unfold startSession
  extract_lets n s₁
  have hn : n.2.memsOk = true := memsOk_drawBytes _ h
  have hs₁ : s₁.memsOk = true := (memsOk_modTwn _ _).trans hn
  exact memsOk_sendHello _ hs₁

theorem memsOk_twinEpoch {s : State} (h : s.memsOk = true) : (twinEpoch s).memsOk = true := by
  unfold twinEpoch
  extract_lets s₁
  have hs₁ : s₁.memsOk = true := (memsOk_modTwn _ _).trans h
  exact memsOk_ite hs₁ (memsOk_startSession hs₁)

theorem memsOk_endPairing (tell : Bool) {s : State} (h : s.memsOk = true) : (endPairing tell s).memsOk = true := by
  unfold endPairing
  extract_lets s₁ s₂
  have hs₁ : s₁.memsOk = true := memsOk_ite (memsOk_sendTagged _ _ h) h
  have hs₂ : s₂.memsOk = true := (memsOk_modTwn _ _).trans hs₁
  exact memsOk_mirrorResume hs₂

theorem memsOk_sessionFails {s : State} (h : s.memsOk = true) : (sessionFails s).memsOk = true := by
  unfold sessionFails
  extract_lets _
  exact memsOk_ite (memsOk_finishRef _ _ _ ((memsOk_modTwn _ _).trans h))
      (memsOk_endPairing _ ((memsOk_logErr _ _ _ _).trans h))

theorem memsOk_sessionDone (branch : Bytes) {s : State} (h : s.memsOk = true) :
    (sessionDone branch s).memsOk = true := by
  unfold sessionDone
  extract_lets _ _ s₁ _
  have hs₁ : s₁.memsOk = true := (memsOk_modTwn _ _).trans h
  exact memsOk_finishRef _ _ _ (memsOk_foldl (fun _ _ hs => memsOk_restartRegion _ hs) _ hs₁)

theorem memsOk_twinHello (t : Nat) {s : State} (h : s.memsOk = true) : (twinHello t s).memsOk = true := by
  unfold twinHello
  refine memsOk_onCtrl (fun m b s' hs => ?_) h
  extract_lets _ _ _ s₁ s₂ _ b₁ s₃ _
  have hs₁ : s₁.memsOk = true := (memsOk_modTwn _ _).trans hs
  have hs₂ : s₂.memsOk = true := memsOk_ite (memsOk_sendHello _ hs₁) hs₁
  have hb₁ : b₁.2.memsOk = true := memsOk_pairBranch hs₂
  have hs₃ : s₃.memsOk = true := hb₁
  refine memsOk_ite hs (memsOk_ite hs ?_)
  split
  · extract_lets s₄
    have hs₄ : s₄.memsOk = true := memsOk_ite (memsOk_sendGraft _ hb₁) hb₁
    exact memsOk_ite (memsOk_sessionFails hb₁) ((memsOk_modTwn _ _).trans hs₄)
  · exact memsOk_sessionFails hb₁

theorem memsOk_twinProof (t : Nat) {s : State} (h : s.memsOk = true) : (twinProof t s).memsOk = true := by
  unfold twinProof
  refine memsOk_onCtrl (fun m b s' hs => memsOk_ite hs ?_) h
  extract_lets b₁
  have hb₁ : b₁.2.memsOk = true := memsOk_pairBranch hs
  split
  · exact memsOk_ite (memsOk_sessionDone _ ((memsOk_modTwn _ _).trans hb₁)) (memsOk_sessionFails hb₁)
  · exact memsOk_sessionFails hb₁

theorem memsOk_pairTimeout (t : Nat) {s : State} (h : s.memsOk = true) : (pairTimeout t s).memsOk = true := by
  unfold pairTimeout
  extract_lets s₁
  have hs₁ : s₁.memsOk = true := (memsOk_at _ _).trans h
  split
  · exact memsOk_ite (memsOk_finishRef _ _ _ ((memsOk_modTwn _ _).trans hs₁)) hs₁
  · exact hs₁

theorem memsOk_declareLost {s : State} (h : s.memsOk = true) : (declareLost s).memsOk = true := by
  unfold declareLost
  extract_lets s₁ n s₂
  have hs₁ : s₁.memsOk = true := memsOk_detachAll h
  have hn : n.2.memsOk = true := memsOk_drawBytes _ hs₁
  have hs₂ : s₂.memsOk = true := (memsOk_modTwn _ _).trans hn
  exact memsOk_ite h (memsOk_mirrorResume (memsOk_sendProbeKind _ _ _ hs₂))

theorem memsOk_twinLinkDown {s : State} (h : s.memsOk = true) : (twinLinkDown s).memsOk = true :=
  memsOk_declareLost ((memsOk_modTwn _ _).trans h)

theorem memsOk_failover {s : State} (h : s.memsOk = true) : (failover s).memsOk = true := by
  unfold failover
  extract_lets s₁ _ s₂ s₃ s₄ _ s₅ s₆ s₇
  have hs₁ : s₁.memsOk = true := (memsOk_modTwn _ _).trans h
  have hs₂ : s₂.memsOk = true := (memsOk_modTwn _ _).trans hs₁
  have hs₃ : s₃.memsOk = true := memsOk_modRegions _ _ hs₂
  have hs₄ : s₄.memsOk = true := memsOk_detachAll hs₃
  have hs₅ : s₅.memsOk = true := memsOk_foldl (fun _ _ hs => memsOk_genChange _ hs) _ hs₄
  have hs₆ : s₆.memsOk = true := memsOk_downEffects _ hs₅
  have hs₇ : s₇.memsOk = true := (memsOk_logErr _ _ _ _).trans hs₆
  exact memsOk_mirrorResume ((memsOk_modTwn _ _).trans hs₇)

theorem memsOk_finishYield (status : Nat) (result : Bytes) {s : State} (h : s.memsOk = true) :
    (finishYield status result s).memsOk = true := by
  unfold finishYield
  split
  · exact memsOk_finishRef _ _ _ ((memsOk_modTwn _ _).trans h)
  · exact h

theorem memsOk_onTagged (code len t : Nat) {act : Bytes → State → State}
    (hact : ∀ a0 s, s.memsOk = true → (act a0 s).memsOk = true) {s : State} (h : s.memsOk = true) :
    (onTagged code len t act s).memsOk = true := by
  unfold onTagged
  refine memsOk_onCtrl (fun m b s' hs => memsOk_ite hs ?_) h
  extract_lets _
  split
  · exact memsOk_ite (hact _ _ hs) ((memsOk_modTwn _ _).trans hs)
  · exact (memsOk_modTwn _ _).trans hs

theorem memsOk_onProbe (code path len t : Nat) {act : Bytes → State → State}
    (hact : ∀ a0 s, s.memsOk = true → (act a0 s).memsOk = true) {s : State} (h : s.memsOk = true) :
    (onProbe code path len t act s).memsOk = true := by
  unfold onProbe
  refine memsOk_onCtrl (fun m b s' hs => memsOk_ite hs ?_) h
  split
  · exact memsOk_ite (hact _ _ hs) ((memsOk_modTwn _ _).trans hs)
  · exact (memsOk_modTwn _ _).trans hs

theorem memsOk_withGen (g : Nat) {act : State → State} (hact : ∀ s, s.memsOk = true → (act s).memsOk = true) {s : State}
    (h : s.memsOk = true) :
    (withGen g act s).memsOk = true := by
  unfold withGen
  extract_lets _
  exact memsOk_ite (hact _ h) (memsOk_ite (memsOk_declareLost h) (memsOk_answerStale h))

theorem memsOk_graftBeat (t : Nat) {s : State} (h : s.memsOk = true) : (graftBeat t s).memsOk = true :=
  memsOk_onTagged _ _ _ (fun _ _ hs => memsOk_withGen _ (fun _ hs => (memsOk_modTwn _ _).trans hs) hs) h

theorem memsOk_graftBeatTimer (t : Nat) {s : State} (h : s.memsOk = true) : (graftBeatTimer t s).memsOk = true := by
  unfold graftBeatTimer
  extract_lets s₁ _ _
  have hs₁ : s₁.memsOk = true := (memsOk_at _ _).trans h
  exact memsOk_ite ((memsOk_modTwn _ _).trans (memsOk_sendTagged _ _ hs₁)) hs₁

theorem memsOk_graftBeatLoss (t : Nat) {s : State} (h : s.memsOk = true) : (graftBeatLoss t s).memsOk = true := by
  unfold graftBeatLoss
  extract_lets s₁
  have hs₁ : s₁.memsOk = true := (memsOk_at _ _).trans h
  exact memsOk_ite (memsOk_declareLost hs₁) hs₁

theorem memsOk_twinProbe (t : Nat) {s : State} (h : s.memsOk = true) : (twinProbe t s).memsOk = true := by
  unfold twinProbe
  refine memsOk_onProbe _ _ _ _ (fun a0 s' hs => ?_) h
  extract_lets _ s₁
  have hs₁ : s₁.memsOk = true := memsOk_sendProbeKind _ _ _ hs
  exact memsOk_ite (memsOk_answerStale hs) (memsOk_ite (memsOk_declareLost hs₁) hs₁)

theorem memsOk_twinProbeAck (t : Nat) {s : State} (h : s.memsOk = true) : (twinProbeAck t s).memsOk = true := by
  unfold twinProbeAck
  refine memsOk_onProbe _ _ _ _ (fun a0 s' hs => ?_) h
  extract_lets _
  refine memsOk_ite (memsOk_answerStale hs) ?_
  split
  · exact memsOk_ite ((memsOk_logErr _ _ _ _).trans ((memsOk_modTwn _ _).trans hs)) hs
  · exact hs

theorem memsOk_probeTimeout (t : Nat) {s : State} (h : s.memsOk = true) : (probeTimeout t s).memsOk = true := by
  unfold probeTimeout
  extract_lets s₁ s₂
  have hs₁ : s₁.memsOk = true := (memsOk_at _ _).trans h
  have hs₂ : s₂.memsOk = true := (memsOk_logErr _ _ _ _).trans ((memsOk_modTwn _ _).trans hs₁)
  split
  · exact memsOk_ite (memsOk_ite (memsOk_failover hs₂) hs₂) hs₁
  · exact hs₁

theorem memsOk_tryYieldAck {s : State} (h : s.memsOk = true) : (tryYieldAck s).memsOk = true := by
  unfold tryYieldAck
  extract_lets s₁
  have hs₁ : s₁.memsOk = true := memsOk_sendTagged _ _ h
  exact memsOk_ite ((memsOk_modTwn _ _).trans hs₁) h

theorem memsOk_twinYield (t : Nat) {s : State} (h : s.memsOk = true) : (twinYield t s).memsOk = true := by
  unfold twinYield
  refine memsOk_onTagged _ _ _ (fun a0 s' hs => memsOk_withGen _ (fun s' hs => memsOk_ite hs (memsOk_ite hs ?_)) hs) h
  extract_lets s₁ s₂
  have hs₁ : s₁.memsOk = true := memsOk_finishYield _ _ hs
  have hs₂ : s₂.memsOk = true := memsOk_modRegions _ _ hs₁
  exact memsOk_mirrorResume (memsOk_tryYieldAck ((memsOk_modTwn _ _).trans hs₂))

theorem memsOk_twinYieldAck (t : Nat) {s : State} (h : s.memsOk = true) : (twinYieldAck t s).memsOk = true := by
  unfold twinYieldAck
  refine memsOk_onTagged _ _ _ (fun a0 s' hs => memsOk_withGen _ (fun s' hs => memsOk_ite hs ?_) hs) h
  extract_lets s₁
  have hs₁ : s₁.memsOk = true := memsOk_failover hs
  exact memsOk_finishYield _ _ hs₁

theorem memsOk_yieldTimeout (t : Nat) {s : State} (h : s.memsOk = true) : (yieldTimeout t s).memsOk = true := by
  unfold yieldTimeout
  extract_lets s₁
  have hs₁ : s₁.memsOk = true := (memsOk_at _ _).trans h
  split
  · exact memsOk_ite (memsOk_finishYield _ _ hs₁) hs₁
  · exact hs₁

theorem memsOk_twinStale (t : Nat) {s : State} (h : s.memsOk = true) : (twinStale t s).memsOk = true := by
  unfold twinStale
  refine memsOk_onProbe _ _ _ _ (fun a0 s' hs => ?_) h
  extract_lets _ s₁ s₂
  have hs₁ : s₁.memsOk = true := (memsOk_modTwn _ _).trans hs
  have hs₂ : s₂.memsOk = true := memsOk_modRegions _ _ hs₁
  exact memsOk_ite hs (memsOk_ite (memsOk_mirrorResume ((memsOk_modTwn _ _).trans hs₂)) (memsOk_answerStale hs))

theorem memsOk_twinUnpair (t : Nat) {s : State} (h : s.memsOk = true) : (twinUnpair t s).memsOk = true :=
  memsOk_onTagged _ _ _ (fun _ _ hs => memsOk_endPairing _ hs) h

theorem memsOk_addRegion {r : Region} {k : Nat} {s s' : State} (hs : addRegion r s = some (k, s')) (h : s.memsOk = true)
    : s'.memsOk = true := by
  obtain ⟨j, -, hj⟩ := Option.map_eq_some_iff.1 hs
  cases hj
  exact (memsOk_modTwn _ _).trans h

theorem memsOk_mirrorOpen (t : Nat) {s : State} (h : s.memsOk = true) : (mirrorOpen t s).memsOk = true := by
  unfold mirrorOpen
  refine memsOk_onTagged _ _ _ (fun b s' hs => memsOk_sendTagged _ _ ?_) h
  split
  · split
    · exact memsOk_addRegion ‹_› hs
    · exact hs
  · exact hs

theorem memsOk_finishOpening (e : Nat × Region × Fin 130 × Request) (status : Nat) {s : State} (h : s.memsOk = true) :
    (finishOpening e status s).memsOk = true := by
  unfold finishOpening
  extract_lets s₁ _
  have hs₁ : s₁.memsOk = true := (memsOk_modTwn _ _).trans h
  exact memsOk_ite (memsOk_respond _ _ _ _ _ hs₁) hs₁

theorem memsOk_mirrorReply (t : Nat) {s : State} (h : s.memsOk = true) : (mirrorReply t s).memsOk = true := by
  unfold mirrorReply
  refine memsOk_onTagged _ _ _ (fun b s' hs => ?_) h
  split
  · exact hs
  · dsimp only
    split
    · exact memsOk_finishOpening _ _ hs
    · split
      · exact memsOk_finishOpening _ _ (memsOk_copyRegion _ (memsOk_addRegion ‹_› hs))
      · exact memsOk_finishOpening _ _ hs

theorem memsOk_mirrorOpenTimeout (t : Nat) {s : State} (h : s.memsOk = true) :
    (mirrorOpenTimeout t s).memsOk = true := by
  unfold mirrorOpenTimeout
  extract_lets s₁
  have hs₁ : s₁.memsOk = true := (memsOk_at _ _).trans h
  split
  · exact memsOk_finishOpening _ _ hs₁
  · exact hs₁

theorem memsOk_mirrorClose (t : Nat) {s : State} (h : s.memsOk = true) : (mirrorClose t s).memsOk = true :=
  memsOk_onTagged _ _ _ (fun _ _ hs => memsOk_mirrorResume (memsOk_tryYieldAck ((memsOk_modTwn _ _).trans hs))) h

theorem memsOk_applyMirror (n : Nat) (l : List (Nat × Bool)) (d : Bytes) {s : State} (h : s.memsOk = true) :
    (applyMirror n l d s).memsOk = true := by
  induction l generalizing d s with
  | nil => exact h
  | cons e l ih =>
    obtain ⟨o, poisoned⟩ := e
    cases poisoned with
    | true => exact ih _ (memsOk_faultLine _ _ _ _ h)
    | false => exact ih _ (memsOk_writeRange _ _ _ _ _ h)

theorem memsOk_mirrorWrite (t : Nat) {s : State} (h : s.memsOk = true) : (mirrorWrite t s).memsOk = true := by
  unfold mirrorWrite
  extract_lets s₁
  have hs₁ : s₁.memsOk = true := (memsOk_at _ _).trans h
  refine memsOk_ite hs₁ ?_
  split
  · exact hs₁
  · extract_lets _ _ _ _ _ _ _ _ hit _ s₂ s₃ _
    have hs₂ : s₂.memsOk = true := by
      unfold s₂
      clear_value hit
      split
      · exact memsOk_takeMsg ‹_› hs₁
      · exact memsOk_ite (memsOk_applyMirror _ _ _ (memsOk_setRegion _ _ (memsOk_takeMsg ‹_› hs₁)))
            (memsOk_setRegion _ _ (memsOk_takeMsg ‹_› hs₁))
    have hs₃ : s₃.memsOk = true := memsOk_ite hs₂ ((memsOk_logErr _ _ _ _).trans hs₂)
    exact memsOk_ite (memsOk_dropHeld (memsOk_takeMsg ‹_› hs₁))
        (memsOk_withGen _ (fun _ hs => hs) ((memsOk_queueMsg _ _ _ _ _ _ _).trans hs₃))

theorem memsOk_mirrorAnswered (k : Nat) (r : Region) (e : MirrorSent) (rest : List MirrorSent) (st : Nat) {s : State}
    (h : s.memsOk = true) :
    (mirrorAnswered k r e rest st s).memsOk = true := by
  unfold mirrorAnswered
  extract_lets s₁
  have hs₁ : s₁.memsOk = true := memsOk_ite (memsOk_copyRegion _ (memsOk_setRegion _ _ h))
      ((memsOk_logErr _ _ _ _).trans (memsOk_setRegion _ _ h))
  exact memsOk_mirrorResume (memsOk_tryYieldAck hs₁)

theorem memsOk_mirrorWriteAnswer (t : Nat) {s : State} (h : s.memsOk = true) :
    (mirrorWriteAnswer t s).memsOk = true := by
  unfold mirrorWriteAnswer
  extract_lets s₁
  have hs₁ : s₁.memsOk = true := (memsOk_at _ _).trans h
  refine memsOk_ite hs₁ ?_
  split
  · exact hs₁
  · extract_lets _
    refine memsOk_withGen _ (fun s' hs => ?_) (memsOk_takeMsg ‹_› hs₁)
    split
    · exact hs
    · split
      · exact memsOk_ite hs (memsOk_mirrorAnswered _ _ _ _ _ hs)
      · exact hs

theorem memsOk_mirrorSyncDone (t k : Nat) {s : State} (h : s.memsOk = true) : (mirrorSyncDone t k s).memsOk = true := by
  unfold mirrorSyncDone
  extract_lets s₁
  have hs₁ : s₁.memsOk = true := (memsOk_at _ _).trans h
  split
  · exact memsOk_ite (memsOk_setRegion _ _ hs₁) hs₁
  · exact hs₁

end Sys2Proof.Machine
end

section
/-! SUPPORT. The sparse memories stay canonical: link layer. -/

namespace Sys2Proof.Machine

theorem memsOk_sendLaneMgmt (p : Fin 8) (lane typ : Nat) (payload : Bytes) {s : State} (h : s.memsOk = true) :
    (sendLaneMgmt p lane typ payload s).memsOk = true :=
  (memsOk_sendFrames _ _ _ _ _).trans h

theorem memsOk_linkTrace (p : Fin 8) (st data : Nat) {s : State} (h : s.memsOk = true) :
    (linkTrace p st data s).memsOk = true :=
  (memsOk_traceRec _ _ _ _ _).trans h

theorem memsOk_epochInUse (p : Fin 8) {s : State} (h : s.memsOk = true) : (epochInUse p s).memsOk = true := by
  unfold epochInUse
  extract_lets _ _ s₁
  have hs₁ : s₁.memsOk = true := (memsOk_modLink _ _ _).trans h
  split
  · extract_lets s₂ s₃
    have hs₂ : s₂.memsOk = true := by
      unfold s₂
      split
      · exact memsOk_ite (memsOk_finishTicket _ _ _ _ ((memsOk_modLink _ _ _).trans hs₁)) hs₁
      · exact hs₁
    have hs₃ : s₃.memsOk = true := memsOk_ite (memsOk_pump (memsOk_announceOn _ hs₂)) hs₂
    exact memsOk_ite h (memsOk_ite (memsOk_twinEpoch hs₃) hs₃)
  · exact h

theorem memsOk_trySwitch (p : Fin 8) {s : State} (h : s.memsOk = true) : (trySwitch p s).memsOk = true := by
  unfold trySwitch
  split
  · exact memsOk_ite (memsOk_epochInUse _ ((memsOk_modLink _ _ _).trans h)) h
  · exact h

theorem memsOk_physDown (p : Fin 8) (reason : Nat) {s : State} (h : s.memsOk = true) :
    (physDown p reason s).memsOk = true := by
  unfold physDown
  extract_lets _ _ s₁ s₂ s₃
  have hs₁ : s₁.memsOk = true := (memsOk_modPhys _ _ _).trans h
  have hs₂ : s₂.memsOk = true := memsOk_finishRef _ _ _ hs₁
  have hs₃ : s₃.memsOk = true := memsOk_finishRef _ _ _ hs₂
  exact memsOk_linkTrace _ _ _ hs₃

theorem memsOk_pushInbox (m : InMsg) {s : State} (h : s.memsOk = true) : (pushInbox m s).memsOk = true :=
  (memsOk_modTxn _ _).trans h

theorem memsOk_deliverFlit (p v : Fin 8) {s : State} (h : s.memsOk = true) : (deliverFlit p v s).2.memsOk = true := by
  unfold deliverFlit
  extract_lets _
  split
  · dsimp only
    exact h
  · extract_lets s₁ _ s₂ s₃
    have hs₁ : s₁.memsOk = true := memsOk_modRx _ _ _ h
    have hs₂ : s₂.memsOk = true := memsOk_modRx _ _ _ h
    have hs₃ : s₃.memsOk = true := memsOk_afterTake _ _ hs₂
    split
    · split
      · dsimp only
        exact memsOk_afterTake _ _ hs₁
      · extract_lets s₄
        have hs₄ : s₄.memsOk = true := memsOk_afterTake _ _ ((memsOk_modLink _ _ _).trans hs₁)
        split
        · dsimp only
          exact memsOk_pushInbox _ hs₄
        · dsimp only
          exact hs₄
    · dsimp only
      exact memsOk_ite (memsOk_pushInbox _ hs₃) hs₃

theorem memsOk_deliverAll (p v : Fin 8) (l : Nat) {s : State} (h : s.memsOk = true) :
    (deliverAll p v l s).memsOk = true := by
  induction l generalizing s with
  | zero => exact h
  | succ n ih =>
    unfold deliverAll
    exact ih (memsOk_deliverFlit _ _ h)

theorem memsOk_takeResponses (p : Fin 8) (l : Nat) {s : State} (h : s.memsOk = true) :
    (takeResponses p l s).memsOk = true := by
  induction l generalizing s with
  | zero => exact h
  | succ n ih =>
    unfold takeResponses
    split
    · exact ih (memsOk_acceptResponse _ (memsOk_takeMsg ‹_› h))
    · exact h

theorem memsOk_settlePort (p : Fin 8) {s : State} (h : s.memsOk = true) : (settlePort p s).memsOk = true := by
  unfold settlePort
  extract_lets s₁
  have hs₁ : s₁.memsOk = true := memsOk_foldl (fun _ _ hs => memsOk_deliverAll _ _ _ hs) _ h
  exact memsOk_pump (memsOk_linkDownTxns _ (memsOk_takeResponses _ _ hs₁))

theorem memsOk_settleDown (p : Fin 8) {s : State} (h : s.memsOk = true) : (settleDown p s).memsOk = true := by
  unfold settleDown
  extract_lets _ _
  exact memsOk_ite (memsOk_congr h rfl rfl rfl rfl rfl) (memsOk_settlePort _ h)

theorem memsOk_endLink (p : Fin 8) {s : State} (h : s.memsOk = true) : (endLink p s).memsOk = true := by
  unfold endLink
  extract_lets s₁ wait s₂ s₃ s₄ s₅
  have hs₁ : s₁.memsOk = true := memsOk_colLinkLost _ h
  have hs₂ : s₂.memsOk = true := (memsOk_modLink _ _ _).trans hs₁
  have hs₃ : s₃.memsOk = true := by
    unfold s₃
    clear_value wait
    split
    · exact memsOk_finishTicket _ _ _ _ hs₂
    · exact hs₂
  have hs₄ : s₄.memsOk = true := memsOk_settleDown _ hs₃
  have hs₅ : s₅.memsOk = true := (memsOk_modLink _ _ _).trans hs₄
  exact memsOk_ite (memsOk_twinLinkDown hs₅) hs₅

theorem memsOk_linkGoesDown (p : Fin 8) (reason : Nat) (sent : Bool) {s : State} (h : s.memsOk = true) :
    (linkGoesDown p reason sent s).memsOk = true := by
  unfold linkGoesDown
  extract_lets _ s₁ s₂ s₃
  have hs₁ : s₁.memsOk = true := memsOk_ite ((memsOk_sendMgmt _ _ _ _).trans h) h
  have hs₂ : s₂.memsOk = true := memsOk_physDown _ _ hs₁
  have hs₃ : s₃.memsOk = true := (memsOk_modLink _ _ _).trans hs₂
  exact memsOk_ite hs₃ ((memsOk_logErr _ _ _ _).trans (memsOk_endLink _ hs₃))

theorem memsOk_sendCtrl (p : Fin 8) (code : Nat) (body : Bytes) {s : State} (h : s.memsOk = true) :
    (sendCtrl p code body s).memsOk = true :=
  (memsOk_queueMsg _ _ _ _ _ _ _).trans h

theorem memsOk_startShake (e : Nat) (p : Fin 8) {s : State} (h : s.memsOk = true) :
    (startShake e p s).memsOk = true := by
  unfold startShake
  extract_lets d _ n s₁ _ s₂
  have hd : d.2.memsOk = true := memsOk_drawNat h
  have hn : n.2.memsOk = true := memsOk_drawBytes _ hd
  have hs₁ : s₁.memsOk = true := hn
  have hs₂ : s₂.memsOk = true := (memsOk_modLink _ _ _).trans hn
  exact memsOk_sendCtrl _ _ _ hs₂

theorem memsOk_linkStart (p : Fin 8) {s : State} (h : s.memsOk = true) : (linkStart p s).memsOk = true := by
  unfold linkStart
  extract_lets _ s₁ _ _ _ s₂ s₃
  have hs₁ : s₁.memsOk = true := (memsOk_modLink _ _ _).trans h
  have hs₂ : s₂.memsOk = true := memsOk_congr hs₁ rfl rfl rfl rfl rfl
  have hs₃ : s₃.memsOk = true := memsOk_pump (memsOk_announceOn _ hs₂)
  exact memsOk_ite (memsOk_ite (memsOk_twinEpoch hs₃) hs₃) (memsOk_startShake _ _ hs₂)

theorem memsOk_sendFlit (p : Fin 8) (typ vc len : Nat) (payload : Bytes) (msg : Option Nat) {s : State}
    (h : s.memsOk = true) :
    (sendFlit p typ vc len payload msg s).memsOk = true := by
  unfold sendFlit
  extract_lets _ _ _ _ _ _ _ s₁
  have hs₁ : s₁.memsOk = true := (memsOk_emit _ _).trans ((memsOk_modLink _ _ _).trans h)
  exact memsOk_ite (memsOk_linkGoesDown _ _ _ hs₁) hs₁

theorem memsOk_sendNull (p : Fin 8) {s : State} (h : s.memsOk = true) : (sendNull p s).memsOk = true :=
  memsOk_sendFlit _ _ _ _ _ _ h

theorem memsOk_composed (p : Fin 8) (m : TxMsg) (last : Bool) {s : State} (h : s.memsOk = true) :
    (composed p m last s).memsOk = true := by
  unfold composed
  extract_lets s₁
  have hs₁ : s₁.memsOk = true := by
    unfold s₁
    split
    · split
      · exact memsOk_ite ((memsOk_modOp _ _ _).trans h) h
      · exact memsOk_ite ((memsOk_modTxn _ _).trans h) h
    · exact h
  exact memsOk_ite (memsOk_trySwitch _ ((memsOk_modLink _ _ _).trans hs₁)) hs₁

theorem memsOk_stampSync (p : Fin 8) (m : TxMsg) {s : State} (h : s.memsOk = true) :
    (stampSync p m s).2.memsOk = true := by
  unfold stampSync
  split
  · dsimp only
    exact (memsOk_traceRec _ _ _ _ _).trans h
  · dsimp only
    exact h

theorem memsOk_composeMsg (p v : Fin 8) (m : TxMsg) {s : State} (h : s.memsOk = true) :
    (composeMsg p v m s).memsOk = true := by
  unfold composeMsg
  extract_lets x s₁ _ _ _ _ s₂ s₃
  have hx : x.2.memsOk = true := memsOk_stampSync _ _ h
  have hs₁ : s₁.memsOk = true := hx
  have hs₂ : s₂.memsOk = true := memsOk_modTx _ _ _ hx
  have hs₃ : s₃.memsOk = true := memsOk_sendFlit _ _ _ _ _ _ hs₂
  exact memsOk_composed _ _ _ hs₃

theorem memsOk_resendFlit (p : Fin 8) (f : SentFlit) {s : State} (h : s.memsOk = true) :
    (resendFlit p f s).memsOk = true :=
  (memsOk_emit _ _).trans ((memsOk_modLink _ _ _).trans h)

theorem memsOk_composeNew (null : Bool) (p : Fin 8) {s : State} (h : s.memsOk = true) :
    (composeNew null p s).memsOk = true := by
  unfold composeNew
  extract_lets _ _
  split
  · split
    · exact memsOk_composeMsg _ _ _ ((memsOk_modLink _ _ _).trans h)
    · exact h
  · exact memsOk_ite (memsOk_sendNull _ h) h

theorem memsOk_composeOne (null : Bool) (p : Fin 8) {s : State} (h : s.memsOk = true) :
    (composeOne null p s).memsOk = true := by
  unfold composeOne
  extract_lets _
  refine memsOk_ite ((memsOk_emit _ _).trans h) (memsOk_ite h ?_)
  split
  · exact memsOk_ite (memsOk_sendNull _ h) (memsOk_resendFlit _ _ h)
  · exact memsOk_composeNew _ _ h

theorem memsOk_abortShake (reason : Nat) (p : Fin 8) {s : State} (h : s.memsOk = true) :
    (abortShake reason p s).memsOk = true := by
  unfold abortShake
  extract_lets _ _ s₁
  have hs₁ : s₁.memsOk = true := memsOk_ite (memsOk_composeMsg _ _ _ h) h
  exact memsOk_ite hs₁ (memsOk_linkGoesDown _ _ _ hs₁)

theorem memsOk_dropUnsent (p v : Fin 8) {s : State} (h : s.memsOk = true) : (dropUnsent p v s).memsOk = true := by
  unfold dropUnsent
  extract_lets _
  exact memsOk_modTx _ _ _ h

theorem memsOk_actMaps (p : Fin 8) (hd : FlitHdr) (v : Fin 8) {s : State} (h : s.memsOk = true) :
    (actMaps p hd s v).memsOk = true := by
  unfold actMaps
  extract_lets _ s₁ _ s₂
  have hs₁ : s₁.memsOk = true := memsOk_modTx _ _ _ h
  have hs₂ : s₂.memsOk = true := memsOk_partnerWedgedTxns _ _ (memsOk_modTx _ _ _ hs₁)
  exact memsOk_ite (memsOk_dropUnsent _ _ (memsOk_ite (memsOk_colWedged _ hs₂) hs₂))
      (memsOk_ite (memsOk_modTx _ _ _ hs₁) hs₁)

theorem memsOk_wedgeVc (p v : Fin 8) {s : State} (h : s.memsOk = true) : (wedgeVc p v s).memsOk = true := by
  unfold wedgeVc
  extract_lets _ s₁ s₂ s₃ s₄
  have hs₁ : s₁.memsOk = true := memsOk_modRx _ _ _ h
  have hs₂ : s₂.memsOk = true := (memsOk_logErr _ _ _ _).trans hs₁
  have hs₃ : s₃.memsOk = true := memsOk_ownWedgedTxns _ _ hs₂
  have hs₄ : s₄.memsOk = true := memsOk_ite (memsOk_colWedged _ hs₃) hs₃
  exact memsOk_ite (memsOk_linkGoesDown _ _ _ hs₄) hs₄

theorem memsOk_spillOne (p v : Fin 8) {s : State} (h : s.memsOk = true) : (spillOne p v s).memsOk = true := by
  unfold spillOne
  split
  · exact h
  · extract_lets x
    have hx : x.2.memsOk = true := memsOk_spillFlit _ _ _ h
    exact memsOk_afterTake _ _ (memsOk_modRx _ _ _ hx)

theorem memsOk_closeChannel (p : Fin 8) (payload : Bytes) {s : State} (h : s.memsOk = true) :
    (closeChannel p payload s).memsOk = true := by
  unfold closeChannel
  extract_lets _ _ _ _
  exact memsOk_ite (memsOk_congr h rfl rfl rfl rfl rfl) h

theorem memsOk_landFlit (p v : Fin 8) (hd : FlitHdr) (payload : Bytes) {s : State} (h : s.memsOk = true) :
    (landFlit p v hd payload s).memsOk = true := by
  unfold landFlit
  extract_lets _ _ _ _ s₁ _ _ _ s₂ _ x s₃ s₄
  have hs₁ : s₁.memsOk = true := memsOk_modRx _ _ _ h
  have hs₂ : s₂.memsOk = true := memsOk_ite (memsOk_closeChannel _ _ hs₁) hs₁
  have hx : x.2.memsOk = true := by
    unfold x
    split
    · exact memsOk_spillFlit _ _ _ hs₂
    · dsimp only
      exact hs₂
  have hs₃ : s₃.memsOk = true := memsOk_modRx _ _ _ hx
  have hs₄ : s₄.memsOk = true := memsOk_afterTake _ _ hs₃
  exact memsOk_ite (memsOk_modRx _ _ _ hs₁) (memsOk_ite (memsOk_wedgeVc _ _ (memsOk_modRx _ _ _ hs₁))
      (memsOk_ite (memsOk_spillOne _ _ hs₄) hs₄))

theorem memsOk_sequenced (p : Fin 8) (hd : FlitHdr) (payload : Bytes) {s : State} (h : s.memsOk = true) :
    (sequenced p hd payload s).memsOk = true := by
  unfold sequenced
  extract_lets _ s₁
  have hs₁ : s₁.memsOk = true := (memsOk_modLink _ _ _).trans h
  exact memsOk_ite (memsOk_landFlit _ _ _ _ hs₁) (memsOk_ite ((memsOk_modLink _ _ _).trans h)
      ((memsOk_modLink _ _ _).trans h))

theorem memsOk_actHeader (p : Fin 8) (ref : Nat) (hd : FlitHdr) {s : State} (h : s.memsOk = true) :
    (actHeader p ref hd s).memsOk = true := by
  unfold actHeader
  extract_lets _ s₁ _ s₂
  have hs₁ : s₁.memsOk = true := (memsOk_modLink _ _ _).trans h
  have hs₂ : s₂.memsOk = true := memsOk_ite ((memsOk_modLink _ _ _).trans hs₁) hs₁
  exact memsOk_ite (memsOk_linkGoesDown _ _ _ hs₁)
      (memsOk_pump (memsOk_foldl (fun _ _ hs => memsOk_actMaps _ _ _ hs) _ hs₂))

theorem memsOk_rotateRx (p : Fin 8) {s : State} (h : s.memsOk = true) : (rotateRx p s).memsOk = true :=
  memsOk_epochInUse _ ((memsOk_modLink _ _ _).trans h)

theorem memsOk_laneError (p : Fin 8) (k : Nat) {s : State} (h : s.memsOk = true) : (laneError p k s).memsOk = true := by
  unfold laneError
  extract_lets _
  exact (memsOk_modPhys _ _ _).trans h

theorem memsOk_symbolError (p : Fin 8) (l : Fin 9) {s : State} (h : s.memsOk = true) :
    (symbolError p l s).memsOk = true :=
  (memsOk_modPhys _ _ _).trans h

theorem memsOk_askLow (p : Fin 8) {s : State} (h : s.memsOk = true) : (askLow p s).memsOk = true :=
  memsOk_ite ((memsOk_sendMgmt _ _ _ _).trans ((memsOk_modPhys _ _ _).trans h)) h

theorem memsOk_intact (p : Fin 8) (ref : Nat) (hd : FlitHdr) (payload : Bytes) {s : State} (h : s.memsOk = true) :
    (intact p ref hd payload s).memsOk = true := by
  unfold intact
  extract_lets s₁ _ s₂
  have hs₁ : s₁.memsOk = true := (memsOk_modLink _ _ _).trans h
  have hs₂ : s₂.memsOk = true := memsOk_ite (memsOk_actHeader _ _ _ hs₁) hs₁
  exact memsOk_ite (memsOk_linkGoesDown _ _ _ hs₁)
      (memsOk_ite hs₂ (memsOk_ite (memsOk_linkGoesDown _ _ _ hs₂) (memsOk_ite hs₂ (memsOk_sequenced _ _ _ hs₂))))

theorem memsOk_takeFlit (p : Fin 8) (w : Bytes) {s : State} (h : s.memsOk = true) : (takeFlit p w s).memsOk = true := by
  unfold takeFlit
  extract_lets _ _ _ _ _ _ s₁
  have hs₁ : s₁.memsOk = true := (memsOk_modLink _ _ _).trans ((memsOk_modLink _ _ _).trans h)
  refine memsOk_ite h
      (memsOk_ite ((memsOk_modLink _ _ _).trans (memsOk_foldl (fun _ _ hs => memsOk_laneError _ _ hs) _ h)) ?_)
  split
  · exact memsOk_ite (memsOk_linkGoesDown _ _ _ hs₁) hs₁
  · exact memsOk_intact _ _ _ _ h
  · exact memsOk_intact _ _ _ _ h
  · exact memsOk_intact _ _ _ _ h
  · exact memsOk_intact _ _ _ _ (memsOk_rotateRx _ h)

theorem memsOk_flitReceive (t : Nat) (p : Fin 8) (w : Bytes) (laneErrs : List (Fin 9)) {s : State} (h : s.memsOk = true)
    :
    (flitReceive t p w laneErrs s).memsOk = true := by
  unfold flitReceive
  extract_lets s₁ s₂
  have hs₁ : s₁.memsOk = true := (memsOk_at _ _).trans h
  have hs₂ : s₂.memsOk = true := memsOk_ite (memsOk_foldl (fun _ _ hs => memsOk_symbolError _ _ hs) _ hs₁) hs₁
  exact memsOk_askLow _ (memsOk_takeFlit _ _ hs₂)

theorem memsOk_flitCompose (t : Nat) (p : Fin 8) {s : State} (h : s.memsOk = true) :
    (flitCompose t p s).memsOk = true :=
  memsOk_composeOne _ _ ((memsOk_at _ _).trans h)

theorem memsOk_nakResend (t : Nat) (p : Fin 8) {s : State} (h : s.memsOk = true) : (nakResend t p s).memsOk = true := by
  unfold nakResend
  extract_lets s₁ _
  have hs₁ : s₁.memsOk = true := (memsOk_at _ _).trans h
  exact memsOk_ite (memsOk_composeOne _ _ ((memsOk_modLink _ _ _).trans hs₁)) hs₁

theorem memsOk_ackTimer (t : Nat) (p : Fin 8) {s : State} (h : s.memsOk = true) : (ackTimer t p s).memsOk = true := by
  unfold ackTimer
  extract_lets s₁ _
  have hs₁ : s₁.memsOk = true := (memsOk_at _ _).trans h
  exact memsOk_ite (memsOk_composeOne _ _ hs₁) hs₁

theorem memsOk_replayTimer (t : Nat) (p : Fin 8) {s : State} (h : s.memsOk = true) :
    (replayTimer t p s).memsOk = true := by
  unfold replayTimer
  extract_lets s₁ _
  have hs₁ : s₁.memsOk = true := (memsOk_at _ _).trans h
  exact memsOk_ite (memsOk_ite (memsOk_linkGoesDown _ _ _ hs₁) ((memsOk_modLink _ _ _).trans hs₁)) hs₁

theorem memsOk_keepaliveNull (t : Nat) (p : Fin 8) {s : State} (h : s.memsOk = true) :
    (keepaliveNull t p s).memsOk = true := by
  unfold keepaliveNull
  extract_lets s₁
  have hs₁ : s₁.memsOk = true := (memsOk_at _ _).trans h
  exact memsOk_ite (memsOk_sendNull _ hs₁) hs₁

theorem memsOk_linkDownTimeout (t : Nat) (p : Fin 8) {s : State} (h : s.memsOk = true) :
    (linkDownTimeout t p s).memsOk = true := by
  unfold linkDownTimeout
  extract_lets s₁
  have hs₁ : s₁.memsOk = true := (memsOk_at _ _).trans h
  exact memsOk_ite (memsOk_linkGoesDown _ _ _ hs₁) hs₁

theorem memsOk_landingSpill (t : Nat) (p v : Fin 8) {s : State} (h : s.memsOk = true) :
    (landingSpill t p v s).memsOk = true := by
  unfold landingSpill
  extract_lets s₁
  have hs₁ : s₁.memsOk = true := (memsOk_at _ _).trans h
  split
  · exact memsOk_ite (memsOk_ite (memsOk_askLow _ (memsOk_spillOne _ _ hs₁)) (memsOk_ite hs₁ (memsOk_wedgeVc _ _ hs₁)))
        hs₁
  · exact hs₁

theorem memsOk_flitDeliver (t : Nat) (p v : Fin 8) {s : State} (h : s.memsOk = true) :
    (flitDeliver t p v s).memsOk = true := by
  unfold flitDeliver
  extract_lets s₁ _ r
  have hs₁ : s₁.memsOk = true := (memsOk_at _ _).trans h
  have hr : r.2.memsOk = true := memsOk_deliverFlit _ _ hs₁
  exact memsOk_ite hs₁ (memsOk_askLow _ (memsOk_ite hr (memsOk_linkGoesDown _ _ _ hr)))

theorem memsOk_stallTakeEffect (t : Nat) (p v : Fin 8) {s : State} (h : s.memsOk = true) :
    (stallTakeEffect t p v s).memsOk = true := by
  unfold stallTakeEffect
  extract_lets s₁
  have hs₁ : s₁.memsOk = true := (memsOk_at _ _).trans h
  split
  · exact memsOk_ite (memsOk_modTx _ _ _ hs₁) hs₁
  · exact hs₁

theorem memsOk_wedgeClear (t : Nat) (p v : Fin 8) {s : State} (h : s.memsOk = true) :
    (wedgeClear t p v s).memsOk = true := by
  unfold wedgeClear
  extract_lets s₁ _
  have hs₁ : s₁.memsOk = true := (memsOk_at _ _).trans h
  exact memsOk_ite (memsOk_modRx _ _ _ hs₁) hs₁

theorem memsOk_epochAdvance (t : Nat) (p : Fin 8) {s : State} (h : s.memsOk = true) :
    (epochAdvance t p s).memsOk = true := by
  unfold epochAdvance
  extract_lets s₁
  have hs₁ : s₁.memsOk = true := (memsOk_at _ _).trans h
  exact memsOk_ite ((memsOk_modLink _ _ _).trans hs₁) hs₁

theorem memsOk_rekeyStart (t : Nat) (p : Fin 8) {s : State} (h : s.memsOk = true) :
    (rekeyStart t p s).memsOk = true := by
  unfold rekeyStart
  extract_lets s₁ _ _ _
  have hs₁ : s₁.memsOk = true := (memsOk_at _ _).trans h
  exact memsOk_ite (memsOk_startShake _ _ hs₁) hs₁

theorem memsOk_takeShake {p : Fin 8} {code : Nat} {b : Bytes} {s s' : State} (hs : takeShake p code s = some (b, s'))
    (h : s.memsOk = true) : s'.memsOk = true := by
  obtain ⟨x, hx, he⟩ := Option.map_eq_some_iff.1 hs
  cases he
  exact memsOk_takeMsg hx h

theorem memsOk_sendProof (p : Fin 8) (role : Nat) (th : Bytes) {s : State} (h : s.memsOk = true) :
    (sendProof p role th s).memsOk = true := by
  unfold sendProof
  dsimp only
  split
  · exact memsOk_abortShake _ _ h
  · have hk := memsOk_useKey (port s p).link.identity useLink h
    split
    · exact memsOk_abortShake _ _ (memsOk_of_snd ‹_› hk)
    · exact memsOk_sendCtrl _ _ _ (memsOk_drawNat (memsOk_of_snd ‹_› hk))

theorem memsOk_takeHello (p : Fin 8) (hd : Handshake) (b : Bytes) {s : State} (h : s.memsOk = true) :
    (takeHello p hd b s).memsOk = true := by
  unfold takeHello
  extract_lets _ _ _
  refine memsOk_ite (memsOk_abortShake _ _ h) (memsOk_ite (memsOk_abortShake _ _ h) ?_)
  split
  · exact memsOk_abortShake _ _ h
  · extract_lets s₁
    have hs₁ : s₁.memsOk = true := (memsOk_modLink _ _ _).trans h
    exact memsOk_sendProof _ _ _ hs₁

theorem memsOk_dropPairs (p : Nat → Bool) {s : State} (h : s.memsOk = true) : (dropPairs p s).memsOk = true := by
  unfold dropPairs
  extract_lets _
  exact memsOk_congr h rfl rfl rfl rfl rfl

theorem memsOk_dropPorts (p : Nat → Bool) {s : State} (h : s.memsOk = true) : (dropPorts p s).memsOk = true := by
  unfold dropPorts
  refine memsOk_foldl (fun s' a hs => ?_) _ h
  extract_lets _
  exact memsOk_ite (memsOk_linkGoesDown _ _ _ hs) hs

theorem memsOk_dropTwin {s : State} (h : s.memsOk = true) : (dropTwin s).memsOk = true := by
  unfold dropTwin
  extract_lets s₁
  have hs₁ : s₁.memsOk = true := memsOk_ite (memsOk_linkGoesDown _ _ _ h) h
  exact memsOk_ite (memsOk_sessionFails hs₁) (memsOk_endPairing _ hs₁)

theorem memsOk_withdraw {s : State} (h : s.memsOk = true) : (withdraw s).memsOk = true := by
  unfold withdraw
  extract_lets _ _ s₁ s₂
  have hs₁ : s₁.memsOk = true := memsOk_dropPorts _ (memsOk_dropPairs _ h)
  have hs₂ : s₂.memsOk = true := memsOk_ite (memsOk_dropTwin hs₁) hs₁
  exact memsOk_ite h ((memsOk_modHwd _ _).trans hs₂)

theorem memsOk_secHello (t : Nat) (p : Fin 8) {s : State} (h : s.memsOk = true) : (secHello t p s).memsOk = true := by
  unfold secHello
  extract_lets s₁ l
  have hs₁ : s₁.memsOk = true := h
  split
  · exact hs₁
  · split
    · exact hs₁
    · rename_i b s₂ hb
      have hs₂ : s₂.memsOk = true := memsOk_takeShake hb hs₁
      refine memsOk_ite hs₂ (memsOk_ite (memsOk_linkGoesDown _ _ _ hs₂) (memsOk_ite (memsOk_abortShake _ _ hs₂) ?_))
      extract_lets s₃
      have hs₃ : s₃.memsOk = true := memsOk_ite (memsOk_startShake _ _ hs₂) hs₂
      split
      · exact memsOk_abortShake _ _ hs₃
      · exact memsOk_ite hs₃ (memsOk_withdraw (memsOk_takeHello _ _ _ hs₃))

theorem memsOk_secProof (t : Nat) (p : Fin 8) {s : State} (h : s.memsOk = true) : (secProof t p s).memsOk = true := by
  unfold secProof
  extract_lets s₁
  have hs₁ : s₁.memsOk = true := h
  split
  · exact hs₁
  · rename_i b s₂ hb
    have hs₂ : s₂.memsOk = true := memsOk_takeShake hb hs₁
    refine memsOk_ite hs₂ ?_
    split
    · exact memsOk_linkGoesDown _ _ _ hs₂
    · refine memsOk_ite (memsOk_linkGoesDown _ _ _ hs₂) ?_
      dsimp only
      split
      · exact memsOk_abortShake _ _ hs₂
      · exact memsOk_ite (memsOk_abortShake _ _ hs₂) (memsOk_sendCtrl _ _ _ ((memsOk_modLink _ _ _).trans hs₂))

theorem memsOk_secFinish (t : Nat) (p : Fin 8) {s : State} (h : s.memsOk = true) : (secFinish t p s).memsOk = true := by
  unfold secFinish
  extract_lets s₁
  have hs₁ : s₁.memsOk = true := h
  split
  · exact hs₁
  · rename_i b s₂ hb
    have hs₂ : s₂.memsOk = true := memsOk_takeShake hb hs₁
    refine memsOk_ite hs₂ ?_
    split
    · exact memsOk_linkGoesDown _ _ _ hs₂
    · exact memsOk_ite (memsOk_linkGoesDown _ _ _ hs₂)
        (memsOk_ite (memsOk_abortShake _ _ hs₂) (memsOk_trySwitch _ ((memsOk_modLink _ _ _).trans hs₂)))

theorem memsOk_secAbort (t : Nat) (p : Fin 8) {s : State} (h : s.memsOk = true) : (secAbort t p s).memsOk = true := by
  unfold secAbort
  extract_lets s₁
  have hs₁ : s₁.memsOk = true := h
  split
  · exact hs₁
  · have hs₂ := memsOk_takeShake ‹_› hs₁
    exact memsOk_ite hs₂ (memsOk_linkGoesDown _ _ _ hs₂)

theorem memsOk_handshakeTimeout (t : Nat) (p : Fin 8) {s : State} (h : s.memsOk = true) :
    (handshakeTimeout t p s).memsOk = true := by
  unfold handshakeTimeout
  extract_lets s₁
  have hs₁ : s₁.memsOk = true := (memsOk_at _ _).trans h
  split
  · exact memsOk_ite (memsOk_abortShake _ _ hs₁) hs₁
  · exact hs₁

theorem memsOk_prevKeyZeroise (t : Nat) (p : Fin 8) {s : State} (h : s.memsOk = true) :
    (prevKeyZeroise t p s).memsOk = true := by
  unfold prevKeyZeroise
  extract_lets s₁
  have hs₁ : s₁.memsOk = true := (memsOk_at _ _).trans h
  split
  · exact memsOk_ite ((memsOk_modLink _ _ _).trans hs₁) hs₁
  · exact hs₁

theorem memsOk_messageHoldExpire (t : Nat) {s : State} (h : s.memsOk = true) :
    (messageHoldExpire t s).memsOk = true := by
  unfold messageHoldExpire
  extract_lets s₁ _ _ s₂ s₃ _
  have hs₁ : s₁.memsOk = true := (memsOk_at _ _).trans h
  have hs₂ : s₂.memsOk = true := (memsOk_modTxn _ _).trans hs₁
  have hs₃ : s₃.memsOk = true := memsOk_foldl (fun _ _ hs => memsOk_dropHeld hs) _ hs₂
  refine memsOk_ite hs₁ (memsOk_foldl (fun s' a hs => memsOk_foldl (fun s' a hs => ?_) _ hs) _ hs₃)
  extract_lets _ s₄ _ _ s₅ s₆
  have hs₄ : s₄.memsOk = true := memsOk_modTx _ _ _ hs
  have hs₅ : s₅.memsOk = true := memsOk_ite ((memsOk_modLink _ _ _).trans hs₄) hs₄
  have hs₆ : s₆.memsOk = true := memsOk_ite hs₄ (memsOk_afterTake _ _ (memsOk_modRx _ _ _ hs₅))
  exact memsOk_foldl (fun _ _ hs => memsOk_dropHeld hs) _ hs₆

end Sys2Proof.Machine
end

section
/-! SUPPORT. The sparse memories stay canonical: lanes. -/

namespace Sys2Proof.Machine

theorem memsOk_modRxLane (p : Fin 8) (l : Fin 9) (f : RxLane → RxLane) {s : State} (h : s.memsOk = true) :
    (modRxLane p l f s).memsOk = true :=
  (memsOk_modPhys _ _ _).trans h

theorem memsOk_modTxLane (p : Fin 8) (l : Fin 9) (f : TxLane → TxLane) {s : State} (h : s.memsOk = true) :
    (modTxLane p l f s).memsOk = true :=
  (memsOk_modPhys _ _ _).trans h

theorem memsOk_reviveLanes (p : Fin 8) {s : State} (h : s.memsOk = true) : (reviveLanes p s).memsOk = true :=
  (memsOk_modPhys _ _ _).trans h

theorem memsOk_enterDetect (p : Fin 8) {s : State} (h : s.memsOk = true) : (enterDetect p s).memsOk = true := by
  unfold enterDetect
  extract_lets s₁
  have hs₁ : s₁.memsOk = true := (memsOk_modPhys _ _ _).trans h
  exact (memsOk_emit _ _).trans ((memsOk_enterPhys _ _ _ _).trans hs₁)

theorem memsOk_beginTraining (p : Fin 8) (target sf : Nat) {s : State} (h : s.memsOk = true) :
    (beginTraining p target sf s).memsOk = true :=
  memsOk_enterDetect _ ((memsOk_modPhys _ _ _).trans h)

theorem memsOk_trainingFails (p : Fin 8) {s : State} (h : s.memsOk = true) : (trainingFails p s).memsOk = true := by
  unfold trainingFails
  extract_lets _ s₁ s₂
  have hs₁ : s₁.memsOk = true := (memsOk_logErr _ _ _ _).trans h
  have hs₂ : s₂.memsOk = true := (memsOk_modPhys _ _ _).trans hs₁
  exact memsOk_finishRef _ _ _ ((memsOk_enterPhys _ _ _ _).trans hs₂)

theorem memsOk_backToDetect (p : Fin 8) {s : State} (h : s.memsOk = true) : (backToDetect p s).memsOk = true :=
  memsOk_ite (memsOk_trainingFails _ h) (memsOk_enterDetect _ ((memsOk_modPhys _ _ _).trans h))

theorem memsOk_enterAcquire (p : Fin 8) {s : State} (h : s.memsOk = true) : (enterAcquire p s).memsOk = true :=
  (memsOk_sendPortHello _ _).trans ((memsOk_drawNonce _ _).trans ((memsOk_enterPhys _ _ _ _).trans h))

theorem memsOk_enterQuiet (p : Fin 8) (symbol : Nat) {s : State} (h : s.memsOk = true) :
    (enterQuiet p symbol s).memsOk = true :=
  (memsOk_enterPhys _ _ _ _).trans ((memsOk_modPhys _ _ _).trans h)

theorem memsOk_setQuiet (p : Fin 8) (cur symbol : Nat) {s : State} (h : s.memsOk = true) :
    (setQuiet p cur symbol s).memsOk = true :=
  (memsOk_modPhys _ _ _).trans h

theorem memsOk_meetHellos (p : Fin 8) {s : State} (h : s.memsOk = true) : (meetHellos p s).memsOk = true := by
  unfold meetHellos
  extract_lets _ _
  split
  · exact h
  · extract_lets _ _ s₁ d _
    have hs₁ : s₁.memsOk = true := (memsOk_modPhys _ _ _).trans h
    have hd : d.2.memsOk = true := memsOk_drawNat hs₁
    exact memsOk_ite h
        (memsOk_ite h
        (memsOk_ite ((memsOk_sendPortHello _ _).trans ((memsOk_drawNonce _ _).trans ((memsOk_modPhys _ _ _).trans h)))
        (memsOk_ite (memsOk_setQuiet _ _ _ ((memsOk_sendMgmt _ _ _ _).trans hd)) hs₁)))

theorem memsOk_duePhase (p : Fin 8) {s : State} (h : s.memsOk = true) : (duePhase p s).memsOk = true := by
  unfold duePhase
  extract_lets _
  refine memsOk_ite h ?_
  split
  · extract_lets s₁
    have hs₁ : s₁.memsOk = true := memsOk_enterQuiet _ _ (memsOk_congr h rfl rfl rfl rfl rfl)
    exact memsOk_ite (memsOk_congr hs₁ rfl rfl rfl rfl rfl) h
  · exact memsOk_ite ((memsOk_sendPortHello _ _).trans h) h

theorem memsOk_atPort (t : Nat) (p : Fin 8) {s : State} (h : s.memsOk = true) : (atPort t p s).memsOk = true :=
  memsOk_duePhase _ ((memsOk_at _ _).trans h)

theorem memsOk_noteFrame (p : Fin 8) (f : Frame) {s : State} (h : s.memsOk = true) : (noteFrame p f s).memsOk = true :=
  (memsOk_modPhys _ _ _).trans h

theorem memsOk_onFrame (t : Nat) (p : Fin 8) (f : Frame) {k : State → State} (hk : ∀ s, s.memsOk = true → (k s).memsOk =
    true) {s : State} (h : s.memsOk = true) :
    (onFrame t p f k s).memsOk = true := by
  unfold onFrame
  extract_lets s₁
  have hs₁ : s₁.memsOk = true := memsOk_atPort _ _ h
  exact memsOk_ite (hk _ (memsOk_noteFrame _ _ hs₁)) hs₁

theorem memsOk_energyDetect (t : Nat) (p : Fin 8) (l : Fin 9) {s : State} (h : s.memsOk = true) :
    (energyDetect t p l s).memsOk = true := by
  unfold energyDetect
  extract_lets s₁ _ s₂
  have hs₁ : s₁.memsOk = true := memsOk_atPort _ _ h
  have hs₂ : s₂.memsOk = true := memsOk_modRxLane _ _ _ hs₁
  exact memsOk_ite hs₁ (memsOk_ite ((memsOk_enterPhys _ _ _ _).trans hs₂) hs₂)

theorem memsOk_wakeFromNap {s : State} (h : s.memsOk = true) : (wakeFromNap s).memsOk = true :=
  memsOk_ite h (memsOk_wakeDevice _ h)

theorem memsOk_laneQualify (t : Nat) (p : Fin 8) (l partner : Fin 9) (pat : Pilot) (inv : Bool) (timing : Nat)
    {s : State} (h : s.memsOk = true) :
    (laneQualify t p l partner pat inv timing s).memsOk = true := by
  unfold laneQualify
  extract_lets s₁ _ _ s₂
  have hs₁ : s₁.memsOk = true := memsOk_atPort _ _ h
  have hs₂ : s₂.memsOk = true := memsOk_modRxLane _ _ _ (memsOk_ite ((memsOk_enterPhys _ _ _ _).trans hs₁) hs₁)
  refine memsOk_ite hs₁ (memsOk_ite ?_ (memsOk_ite ?_ (memsOk_ite (memsOk_ite (memsOk_enterAcquire _ hs₂) hs₂) hs₁)))
  · split
    · exact memsOk_modRxLane _ _ _ ((memsOk_modPhys _ _ _).trans hs₁)
    · exact (memsOk_enterResume _ _).trans (memsOk_wakeFromNap (memsOk_modRxLane _ _ _ hs₁))
  · split
    · split
      · exact memsOk_modRxLane _ _ _ ((memsOk_enterPhys _ _ _ _).trans (memsOk_beginTraining _ _ _ hs₁))
      · exact hs₁
    · exact hs₁

theorem memsOk_falseWake (t : Nat) (p : Fin 8) (l : Fin 9) {s : State} (h : s.memsOk = true) :
    (falseWake t p l s).memsOk = true := by
  unfold falseWake
  extract_lets s₁
  have hs₁ : s₁.memsOk = true := (memsOk_at _ _).trans h
  split
  · exact memsOk_ite (memsOk_modRxLane _ _ _ ((memsOk_modPhys _ _ _).trans hs₁)) hs₁
  · exact hs₁

theorem memsOk_takeHelloMsg (p : Fin 8) (f : Frame) (m : Hello) {s : State} (h : s.memsOk = true) :
    (takeHelloMsg p f m s).memsOk = true := by
  unfold takeHelloMsg
  extract_lets _ _
  exact memsOk_ite (memsOk_meetHellos _ ((memsOk_modPhys _ _ _).trans ((memsOk_modPhys _ _ _).trans h)))
      (memsOk_ite ((memsOk_modPhys _ _ _).trans h)
      (memsOk_ite ((memsOk_modPhys _ _ _).trans ((memsOk_enterResume _ _).trans h)) h))

theorem memsOk_proposeTable (p : Fin 8) (l : Fin 9) (grade : Nat) (entries : List (BitVec 8)) (sf : Nat) {s : State}
    (h : s.memsOk = true) :
    (proposeTable p l grade entries sf s).memsOk = true := by
  unfold proposeTable
  extract_lets _ _ d s₁ _ _ _ s₂
  have hd : d.2.memsOk = true := memsOk_drawNat h
  have hs₁ : s₁.memsOk = true := hd
  have hs₂ : s₂.memsOk = true := memsOk_modRxLane _ _ _ hd
  exact memsOk_sendLaneMgmt _ _ _ _ hs₂

theorem memsOk_enterTable (p : Fin 8) {s : State} (h : s.memsOk = true) : (enterTable p s).memsOk = true := by
  unfold enterTable
  extract_lets _
  split
  · extract_lets _ s₁ _ _
    have hs₁ : s₁.memsOk = true := (memsOk_enterPhys _ _ _ _).trans ((memsOk_modPhys _ _ _).trans h)
    refine memsOk_ite h (memsOk_foldl (fun s' a hs => ?_) _ hs₁)
    extract_lets _ _ s₂
    have hs₂ : s₂.memsOk = true := memsOk_modRxLane _ _ _ hs
    exact memsOk_proposeTable _ _ _ _ _ hs₂
  · exact h

theorem memsOk_noGrade (p : Fin 8) {s : State} (h : s.memsOk = true) : (noGrade p s).memsOk = true :=
  memsOk_trainingFails _ ((memsOk_sendMgmt _ _ _ _).trans h)

theorem memsOk_phaseMsg (p : Fin 8) (st grade symbol : Nat) {s : State} (h : s.memsOk = true) :
    (phaseMsg p st grade symbol s).memsOk = true := by
  unfold phaseMsg
  extract_lets _
  exact memsOk_ite (memsOk_ite (memsOk_duePhase _ (memsOk_setQuiet _ _ _ h)) h)
      (memsOk_ite (memsOk_ite (memsOk_ite (memsOk_noGrade _ h) (memsOk_enterTable _ ((memsOk_modPhys _ _ _).trans h)))
      h) h)

theorem memsOk_takeReports (p : Fin 8) (reps : List (List ℤ)) (f : List ℤ → RxLane → RxLane) {s : State}
    (h : s.memsOk = true) :
    (takeReports p reps f s).memsOk = true :=
  memsOk_foldl (fun _ _ hs => memsOk_modRxLane _ _ _ hs) _ h

theorem memsOk_quietComplete (t : Nat) (p : Fin 8) (noise : List (List ℤ)) {s : State} (h : s.memsOk = true) :
    (quietComplete t p noise s).memsOk = true := by
  unfold quietComplete
  extract_lets s₁ _ _ s₂ s₃
  have hs₁ : s₁.memsOk = true := memsOk_atPort _ _ h
  have hs₂ : s₂.memsOk = true := (memsOk_modPhys _ _ _).trans hs₁
  have hs₃ : s₃.memsOk = true := (memsOk_modPhys _ _ _).trans hs₁
  exact memsOk_ite ((memsOk_enterPhys _ _ _ _).trans (memsOk_takeReports _ _ _ hs₂))
      (memsOk_ite (memsOk_foldl (fun _ _ hs => memsOk_modRxLane _ _ _ hs) _ hs₃) hs₁)

theorem memsOk_retable (p : Fin 8) (l : Fin 9) (snr : List ℤ) {s : State} (h : s.memsOk = true) :
    (retable p l snr s).memsOk = true := by
  unfold retable
  extract_lets _ s₁
  have hs₁ : s₁.memsOk = true := memsOk_modRxLane _ _ _ h
  split
  · exact memsOk_proposeTable _ _ _ _ _ hs₁
  · exact hs₁

theorem memsOk_probeComplete (t : Nat) (p : Fin 8) (snr : List (List ℤ)) {s : State} (h : s.memsOk = true) :
    (probeComplete t p snr s).memsOk = true := by
  unfold probeComplete
  extract_lets s₁ _ s₂ _ _ s₃
  have hs₁ : s₁.memsOk = true := memsOk_atPort _ _ h
  have hs₂ : s₂.memsOk = true := memsOk_takeReports _ _ _ hs₁
  have hs₃ : s₃.memsOk = true := (memsOk_sendMgmt _ _ _ _).trans hs₂
  exact memsOk_ite (memsOk_foldl (fun _ _ hs => memsOk_retable _ _ _ hs) _ hs₁)
      (memsOk_ite (memsOk_ite (memsOk_noGrade _ hs₃) (memsOk_enterTable _ ((memsOk_modPhys _ _ _).trans hs₃))) hs₁)

theorem memsOk_roleTx (tabled : List Nat) (p : Fin 8) {s : State} (h : s.memsOk = true) :
    (roleTx tabled p s).memsOk = true :=
  (memsOk_modPhys _ _ _).trans h

theorem memsOk_tryVerify (p : Fin 8) {s : State} (h : s.memsOk = true) : (tryVerify p s).memsOk = true := by
  unfold tryVerify
  extract_lets _ _ _
  exact memsOk_ite ((memsOk_enterPhys _ _ _ _).trans (memsOk_roleTx _ _ h)) (memsOk_ite (memsOk_roleTx _ _ h) h)

theorem memsOk_bitTable (p : Fin 8) (m : BitTable) (ackEnd : Nat) {s : State} (h : s.memsOk = true) :
    (bitTable p m ackEnd s).memsOk = true := by
  unfold bitTable
  extract_lets _ _ _ _ s₁ s₂ _
  have hs₁ : s₁.memsOk = true := memsOk_sendLaneMgmt _ _ _ _ ((memsOk_modPhys _ _ _).trans h)
  have hs₂ : s₂.memsOk = true := memsOk_ite ((memsOk_logErr _ _ _ _).trans hs₁) hs₁
  exact memsOk_ite h (memsOk_ite (memsOk_ite (memsOk_linkGoesDown _ _ _ hs₂) hs₁)
      (memsOk_ite (memsOk_sendLaneMgmt _ _ _ _ h) (memsOk_ite (memsOk_sendLaneMgmt _ _ _ _ h)
      (memsOk_sendLaneMgmt _ _ _ _ (memsOk_modTxLane _ _ _ h)))))

theorem memsOk_tableAck (p : Fin 8) (lane : Fin 9) (id : Nat) (r : TableResult) (swap : Nat) {s : State}
    (h : s.memsOk = true) :
    (tableAck p lane id r swap s).memsOk = true := by
  unfold tableAck
  split
  · exact h
  · split
    · exact h
    · refine memsOk_ite h ?_
      split
      · exact memsOk_modRxLane _ _ _ h
      · exact memsOk_proposeTable _ _ _ _ _ h
      · exact memsOk_modRxLane _ _ _ h

theorem memsOk_tableSwap (t : Nat) (p : Fin 8) (l : Fin 9) (symbol : Nat) {s : State} (h : s.memsOk = true) :
    (tableSwap t p l symbol s).memsOk = true := by
  unfold tableSwap
  extract_lets s₁
  have hs₁ : s₁.memsOk = true := (memsOk_at _ _).trans h
  split
  · exact memsOk_ite (memsOk_tryVerify _ (memsOk_modTxLane _ _ _ hs₁)) hs₁
  · exact hs₁

theorem memsOk_tableAdopt (t : Nat) (p : Fin 8) (l : Fin 9) (id symbol : Nat) {s : State} (h : s.memsOk = true) :
    (tableAdopt t p l id symbol s).memsOk = true := by
  unfold tableAdopt
  extract_lets s₁
  have hs₁ : s₁.memsOk = true := (memsOk_at _ _).trans h
  split
  · exact memsOk_ite (memsOk_tryVerify _ (memsOk_modRxLane _ _ _ hs₁)) hs₁
  · exact hs₁

theorem memsOk_tableSwapLapse (t : Nat) (p : Fin 8) (l : Fin 9) (symbol : Nat) {s : State} (h : s.memsOk = true) :
    (tableSwapLapse t p l symbol s).memsOk = true := by
  unfold tableSwapLapse
  extract_lets s₁
  have hs₁ : s₁.memsOk = true := (memsOk_at _ _).trans h
  split
  · exact memsOk_ite (memsOk_tryVerify _ (memsOk_modRxLane _ _ _ hs₁)) hs₁
  · exact hs₁

theorem memsOk_dropFailedLanes (p : Fin 8) (mask : BitVec 9) {s : State} (h : s.memsOk = true) :
    (dropFailedLanes p mask s).memsOk = true := by
  unfold dropFailedLanes
  refine memsOk_foldl (fun s' a hs => ?_) _ h
  extract_lets _ s₁
  have hs₁ : s₁.memsOk = true := memsOk_modRxLane _ _ _ hs
  refine memsOk_ite hs ?_
  split
  · exact memsOk_ite (memsOk_modRxLane _ _ _ hs₁) hs₁
  · exact hs₁

theorem memsOk_dropFailedTx (p : Fin 8) (mask : BitVec 9) {s : State} (h : s.memsOk = true) :
    (dropFailedTx p mask s).memsOk = true := by
  unfold dropFailedTx
  refine memsOk_foldl (fun s' a hs => ?_) _ h
  extract_lets _ s₁
  have hs₁ : s₁.memsOk = true := memsOk_modTxLane _ _ _ hs
  refine memsOk_ite hs ?_
  split
  · exact memsOk_ite (memsOk_modTxLane _ _ _ hs₁) hs₁
  · exact hs₁

theorem memsOk_enterLinked (p : Fin 8) {s : State} (h : s.memsOk = true) : (enterLinked p s).memsOk = true := by
  unfold enterLinked
  extract_lets _ s₁ s₂ _ s₃ s₄
  have hs₁ : s₁.memsOk = true := (memsOk_modPhys _ _ _).trans h
  have hs₂ : s₂.memsOk = true := (memsOk_enterPhys _ _ _ _).trans hs₁
  have hs₃ : s₃.memsOk = true := memsOk_ite hs₂ ((memsOk_logErr _ _ _ _).trans hs₂)
  have hs₄ : s₄.memsOk = true := memsOk_linkStart _ hs₃
  exact memsOk_finishRef _ _ _ hs₄

theorem memsOk_resumeLinked (p : Fin 8) {s : State} (h : s.memsOk = true) : (resumeLinked p s).memsOk = true := by
  unfold resumeLinked
  extract_lets s₁ s₂
  have hs₁ : s₁.memsOk = true := (memsOk_enterPhys _ _ _ _).trans h
  have hs₂ : s₂.memsOk = true := (memsOk_modPhys _ _ _).trans hs₁
  exact memsOk_pump (memsOk_announceOn _ ((memsOk_modLink _ _ _).trans hs₂))

theorem memsOk_leaveLow (p : Fin 8) {s : State} (h : s.memsOk = true) : (leaveLow p s).memsOk = true := by
  unfold leaveLow
  extract_lets _
  exact memsOk_ite h ((memsOk_logErr _ _ _ _).trans (memsOk_endLink _ h))

theorem memsOk_verifyResult (p : Fin 8) (own peer : BitVec 9) {s : State} (h : s.memsOk = true) :
    (verifyResult p own peer s).memsOk = true := by
  unfold verifyResult
  extract_lets _ _ s₁ _ s₂
  have hs₁ : s₁.memsOk = true := (memsOk_sendMgmt _ _ _ _).trans h
  have hs₂ : s₂.memsOk = true := memsOk_dropFailedTx _ _ (memsOk_dropFailedLanes _ _ hs₁)
  exact memsOk_ite (memsOk_ite (memsOk_ite (memsOk_resumeLinked _ hs₂) (memsOk_enterLinked _ hs₂))
      (memsOk_ite (memsOk_enterQuiet _ _ (memsOk_leaveLow _ hs₁)) (memsOk_backToDetect _ hs₁))) h

theorem memsOk_trainingTimeout (t : Nat) (p : Fin 8) {s : State} (h : s.memsOk = true) :
    (trainingTimeout t p s).memsOk = true := by
  unfold trainingTimeout
  extract_lets s₁ _ _ s₂ _ _
  have hs₁ : s₁.memsOk = true := memsOk_atPort _ _ h
  have hs₂ : s₂.memsOk = true := (memsOk_modPhys _ _ _).trans hs₁
  exact memsOk_ite (memsOk_ite (memsOk_finishRef _ _ _ hs₂) hs₁)
      (memsOk_ite (memsOk_ite (memsOk_ite (memsOk_enterAcquire _ hs₁) hs₁) (memsOk_ite (memsOk_backToDetect _ hs₁) hs₁))
      (memsOk_ite (memsOk_ite (memsOk_backToDetect _ hs₁) hs₁)
      (memsOk_ite (memsOk_ite (memsOk_backToDetect _ (memsOk_leaveLow _ hs₁)) hs₁) hs₁)))

theorem memsOk_listenPilot (t : Nat) (p : Fin 8) {s : State} (h : s.memsOk = true) :
    (listenPilot t p s).memsOk = true := by
  unfold listenPilot
  extract_lets s₁ _
  have hs₁ : s₁.memsOk = true := (memsOk_at _ _).trans h
  exact memsOk_ite ((memsOk_emit _ _).trans ((memsOk_modPhys _ _ _).trans hs₁)) hs₁

theorem memsOk_autoRetrain (t : Nat) (p : Fin 8) {s : State} (h : s.memsOk = true) :
    (autoRetrain t p s).memsOk = true := by
  unfold autoRetrain
  extract_lets s₁ _ s₂
  have hs₁ : s₁.memsOk = true := (memsOk_at _ _).trans h
  have hs₂ : s₂.memsOk = true := (memsOk_modPhys _ _ _).trans hs₁
  refine memsOk_ite ?_ hs₁
  split
  · split
    · exact memsOk_beginTraining _ _ _ hs₂
    · exact hs₂
  · exact hs₂

theorem memsOk_downMsg (p : Fin 8) (reason : Nat) {s : State} (h : s.memsOk = true) :
    (downMsg p reason s).memsOk = true := by
  unfold downMsg
  extract_lets _
  exact memsOk_ite h (memsOk_linkGoesDown _ _ _ h)

theorem memsOk_askRetrain (p : Fin 8) (l : Fin 9) {s : State} (h : s.memsOk = true) :
    (askRetrain p l s).memsOk = true := by
  unfold askRetrain
  extract_lets _
  exact memsOk_sendLaneMgmt _ _ _ _ h

theorem memsOk_startRetrain (p : Fin 8) (l : Fin 9) {s : State} (h : s.memsOk = true) :
    (startRetrain p l s).memsOk = true :=
  memsOk_modRxLane _ _ _ h

theorem memsOk_askSpareSwap (p : Fin 8) (l : Fin 9) {s : State} (h : s.memsOk = true) :
    (askSpareSwap p l s).memsOk = true := by
  unfold askSpareSwap
  extract_lets _ s₁
  have hs₁ : s₁.memsOk = true := memsOk_modRxLane _ _ _ h
  exact (memsOk_sendMgmt _ _ _ _).trans hs₁

theorem memsOk_snrWindowEnd (t : Nat) (p : Fin 8) (l : Fin 9) (snr : List ℤ) {s : State} (h : s.memsOk = true) :
    (snrWindowEnd t p l snr s).memsOk = true := by
  unfold snrWindowEnd
  extract_lets s₁ _ _ s₂
  have hs₁ : s₁.memsOk = true := (memsOk_at _ _).trans h
  have hs₂ : s₂.memsOk = true := memsOk_modRxLane _ _ _ hs₁
  refine memsOk_ite ?_ hs₁
  split
  · extract_lets _
    exact memsOk_ite (memsOk_proposeTable _ _ _ _ _ hs₂) hs₂
  · exact hs₂

theorem memsOk_retrainPort (p : Fin 8) {s : State} (h : s.memsOk = true) : (retrainPort p s).memsOk = true := by
  unfold retrainPort
  extract_lets _ _ s₁
  have hs₁ : s₁.memsOk = true := memsOk_linkGoesDown _ _ _ h
  split
  · exact memsOk_beginTraining _ _ _ hs₁
  · exact hs₁

theorem memsOk_degradeLane (p : Fin 8) (l : Fin 9) {s : State} (h : s.memsOk = true) :
    (degradeLane p l s).memsOk = true := by
  unfold degradeLane
  extract_lets r span begin_
  have hbegin : ∀ s : State, s.memsOk = true → (begin_ s).memsOk = true := by
    intro s h
    unfold begin_
    extract_lets s₁ s₂
    have hs₂ : s₂.memsOk = true := (memsOk_logErr _ _ _ _).trans (memsOk_modRxLane _ _ _ h)
    split
    · exact memsOk_proposeTable _ _ _ _ _ hs₂
    · exact hs₂
  split
  · exact hbegin _ h
  · have hd := fun f => memsOk_modRxLane p l f h
    exact memsOk_ite (hd _) (memsOk_ite h (memsOk_ite (memsOk_ite (memsOk_retrainPort _ (hd _)) (hd _)) (hbegin _ h)))

theorem memsOk_laneRetire (t : Nat) (p : Fin 8) (l : Fin 9) {s : State} (h : s.memsOk = true) :
    (laneRetire t p l s).memsOk = true := by
  unfold laneRetire
  extract_lets s₁ _ _ _
  have hs₁ : s₁.memsOk = true := (memsOk_at _ _).trans h
  refine memsOk_ite hs₁ ?_
  split
  · exact memsOk_ite (memsOk_askRetrain _ _ (memsOk_startRetrain _ _ (memsOk_modRxLane _ _ _ hs₁))) hs₁
  · exact memsOk_ite (memsOk_askSpareSwap _ _ hs₁) (memsOk_degradeLane _ _ hs₁)
  · exact hs₁

theorem memsOk_spareSwap (p position : Fin 8) (leaving : Fin 9) {s : State} (h : s.memsOk = true) :
    (spareSwap p position leaving s).memsOk = true := by
  unfold spareSwap
  extract_lets _
  split
  · exact memsOk_ite (memsOk_modTxLane _ _ _ (memsOk_modTxLane _ _ _ h)) h
  · exact h

theorem memsOk_spareTakeover (t : Nat) (p position : Fin 8) {s : State} (h : s.memsOk = true) :
    (spareTakeover t p position s).memsOk = true := by
  unfold spareTakeover
  extract_lets s₁
  have hs₁ : s₁.memsOk = true := (memsOk_at _ _).trans h
  split
  · extract_lets s₂
    have hs₂ : s₂.memsOk = true := memsOk_modRxLane _ _ _ hs₁
    exact memsOk_askRetrain _ _ (memsOk_modRxLane _ _ _ (memsOk_startRetrain _ _ hs₂))
  · exact hs₁

theorem memsOk_retrainTx (p : Fin 8) (lane : Fin 9) {s : State} (h : s.memsOk = true) :
    (retrainTx p lane s).memsOk = true := by
  unfold retrainTx
  extract_lets _ _
  split
  · exact memsOk_ite (memsOk_modTxLane _ _ _ (memsOk_modTxLane _ _ _ h)) h
  · exact h
  · exact h
  · exact h
  · exact memsOk_modTxLane _ _ _ h

theorem memsOk_retrainRx (p : Fin 8) (lane : Fin 9) {s : State} (h : s.memsOk = true) :
    (retrainRx p lane s).memsOk = true := by
  unfold retrainRx
  split
  · split
    · exact memsOk_ite (memsOk_askSpareSwap _ _ h) h
    · exact memsOk_startRetrain _ _ h
    · exact memsOk_startRetrain _ _ h
    · exact memsOk_startRetrain _ _ h
    · exact h
  · exact h

theorem memsOk_noteExchange (p : Fin 8) (lane : Fin 9) {s : State} (h : s.memsOk = true) :
    (noteExchange p lane s).memsOk = true := by
  unfold noteExchange
  split
  · exact memsOk_modRxLane _ _ _ h
  · exact h

theorem memsOk_retrainMsg (p : Fin 8) (lane : Fin 9) (step : Nat) {s : State} (h : s.memsOk = true) :
    (retrainMsg p lane step s).memsOk = true := by
  unfold retrainMsg
  extract_lets s₁
  have hs₁ : s₁.memsOk = true := memsOk_noteExchange _ _ (memsOk_retrainRx _ _ (memsOk_retrainTx _ _ h))
  exact memsOk_ite h (memsOk_ite (memsOk_noteExchange _ _ (memsOk_retrainTx _ _ h)) (memsOk_sendLaneMgmt _ _ _ _ hs₁))

theorem memsOk_retrainTxDone (p : Fin 8) (partner : Fin 9) (role : LaneRole) {s : State} (h : s.memsOk = true) :
    (retrainTxDone p partner role s).memsOk = true :=
  memsOk_modTxLane _ _ _ h

theorem memsOk_retrainFailed (p : Fin 8) (l partner : Fin 9) {s : State} (h : s.memsOk = true) :
    (retrainFailed p l partner s).memsOk = true := by
  unfold retrainFailed
  extract_lets _ _
  exact memsOk_ite ((memsOk_logErr _ _ _ _).trans (memsOk_retrainTxDone _ _ _ (memsOk_modRxLane _ _ _ h)))
      (memsOk_retrainTxDone _ _ _ (memsOk_modRxLane _ _ _ h))

theorem memsOk_laneRetrainDone (t : Nat) (p : Fin 8) (l : Fin 9) (passed : Bool) {s : State} (h : s.memsOk = true) :
    (laneRetrainDone t p l passed s).memsOk = true := by
  unfold laneRetrainDone
  extract_lets s₁ _ _ _ s₂
  have hs₁ : s₁.memsOk = true := (memsOk_at _ _).trans h
  have hs₂ : s₂.memsOk = true := memsOk_ite (memsOk_retrainTxDone _ _ _ (memsOk_modRxLane _ _ _ hs₁))
      (memsOk_retrainFailed _ _ _ hs₁)
  refine memsOk_ite hs₁ ?_
  split
  · exact memsOk_ite (memsOk_finishRef _ _ _ ((memsOk_modPhys _ _ _).trans hs₂)) hs₂
  · exact hs₂

theorem memsOk_laneRetrainRetry (t : Nat) (p : Fin 8) (l : Fin 9) {s : State} (h : s.memsOk = true) :
    (laneRetrainRetry t p l s).memsOk = true := by
  unfold laneRetrainRetry
  extract_lets s₁ _
  have hs₁ : s₁.memsOk = true := (memsOk_at _ _).trans h
  split
  · exact memsOk_ite (memsOk_askRetrain _ _ (memsOk_startRetrain _ _ hs₁)) hs₁
  · exact hs₁

theorem memsOk_enterLow (p : Fin 8) (ms : Nat) {s : State} (h : s.memsOk = true) : (enterLow p ms s).memsOk = true := by
  unfold enterLow
  extract_lets s₁
  have hs₁ : s₁.memsOk = true := (memsOk_modPhys _ _ _).trans h
  exact (memsOk_enterPhys _ _ _ _).trans ((memsOk_modLink _ _ _).trans hs₁)

theorem memsOk_lowEnter (p : Fin 8) (ms : Nat) {s : State} (h : s.memsOk = true) : (lowEnter p ms s).memsOk = true :=
  memsOk_ite (memsOk_enterLow _ _ ((memsOk_sendMgmt _ _ _ _).trans h)) h

theorem memsOk_lowAck (p : Fin 8) (ms : Nat) {s : State} (h : s.memsOk = true) : (lowAck p ms s).memsOk = true := by
  unfold lowAck
  extract_lets _
  exact memsOk_ite (memsOk_enterLow _ _ h) h

theorem memsOk_beaconSend (t : Nat) (p : Fin 8) {s : State} (h : s.memsOk = true) :
    (beaconSend t p s).memsOk = true := by
  unfold beaconSend
  extract_lets s₁ _
  have hs₁ : s₁.memsOk = true := (memsOk_at _ _).trans h
  exact memsOk_ite ((memsOk_emit _ _).trans ((memsOk_modPhys _ _ _).trans hs₁)) hs₁

theorem memsOk_beaconLoss (t : Nat) (p : Fin 8) {s : State} (h : s.memsOk = true) :
    (beaconLoss t p s).memsOk = true := by
  unfold beaconLoss
  extract_lets s₁ _
  have hs₁ : s₁.memsOk = true := (memsOk_at _ _).trans h
  exact memsOk_ite (memsOk_linkGoesDown _ _ _ hs₁) hs₁

end Sys2Proof.Machine
end

section
/-! SUPPORT. The sparse memories stay canonical: mailbox. -/

namespace Sys2Proof.Machine

theorem memsOk_tamper {s : State} (h : s.memsOk = true) : (tamper s).memsOk = true := by
  unfold tamper
  extract_lets s₁ s₂ s₃
  have hs₁ : s₁.memsOk = true := (memsOk_logErr _ _ _ _).trans ((memsOk_modHwd _ _).trans h)
  have hs₂ : s₂.memsOk = true := memsOk_dropPorts _ (memsOk_dropPairs _ hs₁)
  have hs₃ : s₃.memsOk = true := memsOk_ite (memsOk_dropTwin hs₂) hs₂
  exact memsOk_foldl (fun _ _ hs => memsOk_finishTicket _ _ _ _ hs) _ hs₃

theorem memsOk_verifyRequest (ch : Fin 130) (r : Request) {s : State} (h : s.memsOk = true) :
    (verifyRequest ch r s).2.2.memsOk = true := by
  unfold verifyRequest
  extract_lets k _ _ _ _ _
  have hk : k.2.2.memsOk = true := memsOk_requestKey _ h
  split
  · exact hk
  · dsimp only
    exact hk

theorem memsOk_authBlob (ch : Fin 130) (r : Request) {s : State} (h : s.memsOk = true) :
    (authBlob ch r s).2.2.memsOk = true := by
  unfold authBlob
  extract_lets _
  split
  · exact memsOk_checkBlob _ _ _ h
  · split
    · exact memsOk_checkBlob _ _ _ h
    · split
      · split
        · dsimp only
          exact h
        · split
          · dsimp only
            exact h
          · exact memsOk_checkBlob _ _ _ h
      · dsimp only
        exact h

theorem memsOk_authorise (ch : Fin 130) (c : CmdRow) (r : Request) {s : State} (h : s.memsOk = true) :
    (authorise ch c r s).2.2.memsOk = true := by
  unfold authorise
  extract_lets _ _ v b s₁ _ s₂
  have hv : v.2.2.memsOk = true := by
    unfold v
    split
    · exact memsOk_verifyRequest _ _ h
    · dsimp only
      exact h
  have hb : b.2.2.memsOk = true := memsOk_authBlob _ _ hv
  have hs₁ : s₁.memsOk = true := hb
  have hs₂ : s₂.memsOk = true := memsOk_ite (memsOk_modChan_of_req (memsOk_raiseWater _ _ hb) fun _ => rfl) hb
  split
  · dsimp only
    exact h
  · split
    · dsimp only
      exact hv
    · split
      · dsimp only
        exact hb
      · dsimp only
        exact hs₂

theorem memsOk_logRefusal (ch : Fin 130) (r : Request) (reason : Nat) {s : State} (h : s.memsOk = true) :
    (logRefusal ch r reason s).memsOk = true := by
  unfold logRefusal
  extract_lets _ _ _ _
  exact memsOk_reshare _ (memsOk_congr h rfl rfl rfl rfl rfl)

theorem memsOk_refusalResponse (t : Nat) (ch : Fin 130) {s : State} (h : s.memsOk = true) :
    (refusalResponse t ch s).memsOk = true := by
  unfold refusalResponse
  extract_lets s₁ _
  have hs₁ : s₁.memsOk = true := (memsOk_at _ _).trans h
  split
  · exact memsOk_ite (memsOk_finishChannel _ _ _ _ hs₁) hs₁
  · exact hs₁

theorem memsOk_rootStops {s : State} (h : s.memsOk = true) : (rootStops s).memsOk = true := by
  unfold rootStops
  extract_lets _
  exact memsOk_congr h rfl rfl rfl rfl rfl

theorem memsOk_takeRequest (ch : Fin 130) {s : State} (h : s.memsOk = true) : (takeRequest ch s).memsOk = true := by
  unfold takeRequest
  split
  · exact h
  · extract_lets _ s₁ _ s₂
    have hs₁ : s₁.memsOk = true := memsOk_journalAt _ _ _ _ h
    have hs₂ : s₂.memsOk = true := memsOk_modChan_of_req hs₁ fun _ => rfl
    split
    · extract_lets a s₃ _
      have ha : a.2.2.memsOk = true := memsOk_authorise _ _ _ hs₂
      have hs₃ : s₃.memsOk = true := memsOk_ite (memsOk_logRefusal _ _ _ ha) ha
      exact memsOk_withdraw (memsOk_modChan_of_req hs₃ fun _ => rfl)
    · exact memsOk_respond _ _ _ _ _ hs₂

theorem memsOk_takePosted {s : State} (h : s.memsOk = true) : (takePosted s).memsOk = true := by
  unfold takePosted
  extract_lets _ _ _
  exact memsOk_foldl (fun _ _ hs => memsOk_ite (memsOk_takeRequest _ hs) hs) _ h

theorem memsOk_releaseChan (ch : Fin 130) {s : State} (h : s.memsOk = true) : (releaseChan ch s).memsOk = true := by
  refine memsOk_modChan_of_req h fun c => ?_
  split
  · rfl
  · rfl

theorem memsOk_postChan (ch : Fin 130) {s : State} (h : s.memsOk = true) : (postChan ch s).memsOk = true := by
  unfold postChan
  extract_lets _ _ s₁
  have hs₁ : s₁.memsOk = true := memsOk_setChan h (memsOk_chan h _)
  exact memsOk_ite (memsOk_setChan h (memsOk_chan h _)) (memsOk_ite (memsOk_takeRequest _ hs₁) hs₁)

theorem memsOk_goRelease (ch : Fin 130) (alsoRelease : Bool) {s : State} (h : s.memsOk = true) :
    (goRelease ch alsoRelease s).memsOk = true :=
  memsOk_ite (memsOk_releaseChan _ (memsOk_postChan _ h)) (memsOk_postChan _ h)

theorem memsOk_go (t : Nat) (ch : Fin 130) (alsoRelease : Bool) {s : State} (h : s.memsOk = true) :
    (go t ch alsoRelease s).memsOk = true := by
  unfold go
  extract_lets s₁
  have hs₁ : s₁.memsOk = true := (memsOk_at _ _).trans h
  exact memsOk_ite (memsOk_goRelease _ _ hs₁) hs₁

theorem memsOk_release (t : Nat) (ch : Fin 130) {s : State} (h : s.memsOk = true) : (release t ch s).memsOk = true := by
  unfold release
  extract_lets s₁
  have hs₁ : s₁.memsOk = true := (memsOk_at _ _).trans h
  exact memsOk_ite (memsOk_releaseChan _ hs₁) hs₁

theorem memsOk_flushHeld (ch : Fin 130) (l : Nat) {s : State} (h : s.memsOk = true) :
    (flushHeld ch l s).memsOk = true := by
  induction l generalizing s with
  | zero => exact h
  | succ n ih =>
    unfold flushHeld
    extract_lets _
    split
    · exact h
    · extract_lets s₁
      have hs₁ : s₁.memsOk = true := memsOk_setChan h (memsOk_chan h _)
      exact memsOk_ite h (ih (memsOk_ite ((memsOk_channelIrq _ _).trans hs₁) hs₁))

theorem memsOk_moveTail (ch : Fin 130) (v : Nat) {s : State} (h : s.memsOk = true) :
    (moveTail ch v s).memsOk = true := by
  unfold moveTail
  extract_lets _
  exact memsOk_ite (memsOk_flushHeld _ _ (memsOk_setChan h (memsOk_chan h _))) (memsOk_setChan h (memsOk_chan h _))

theorem memsOk_evqTail (t : Nat) (ch : Fin 130) (v : BitVec 32) {s : State} (h : s.memsOk = true) :
    (evqTail t ch v s).memsOk = true := by
  unfold evqTail
  extract_lets s₁
  have hs₁ : s₁.memsOk = true := (memsOk_at _ _).trans h
  exact memsOk_ite (memsOk_moveTail _ _ hs₁) hs₁

theorem memsOk_getInfo (t : Nat) (ch : Fin 130) {s : State} (h : s.memsOk = true) : (getInfo t ch s).memsOk = true :=
  memsOk_onCmd (fun _ _ _ hs => memsOk_answer _ _ _ _ hs) h

theorem memsOk_getCommands (t : Nat) (ch : Fin 130) {s : State} (h : s.memsOk = true) :
    (getCommands t ch s).memsOk = true :=
  memsOk_onCmd (fun _ _ _ hs => memsOk_answer _ _ _ _ hs) h

theorem memsOk_ticketStatus (t : Nat) (ch : Fin 130) {s : State} (h : s.memsOk = true) :
    (ticketStatus t ch s).memsOk = true := by
  unfold ticketStatus
  refine memsOk_onCmd (fun r a s' hs => ?_) h
  split
  · exact memsOk_answer _ _ _ _ hs
  · exact hs

theorem memsOk_ticketResult (t : Nat) (ch : Fin 130) {s : State} (h : s.memsOk = true) :
    (ticketResult t ch s).memsOk = true := by
  unfold ticketResult
  refine memsOk_onCmd (fun r a s' hs => ?_) h
  split
  · split
    · exact memsOk_respond _ _ _ _ _ hs
    · exact memsOk_answer _ _ _ _ (memsOk_modChan_of_req hs fun _ => rfl)
  · exact hs

theorem memsOk_timeGet (t : Nat) (ch : Fin 130) {s : State} (h : s.memsOk = true) : (timeGet t ch s).memsOk = true :=
  memsOk_onCmd (fun _ _ _ hs => memsOk_answer _ _ _ _ (memsOk_journal _ _ _ hs)) h

theorem memsOk_echo (t : Nat) (ch : Fin 130) {s : State} (h : s.memsOk = true) : (echo t ch s).memsOk = true :=
  memsOk_onCmd (fun _ _ _ hs => memsOk_answer _ _ _ _ hs) h

theorem memsOk_refusalLogRead (t : Nat) (ch : Fin 130) {s : State} (h : s.memsOk = true) :
    (refusalLogRead t ch s).memsOk = true := by
  unfold refusalLogRead
  refine memsOk_onCmd (fun r a s' hs => ?_) h
  extract_lets _ _ _ _ _ _
  exact memsOk_answer _ _ _ _ hs

end Sys2Proof.Machine
end

section
/-! SUPPORT. The sparse memories stay canonical: key commands. -/

namespace Sys2Proof.Machine

theorem memsOk_keyLoad (t : Nat) (ch : Fin 130) {s : State} (h : s.memsOk = true) : (keyLoad t ch s).memsOk = true := by
  unfold keyLoad
  refine memsOk_onCmd (fun r a s' hs => ?_) h
  split
  · exact memsOk_answer _ _ _ _ hs
  · refine memsOk_ite (memsOk_answer _ _ _ _ hs) ?_
    split
    · exact memsOk_answer _ _ _ _ hs
    · split
      · exact memsOk_answer _ _ _ _ hs
      · extract_lets _ s₁ s₂
        have hs₁ : s₁.memsOk = true := (memsOk_modHwd _ _).trans hs
        have hs₂ : s₂.memsOk = true := memsOk_registerKey _ _ _ hs₁
        exact memsOk_ite (memsOk_answer _ _ _ _ hs) (memsOk_answer _ _ _ _ hs₂)

theorem memsOk_keyReplace (t : Nat) (ch : Fin 130) {s : State} (h : s.memsOk = true) :
    (keyReplace t ch s).memsOk = true := by
  unfold keyReplace
  refine memsOk_onCmd (fun r a s' hs => ?_) h
  extract_lets _ _
  split
  · exact memsOk_answer _ _ _ _ hs
  · exact memsOk_ite (memsOk_answer _ _ _ _ hs) (memsOk_ite (memsOk_answer _ _ _ _ hs) (memsOk_acceptLong _ _ _ hs))

theorem memsOk_installSwept (n : Nat) (xts : Bytes) {s : State} (h : s.memsOk = true) :
    (installSwept n xts s).memsOk = true :=
  (memsOk_modPart _ _ _).trans h

theorem memsOk_replaceKey (hd : Nat) (st : Staged) {s : State} (h : s.memsOk = true) :
    (replaceKey hd st s).2.memsOk = true := by
  unfold replaceKey
  extract_lets _
  split
  · dsimp only
    exact h
  · split
    · dsimp only
      exact h
    · extract_lets _ s₁ s₂ s₃ s₄ s₅
      have hs₁ : s₁.memsOk = true := (memsOk_modHwd _ _).trans h
      have hs₂ : s₂.memsOk = true := memsOk_ite (memsOk_bindCounter _ hs₁) hs₁
      have hs₃ : s₃.memsOk = true := memsOk_reprobe _ _ (memsOk_takeSlot _ _ _ hs₂)
      have hs₄ : s₄.memsOk = true := memsOk_foldl (fun _ _ hs => memsOk_installSwept _ _ (memsOk_countUse _ hs)) _ hs₃
      have hs₅ : s₅.memsOk = true := memsOk_foldl (fun _ _ hs => (memsOk_modLink _ _ _).trans hs) _ hs₄
      split
      · dsimp only
        exact h
      · split
        · dsimp only
          exact h
        · dsimp only
          exact memsOk_withdraw (memsOk_orphanStale hs₅)

theorem memsOk_keyDestroy (t : Nat) (ch : Fin 130) {s : State} (h : s.memsOk = true) :
    (keyDestroy t ch s).memsOk = true := by
  unfold keyDestroy
  refine memsOk_onCmd (fun r a s' hs => ?_) h
  extract_lets _
  split
  · exact memsOk_answer _ _ _ _ hs
  · extract_lets _ s₁ s₂ s₃
    have hs₁ : s₁.memsOk = true := memsOk_answer _ _ _ _ hs
    have hs₂ : s₂.memsOk = true := memsOk_writeGen _ _ hs₁
    have hs₃ : s₃.memsOk = true := memsOk_ite (memsOk_deriveLog (memsOk_setOwner _ _ hs₂))
        (memsOk_ite (memsOk_setOwner _ _ hs₂) hs₂)
    exact memsOk_ite (memsOk_answer _ _ _ _ hs) (memsOk_releaseCounter _ (memsOk_withdraw hs₃))

theorem memsOk_keyQuery (t : Nat) (ch : Fin 130) {s : State} (h : s.memsOk = true) :
    (keyQuery t ch s).memsOk = true := by
  unfold keyQuery
  refine memsOk_onCmd (fun r a s' hs => ?_) h
  split
  · extract_lets _
    exact memsOk_answer _ _ _ _ hs
  · exact memsOk_answer _ _ _ _ hs

theorem memsOk_mbxKeySet (t : Nat) (ch : Fin 130) {s : State} (h : s.memsOk = true) :
    (mbxKeySet t ch s).memsOk = true := by
  unfold mbxKeySet
  refine memsOk_onCmd (fun r a s' hs => ?_) h
  extract_lets _ _ _
  split
  · exact memsOk_answer _ _ _ _ hs
  · extract_lets _ s₁ s₂ s₃ s₄
    have hs₁ : s₁.memsOk = true := memsOk_setOwner _ _ (memsOk_raiseWater _ _ hs)
    have hs₂ : s₂.memsOk = true := memsOk_ite (memsOk_writeGen _ _ hs₁) hs₁
    have hs₃ : s₃.memsOk = true := memsOk_bindOwner _ _ hs₂
    have hs₄ : s₄.memsOk = true := memsOk_modChan_of_req hs₃ fun _ => rfl
    exact memsOk_ite (memsOk_answer _ _ _ _ hs) (memsOk_ite (memsOk_answer _ _ _ _ hs)
        (memsOk_withdraw (memsOk_answer _ _ _ _ hs₄)))

end Sys2Proof.Machine
end

section
/-! SUPPORT. The sparse memories stay canonical: link commands. -/

namespace Sys2Proof.Machine

theorem memsOk_freeStatus {s : State} (h : s.memsOk = true) : (freeStatus s).2.memsOk = true := by
  unfold freeStatus
  extract_lets d
  have hd : d.2.memsOk = true := memsOk_drawNat h
  dsimp only
  exact hd

theorem memsOk_commandDown (p : Fin 8) {s : State} (h : s.memsOk = true) : (commandDown p s).memsOk = true := by
  unfold commandDown
  extract_lets _
  exact memsOk_ite ((memsOk_modPhys _ _ _).trans h) (memsOk_linkGoesDown _ _ _ h)

theorem memsOk_linkTrain (t : Nat) (ch : Fin 130) {s : State} (h : s.memsOk = true) :
    (linkTrain t ch s).memsOk = true := by
  unfold linkTrain
  refine memsOk_onCmd (fun r a s' hs => ?_) h
  extract_lets _ _ s₁ s₂
  have hs₁ : s₁.memsOk = true := memsOk_ite (memsOk_commandDown _ hs) hs
  have hs₂ : s₂.memsOk = true := (memsOk_modPhys _ _ _).trans hs₁
  refine memsOk_ite (memsOk_answer _ _ _ _ hs) ?_
  split
  · exact memsOk_answer _ _ _ _ hs₁
  · exact memsOk_beginTraining _ _ _ (memsOk_reviveLanes _ (memsOk_acceptLong _ _ _ hs₂))

theorem memsOk_linkRetrain (t : Nat) (ch : Fin 130) {s : State} (h : s.memsOk = true) :
    (linkRetrain t ch s).memsOk = true := by
  unfold linkRetrain
  refine memsOk_onCmd (fun r a s' hs => ?_) h
  extract_lets _ _ _ f _ s₁
  have hf : f.2.memsOk = true := memsOk_freeStatus hs
  have hs₁ : s₁.memsOk = true := (memsOk_modPhys _ _ _).trans (memsOk_acceptLong _ _ _ hs)
  exact memsOk_ite (memsOk_answer _ _ _ _ hf) (memsOk_ite (memsOk_answer _ _ _ _ hs)
      (memsOk_ite (memsOk_answer _ _ _ _ hs) (memsOk_ite (memsOk_askSpareSwap _ _ hs₁)
      (memsOk_askRetrain _ _ (memsOk_startRetrain _ _ hs₁)))))

theorem memsOk_linkDown (t : Nat) (ch : Fin 130) {s : State} (h : s.memsOk = true) : (linkDown t ch s).memsOk = true :=
  memsOk_onCmd (fun _ _ _ hs => memsOk_answer _ _ _ _ (memsOk_commandDown _ hs)) h

theorem memsOk_linkStatus (t : Nat) (ch : Fin 130) {s : State} (h : s.memsOk = true) :
    (linkStatus t ch s).memsOk = true := by
  unfold linkStatus
  refine memsOk_onCmd (fun r a s' hs => ?_) h
  extract_lets _ _ _ _ _
  exact memsOk_answer _ _ _ _ hs

theorem memsOk_bootTrain (p : Fin 8) {s : State} (h : s.memsOk = true) : (bootTrain p s).memsOk = true := by
  unfold bootTrain
  extract_lets _
  split
  · exact memsOk_beginTraining _ _ _ ((memsOk_modPhys _ _ _).trans h)
  · exact (memsOk_modPhys _ _ _).trans h

theorem memsOk_linkSecuritySet (t : Nat) (ch : Fin 130) {s : State} (h : s.memsOk = true) :
    (linkSecuritySet t ch s).memsOk = true := by
  unfold linkSecuritySet
  refine memsOk_onCmd (fun r a s' hs => ?_) h
  extract_lets _ _ s₁ s₂
  have hs₁ : s₁.memsOk = true := (memsOk_modLink _ _ _).trans hs
  have hs₂ : s₂.memsOk = true := memsOk_answer _ _ _ _ hs₁
  exact memsOk_ite (memsOk_answer _ _ _ _ hs) (memsOk_ite (memsOk_bootTrain _ hs₂) hs₂)

theorem memsOk_linkRekey (t : Nat) (ch : Fin 130) {s : State} (h : s.memsOk = true) :
    (linkRekey t ch s).memsOk = true := by
  unfold linkRekey
  refine memsOk_onCmd (fun r a s' hs => ?_) h
  extract_lets _ _ f _ s₁
  have hf : f.2.memsOk = true := memsOk_freeStatus hs
  have hs₁ : s₁.memsOk = true := (memsOk_modLink _ _ _).trans hs
  exact memsOk_ite (memsOk_answer _ _ _ _ hf) (memsOk_acceptLong _ _ _ hs₁)

theorem memsOk_routeSet (t : Nat) (ch : Fin 130) {s : State} (h : s.memsOk = true) : (routeSet t ch s).memsOk = true :=
  memsOk_onCmd (fun _ _ _ hs => memsOk_answer _ _ _ _ (memsOk_pump ((memsOk_modTxn _ _).trans hs))) h

theorem memsOk_bundleSet (t : Nat) (ch : Fin 130) {s : State} (h : s.memsOk = true) :
    (bundleSet t ch s).memsOk = true := by
  unfold bundleSet
  refine memsOk_onCmd (fun r a s' hs => ?_) h
  extract_lets _ _ _
  exact memsOk_answer _ _ _ _ (memsOk_pump ((memsOk_modTxn _ _).trans hs))

end Sys2Proof.Machine
end

section
/-! SUPPORT. The sparse memories stay canonical: granules. -/

namespace Sys2Proof.Machine

theorem memsOk_mapPage (n o g : Nat) {s : State} (h : s.memsOk = true) : (mapPage n o g s).memsOk = true := by
  unfold mapPage
  extract_lets s₁ s₂
  have hs₁ : s₁.memsOk = true := memsOk_zeroGranule _ h
  have hs₂ : s₂.memsOk = true := memsOk_ite (memsOk_modMm_of_bytes hs₁ fun _ => rfl) hs₁
  exact (memsOk_modPart _ _ _).trans hs₂

theorem memsOk_mapTag (n j g : Nat) {s : State} (h : s.memsOk = true) : (mapTag n j g s).memsOk = true :=
  (memsOk_modPart _ _ _).trans (memsOk_zeroGranule _ h)

theorem memsOk_mapRun (n o k : Nat) {s : State} (h : s.memsOk = true) : (mapRun n o k s).memsOk = true := by
  unfold mapRun
  split
  · exact h
  · extract_lets _ _ s₁
    have hs₁ : s₁.memsOk = true := memsOk_foldl (fun _ _ hs => memsOk_mapPage _ _ _ hs) _ h
    exact memsOk_foldl (fun _ _ hs => memsOk_mapTag _ _ _ hs) _ hs₁

theorem memsOk_releaseGranules (gs : List Nat) {s : State} (h : s.memsOk = true) :
    (releaseGranules gs s).memsOk = true :=
  memsOk_modMm_of_bytes h fun _ => rfl

theorem memsOk_unmapRun (n o k : Nat) {s : State} (h : s.memsOk = true) : (unmapRun n o k s).memsOk = true := by
  unfold unmapRun
  split
  · exact h
  · extract_lets _ _ _ _
    exact memsOk_releaseGranules _ ((memsOk_modPart _ _ _).trans h)

theorem memsOk_allocRun {n k o : Nat} {s s' : State} (hs : allocRun n k s = some (o, s')) (h : s.memsOk = true)
    : s'.memsOk = true := by
  unfold allocRun at hs
  split at hs
  · cases hs
  · dsimp only at hs
    split at hs
    · cases hs
      exact memsOk_mapRun _ _ _ h
    · cases hs

theorem memsOk_granuleZeroised (t g : Nat) {s : State} (h : s.memsOk = true) :
    (granuleZeroised t g s).memsOk = true := by
  unfold granuleZeroised
  extract_lets s₁
  have hs₁ : s₁.memsOk = true := (memsOk_at _ _).trans h
  exact memsOk_ite (memsOk_zeroGranule _ hs₁) hs₁

theorem memsOk_lineUncorrectable (dl : Nat) {s : State} (h : s.memsOk = true) :
    (lineUncorrectable dl s).memsOk = true := by
  unfold lineUncorrectable
  split
  · extract_lets _
    exact memsOk_faultLine _ _ _ _ (memsOk_noteBadLine _ _ _ h)
  · exact memsOk_loseTags _ _ h
  · exact memsOk_noteBadLine _ _ _ (memsOk_modMm_of_bytes h fun _ => rfl)

theorem memsOk_scrubError (e : ScrubError) {s : State} (h : s.memsOk = true) : (scrubError e s).memsOk = true := by
  unfold scrubError
  extract_lets _
  exact memsOk_ite (memsOk_ite h (memsOk_congr h rfl rfl rfl rfl rfl))
      (memsOk_ite h (memsOk_ite (memsOk_ite (memsOk_correctLine _ h) (memsOk_lineUncorrectable _ h))
      (memsOk_ite (memsOk_modMm_of_bytes h fun _ => rfl) (memsOk_modMm_of_bytes h fun _ => rfl))))

theorem memsOk_scrubPass (t : Nat) (es : List ScrubError) {s : State} (h : s.memsOk = true) :
    (scrubPass t es s).memsOk = true := by
  unfold scrubPass
  extract_lets s₁ _ _ s₂
  have hs₁ : s₁.memsOk = true := (memsOk_at _ _).trans h
  have hs₂ : s₂.memsOk = true := memsOk_foldl (fun _ _ hs => memsOk_correctLine _ hs) _
      (memsOk_foldl (fun _ _ hs => memsOk_lineUncorrectable _ hs) _ hs₁)
  exact memsOk_ite hs₁ (memsOk_modMm_of_bytes (memsOk_foldl (fun _ _ hs => memsOk_scrubError _ hs) _ hs₂) fun _ => rfl)

theorem memsOk_moveGranule (g hd : Nat) {s : State} (h : s.memsOk = true) : (moveGranule g hd s).memsOk = true :=
  memsOk_modMm (memsOk_zeroGranule hd h) (Mem.wf_write _ _ (Mem.wf_clear _ _ (memsOk_bytes (memsOk_zeroGranule hd h))))

theorem memsOk_remap (g hd : Nat) {s : State} (h : s.memsOk = true) : (remap g hd s).memsOk = true := by
  unfold remap
  extract_lets _
  exact memsOk_modMm_of_bytes h fun _ => rfl

theorem memsOk_retireGranule (g hd : Nat) {s : State} (h : s.memsOk = true) : (retireGranule g hd s).memsOk = true :=
  memsOk_ite (memsOk_modMm_of_bytes h fun _ => rfl) (memsOk_ite (memsOk_remap _ _ (memsOk_moveGranule _ _ h))
      (memsOk_modMm_of_bytes (memsOk_zeroGranule _ h) fun _ => rfl))

theorem memsOk_rowRetire (t row : Nat) (repairLeft : Bool) {s : State} (h : s.memsOk = true) :
    (rowRetire t row repairLeft s).memsOk = true := by
  unfold rowRetire
  extract_lets s₁ s₂ s₃ _ _
  have hs₁ : s₁.memsOk = true := (memsOk_at _ _).trans h
  have hs₂ : s₂.memsOk = true := memsOk_countRow _ _ hs₁
  have hs₃ : s₃.memsOk = true := memsOk_modMm_of_bytes hs₂ fun _ => rfl
  refine memsOk_ite hs₁ (memsOk_ite (memsOk_modMm_of_bytes hs₃ fun _ => rfl) ?_)
  split
  · exact memsOk_modMm_of_bytes (memsOk_retireGranule _ _ hs₃) fun _ => rfl
  · exact (memsOk_logErr _ _ _ _).trans (memsOk_modMm_of_bytes hs₃ fun _ => rfl)

theorem memsOk_sweepLine (n o : Nat) {s : State} (h : s.memsOk = true) : (sweepLine n s o).memsOk = true := by
  unfold sweepLine
  extract_lets _
  split
  · exact memsOk_storeLine _ _ _ ((memsOk_modPart _ _ _).trans (memsOk_touchLine _ _ _ h))
  · exact (memsOk_modPart _ _ _).trans h
  · exact (memsOk_modPart _ _ _).trans (memsOk_failLine _ _ _ _ (memsOk_touchLine _ _ _ h))
  · exact (memsOk_modPart _ _ _).trans h

theorem memsOk_sweepDone (t : Nat) (n : Fin 128) (upTo : Nat) {s : State} (h : s.memsOk = true) :
    (sweepDone t n upTo s).memsOk = true := by
  unfold sweepDone
  extract_lets s₁
  have hs₁ : s₁.memsOk = true := (memsOk_at _ _).trans h
  split
  · exact hs₁
  · extract_lets _ s₂
    have hs₂ : s₂.memsOk = true := memsOk_foldl (fun _ _ hs => memsOk_sweepLine _ _ hs) _ hs₁
    exact memsOk_ite hs₁ (memsOk_ite ((memsOk_modPart _ _ _).trans hs₂) ((memsOk_modPart _ _ _).trans hs₂))

end Sys2Proof.Machine
end

section
/-! SUPPORT. The sparse memories stay canonical: windows. -/

namespace Sys2Proof.Machine

theorem memsOk_addExport {e : Export} {k : Nat} {s s' : State} (hs : addExport e s = some (k, s')) (h : s.memsOk = true)
    : s'.memsOk = true := by
  unfold addExport at hs
  split at hs
  · cases hs
  · cases hs
    exact (memsOk_modTxn _ _).trans h

theorem memsOk_windowExport (t : Nat) (ch : Fin 130) {s : State} (h : s.memsOk = true) :
    (windowExport t ch s).memsOk = true := by
  unfold windowExport
  refine memsOk_onCmd (fun r a s' hs => ?_) h
  dsimp only
  split
  · exact memsOk_answer _ _ _ _ (memsOk_addExport ‹_› hs)
  · exact memsOk_answer _ _ _ _ hs

theorem memsOk_freeLent (e : Export) {s : State} (h : s.memsOk = true) : (freeLent e s).memsOk = true := by
  unfold freeLent
  extract_lets s₁
  have hs₁ : s₁.memsOk = true := memsOk_unmapRun _ _ _ h
  split
  · exact memsOk_ite (memsOk_modMm_of_bytes hs₁ fun _ => rfl) hs₁
  · exact hs₁

theorem memsOk_windowRevoke (t : Nat) (ch : Fin 130) {s : State} (h : s.memsOk = true) :
    (windowRevoke t ch s).memsOk = true := by
  unfold windowRevoke
  refine memsOk_onCmd (fun r a s' hs => ?_) h
  extract_lets s₁
  have hs₁ : s₁.memsOk = true := (memsOk_modTxn _ _).trans hs
  split
  · extract_lets s₂
    have hs₂ : s₂.memsOk = true := memsOk_ite (memsOk_freeLent _ hs₁) hs₁
    exact memsOk_answer _ _ _ _ hs₂
  · exact hs

theorem memsOk_exportQuery (t chip n id : Nat) {s : State} (h : s.memsOk = true) :
    (exportQuery t chip n id s).memsOk = true := by
  unfold exportQuery
  extract_lets s₁
  have hs₁ : s₁.memsOk = true := (memsOk_at _ _).trans h
  exact memsOk_ite ((memsOk_emit _ _).trans hs₁) hs₁

theorem memsOk_addImport {n chip k : Nat} {e : ExportInfo} {plan : Bool} {s s' : State}
    (hs : addImport n chip e plan s = some (k, s'))
    (h : s.memsOk = true) : s'.memsOk = true := by
  unfold addImport at hs
  split at hs
  · cases hs
  · obtain ⟨j, -, hj⟩ := Option.map_eq_some_iff.1 hs
    cases hj
    exact (memsOk_modTxn _ _).trans h

theorem memsOk_importDone (ch : Fin 130) (r : Request) (n chip remote : Nat) (e : Option ExportInfo) {s : State}
    (h : s.memsOk = true) :
    (importDone ch r n chip remote e s).memsOk = true := by
  have ha := fun st b => memsOk_answer ch r st b h
  unfold importDone
  split
  · exact ha _ _
  · refine memsOk_ite (ha _ _) ?_
    split
    · exact memsOk_answer _ _ _ _ (memsOk_addImport ‹_› h)
    · exact ha _ _

theorem memsOk_windowImport (t : Nat) (ch : Fin 130) {s : State} (h : s.memsOk = true) :
    (windowImport t ch s).memsOk = true := by
  unfold windowImport
  refine memsOk_onCmd (fun r a s' hs => ?_) h
  extract_lets _ _ _ _ _
  exact memsOk_ite hs (memsOk_ite (memsOk_answer _ _ _ _ hs) (memsOk_ite (memsOk_importDone _ _ _ _ _ _ hs)
      ((memsOk_emit _ _).trans ((memsOk_modTxn _ _).trans hs))))

theorem memsOk_windowUnimport (t : Nat) (ch : Fin 130) {s : State} (h : s.memsOk = true) :
    (windowUnimport t ch s).memsOk = true := by
  unfold windowUnimport
  refine memsOk_onCmd (fun r a s' hs => ?_) h
  extract_lets _
  exact memsOk_ite (memsOk_answer _ _ _ _ hs) (memsOk_answer _ _ _ _ ((memsOk_modTxn _ _).trans hs))

theorem memsOk_makeLending (n : Nat) {s : State} (h : s.memsOk = true) : (makeLending n s).memsOk = true := by
  unfold makeLending
  extract_lets _
  exact memsOk_modMm_of_bytes (memsOk_genChange _ h) fun _ => rfl

theorem memsOk_lendOffer (t : Nat) (ch : Fin 130) {s : State} (h : s.memsOk = true) :
    (lendOffer t ch s).memsOk = true := by
  unfold lendOffer
  refine memsOk_onCmd (fun r a s' hs => ?_) h
  have ha := fun st b => memsOk_answer ch r st b hs
  extract_lets k
  split
  · exact ha _ _
  · refine memsOk_ite (ha _ _) (memsOk_ite (ha _ _) ?_)
    extract_lets s₁ o s₂ e
    have hs₂ : s₂.memsOk = true := memsOk_mapRun _ _ _ (memsOk_ite (memsOk_makeLending _ hs) hs)
    split
    · exact memsOk_answer _ _ _ _ (memsOk_addExport ‹_› hs₂)
    · exact memsOk_answer _ _ _ _ hs₂

theorem memsOk_writePlacement (n table i : Nat) (p : Placement) {s : State} (h : s.memsOk = true) :
    (writePlacement n table i p s).memsOk = true := by
  unfold writePlacement
  extract_lets _
  exact memsOk_takeMarks (memsOk_writeRange _ _ _ _ _ h)

theorem memsOk_releasePlan (n : Nat) {s : State} (h : s.memsOk = true) : (releasePlan n s).memsOk = true := by
  unfold releasePlan
  split
  · exact h
  · extract_lets s₁ s₂
    have hs₁ : s₁.memsOk = true := memsOk_unmapRun _ _ _ h
    have hs₂ : s₂.memsOk = true := by
      unfold s₂
      split
      · exact memsOk_dropReadAhead _ ((memsOk_modTxn _ _).trans hs₁)
      · exact hs₁
    exact (memsOk_modPart _ _ _).trans hs₂

theorem memsOk_commitPlan (n table lender slow : Nat) (ts : List (Nat × Nat)) (win : Option ExportInfo) {s : State}
    (h : s.memsOk = true) :
    (commitPlan n table lender slow ts win s).2.2.memsOk = true := by
  unfold commitPlan
  extract_lets m l s₁ imported k
  have hs₁ : s₁.memsOk = true := memsOk_releasePlan _ h
  have hi : imported.2.2.memsOk = true := by
    unfold imported
    split
    · exact hs₁
    · split
      · have hs₂ := memsOk_addImport ‹_› hs₁
        split
        · exact hs₂
        · exact hs₂
      · exact hs₁
  split
  · exact h
  · split
    · exact h
    · exact memsOk_foldl (fun _ _ hs => memsOk_writePlacement _ _ _ _ hs) _
          ((memsOk_modPart _ _ _).trans (memsOk_allocRun ‹_› hi))

theorem memsOk_decideTicket (ch : Fin 130) (num status : Nat) (result : Bytes) {s : State} (h : s.memsOk = true) :
    (decideTicket ch num status result s).memsOk = true :=
  memsOk_modChan_of_req h fun _ => rfl

theorem memsOk_finishPlan (ch : Fin 130) (r : Request) {q : Nat × Bytes × State} (h : q.2.2.memsOk = true) :
    (finishPlan ch r q).memsOk = true :=
  memsOk_ite (memsOk_acceptLong _ _ _ h) (memsOk_answer _ _ _ _ h)

theorem memsOk_planTable (ch : Fin 130) (r : Request) (n table lender id : Nat) (ts : List Tensor) {s : State}
    (h : s.memsOk = true) :
    (planTable ch r n table lender id ts s).memsOk = true := by
  unfold planTable
  extract_lets s₁ _ _ d _ s₂
  have hd : d.2.memsOk = true := memsOk_drawNat h
  have hs₂ : s₂.memsOk = true := (memsOk_modTxn _ _).trans hd
  split
  · exact h
  · extract_lets _ _ _ _ _ _
    refine memsOk_ite (memsOk_finishPlan _ _ (memsOk_commitPlan _ _ _ _ _ _ h)) (memsOk_ite (memsOk_answer _ _ _ _ h)
        (memsOk_ite (memsOk_answer _ _ _ _ h) (memsOk_ite (memsOk_answer _ _ _ _ h)
        (memsOk_ite ?_ (memsOk_acceptLong _ _ _ ((memsOk_emit _ _).trans hs₂))))))
    split
    · exact memsOk_finishPlan _ _ (memsOk_commitPlan _ _ _ _ _ _ hd)
    · exact memsOk_answer _ _ _ _ h

theorem memsOk_residencyPlan (t : Nat) (ch : Fin 130) {s : State} (h : s.memsOk = true) :
    (residencyPlan t ch s).memsOk = true := by
  unfold residencyPlan
  refine memsOk_onCmd (fun r a s' hs => ?_) h
  extract_lets _ _ _ d
  have hd : d.2.2.memsOk = true := memsOk_readRange _ _ _ _ hs
  refine memsOk_ite (memsOk_answer _ _ _ _ hd) ?_
  split
  · exact memsOk_answer _ _ _ _ hd
  · exact memsOk_planTable _ _ _ _ _ _ _ hd

theorem memsOk_exportQueryAnswer (t : Nat) (ch : Fin 130) (e : Option ExportInfo) {s : State} (h : s.memsOk = true) :
    (exportQueryAnswer t ch e s).memsOk = true := by
  unfold exportQueryAnswer
  extract_lets s₁
  have hs₁ : s₁.memsOk = true := (memsOk_at _ _).trans h
  split
  · extract_lets s₂
    have hs₂ : s₂.memsOk = true := (memsOk_modTxn _ _).trans hs₁
    refine memsOk_ite ?_ ?_
    · split
      · exact memsOk_ite (memsOk_importDone _ _ _ _ _ _ hs₂) hs₂
      · exact hs₂
    · split
      · extract_lets q
        have hq : q.2.2.memsOk = true := memsOk_commitPlan _ _ _ _ _ _ hs₂
        exact memsOk_decideTicket _ _ _ _ hq
      · exact memsOk_decideTicket _ _ _ _ hs₂
      · exact hs₂
  · exact hs₁

end Sys2Proof.Machine
end

section
/-! SUPPORT. The sparse memories stay canonical: partitions. -/

namespace Sys2Proof.Machine

theorem memsOk_zeroScratch (b : Fin 64) {s : State} (h : s.memsOk = true) : (zeroScratch b s).memsOk = true := by
  rw [memsOk_iff] at h ⊢
  obtain ⟨hb, hc, hrest⟩ := h
  exact ⟨hb, Mem.wf_clear _ _ hc, hrest⟩

theorem memsOk_giveBough (n : Nat) (b : Fin 64) {s : State} (h : s.memsOk = true) :
    (giveBough n b s).memsOk = true := by
  unfold giveBough
  extract_lets _ _
  exact (memsOk_modBough _ _ _).trans (memsOk_zeroScratch _ (memsOk_congr h rfl rfl rfl rfl rfl))

theorem memsOk_freeBough (b : Fin 64) {s : State} (h : s.memsOk = true) : (freeBough b s).memsOk = true :=
  (memsOk_modBough _ _ _).trans (memsOk_zeroScratch _ h)

theorem memsOk_makePart (a : List Nat) (xts : Option Bytes) {s : State} (h : s.memsOk = true) :
    (makePart a xts s).memsOk = true := by
  unfold makePart
  extract_lets _ s₁ _ s₂ s₃ s₄ _
  have hs₁ : s₁.memsOk = true := memsOk_genChange _ h
  have hs₂ : s₂.memsOk = true := memsOk_modMm_of_bytes hs₁ fun _ => rfl
  have hs₃ : s₃.memsOk = true := memsOk_foldl (fun _ _ hs => memsOk_giveBough _ _ hs) _ hs₂
  have hs₄ : s₄.memsOk = true := memsOk_modChan_of_req hs₃ fun _ => rfl
  exact memsOk_congr hs₄ rfl rfl rfl rfl rfl

theorem memsOk_partCreate (t : Nat) (ch : Fin 130) {s : State} (h : s.memsOk = true) :
    (partCreate t ch s).memsOk = true := by
  unfold partCreate
  refine memsOk_onCmd (fun r a s' hs => ?_) h
  extract_lets _ _ _ k s₁
  have hk : k.2.memsOk = true := by
    unfold k
    split
    · exact memsOk_useKey _ _ hs
    · dsimp only
      exact hs
  have hs₁ : s₁.memsOk = true := memsOk_makePart _ _ hk
  exact memsOk_ite (memsOk_answer _ _ _ _ hs) (memsOk_ite (memsOk_answer _ _ _ _ hs)
      (memsOk_ite (memsOk_answer _ _ _ _ hs) (memsOk_ite (memsOk_answer _ _ _ _ (memsOk_withdraw hk))
      (memsOk_acceptLong _ _ _ hs₁))))

theorem memsOk_dropHandles (ch : Nat) {s : State} (h : s.memsOk = true) : (dropHandles ch s).memsOk = true := by
  unfold dropHandles
  extract_lets _
  exact (memsOk_modHwd _ _).trans h

theorem memsOk_closePartChan (n : Fin 128) {s : State} (h : s.memsOk = true) : (closePartChan n s).memsOk = true := by
  unfold closePartChan
  extract_lets _ _ s₁
  have hs₁ : s₁.memsOk = true := memsOk_foldl (fun _ _ hs => memsOk_finishTicket _ _ _ _ hs) _ h
  exact memsOk_modChan_of_req hs₁ fun _ => rfl

theorem memsOk_dropObjects (n : Nat) {s : State} (h : s.memsOk = true) : (dropObjects n s).memsOk = true := by
  unfold dropObjects
  extract_lets _ _ s₁
  have hs₁ : s₁.memsOk = true := memsOk_congr h rfl rfl rfl rfl rfl
  exact (memsOk_modCol _ _).trans hs₁

theorem memsOk_dropWindows (n : Nat) {s : State} (h : s.memsOk = true) : (dropWindows n s).memsOk = true := by
  unfold dropWindows
  extract_lets s₁
  have hs₁ : s₁.memsOk = true := memsOk_endWindowsOf _ h
  exact (memsOk_modTxn _ _).trans hs₁

theorem memsOk_dropTombs {s : State} (h : s.memsOk = true) : (dropTombs s).memsOk = true :=
  (memsOk_modHwd _ _).trans h

theorem memsOk_destroyPart (n : Fin 128) {s : State} (h : s.memsOk = true) : (destroyPart n s).memsOk = true := by
  unfold destroyPart
  extract_lets s₁ s₂ s₃
  have hs₁ : s₁.memsOk = true := memsOk_dropWindows _ (memsOk_dropObjects _ (memsOk_stopQueues _ h))
  have hs₂ : s₂.memsOk = true := memsOk_dropHandles _ (memsOk_closePartChan _ hs₁)
  have hs₃ : s₃.memsOk = true := memsOk_dropRegions _ hs₂
  split
  · exact h
  · extract_lets s₄ s₅
    have hs₄ : s₄.memsOk = true := memsOk_releaseGranules _ hs₃
    have hs₅ : s₅.memsOk = true := memsOk_foldl (fun _ _ hs => memsOk_freeBough _ hs) _ hs₄
    exact memsOk_pump (memsOk_dropTombs (memsOk_modMm_of_bytes hs₅ fun _ => rfl))

theorem memsOk_partDestroy (t : Nat) (ch : Fin 130) {s : State} (h : s.memsOk = true) :
    (partDestroy t ch s).memsOk = true :=
  memsOk_onCmd (fun _ _ _ hs => memsOk_acceptLong _ _ _ hs) h

theorem memsOk_partQuery (t : Nat) (ch : Fin 130) {s : State} (h : s.memsOk = true) :
    (partQuery t ch s).memsOk = true := by
  unfold partQuery
  refine memsOk_onCmd (fun r a s' hs => ?_) h
  split
  · exact memsOk_answer _ _ _ _ hs
  · exact hs

theorem memsOk_memAlloc (t : Nat) (ch : Fin 130) {s : State} (h : s.memsOk = true) :
    (memAlloc t ch s).memsOk = true := by
  unfold memAlloc
  refine memsOk_onCmd (fun r a s' hs => ?_) h
  split
  · exact memsOk_answer _ _ _ _ (memsOk_allocRun ‹_› hs)
  · exact memsOk_answer _ _ _ _ hs

theorem memsOk_memFree (t : Nat) (ch : Fin 130) {s : State} (h : s.memsOk = true) : (memFree t ch s).memsOk = true := by
  unfold memFree
  refine memsOk_onCmd (fun r a s' hs => ?_) h
  extract_lets _ _
  exact memsOk_ite (memsOk_answer _ _ _ _ hs) (memsOk_answer _ _ _ _ (memsOk_unmapRun _ _ _ hs))

theorem memsOk_memStatus (t : Nat) (ch : Fin 130) {s : State} (h : s.memsOk = true) :
    (memStatus t ch s).memsOk = true :=
  memsOk_onCmd (fun _ _ _ hs => memsOk_answer _ _ _ _ hs) h

theorem memsOk_zeroSlots (n : Nat) (x : Queue) {s : State} (h : s.memsOk = true) : (zeroSlots n x s).memsOk = true := by
  unfold zeroSlots
  extract_lets _
  exact memsOk_ite ((memsOk_emit _ _).trans h) (memsOk_takeMarks (memsOk_writeRange _ _ _ _ _ h))

theorem memsOk_queueCreate (t : Nat) (ch : Fin 130) {s : State} (h : s.memsOk = true) :
    (queueCreate t ch s).memsOk = true := by
  unfold queueCreate
  refine memsOk_onCmd (fun r a s' hs => ?_) h
  extract_lets _ _ _ s₁ _ s₂
  have hs₁ : s₁.memsOk = true := memsOk_zeroSlots _ _ hs
  have hs₂ : s₂.memsOk = true := memsOk_congr hs₁ rfl rfl rfl rfl rfl
  exact memsOk_ite (memsOk_answer _ _ _ _ hs) (memsOk_ite (memsOk_answer _ _ _ _ hs)
      (memsOk_answer _ _ _ _ (memsOk_checkpoint _ _ _ hs₂)))

theorem memsOk_queueDestroy (t : Nat) (ch : Fin 130) {s : State} (h : s.memsOk = true) :
    (queueDestroy t ch s).memsOk = true :=
  memsOk_onCmd (fun _ _ _ hs => memsOk_answer _ _ _ _ (memsOk_stopQueue _ _ hs)) h

theorem memsOk_queueState (n q : Nat) {s : State} (h : s.memsOk = true) : (queueState s n q).2.memsOk = true := by
  unfold queueState
  extract_lets d
  have hd : d.2.memsOk = true := memsOk_drawNat h
  split
  · dsimp only
    exact h
  · split
    · dsimp only
      exact h
    · split
      · dsimp only
        exact h
      · split
        · dsimp only
          exact h
        · split
          · dsimp only
            exact h
          · split
            · dsimp only
              exact hd
            · split
              · dsimp only
                exact h
              · dsimp only
                exact h

theorem memsOk_queueQuery (t : Nat) (ch : Fin 130) {s : State} (h : s.memsOk = true) :
    (queueQuery t ch s).memsOk = true := by
  unfold queueQuery
  refine memsOk_onCmd (fun r a s' hs => ?_) h
  extract_lets _ st
  have hst : st.2.memsOk = true := memsOk_queueState _ _ hs
  split
  · exact memsOk_answer _ _ _ _ hst
  · exact hs

end Sys2Proof.Machine
end

section
/-! SUPPORT. The sparse memories stay canonical: objects of the token engine and groups. -/

namespace Sys2Proof.Machine

theorem memsOk_readTableOf (n o len : Nat) {s : State} (h : s.memsOk = true) :
    (readTableOf n o len s).2.2.memsOk = true :=
  memsOk_readRange _ _ _ _ h

theorem memsOk_makeGroup (ch : Fin 130) (r : Request) (n alg m : Nat) (b : Bytes) {s : State} (h : s.memsOk = true) :
    (makeGroup ch r n alg m b s).memsOk = true := by
  unfold makeGroup
  extract_lets _ _ _ _
  refine memsOk_ite (memsOk_answer _ _ _ _ h) (memsOk_ite (memsOk_answer _ _ _ _ h) ?_)
  split
  · exact memsOk_answer _ _ _ _ h
  · exact memsOk_ite (memsOk_answer _ _ _ _ h) (memsOk_answer _ _ _ _ ((memsOk_modCol _ _).trans h))

theorem memsOk_groupCreate (t : Nat) (ch : Fin 130) {s : State} (h : s.memsOk = true) :
    (groupCreate t ch s).memsOk = true := by
  unfold groupCreate
  refine memsOk_onCmd (fun r a s' hs => ?_) h
  extract_lets x
  have hx : x.2.2.memsOk = true := memsOk_readTableOf _ _ _ hs
  exact memsOk_ite (memsOk_answer _ _ _ _ hx) (memsOk_makeGroup _ _ _ _ _ _ hx)

theorem memsOk_groupDestroy (t : Nat) (ch : Fin 130) {s : State} (h : s.memsOk = true) :
    (groupDestroy t ch s).memsOk = true := by
  unfold groupDestroy
  refine memsOk_onCmd (fun r a s' hs => ?_) h
  split
  · exact memsOk_ite (memsOk_answer _ _ _ _ hs) (memsOk_answer _ _ _ _ ((memsOk_modCol _ _).trans hs))
  · exact hs

theorem memsOk_groupQuery (t : Nat) (ch : Fin 130) {s : State} (h : s.memsOk = true) :
    (groupQuery t ch s).memsOk = true := by
  unfold groupQuery
  refine memsOk_onCmd (fun r a s' hs => ?_) h
  split
  · exact memsOk_answer _ _ _ _ hs
  · exact hs

theorem memsOk_takeTkeId {s : State} (h : s.memsOk = true) : (takeTkeId s).2.memsOk = true := by
  unfold takeTkeId
  dsimp only
  exact (memsOk_modTke _ _).trans h

theorem memsOk_loadVocab (ch : Fin 130) (r : Request) (n o len : Nat) (img : Bytes) {s : State} (h : s.memsOk = true) :
    (loadVocab ch r n o len img s).memsOk = true := by
  unfold loadVocab
  extract_lets i _
  have hi : i.2.memsOk = true := memsOk_takeTkeId h
  exact memsOk_ite (memsOk_answer _ _ _ _ h) (memsOk_ite (memsOk_answer _ _ _ _ h)
      (memsOk_acceptLong _ _ _ ((memsOk_modTke _ _).trans hi)))

theorem memsOk_vocabLoad (t : Nat) (ch : Fin 130) {s : State} (h : s.memsOk = true) :
    (vocabLoad t ch s).memsOk = true := by
  unfold vocabLoad
  refine memsOk_onCmd (fun r a s' hs => ?_) h
  extract_lets x
  have hx : x.2.2.memsOk = true := memsOk_readTableOf _ _ _ hs
  exact memsOk_ite (memsOk_answer _ _ _ _ hx) (memsOk_loadVocab _ _ _ _ _ _ hx)

theorem memsOk_loadGrammar (ch : Fin 130) (r : Request) (v : Image) (a : List Nat) (img : Bytes) {s : State}
    (h : s.memsOk = true) :
    (loadGrammar ch r v a img s).memsOk = true := by
  unfold loadGrammar
  extract_lets i _
  have hi : i.2.memsOk = true := memsOk_takeTkeId h
  exact memsOk_ite (memsOk_answer _ _ _ _ h) (memsOk_ite (memsOk_answer _ _ _ _ h)
      (memsOk_acceptLong _ _ _ ((memsOk_modTke _ _).trans hi)))

theorem memsOk_grammarLoad (t : Nat) (ch : Fin 130) {s : State} (h : s.memsOk = true) :
    (grammarLoad t ch s).memsOk = true := by
  unfold grammarLoad
  refine memsOk_onCmd (fun r a s' hs => ?_) h
  split
  · extract_lets h₁ x
    have hh₁ : h₁.2.2.memsOk = true := memsOk_readHdr _ hs
    have hx : x.2.2.memsOk = true := memsOk_readTableOf _ _ _ hh₁
    exact memsOk_ite (memsOk_answer _ _ _ _ hx) (memsOk_loadGrammar _ _ _ _ _ hx)
  · exact hs

theorem memsOk_grammarUnload (t : Nat) (ch : Fin 130) {s : State} (h : s.memsOk = true) :
    (grammarUnload t ch s).memsOk = true :=
  memsOk_onCmd (fun _ _ _ hs => memsOk_ite (memsOk_answer _ _ _ _ hs)
      (memsOk_answer _ _ _ _ ((memsOk_modTke _ _).trans hs))) h

theorem memsOk_startState (g : Nat) {s : State} (h : s.memsOk = true) : (startState s g).2.2.memsOk = true := by
  unfold startState
  split
  · extract_lets h₁
    have hh₁ : h₁.2.2.memsOk = true := memsOk_readHdr _ h
    dsimp only
    exact hh₁
  · dsimp only
    exact h

theorem memsOk_openStream (ch : Fin 130) (r : Request) (v : Image) (a : List Nat) (b : Bytes) {s₀ : State}
    (h : s₀.memsOk = true) :
    (openStream ch r v a b s₀).memsOk = true := by
  unfold openStream
  extract_lets _ st s₁ _
  have hst : st.2.2.memsOk = true := memsOk_startState _ h
  have hs₁ : s₁.memsOk = true := hst
  split
  · exact memsOk_answer _ _ _ _ hst
  · extract_lets _
    refine memsOk_ite (memsOk_answer _ _ _ _ hst) ?_
    split
    · exact memsOk_answer _ _ _ _ hst
    · extract_lets s₂ s₃
      have hs₂ : s₂.memsOk = true := (memsOk_modTke _ _).trans hst
      have hs₃ : s₃.memsOk = true := memsOk_journal _ _ _ hs₂
      exact memsOk_answer _ _ _ _ (memsOk_reachConf _ hs₃)

theorem memsOk_streamOpen (t : Nat) (ch : Fin 130) {s : State} (h : s.memsOk = true) :
    (streamOpen t ch s).memsOk = true := by
  unfold streamOpen
  refine memsOk_onCmd (fun r a s' hs => ?_) h
  split
  · extract_lets x
    have hx : x.2.2.memsOk = true := by
      unfold x
      split
      · dsimp only
        exact hs
      · exact memsOk_readTableOf _ _ _ hs
    exact memsOk_ite (memsOk_answer _ _ _ _ hx) (memsOk_openStream _ _ _ _ _ hx)
  · exact hs

theorem memsOk_streamClose (t : Nat) (ch : Fin 130) {s : State} (h : s.memsOk = true) :
    (streamClose t ch s).memsOk = true := by
  unfold streamClose
  refine memsOk_onCmd (fun r a s' hs => ?_) h
  extract_lets _ s₁
  have hs₁ : s₁.memsOk = true := memsOk_dropReadAhead _ (memsOk_dropBuilt _ hs)
  exact memsOk_ite (memsOk_answer _ _ _ _ hs) (memsOk_answer _ _ _ _ ((memsOk_modTke _ _).trans hs₁))

end Sys2Proof.Machine
end

section
/-! SUPPORT. The sparse memories stay canonical: grove commands. -/

namespace Sys2Proof.Machine

theorem memsOk_takeChipId (c trunk : Nat) {s : State} (h : s.memsOk = true) : (takeChipId c trunk s).memsOk = true := by
  unfold takeChipId
  extract_lets _ s₁ s₂
  have hs₁ : s₁.memsOk = true := memsOk_ite ((memsOk_modGrv _ _).trans h) h
  have hs₂ : s₂.memsOk = true := (memsOk_modGrv _ _).trans ((memsOk_modTxn _ _).trans hs₁)
  exact memsOk_ite (memsOk_announce hs₂) hs₂

theorem memsOk_groveJoin (t : Nat) (ch : Fin 130) {s : State} (h : s.memsOk = true) :
    (groveJoin t ch s).memsOk = true := by
  unfold groveJoin
  refine memsOk_onCmd (fun r a s' hs => ?_) h
  extract_lets _ s₁ s₂ _
  have hs₁ : s₁.memsOk = true := memsOk_takeChipId _ _ hs
  have hs₂ : s₂.memsOk = true := memsOk_enterMember _ _ _ _ ((memsOk_modGrv _ _).trans hs₁)
  exact memsOk_ite (memsOk_acceptLong _ _ _ hs₂)
      (memsOk_sendJoin (memsOk_acceptLong _ _ _ ((memsOk_modGrv _ _).trans hs₁)))

theorem memsOk_endTwin {s : State} (h : s.memsOk = true) : (endTwin s).memsOk = true :=
  memsOk_ite (memsOk_endPairing _ (memsOk_sessionFails h)) (memsOk_endPairing _ h)

theorem memsOk_groveLeave (t : Nat) (ch : Fin 130) {s : State} (h : s.memsOk = true) :
    (groveLeave t ch s).memsOk = true := by
  unfold groveLeave
  refine memsOk_onCmd (fun r a s' hs => ?_) h
  extract_lets s₁ s₂ s₃ s₄
  have hs₁ : s₁.memsOk = true := memsOk_ite (memsOk_sendRouted _ _ _ _ hs) hs
  have hs₂ : s₂.memsOk = true := memsOk_synthesiseAll _ _ hs₁
  have hs₃ : s₃.memsOk = true := memsOk_foldl (fun _ _ hs => memsOk_breakGroup _ _ hs) _ hs₂
  have hs₄ : s₄.memsOk = true := memsOk_unassign (memsOk_endTwin hs₃)
  exact memsOk_pump (memsOk_acceptLong _ _ _ ((memsOk_modGrv _ _).trans hs₄))

theorem memsOk_peerNotify (t : Nat) (ch : Fin 130) {s : State} (h : s.memsOk = true) :
    (peerNotify t ch s).memsOk = true :=
  memsOk_onCmd (fun _ _ _ hs => memsOk_relayNotice _ _ _ (memsOk_answer _ _ _ _ (memsOk_applyNotice _ _ _ hs))) h

theorem memsOk_twinPair (t : Nat) (ch : Fin 130) {s : State} (h : s.memsOk = true) :
    (twinPair t ch s).memsOk = true := by
  unfold twinPair
  refine memsOk_onCmd (fun r a s' hs => memsOk_ite (memsOk_acceptLong _ _ _ (memsOk_endTwin hs))
      (memsOk_ite (memsOk_answer _ _ _ _ hs) ?_)) h
  extract_lets _
  exact memsOk_startSession (memsOk_acceptLong _ _ _ ((memsOk_modTwn _ _).trans hs))

theorem memsOk_mirrorRemove (ch : Fin 130) (r : Request) (n o : Nat) {s : State} (h : s.memsOk = true) :
    (mirrorRemove ch r n o s).memsOk = true := by
  unfold mirrorRemove
  extract_lets _ _
  exact memsOk_answer _ _ _ _ (memsOk_dropRegions _ h)

theorem memsOk_mirrorSet (t : Nat) (ch : Fin 130) {s : State} (h : s.memsOk = true) :
    (mirrorSet t ch s).memsOk = true := by
  unfold mirrorSet
  refine memsOk_ite ((memsOk_at _ _).trans h) (memsOk_onCmd (fun r a s' hs => ?_) h)
  extract_lets _ _ _ _ _ s₁ _
  have hs₁ : s₁.memsOk = true := (memsOk_modTwn _ _).trans hs
  exact memsOk_ite (memsOk_mirrorRemove _ _ _ _ hs) (memsOk_ite (memsOk_answer _ _ _ _ hs)
      (memsOk_ite (memsOk_answer _ _ _ _ hs) (memsOk_sendTagged _ _ hs₁)))

theorem memsOk_twinFailover (t : Nat) (ch : Fin 130) {s : State} (h : s.memsOk = true) :
    (twinFailover t ch s).memsOk = true := by
  unfold twinFailover
  refine memsOk_onCmd (fun r a s' hs => memsOk_ite ?_ ?_) h
  · extract_lets _
    exact memsOk_sendTagged _ _ (memsOk_acceptLong _ _ _ ((memsOk_modTwn _ _).trans hs))
  · extract_lets _ s₁ s₂
    have hs₁ : s₁.memsOk = true := memsOk_failover hs
    have hs₂ : s₂.memsOk = true := memsOk_ite (memsOk_sendStale hs₁) hs₁
    exact memsOk_acceptLong _ _ _ hs₂

end Sys2Proof.Machine
end

section
/-! SUPPORT. The sparse memories stay canonical: observation. -/

namespace Sys2Proof.Machine

theorem memsOk_traceAt (time u ty aux data : Nat) {s : State} (h : s.memsOk = true) :
    (traceAt time u ty aux data s).memsOk = true := by
  unfold traceAt
  extract_lets s₁
  have hs₁ : s₁.memsOk = true := (memsOk_traceRec _ _ _ _ _).trans (memsOk_congr h rfl rfl rfl rfl rfl)
  exact memsOk_congr hs₁ rfl rfl rfl rfl rfl

theorem memsOk_counterConfig (t : Nat) (ch : Fin 130) {s : State} (h : s.memsOk = true) :
    (counterConfig t ch s).memsOk = true :=
  memsOk_onCmd (fun _ _ _ hs => memsOk_answer _ _ _ _ ((memsOk_modBoughCtr _ _ _).trans (memsOk_growCounters _ hs))) h

theorem memsOk_armFreeze {s : State} (h : s.memsOk = true) : (armFreeze s).memsOk = true :=
  memsOk_modObs_of_maps h fun _ => rfl

theorem memsOk_nowFreeze {s : State} (h : s.memsOk = true) : (nowFreeze s).memsOk = true :=
  memsOk_armFreeze (memsOk_modObs_of_maps h fun _ => rfl)

theorem memsOk_armThaw {s : State} (h : s.memsOk = true) : (armThaw s).memsOk = true :=
  memsOk_modObs_of_maps h fun _ => rfl

theorem memsOk_freezeTimeReached (t : Nat) (b : Fin 64) {s : State} (h : s.memsOk = true) :
    (freezeTimeReached t b s).memsOk = true := by
  unfold freezeTimeReached
  extract_lets s₁ _
  have hs₁ : s₁.memsOk = true := (memsOk_at _ _).trans h
  exact memsOk_ite hs₁ ((memsOk_modBoughCtr _ _ _).trans (memsOk_growCounters _ hs₁))

theorem memsOk_traceConfig (t : Nat) (ch : Fin 130) {s : State} (h : s.memsOk = true) :
    (traceConfig t ch s).memsOk = true := by
  unfold traceConfig
  refine memsOk_onCmd (fun r a s' hs => ?_) h
  extract_lets _ _ _
  exact memsOk_answer _ _ _ _ (memsOk_modObs_of_maps hs fun _ => rfl)

theorem memsOk_ringRead (t : Nat) (ch : Fin 130) {s : State} (h : s.memsOk = true) : (ringRead t ch s).memsOk = true :=
  memsOk_onCmd (fun _ _ _ hs => memsOk_answer _ _ _ _ hs) h

theorem memsOk_journalConfig (t : Nat) (ch : Fin 130) {s : State} (h : s.memsOk = true) :
    (journalConfig t ch s).memsOk = true := by
  refine memsOk_onCmd (fun r a s' hs => ?_) h
  exact memsOk_answer _ _ _ _ (memsOk_modMm_of_bytes hs fun _ => rfl)

theorem memsOk_drainOne (u : Nat) (b : Bytes) {s : State} (h : s.memsOk = true) : (drainOne u b s).memsOk = true := by
  unfold drainOne
  extract_lets _ _ s₁
  have hs₁ : s₁.memsOk = true := memsOk_rawWrite _ _ h
  exact memsOk_modObs_of_maps hs₁ fun _ => rfl

theorem memsOk_drainUnit (u : Nat) {s : State} (h : s.memsOk = true) : (drainUnit u s).memsOk = true := by
  unfold drainUnit
  extract_lets _ _ s₁
  have hs₁ : s₁.memsOk = true := memsOk_foldl (fun _ _ hs => memsOk_drainOne _ _ hs) _
      (memsOk_modObs_of_maps h fun _ => rfl)
  exact memsOk_ite hs₁ ((memsOk_traceRec _ _ _ _ _).trans (memsOk_modObs_of_maps hs₁ fun _ => rfl))

theorem memsOk_traceDrain (t : Nat) (u : Fin 82) {s : State} (h : s.memsOk = true) :
    (traceDrain t u s).memsOk = true := by
  unfold traceDrain
  extract_lets s₁ _ _
  have hs₁ : s₁.memsOk = true := (memsOk_at _ _).trans h
  exact memsOk_ite (memsOk_drainUnit _ hs₁) hs₁

theorem memsOk_exportOne (b : Bytes) {s : State} (h : s.memsOk = true) : (exportOne b s).memsOk = true := by
  unfold exportOne
  extract_lets _
  exact (memsOk_emit _ _).trans (memsOk_modObs_of_maps h fun _ => rfl)

theorem memsOk_traceExport (t : Nat) {s : State} (h : s.memsOk = true) : (traceExport t s).memsOk = true := by
  unfold traceExport
  extract_lets s₁ _ _
  have hs₁ : s₁.memsOk = true := (memsOk_at _ _).trans h
  exact memsOk_ite hs₁ (memsOk_foldl (fun _ _ hs => memsOk_exportOne _ hs) _ (memsOk_modObs_of_maps hs₁ fun _ => rfl))

theorem memsOk_modHart (hd : Hart) (f : HartState → HartState) {s : State} (h : s.memsOk = true) :
    (modHart hd f s).memsOk = true := by
  unfold modHart
  split
  · exact memsOk_modObs_of_maps h fun _ => rfl
  · exact memsOk_modObs_of_maps h fun _ => rfl

theorem memsOk_pcSample (t : Nat) (u : Fin 82) (pc : BitVec 32) (stall : Nat) {s : State} (h : s.memsOk = true) :
    (pcSample t u pc stall s).memsOk = true := by
  unfold pcSample
  extract_lets s₁ s₂
  have hs₁ : s₁.memsOk = true := (memsOk_at _ _).trans h
  have hs₂ : s₂.memsOk = true := memsOk_modObs_of_maps hs₁ fun _ => rfl
  split
  · exact hs₁
  · extract_lets _
    exact memsOk_ite hs₁ ((memsOk_traceRec _ _ _ _ _).trans hs₂)

theorem memsOk_syncTx (t : Nat) (p : Fin 8) {s : State} (h : s.memsOk = true) : (syncTx t p s).memsOk = true := by
  unfold syncTx
  extract_lets s₁ _ _ _
  have hs₁ : s₁.memsOk = true := (memsOk_at _ _).trans h
  exact memsOk_ite hs₁ ((memsOk_queueMsg _ _ _ _ _ _ _).trans ((memsOk_modLink _ _ _).trans hs₁))

theorem memsOk_syncRx (t : Nat) {s : State} (h : s.memsOk = true) : (syncRx t s).memsOk = true := by
  unfold syncRx
  extract_lets s₁
  have hs₁ : s₁.memsOk = true := (memsOk_at _ _).trans h
  split
  · exact hs₁
  · extract_lets _
    split
    · exact memsOk_takeMsg ‹_› hs₁
    · exact memsOk_traceAt _ _ _ _ _ (memsOk_traceAt _ _ _ _ _ (memsOk_takeMsg ‹_› hs₁))

theorem memsOk_cutArm (t : Nat) (ch : Fin 130) {s : State} (h : s.memsOk = true) : (cutArm t ch s).memsOk = true := by
  unfold cutArm
  extract_lets _
  refine memsOk_onCmd (fun r a s' hs => memsOk_ite (memsOk_answer _ _ _ _ hs) ?_) h
  extract_lets _
  exact memsOk_answer _ _ _ _ ((memsOk_modCut _ _).trans hs)

theorem memsOk_cutRecords (ty : Nat) {s : State} (h : s.memsOk = true) : (cutRecords ty s).memsOk = true :=
  memsOk_foldl (fun _ _ hs => (memsOk_traceRec _ _ _ _ _).trans hs) _ h

theorem memsOk_fireCut (origin hops : Nat) {s : State} (h : s.memsOk = true) :
    (fireCut origin hops s).memsOk = true := by
  unfold fireCut
  extract_lets d
  have hd : d.2.memsOk = true := memsOk_drawNat h
  exact memsOk_ite h (memsOk_cutRecords _ ((memsOk_modCut _ _).trans hd))

theorem memsOk_fireHere {s : State} (h : s.memsOk = true) : (fireHere s).memsOk = true :=
  memsOk_fireCut _ _ h

theorem memsOk_fire (t : Nat) {s : State} (h : s.memsOk = true) : (fire t s).memsOk = true :=
  memsOk_fireHere ((memsOk_at _ _).trans h)

theorem memsOk_cutTaken (t : Nat) {s : State} (h : s.memsOk = true) : (cutTaken t s).memsOk = true := by
  unfold cutTaken
  extract_lets s₁ s₂ _ _
  have hs₁ : s₁.memsOk = true := (memsOk_at _ _).trans h
  have hs₂ : s₂.memsOk = true := (memsOk_modCut _ _).trans hs₁
  exact memsOk_ite hs₁
      (memsOk_foldl (fun _ _ hs => memsOk_ite ((memsOk_queueMsg _ _ _ _ _ _ _).trans ((memsOk_modCut _ _).trans hs)) hs)
      _ hs₂)

theorem memsOk_marker (t : Nat) {s : State} (h : s.memsOk = true) : (marker t s).memsOk = true := by
  unfold marker
  extract_lets s₁
  have hs₁ : s₁.memsOk = true := (memsOk_at _ _).trans h
  split
  · exact hs₁
  · extract_lets _ _
    split
    · exact memsOk_takeMsg ‹_› hs₁
    · extract_lets s₂
      have hs₂ : s₂.memsOk = true := (memsOk_modCut _ _).trans (memsOk_takeMsg ‹_› hs₁)
      exact memsOk_ite (memsOk_fireCut _ _ hs₂) ((memsOk_modCut _ _).trans (memsOk_takeMsg ‹_› hs₁))

theorem memsOk_freshBeats {s : State} (h : s.memsOk = true) : (freshBeats s).memsOk = true := by
  unfold freshBeats
  extract_lets _
  exact memsOk_congr h rfl rfl rfl rfl rfl

theorem memsOk_resumeTimers (since : Nat) {s : State} (h : s.memsOk = true) : (resumeTimers since s).memsOk = true := by
  unfold resumeTimers
  extract_lets _ _ s₁ s₂ _ _ s₃
  have hs₁ : s₁.memsOk = true := (memsOk_modTxn _ _).trans h
  have hs₂ : s₂.memsOk = true := (memsOk_modCol _ _).trans hs₁
  have hs₃ : s₃.memsOk = true := memsOk_foldl (fun _ _ hs => (memsOk_modLink _ _ _).trans hs) _ hs₂
  exact memsOk_freshBeats hs₃

theorem memsOk_releaseCut {s : State} (h : s.memsOk = true) : (releaseCut s).memsOk = true := by
  unfold releaseCut
  extract_lets _ s₁ s₂ s₃ s₄
  have hs₁ : s₁.memsOk = true := (memsOk_modCut _ _).trans h
  have hs₂ : s₂.memsOk = true := memsOk_ite (memsOk_resumeTimers _ hs₁) hs₁
  have hs₃ : s₃.memsOk = true := memsOk_cutRecords _ hs₂
  have hs₄ : s₄.memsOk = true := memsOk_foldl (fun _ _ hs => memsOk_settlePort _ hs) _ hs₃
  exact memsOk_mirrorResume ((memsOk_modCut _ _).trans hs₄)

theorem memsOk_cutRelease (t : Nat) (ch : Fin 130) {s : State} (h : s.memsOk = true) :
    (cutRelease t ch s).memsOk = true :=
  memsOk_onCmd (fun _ _ _ hs => memsOk_answer _ _ _ _ (memsOk_ite ((memsOk_modCut _ _).trans hs)
      (memsOk_releaseCut hs))) h

end Sys2Proof.Machine
end

section
/-! SUPPORT. The sparse memories stay canonical: debug. -/

namespace Sys2Proof.Machine

theorem memsOk_resumeLimits (pause : Nat) {s : State} (h : s.memsOk = true) : (resumeLimits pause s).memsOk = true := by
  simpa [State.memsOk, resumeLimits, List.all_map, Function.comp_def] using h

theorem memsOk_haltHart (hd : Hart) (aux cause : Nat) (regs : CoreRegs) {s : State} (h : s.memsOk = true) :
    (haltHart hd aux cause regs s).memsOk = true := by
  unfold haltHart
  extract_lets s₁ s₂
  have hs₁ : s₁.memsOk = true := memsOk_modHart _ _ h
  have hs₂ : s₂.memsOk = true := (memsOk_traceRec _ _ _ _ _).trans hs₁
  exact memsOk_ite (memsOk_rootStops hs₂) hs₂

theorem memsOk_rootServes {s : State} (h : s.memsOk = true) : (rootServes s).memsOk = true := by
  unfold rootServes
  extract_lets s₁ _ _
  have hs₁ : s₁.memsOk = true := memsOk_resumeLimits _ h
  exact memsOk_takePosted (memsOk_freshBeats (memsOk_congr hs₁ rfl rfl rfl rfl rfl))

theorem memsOk_resumeHart (hd : Hart) {s : State} (h : s.memsOk = true) : (resumeHart hd s).memsOk = true := by
  unfold resumeHart
  extract_lets _ s₁ s₂ _ s₃
  have hs₁ : s₁.memsOk = true := memsOk_modHart _ _ h
  have hs₂ : s₂.memsOk = true := (memsOk_traceRec _ _ _ _ _).trans hs₁
  have hs₃ : s₃.memsOk = true := by
    unfold s₃
    split
    · exact memsOk_congr hs₂ rfl rfl rfl rfl rfl
    · exact hs₂
  exact memsOk_ite h (memsOk_ite (memsOk_rootServes hs₃) hs₃)

theorem memsOk_haltRequest (t : Nat) (hd : Hart) (regs : CoreRegs) {s : State} (h : s.memsOk = true) :
    (haltRequest t hd regs s).memsOk = true := by
  unfold haltRequest
  extract_lets s₁
  have hs₁ : s₁.memsOk = true := (memsOk_at _ _).trans h
  exact memsOk_ite hs₁ (memsOk_ite (memsOk_haltHart _ _ _ _ hs₁) (memsOk_haltHart _ _ _ _ hs₁))

theorem memsOk_resumeRequest (t : Nat) (hd : Hart) {s : State} (h : s.memsOk = true) :
    (resumeRequest t hd s).memsOk = true := by
  unfold resumeRequest
  extract_lets s₁
  have hs₁ : s₁.memsOk = true := (memsOk_at _ _).trans h
  exact memsOk_ite (memsOk_resumeHart _ hs₁) hs₁

theorem memsOk_triggerFire (t : Nat) (hd : Hart) (regs : CoreRegs) {s : State} (h : s.memsOk = true) :
    (triggerFire t hd regs s).memsOk = true := by
  unfold triggerFire
  extract_lets s₁ s₂
  have hs₁ : s₁.memsOk = true := (memsOk_at _ _).trans h
  have hs₂ : s₂.memsOk = true := memsOk_haltHart _ _ _ _ hs₁
  exact memsOk_ite hs₁ (memsOk_ite (memsOk_fireHere hs₂) hs₂)

theorem memsOk_modDm (root : Bool) (f : DebugModule → DebugModule) {s : State} (h : s.memsOk = true) :
    (modDm root f s).memsOk = true :=
  memsOk_ite (memsOk_modObs_of_maps h fun _ => rfl) (memsOk_modObs_of_maps h fun _ => rfl)

theorem memsOk_runBuffer (root : Bool) (hd : Hart) {s : State} (h : s.memsOk = true) :
    (runBuffer root hd s).memsOk = true := by
  unfold runBuffer
  extract_lets b e _ s₁
  have hb : b.2.memsOk = true := memsOk_drawBytes _ h
  have he : e.2.memsOk = true := memsOk_drawNat hb
  have hs₁ : s₁.memsOk = true := memsOk_modHart _ _ he
  exact memsOk_modDm _ _ hs₁

theorem memsOk_dmTransfer (root : Bool) (hd : Hart) (cmd : Nat) {s : State} (h : s.memsOk = true) :
    (dmTransfer root hd cmd s).memsOk = true := by
  unfold dmTransfer
  extract_lets _ _ v e
  have hv : v.2.memsOk = true := memsOk_drawNat h
  have he : e.2.memsOk = true := memsOk_drawNat hv
  refine memsOk_ite h ?_
  split
  · exact memsOk_ite (memsOk_modHart _ _ h) (memsOk_modDm _ _ h)
  · exact memsOk_ite (memsOk_modDm _ _ h) (memsOk_ite (memsOk_ite he (memsOk_modDm _ _ he)) (memsOk_modDm _ _ he))

theorem memsOk_dmExecute (root : Bool) {s : State} (h : s.memsOk = true) : (dmExecute root s).memsOk = true := by
  unfold dmExecute
  extract_lets _ _ _
  refine memsOk_ite h (memsOk_ite (memsOk_modDm _ _ h) ?_)
  split
  · exact memsOk_modDm _ _ h
  · extract_lets s₁ s₂
    have hs₁ : s₁.memsOk = true := memsOk_dmTransfer _ _ _ h
    have hs₂ : s₂.memsOk = true := memsOk_ite (memsOk_modDm _ _ hs₁) hs₁
    exact memsOk_ite (memsOk_modDm _ _ h) (memsOk_ite (memsOk_modDm _ _ h) (memsOk_ite (memsOk_runBuffer _ _ hs₂) hs₂))

theorem memsOk_dmAuto (root : Bool) (a : Nat) {s : State} (h : s.memsOk = true) : (dmAuto root a s).memsOk = true := by
  unfold dmAuto
  extract_lets _ _
  exact memsOk_ite (memsOk_dmExecute _ h) h

theorem memsOk_dmRead (root : Bool) (a : Nat) {s : State} (h : s.memsOk = true) :
    (dmRead root a s).2.memsOk = true := by
  unfold dmRead
  dsimp only
  exact memsOk_dmAuto _ _ h

theorem memsOk_dmControl (root : Bool) (v : Nat) {s : State} (h : s.memsOk = true) :
    (dmControl root v s).memsOk = true := by
  unfold dmControl
  extract_lets _ s₁
  have hs₁ : s₁.memsOk = true := memsOk_modDm _ _ h
  refine memsOk_ite (memsOk_modDm _ _ h) ?_
  split
  · exact memsOk_ite (memsOk_resumeHart _ (memsOk_modHart _ _ hs₁)) hs₁
  · exact hs₁

theorem memsOk_dmWrite (root : Bool) (a v : Nat) {s : State} (h : s.memsOk = true) :
    (dmWrite root a v s).memsOk = true := by
  unfold dmWrite
  extract_lets s₁
  have hs₁ : s₁.memsOk = true := by
    unfold s₁
    refine memsOk_ite (memsOk_modDm _ _ h) ?_
    split
    · exact memsOk_modDm _ _ h
    · exact memsOk_modDm _ _ h
    · exact memsOk_ite (memsOk_dmExecute _ (memsOk_modDm _ _ h)) h
    · exact memsOk_modDm _ _ h
    · exact h
  exact memsOk_ite h (memsOk_ite (memsOk_dmControl _ _ h) (memsOk_ite h (memsOk_dmAuto _ _ hs₁)))

theorem memsOk_debugModuleAccess (t : Nat) (root : Bool) (a : BitVec 7) (w : Option (BitVec 32)) {s : State}
    (h : s.memsOk = true) :
    (debugModuleAccess t root a w s).memsOk = true := by
  unfold debugModuleAccess
  extract_lets s₁ x
  have hs₁ : s₁.memsOk = true := (memsOk_at _ _).trans h
  have hx : x.2.memsOk = true := memsOk_dmRead _ _ hs₁
  refine memsOk_ite hs₁ ?_
  split
  · exact memsOk_dmWrite _ _ _ hs₁
  · exact (memsOk_emit _ _).trans hx

theorem memsOk_rdbgStart {s : State} (h : s.memsOk = true) : (rdbgStart s).memsOk = true := by
  unfold rdbgStart
  extract_lets _ s₁ _
  have hs₁ : s₁.memsOk = true := (memsOk_modRdbg _ _).trans h
  exact memsOk_ite h (memsOk_ite ((memsOk_queueMsg _ _ _ _ _ _ _).trans hs₁) hs₁)

theorem memsOk_rdbgGo (t : Nat) {s : State} (h : s.memsOk = true) : (rdbgGo t s).memsOk = true :=
  memsOk_rdbgStart ((memsOk_at _ _).trans h)

theorem memsOk_debugAnswer (t : Nat) {s : State} (h : s.memsOk = true) : (debugAnswer t s).memsOk = true := by
  unfold debugAnswer
  extract_lets s₁
  have hs₁ : s₁.memsOk = true := (memsOk_at _ _).trans h
  split
  · exact hs₁
  · extract_lets _
    split
    · exact memsOk_ite ((memsOk_modRdbg _ _).trans (memsOk_takeMsg ‹_› hs₁)) (memsOk_takeMsg ‹_› hs₁)
    · exact memsOk_takeMsg ‹_› hs₁

theorem memsOk_rdbgTimeout (t : Nat) {s : State} (h : s.memsOk = true) : (rdbgTimeout t s).memsOk = true := by
  unfold rdbgTimeout
  extract_lets s₁
  have hs₁ : s₁.memsOk = true := (memsOk_at _ _).trans h
  split
  · exact memsOk_ite ((memsOk_modRdbg _ _).trans hs₁) hs₁
  · exact hs₁

end Sys2Proof.Machine
end

section
/-! SUPPORT. The sparse memories stay canonical: faults. -/

namespace Sys2Proof.Machine

theorem memsOk_noteReset (scope cause bough : Nat) {s : State} (h : s.memsOk = true) :
    (noteReset scope cause bough s).memsOk = true := by
  unfold noteReset
  extract_lets s₁ _
  have hs₁ : s₁.memsOk = true := (memsOk_modCmb _ _).trans h
  exact memsOk_ite (memsOk_congr hs₁ rfl rfl rfl rfl rfl) hs₁

theorem memsOk_countDevice (cause : Nat) {s : State} (h : s.memsOk = true) : (countDevice cause s).memsOk = true :=
  memsOk_ite h ((memsOk_modCmb _ _).trans h)

theorem memsOk_countBough (b : Fin 64) {s : State} (h : s.memsOk = true) : (countBough b s).memsOk = true :=
  (memsOk_modCmb _ _).trans h

theorem memsOk_logReset (island scope cause bough count : Nat) {s : State} (h : s.memsOk = true) :
    (logReset island scope cause bough count s).memsOk = true :=
  (memsOk_logErr _ _ _ _).trans h

theorem memsOk_journalReset (scope cause bough : Nat) (n : Option Nat) {s : State} (h : s.memsOk = true) :
    (journalReset scope cause bough n s).memsOk = true := by
  unfold journalReset
  extract_lets d _ _
  have hd : d.2.memsOk = true := memsOk_drawBytes _ h
  exact memsOk_journal _ _ _ (memsOk_ite h hd)

theorem memsOk_startDevice (cause : Nat) {s : State} (h : s.memsOk = true) : (startDevice cause s).memsOk = true := by
  unfold startDevice
  extract_lets s₁ _ s₂ _
  have hs₁ : s₁.memsOk = true := memsOk_countDevice _ h
  have hs₂ : s₂.memsOk = true := memsOk_ite ((memsOk_logErr _ _ _ _).trans hs₁) hs₁
  exact memsOk_ite h (memsOk_noteReset _ _ _ ((memsOk_modCmb _ _).trans (memsOk_congr hs₂ rfl rfl rfl rfl rfl)))

theorem memsOk_coreSample (b : Fin 64) (scope cause : Nat) (regs : Option CoreRegs) {s : State} (h : s.memsOk = true) :
    (coreSample b scope cause regs s).memsOk = true := by
  unfold coreSample
  extract_lets d _ _ _ _ _ _ _ _ _
  have hd : d.2.memsOk = true := memsOk_drawBytes _ h
  exact memsOk_rawWrite _ _ (memsOk_ite h hd)

theorem memsOk_holdQueues (n : Nat) (held : Bool) {s : State} (h : s.memsOk = true) :
    (holdQueues n held s).memsOk = true :=
  memsOk_foldl (fun _ _ hs => (memsOk_modQueue _ _ _ _).trans hs) _ h

theorem memsOk_startBough (b : Fin 64) (cause : Nat) {s : State} (h : s.memsOk = true) :
    (startBough b cause s).memsOk = true := by
  unfold startBough
  extract_lets n _ s₁ s₂ s₃ s₄ s₅ s₆
  have hs₁ : s₁.memsOk = true := (memsOk_modCmb _ _).trans h
  have hs₂ : s₂.memsOk = true := memsOk_ite (memsOk_countBough _ hs₁) hs₁
  have hs₃ : s₃.memsOk = true := memsOk_noteReset _ _ _ hs₂
  have hs₄ : s₄.memsOk = true := memsOk_logReset _ _ _ _ _ hs₃
  have hs₅ : s₅.memsOk = true := memsOk_journalReset _ _ _ _ hs₄
  have hs₆ : s₆.memsOk = true := by
    unfold s₆
    clear_value n
    split
    · exact memsOk_holdQueues _ _ (memsOk_ite hs₅ (memsOk_genChange _ hs₅))
    · exact hs₅
  exact (memsOk_modBough _ _ _).trans hs₆

theorem memsOk_failQueue (n q : Nat) {s : State} (h : s.memsOk = true) : (failQueue n q s).memsOk = true := by
  unfold failQueue
  extract_lets s₁
  have hs₁ : s₁.memsOk = true := memsOk_undefineDests _ _ h
  split
  · exact hs₁
  · refine memsOk_foldl (fun s' a hs => ?_) _ hs₁
    split
    · exact memsOk_completeRecord _ _ _ _ hs
    · exact hs

theorem memsOk_failRecords (n : Nat) {s : State} (h : s.memsOk = true) : (failRecords n s).memsOk = true :=
  memsOk_holdQueues _ _ (memsOk_foldl (fun _ _ hs => memsOk_failQueue _ _ hs) _ h)

theorem memsOk_reviveBough (b : Fin 64) (scope : Nat) {s : State} (h : s.memsOk = true) :
    (reviveBough b scope s).memsOk = true := by
  unfold reviveBough
  extract_lets _ s₁ s₂ _ s₃ s₄ _
  have hs₁ : s₁.memsOk = true := memsOk_zeroScratch _ h
  have hs₂ : s₂.memsOk = true := memsOk_modHart _ _ hs₁
  have hs₃ : s₃.memsOk = true := (memsOk_modCmb _ _).trans hs₂
  have hs₄ : s₄.memsOk = true := (memsOk_traceRec _ _ _ _ _).trans hs₃
  exact (memsOk_modBough _ _ _).trans hs₄

theorem memsOk_retireBough (b : Fin 64) (cause : Nat) {s : State} (h : s.memsOk = true) :
    (retireBough b cause s).memsOk = true := by
  unfold retireBough
  extract_lets _ s₁
  have hs₁ : s₁.memsOk = true := (memsOk_modCmb _ _).trans h
  exact memsOk_ite h ((memsOk_logErr _ _ _ _).trans ((memsOk_modBough _ _ _).trans hs₁))

theorem memsOk_boughReset (t : Nat) (b : Fin 64) (regs : Option CoreRegs) {s : State} (h : s.memsOk = true) :
    (boughReset t b regs s).memsOk = true := by
  unfold boughReset
  extract_lets s₁ n
  have hs₁ : s₁.memsOk = true := (memsOk_at _ _).trans h
  split
  · exact hs₁
  · extract_lets s₂ s₃ s₄ s₅ s₆
    have hs₂ : s₂.memsOk = true := memsOk_coreSample _ _ _ _ hs₁
    have hs₃ : s₃.memsOk = true := (memsOk_modCmb _ _).trans hs₂
    have hs₄ : s₄.memsOk = true := by
      unfold s₄
      clear_value n
      split
      · exact memsOk_ite hs₃ (memsOk_failRecords _ hs₃)
      · exact hs₃
    have hs₅ : s₅.memsOk = true := memsOk_retireBough _ _ (memsOk_reviveBough _ _ hs₄)
    have hs₆ : s₆.memsOk = true := memsOk_foldl (fun _ _ hs => memsOk_finishTicket _ _ _ _ hs) _ hs₅
    exact memsOk_pump hs₆

theorem memsOk_resetBough (t : Nat) (ch : Fin 130) {s : State} (h : s.memsOk = true) :
    (resetBough t ch s).memsOk = true := by
  unfold resetBough
  refine memsOk_onCmd (fun r a s' hs => ?_) h
  extract_lets _
  exact memsOk_ite (memsOk_answer _ _ _ _ hs) (memsOk_acceptLong _ _ _ (memsOk_startBough _ _ hs))

theorem memsOk_startCrown (cause : Nat) {s : State} (h : s.memsOk = true) : (startCrown cause s).memsOk = true := by
  unfold startCrown
  extract_lets s₁ s₂ s₃ _ s₄ s₅
  have hs₁ : s₁.memsOk = true := memsOk_countDevice _ h
  have hs₂ : s₂.memsOk = true := (memsOk_modCmb _ _).trans hs₁
  have hs₃ : s₃.memsOk = true := memsOk_logReset _ _ _ _ _ (memsOk_noteReset _ _ _ hs₂)
  have hs₄ : s₄.memsOk = true := memsOk_ite (memsOk_journalReset _ _ _ _ hs₃)
      (memsOk_foldl (fun _ _ hs => memsOk_journalReset _ _ _ _ hs) _ hs₃)
  have hs₅ : s₅.memsOk = true := memsOk_foldl (fun _ _ hs => memsOk_holdQueues _ _ (memsOk_genChange _ hs)) _ hs₄
  exact memsOk_ite h (memsOk_ite (memsOk_startDevice _ h) (memsOk_foldl (fun _ _ hs => (memsOk_modBough _ _ _).trans hs)
      _ hs₅))

theorem memsOk_crownSample (b : Fin 64) (cause : Nat) {s : State} (h : s.memsOk = true) :
    (crownSample b cause s).memsOk = true := by
  unfold crownSample
  extract_lets d _ _ halted _
  have hd : d.2.memsOk = true := memsOk_drawBytes _ h
  have hhalted : halted.2.memsOk = true := memsOk_drawNat hd
  exact memsOk_coreSample _ _ _ _ hhalted

theorem memsOk_crownReset (t : Nat) {s : State} (h : s.memsOk = true) : (crownReset t s).memsOk = true := by
  unfold crownReset
  extract_lets s₁ _
  have hs₁ : s₁.memsOk = true := (memsOk_at _ _).trans h
  split
  · exact hs₁
  · extract_lets s₂ s₃ s₄ s₅ s₆ _
    have hs₂ : s₂.memsOk = true := memsOk_foldl (fun _ _ hs => memsOk_crownSample _ _ hs) _ hs₁
    have hs₃ : s₃.memsOk = true := (memsOk_modCmb _ _).trans hs₂
    have hs₄ : s₄.memsOk = true := memsOk_foldl (fun _ _ hs => memsOk_failRecords _ hs) _ hs₃
    have hs₅ : s₅.memsOk = true := memsOk_foldl (fun _ _ hs => memsOk_zeroScratch _ hs) _ hs₄
    have hs₆ : s₆.memsOk = true := memsOk_foldl (fun _ _ hs => memsOk_reviveBough _ _ hs) _ hs₅
    exact memsOk_pump (memsOk_foldl (fun _ _ hs => memsOk_finishTicket _ _ _ _ hs) _ hs₆)

theorem memsOk_resetCrown (t : Nat) (ch : Fin 130) {s : State} (h : s.memsOk = true) :
    (resetCrown t ch s).memsOk = true :=
  memsOk_onCmd (fun _ _ _ hs => memsOk_ite (memsOk_answer _ _ _ _ hs)
      (memsOk_acceptLong _ _ _ (memsOk_startCrown _ hs))) h

theorem memsOk_twigBeat (t : Nat) (b : Fin 64) (_seq tiles stall : Nat) {s : State} (h : s.memsOk = true) :
    (twigBeat t b _seq tiles stall s).memsOk = true := by
  unfold twigBeat
  extract_lets s₁
  have hs₁ : s₁.memsOk = true := (memsOk_at _ _).trans h
  exact memsOk_ite hs₁ ((memsOk_modCmb _ _).trans hs₁)

theorem memsOk_logHang (b : Fin 64) (cause record q : Nat) {s : State} (h : s.memsOk = true) :
    (logHang b cause record q s).memsOk = true := by
  unfold logHang
  extract_lets _ s₁
  have hs₁ : s₁.memsOk = true := (memsOk_logErr _ _ _ _).trans h
  exact (memsOk_traceRec _ _ _ _ _).trans hs₁

theorem memsOk_declareHung (b : Fin 64) (cause : Nat) {s : State} (h : s.memsOk = true) :
    (declareHung b cause s).memsOk = true := by
  unfold declareHung
  extract_lets _
  exact memsOk_startBough _ _ (memsOk_logHang _ _ _ _ h)

theorem memsOk_beatCheck (t : Nat) {s : State} (h : s.memsOk = true) : (beatCheck t s).memsOk = true := by
  unfold beatCheck
  extract_lets s₁
  have hs₁ : s₁.memsOk = true := (memsOk_at _ _).trans h
  refine memsOk_ite hs₁ (memsOk_foldl (fun s' a hs => ?_) _ hs₁)
  extract_lets _
  exact memsOk_ite hs (memsOk_ite (memsOk_declareHung _ _ hs) (memsOk_ite (memsOk_declareHung _ _ hs) hs))

theorem memsOk_islandStall (t : Nat) (sender receiver : Fin 40) {s : State} (h : s.memsOk = true) :
    (islandStall t sender receiver s).memsOk = true := by
  unfold islandStall
  extract_lets s₁ _ _
  have hs₁ : s₁.memsOk = true := (memsOk_at _ _).trans h
  exact memsOk_ite hs₁ ((memsOk_logErr _ _ _ _).trans (memsOk_congr hs₁ rfl rfl rfl rfl rfl))

theorem memsOk_islandStallEscalate (t : Nat) (sender receiver : Fin 40) {s : State} (h : s.memsOk = true) :
    (islandStallEscalate t sender receiver s).memsOk = true := by
  unfold islandStallEscalate
  extract_lets s₁ _
  have hs₁ : s₁.memsOk = true := (memsOk_at _ _).trans h
  exact memsOk_ite (memsOk_startCrown _ (memsOk_congr hs₁ rfl rfl rfl rfl rfl)) hs₁

theorem memsOk_escalationSet (t : Nat) (ch : Fin 130) {s : State} (h : s.memsOk = true) :
    (escalationSet t ch s).memsOk = true :=
  memsOk_onCmd (fun _ _ _ hs => memsOk_answer _ _ _ _ ((memsOk_modCmb _ _).trans hs)) h

theorem memsOk_errlogRead (t : Nat) (ch : Fin 130) {s : State} (h : s.memsOk = true) :
    (errlogRead t ch s).memsOk = true :=
  memsOk_onCmd (fun _ _ _ hs => memsOk_answer _ _ _ _ hs) h

theorem memsOk_returnToService (t : Nat) (ch : Fin 130) {s : State} (h : s.memsOk = true) :
    (returnToService t ch s).memsOk = true := by
  unfold returnToService
  refine memsOk_onCmd (fun r a s' hs => ?_) h
  extract_lets s₁ s₂ s₃
  have hs₁ : s₁.memsOk = true := (memsOk_modCmb _ _).trans hs
  have hs₂ : s₂.memsOk = true := by
    unfold s₂
    refine memsOk_foldl (fun s' a hs => memsOk_ite ?_ hs) _ hs₁
    extract_lets _
    exact (memsOk_modBough _ _ _).trans (memsOk_modMm_of_bytes hs fun _ => rfl)
  have hs₃ : s₃.memsOk = true := memsOk_answer _ _ _ _ ((memsOk_logErr _ _ _ _).trans hs₂)
  exact memsOk_ite (memsOk_startDevice _ ((memsOk_modCmb _ _).trans hs₃)) hs₃

theorem memsOk_resetDevice (t : Nat) (ch : Fin 130) {s : State} (h : s.memsOk = true) :
    (resetDevice t ch s).memsOk = true := by
  unfold resetDevice
  refine memsOk_onCmd (fun r a s' hs => ?_) h
  extract_lets s₁ _ _
  have hs₁ : s₁.memsOk = true := memsOk_answer _ _ _ _ hs
  exact memsOk_congr hs₁ rfl rfl rfl rfl rfl

theorem memsOk_resetDelayExpire (t : Nat) {s : State} (h : s.memsOk = true) : (resetDelayExpire t s).memsOk = true := by
  unfold resetDelayExpire
  extract_lets s₁
  have hs₁ : s₁.memsOk = true := (memsOk_at _ _).trans h
  split
  · exact memsOk_ite (memsOk_startDevice _ hs₁) hs₁
  · exact hs₁

theorem memsOk_journalGap (t : Nat) {s : State} (h : s.memsOk = true) : (journalGap t s).memsOk = true := by
  unfold journalGap
  extract_lets s₁ _ _ s₂
  have hs₁ : s₁.memsOk = true := (memsOk_at _ _).trans h
  have hs₂ : s₂.memsOk = true := memsOk_congr hs₁ rfl rfl rfl rfl rfl
  exact memsOk_ite hs₁ ((memsOk_logErr _ _ _ _).trans (memsOk_journal _ _ _ hs₂))

end Sys2Proof.Machine
end

section
/-! SUPPORT. The sparse memories stay canonical: power. -/

namespace Sys2Proof.Machine

theorem memsOk_islandsLost (warm : Bool) {s : State} (h : s.memsOk = true) : (islandsLost warm s).memsOk = true := by
  obtain ⟨hb, -, -, hf, -⟩ := (memsOk_iff s).1 h
  refine (memsOk_iff _).2 ⟨Mem.wf_filter _ hb, rfl, ?_, hf, fun ch => ?_⟩
  · cases warm
    · rfl
    · rfl
  · obtain ⟨f, hk⟩ := kept_chan s.root ch
    exact (congrArg (fun c : Chan => Mem.wf 0 c.req) hk).trans rfl

theorem memsOk_powerDown (dst : PwrState) {s : State} (h : s.memsOk = true) : (powerDown dst s).memsOk = true :=
  (memsOk_modPwr _ _).trans (memsOk_islandsLost _ h)

theorem memsOk_logPower (src dst wake : Nat) {s : State} (h : s.memsOk = true) :
    (logPower src dst wake s).memsOk = true :=
  (memsOk_logErr _ _ _ _).trans h

theorem memsOk_goToSleep (nap : Bool) {s : State} (h : s.memsOk = true) : (goToSleep nap s).memsOk = true :=
  memsOk_foldl (fun _ _ hs => memsOk_drainUnit _ (memsOk_drainUnit _ ((memsOk_traceRec _ _ _ _ _).trans hs))) _
      ((memsOk_modPwr _ _).trans h)

theorem memsOk_wakeUp (nap : Bool) {s : State} (h : s.memsOk = true) : (wakeUp nap s).memsOk = true :=
  memsOk_foldl (fun _ _ hs => (memsOk_traceRec _ _ _ _ _).trans hs) _ h

theorem memsOk_beginEntry (target : Nat) {s : State} (h : s.memsOk = true) : (beginEntry target s).memsOk = true := by
  unfold beginEntry
  extract_lets s₁
  have hs₁ : s₁.memsOk = true := (memsOk_modPwr _ _).trans h
  exact memsOk_ite hs₁ (memsOk_foldl (fun _ _ hs => memsOk_ite hs (memsOk_askLow _ ((memsOk_modPhys _ _ _).trans hs))) _
      hs₁)

theorem memsOk_backToRun (src : Nat) {s : State} (h : s.memsOk = true) : (backToRun src s).memsOk = true := by
  unfold backToRun
  extract_lets s₁ s₂ s₃
  have hs₁ : s₁.memsOk = true := memsOk_freshBeats ((memsOk_modPwr _ _).trans h)
  have hs₂ : s₂.memsOk = true := memsOk_logPower _ _ _ hs₁
  have hs₃ : s₃.memsOk = true := by
    unfold s₃
    refine memsOk_foldl (fun s' a hs => ?_) _ hs₂
    split
    · exact memsOk_ite (memsOk_finishTicket _ _ _ _ hs) (memsOk_ite (memsOk_finishTicket _ _ _ _ hs)
          (memsOk_beginEntry _ hs))
    · exact hs
  exact memsOk_pump hs₃

theorem memsOk_powerStateSet (t : Nat) (ch : Fin 130) {s : State} (h : s.memsOk = true) :
    (powerStateSet t ch s).memsOk = true := by
  unfold powerStateSet
  refine memsOk_onCmd (fun r a s' hs => ?_) h
  extract_lets _ _ s₁
  have hs₁ : s₁.memsOk = true := memsOk_acceptLong _ _ _ hs
  exact memsOk_ite (memsOk_acceptLong _ _ _ hs) (memsOk_ite (memsOk_answer _ _ _ _ hs)
      (memsOk_ite (memsOk_beginEntry _ hs₁) (memsOk_wakeDevice _ hs₁)))

theorem memsOk_reachQuiet {s : State} (h : s.memsOk = true) : (reachQuiet s).memsOk = true := by
  unfold reachQuiet
  extract_lets s₁ s₂
  have hs₁ : s₁.memsOk = true := memsOk_goToSleep _ h
  have hs₂ : s₂.memsOk = true := memsOk_logPower _ _ _ ((memsOk_modPwr _ _).trans hs₁)
  exact memsOk_ite (memsOk_wakeDevice _ hs₂) hs₂

theorem memsOk_reachNap {s : State} (h : s.memsOk = true) : (reachNap s).memsOk = true := by
  unfold reachNap
  extract_lets s₁ s₂ s₃
  have hs₁ : s₁.memsOk = true := memsOk_foldl (fun _ _ hs => memsOk_dropBuilt _ hs) _ h
  have hs₂ : s₂.memsOk = true := memsOk_goToSleep _ hs₁
  have hs₃ : s₃.memsOk = true := memsOk_logPower _ _ _ ((memsOk_modPwr _ _).trans hs₂)
  clear_value s₃
  exact memsOk_congr hs₃ rfl rfl rfl rfl rfl

theorem memsOk_reachDeep {s : State} (h : s.memsOk = true) : (reachDeep s).memsOk = true := by
  unfold reachDeep
  extract_lets s₁
  have hs₁ : s₁.memsOk = true := memsOk_foldl (fun _ _ hs => memsOk_ite (memsOk_linkGoesDown _ _ _ hs) hs) _ h
  exact memsOk_powerDown _ (memsOk_logPower _ _ _ hs₁)

theorem memsOk_finishPower (ch : Fin 130) (num target : Nat) {s : State} (h : s.memsOk = true) :
    (finishPower ch num target s).memsOk = true := by
  unfold finishPower
  extract_lets _ _
  refine memsOk_ite h ?_
  split
  · exact memsOk_ite (memsOk_finishTicket _ _ _ _ (memsOk_reachQuiet h))
        (memsOk_ite (memsOk_finishTicket _ _ _ _ (memsOk_pump ((memsOk_modPwr _ _).trans h))) h)
  · exact memsOk_ite (memsOk_finishTicket _ _ _ _ (memsOk_reachNap h)) (memsOk_ite (memsOk_wakeDevice _ h) h)
  · exact memsOk_ite (memsOk_reachDeep (memsOk_finishTicket _ _ _ _ h))
        (memsOk_finishTicket _ _ _ _ (memsOk_pump ((memsOk_modPwr _ _).trans h)))

theorem memsOk_quietExit (t : Nat) {s : State} (h : s.memsOk = true) : (quietExit t s).memsOk = true := by
  unfold quietExit
  extract_lets s₁
  have hs₁ : s₁.memsOk = true := (memsOk_at _ _).trans h
  exact memsOk_ite hs₁ (memsOk_backToRun _ (memsOk_wakeUp _ hs₁))

theorem memsOk_flushJournal {s : State} (h : s.memsOk = true) : (flushJournal s).memsOk = true := by
  unfold flushJournal
  extract_lets _ _
  exact memsOk_foldl (fun _ _ hs => memsOk_journalPlace _ hs) _ (memsOk_congr h rfl rfl rfl rfl rfl)

theorem memsOk_startUp (src cause : Nat) {s : State} (h : s.memsOk = true) : (startUp src cause s).memsOk = true := by
  unfold startUp
  extract_lets _ s₁ _ _ s₂ _ s₃ s₄
  have hs₁ : s₁.memsOk = true := memsOk_countDevice _ h
  have hs₂ : s₂.memsOk = true := memsOk_ite ((memsOk_logErr _ _ _ _).trans ((memsOk_modCmb _ _).trans hs₁)) hs₁
  have hs₃ : s₃.memsOk = true := memsOk_congr hs₂ rfl rfl rfl rfl rfl
  have hs₄ : s₄.memsOk = true := memsOk_logReset _ _ _ _ _ (memsOk_noteReset _ _ _ hs₃)
  exact (memsOk_modPwr _ _).trans hs₄

theorem memsOk_wakePowered (src : Nat) {s : State} (h : s.memsOk = true) : (wakePowered src s).memsOk = true := by
  unfold wakePowered
  split
  · exact memsOk_startUp _ _ h
  · exact memsOk_startUp _ _ h
  · exact memsOk_startUp _ _ h
  · exact h

theorem memsOk_tripRecovery (t : Nat) {s : State} (h : s.memsOk = true) : (tripRecovery t s).memsOk = true := by
  unfold tripRecovery
  extract_lets s₁
  have hs₁ : s₁.memsOk = true := (memsOk_at _ _).trans h
  split
  · exact memsOk_ite (memsOk_startUp _ _ hs₁) hs₁
  · exact hs₁

theorem memsOk_smbWake (t : Nat) (pec : BitVec 8) {s : State} (h : s.memsOk = true) :
    (smbWake t pec s).memsOk = true := by
  unfold smbWake
  extract_lets s₁
  have hs₁ : s₁.memsOk = true := (memsOk_at _ _).trans h
  refine memsOk_ite hs₁ ?_
  split
  · exact memsOk_wakeDevice _ hs₁
  · exact memsOk_wakeDevice _ hs₁
  · exact memsOk_wakeDevice _ hs₁
  · exact memsOk_wakePowered _ hs₁

theorem memsOk_powerStatus (t : Nat) {s : State} (h : s.memsOk = true) : (powerStatus t s).memsOk = true := by
  unfold powerStatus
  extract_lets s₁
  have hs₁ : s₁.memsOk = true := (memsOk_at _ _).trans h
  exact (memsOk_emit _ _).trans hs₁

theorem memsOk_linkEnergyWake (t : Nat) (p : Fin 8) (lanes : BitVec 9) (since : Nat) {s : State} (h : s.memsOk = true) :
    (linkEnergyWake t p lanes since s).memsOk = true := by
  unfold linkEnergyWake
  extract_lets s₁ _
  have hs₁ : s₁.memsOk = true := (memsOk_at _ _).trans h
  exact memsOk_ite (memsOk_wakePowered _ hs₁) hs₁

theorem memsOk_drawGens {s : State} (h : s.memsOk = true) : (drawGens s).memsOk = true := by
  unfold drawGens
  extract_lets d s₁ _
  have hd : d.2.memsOk = true := memsOk_drawBytes _ h
  have hs₁ : s₁.memsOk = true := hd
  exact memsOk_congr hd rfl rfl rfl rfl rfl

theorem memsOk_powerUp (t : Nat) (x : Straps) {s : State} (h : s.memsOk = true) : (powerUp t x s).memsOk = true := by
  unfold powerUp
  extract_lets s₁
  have hs₁ : s₁.memsOk = true := (memsOk_at _ _).trans h
  exact memsOk_ite hs₁ ((memsOk_modPwr _ _).trans (memsOk_drawGens hs₁))

theorem memsOk_railGroupInRange (t : Nat) (g : Fin 3) {s : State} (h : s.memsOk = true) :
    (railGroupInRange t g s).memsOk = true := by
  unfold railGroupInRange
  extract_lets s₁ s₂ s₃ s₄ _
  have hs₁ : s₁.memsOk = true := (memsOk_at _ _).trans h
  have hs₂ : s₂.memsOk = true := (memsOk_modPwr _ _).trans hs₁
  have hs₃ : s₃.memsOk = true := (memsOk_modPwr _ _).trans hs₂
  have hs₄ : s₄.memsOk = true := (memsOk_modCmb _ _).trans hs₃
  refine memsOk_ite hs₁ ?_
  split
  · exact (memsOk_modPwr _ _).trans hs₂
  · exact memsOk_congr hs₄ rfl rfl rfl rfl rfl

theorem memsOk_faultDown {s : State} (h : s.memsOk = true) : (faultDown s).memsOk = true :=
  memsOk_powerDown _ (memsOk_tamper h)

theorem memsOk_seqFail (t : Nat) (m : Fin 8) {s : State} (h : s.memsOk = true) : (seqFail t m s).memsOk = true := by
  unfold seqFail
  extract_lets s₁ _
  have hs₁ : s₁.memsOk = true := (memsOk_at _ _).trans h
  exact memsOk_ite (memsOk_faultDown ((memsOk_logErr _ _ _ _).trans hs₁)) hs₁

theorem memsOk_coldPowerLoss {s : State} (h : s.memsOk = true) : (coldPowerLoss s).memsOk = true := by
  have hreset : ∀ c : Fin 130, Mem.wf 0 (vget Root.reset.chans c).req = true := memsOk_chan memsOk_State_reset
  have hflash : Mem.wf 0xFF (coldPowerLoss s).flash = true := memsOk_flash (s := s) h
  refine (memsOk_iff _).2 ⟨rfl, rfl, rfl, hflash, fun ch => ?_⟩
  unfold chan coldPowerLoss
  dsimp only
  by_cases h1 : ch = 1
  · rw [h1, vget_vset_self]
    rfl
  · rw [vget_vset_of_ne _ _ h1]
    by_cases h0 : ch = 0
    · rw [h0, vget_vset_self]
      rfl
    · rw [vget_vset_of_ne _ _ h0]
      exact hreset ch

theorem memsOk_supplyWarn (t : Nat) (m : Fin 8) (mv : Nat) {s : State} (h : s.memsOk = true) :
    (supplyWarn t m mv s).memsOk = true := by
  unfold supplyWarn
  extract_lets s₁ _
  have hs₁ : s₁.memsOk = true := (memsOk_at _ _).trans h
  exact memsOk_ite ((memsOk_logErr _ _ _ _).trans ((memsOk_modPwr _ _).trans hs₁)) hs₁

theorem memsOk_supplyFault (t : Nat) (m : Fin 8) (mv : Nat) {s : State} (h : s.memsOk = true) :
    (supplyFault t m mv s).memsOk = true := by
  unfold supplyFault
  extract_lets s₁
  have hs₁ : s₁.memsOk = true := (memsOk_at _ _).trans h
  exact memsOk_ite (memsOk_faultDown ((memsOk_logErr _ _ _ _).trans hs₁)) hs₁

theorem memsOk_supplyGlitch (t : Nat) (m : Option (Fin 8)) {s : State} (h : s.memsOk = true) :
    (supplyGlitch t m s).memsOk = true := by
  unfold supplyGlitch
  extract_lets s₁ _ s₂
  have hs₁ : s₁.memsOk = true := (memsOk_at _ _).trans h
  have hs₂ : s₂.memsOk = true := (memsOk_logErr _ _ _ _).trans hs₁
  exact memsOk_ite hs₁ (memsOk_ite (memsOk_tamper hs₂) hs₂)

theorem memsOk_clockFault (t : Nat) (absent : Bool) (ppm : ℤ) {s : State} (h : s.memsOk = true) :
    (clockFault t absent ppm s).memsOk = true := by
  unfold clockFault
  extract_lets s₁ _
  have hs₁ : s₁.memsOk = true := (memsOk_at _ _).trans h
  exact memsOk_ite (memsOk_faultDown ((memsOk_logErr _ _ _ _).trans hs₁)) hs₁

theorem memsOk_xtalFallback (t : Nat) (ppm : ℤ) {s : State} (h : s.memsOk = true) :
    (xtalFallback t ppm s).memsOk = true := by
  unfold xtalFallback
  extract_lets s₁
  have hs₁ : s₁.memsOk = true := (memsOk_at _ _).trans h
  exact memsOk_ite hs₁ ((memsOk_logErr _ _ _ _).trans ((memsOk_modPwr _ _).trans hs₁))

theorem memsOk_pcieRefclkLoss (t : Nat) {s : State} (h : s.memsOk = true) : (pcieRefclkLoss t s).memsOk = true :=
  (memsOk_modPwr _ _).trans ((memsOk_at _ _).trans h)

theorem memsOk_logPcie (kind vf : Nat) {s : State} (h : s.memsOk = true) : (logPcie kind vf s).memsOk = true :=
  (memsOk_logErr _ _ _ _).trans h

theorem memsOk_perstFall (t : Nat) {s : State} (h : s.memsOk = true) : (perstFall t s).memsOk = true := by
  unfold perstFall
  extract_lets s₁
  have hs₁ : s₁.memsOk = true := (memsOk_modPwr _ _).trans ((memsOk_at _ _).trans h)
  exact memsOk_ite (memsOk_startDevice _ (memsOk_logPcie _ _ hs₁)) hs₁

theorem memsOk_perstRise (t : Nat) {s : State} (h : s.memsOk = true) : (perstRise t s).memsOk = true := by
  unfold perstRise
  extract_lets s₁
  have hs₁ : s₁.memsOk = true := (memsOk_modPwr _ _).trans ((memsOk_at _ _).trans h)
  exact memsOk_ite ((memsOk_modPwr _ _).trans hs₁) (memsOk_wakePowered _ hs₁)

theorem memsOk_pfFlr (t : Nat) {s : State} (h : s.memsOk = true) : (pfFlr t s).memsOk = true := by
  unfold pfFlr
  extract_lets s₁
  have hs₁ : s₁.memsOk = true := (memsOk_at _ _).trans h
  exact memsOk_ite (memsOk_startDevice _ (memsOk_logPcie _ _ hs₁)) hs₁

theorem memsOk_vfFlr (t : Nat) (n : Fin 128) {s : State} (h : s.memsOk = true) : (vfFlr t n s).memsOk = true := by
  unfold vfFlr
  extract_lets s₁ s₂ _
  have hs₁ : s₁.memsOk = true := (memsOk_at _ _).trans h
  have hs₂ : s₂.memsOk = true := memsOk_modChan_of_req hs₁ fun _ => rfl
  exact memsOk_ite hs₁ (memsOk_logPcie _ _ ((memsOk_modTxn _ _).trans hs₂))

theorem memsOk_pcieWakeRelease (t : Nat) {s : State} (h : s.memsOk = true) : (pcieWakeRelease t s).memsOk = true := by
  unfold pcieWakeRelease
  extract_lets s₁
  have hs₁ : s₁.memsOk = true := (memsOk_at _ _).trans h
  split
  · exact memsOk_ite ((memsOk_modPwr _ _).trans hs₁) hs₁
  · exact hs₁

theorem memsOk_throttle {s : State} (h : s.memsOk = true) : (throttle s).memsOk = true := by
  unfold throttle
  extract_lets _ _ _ _ _ _ s₁ s₂ _ s₃
  have hs₁ : s₁.memsOk = true := (memsOk_modPwr _ _).trans h
  have hs₂ : s₂.memsOk = true := (memsOk_modPwr _ _).trans hs₁
  have hs₃ : s₃.memsOk = true := (memsOk_modPwr _ _).trans hs₁
  refine memsOk_ite ?_ (memsOk_ite hs₁ ?_)
  · split
    · exact hs₂
    · exact (memsOk_logErr _ _ _ _).trans ((memsOk_modPwr _ _).trans hs₂)
  · split
    · exact (memsOk_logErr _ _ _ _).trans ((memsOk_modPwr _ _).trans hs₃)
    · exact hs₃

theorem memsOk_powerMeasure (t mw : Nat) {s : State} (h : s.memsOk = true) : (powerMeasure t mw s).memsOk = true := by
  unfold powerMeasure
  extract_lets s₁ _ _
  have hs₁ : s₁.memsOk = true := (memsOk_at _ _).trans h
  exact memsOk_ite hs₁ (memsOk_throttle ((memsOk_modPwr _ _).trans hs₁))

theorem memsOk_brdThrotN (t : Nat) (high : Bool) {s : State} (h : s.memsOk = true) :
    (brdThrotN t high s).memsOk = true := by
  unfold brdThrotN
  extract_lets s₁
  have hs₁ : s₁.memsOk = true := (memsOk_at _ _).trans h
  exact (memsOk_modPwr _ _).trans hs₁

theorem memsOk_thermalTrip (sensor : Nat) (reading : ℤ) {s : State} (h : s.memsOk = true) :
    (thermalTrip sensor reading s).memsOk = true := by
  unfold thermalTrip
  extract_lets s₁ _
  have hs₁ : s₁.memsOk = true := (memsOk_logErr _ _ _ _).trans h
  exact (memsOk_modPwr _ _).trans (memsOk_powerDown _ hs₁)

theorem memsOk_tempSample (t : Nat) (v : List ℤ) {s : State} (h : s.memsOk = true) :
    (tempSample t v s).memsOk = true := by
  unfold tempSample
  extract_lets s₁ _ s₂
  have hs₁ : s₁.memsOk = true := (memsOk_at _ _).trans h
  have hs₂ : s₂.memsOk = true := (memsOk_modPwr _ _).trans hs₁
  refine memsOk_ite hs₁ ?_
  split
  · exact memsOk_ite hs₂ (memsOk_thermalTrip _ _ hs₂)
  · exact hs₂

theorem memsOk_powerLimitSet (t : Nat) (ch : Fin 130) {s : State} (h : s.memsOk = true) :
    (powerLimitSet t ch s).memsOk = true :=
  memsOk_onCmd (fun _ _ _ hs => memsOk_answer _ _ _ _ ((memsOk_modPwr _ _).trans hs)) h

theorem memsOk_thermalQuery (t : Nat) (ch : Fin 130) {s : State} (h : s.memsOk = true) :
    (thermalQuery t ch s).memsOk = true :=
  memsOk_onCmd (fun _ _ _ hs => memsOk_answer _ _ _ _ hs) h

end Sys2Proof.Machine
end

section
/-! SUPPORT. The sparse memories stay canonical: boot. -/

namespace Sys2Proof.Machine

theorem memsOk_updateDirectory (slot : Nat) (trial : Bool) {s : State} (h : s.memsOk = true) :
    (updateDirectory slot trial s).memsOk = true := by
  unfold updateDirectory
  extract_lets _ _
  exact memsOk_flashWrite _ _ (memsOk_flashErase _ _ h)

theorem memsOk_enterRecovery (reason : Nat) {s : State} (h : s.memsOk = true) :
    (enterRecovery reason s).memsOk = true := by
  unfold enterRecovery
  extract_lets _ _ s₁
  have hs₁ : s₁.memsOk = true := (memsOk_modCmb _ _).trans (memsOk_congr h rfl rfl rfl rfl rfl)
  exact memsOk_rootServes hs₁

theorem memsOk_startImage (slot : Nat) {s : State} (h : s.memsOk = true) : (startImage slot s).memsOk = true := by
  unfold startImage
  extract_lets _ _ _ s₁
  have hs₁ : s₁.memsOk = true := memsOk_congr h rfl rfl rfl rfl rfl
  exact memsOk_foldl (fun _ _ hs => (memsOk_modLink _ _ _).trans hs) _ hs₁

theorem memsOk_bootRom (t : Nat) (x : BootProbe) {s : State} (h : s.memsOk = true) : (bootRom t x s).memsOk = true := by
  unfold bootRom
  extract_lets s₁ s₂ s₃ _ s₄ _ _ s₅ _ _ _ _ _ _ s₆
  have hs₁ : s₁.memsOk = true := (memsOk_at _ _).trans h
  have hs₂ : s₂.memsOk = true := (memsOk_modPwr _ _).trans (memsOk_hwdReset _ hs₁)
  have hs₃ : s₃.memsOk = true := memsOk_ite hs₂ ((memsOk_logErr _ _ _ _).trans hs₂)
  have hs₄ : s₄.memsOk = true := memsOk_ite (memsOk_updateDirectory _ _ hs₃) hs₃
  have hs₅ : s₅.memsOk = true := memsOk_congr hs₄ rfl rfl rfl rfl rfl
  have hs₆ : s₆.memsOk = true := memsOk_congr hs₅ rfl rfl rfl rfl rfl
  exact memsOk_ite hs₁ (memsOk_ite (memsOk_enterRecovery _ hs₃) (memsOk_ite (memsOk_enterRecovery _ hs₅)
      (memsOk_ite (memsOk_startImage _ hs₆) (memsOk_ite (memsOk_startImage _ hs₆) (memsOk_enterRecovery _ hs₆)))))

theorem memsOk_bootPort (p : Fin 8) {s : State} (h : s.memsOk = true) : (bootPort p s).memsOk = true :=
  memsOk_ite h (memsOk_ite (memsOk_bootTrain _ h) ((memsOk_modPhys _ _ _).trans h))

theorem memsOk_bootReady (t : Nat) {s : State} (h : s.memsOk = true) : (bootReady t s).memsOk = true := by
  unfold bootReady
  extract_lets s₁ d e s₂ _ s₃ _ s₄ s₅ s₆
  have hs₁ : s₁.memsOk = true := (memsOk_at _ _).trans h
  have hd : d.2.memsOk = true := memsOk_drawBytes _ hs₁
  have he : e.2.memsOk = true := memsOk_drawBytes _ hd
  have hs₂ : s₂.memsOk = true := memsOk_modMm_of_bytes he fun _ => rfl
  have hs₃ : s₃.memsOk = true := (memsOk_modCmb _ _).trans (memsOk_congr hs₂ rfl rfl rfl rfl rfl)
  have hs₄ : s₄.memsOk = true := memsOk_congr hs₃ rfl rfl rfl rfl rfl
  have hs₅ : s₅.memsOk = true := memsOk_journal _ _ _ hs₄
  have hs₆ : s₆.memsOk = true := memsOk_ite hs₅ (memsOk_foldl (fun _ _ hs => memsOk_bootPort _ hs) _ hs₅)
  exact memsOk_ite hs₁ (memsOk_rootServes ((memsOk_modPwr _ _).trans hs₆))

theorem memsOk_rootBeat (t : Nat) {s : State} (h : s.memsOk = true) : (rootBeat t s).memsOk = true := by
  unfold rootBeat
  extract_lets s₁ _ _ s₂ _
  have hs₁ : s₁.memsOk = true := (memsOk_at _ _).trans h
  have hs₂ : s₂.memsOk = true := (memsOk_modCmb _ _).trans hs₁
  exact memsOk_ite hs₁ (memsOk_ite (memsOk_congr hs₂ rfl rfl rfl rfl rfl) hs₂)

theorem memsOk_bootTimeout (t : Nat) {s : State} (h : s.memsOk = true) : (bootTimeout t s).memsOk = true := by
  unfold bootTimeout
  extract_lets s₁ _
  have hs₁ : s₁.memsOk = true := (memsOk_at _ _).trans h
  exact memsOk_ite (memsOk_startDevice _ hs₁) hs₁

theorem memsOk_trialConfirm (t : Nat) {s : State} (h : s.memsOk = true) : (trialConfirm t s).memsOk = true := by
  unfold trialConfirm
  extract_lets s₁ s₂ _
  have hs₁ : s₁.memsOk = true := (memsOk_at _ _).trans h
  have hs₂ : s₂.memsOk = true := memsOk_updateDirectory _ _ hs₁
  split
  · exact memsOk_ite (memsOk_congr hs₂ rfl rfl rfl rfl rfl) hs₁
  · exact hs₁

theorem memsOk_fwStage (t : Nat) (ch : Fin 130) {s : State} (h : s.memsOk = true) : (fwStage t ch s).memsOk = true := by
  unfold fwStage
  refine memsOk_onCmd (fun r a s' hs => ?_) h
  extract_lets _ s₁ s₂ _
  have hs₁ : s₁.memsOk = true := memsOk_ite (memsOk_flashErase _ _ hs) hs
  have hs₂ : s₂.memsOk = true := memsOk_flashWrite _ _ hs₁
  exact memsOk_acceptLong _ _ _ (memsOk_congr hs₂ rfl rfl rfl rfl rfl)

theorem memsOk_fwActivate (t : Nat) (ch : Fin 130) {s : State} (h : s.memsOk = true) :
    (fwActivate t ch s).memsOk = true := by
  unfold fwActivate
  refine memsOk_onCmd (fun r a s' hs => ?_) h
  extract_lets _
  exact memsOk_ite (memsOk_acceptLong _ _ _ hs) (memsOk_acceptLong _ _ _ hs)

theorem memsOk_activateNow (ch : Fin 130) (num build : Nat) {s : State} (h : s.memsOk = true) :
    (activateNow ch num build s).memsOk = true := by
  unfold activateNow
  extract_lets s₁ s₂ _
  have hs₁ : s₁.memsOk = true := memsOk_updateDirectory _ _ h
  have hs₂ : s₂.memsOk = true := memsOk_finishTicket _ _ _ _ hs₁
  exact memsOk_congr hs₂ rfl rfl rfl rfl rfl

theorem memsOk_activateReset (t : Nat) {s : State} (h : s.memsOk = true) : (activateReset t s).memsOk = true := by
  unfold activateReset
  extract_lets s₁ _
  have hs₁ : s₁.memsOk = true := (memsOk_at _ _).trans h
  split
  · exact memsOk_ite (memsOk_startDevice _ (memsOk_congr hs₁ rfl rfl rfl rfl rfl)) hs₁
  · exact hs₁

theorem memsOk_rollbackAdvance (t : Nat) (ch : Fin 130) {s : State} (h : s.memsOk = true) :
    (rollbackAdvance t ch s).memsOk = true := by
  refine memsOk_onCmd (fun r a s' hs => ?_) h
  exact memsOk_answer _ _ _ _ (memsOk_congr hs rfl rfl rfl rfl rfl)

end Sys2Proof.Machine
end

section
/-! SUPPORT. The sparse memories stay canonical: MOVE records. -/

namespace Sys2Proof.Machine

theorem memsOk_copyPieces (n : Nat) (src dst : Loc) (l : List (Nat × Nat)) (k x : Nat) {s : State} (h : s.memsOk = true)
    :
    (copyPieces n src dst l k x s).2.2.memsOk = true := by
  induction l generalizing n src dst k x s with
  | nil =>
    unfold copyPieces
    dsimp only
    exact h
  | cons a l ih =>
    unfold copyPieces
    extract_lets _ r _ w
    have hr : r.2.2.memsOk = true := memsOk_readLoc _ _ _ h
    have hw : w.2.memsOk = true := memsOk_writeLoc _ _ _ hr
    split
    · exact ih _ _ _ _ _ hw
    · exact ih _ _ _ _ _ (memsOk_poisonLoc _ _ _ hr)

theorem memsOk_copyLocalEnds (n q num : Nat) (src dst : Loc) (len : Nat) {s : State} (h : s.memsOk = true) :
    (copyLocalEnds n q num src dst len s).memsOk = true := by
  unfold copyLocalEnds
  extract_lets r _
  have hr : r.2.2.memsOk = true := memsOk_copyPieces _ _ _ _ _ _ h
  exact (memsOk_endRecord _ _ _ _ _ _).trans hr

theorem memsOk_copyToHost (n q num : Nat) (src : Loc) (dst len : Nat) {s : State} (h : s.memsOk = true) :
    (copyToHost n q num src dst len s).memsOk = true := by
  unfold copyToHost
  extract_lets go s₁
  have hgo : go.2.2.memsOk = true := foldl_keeps_snd_snd (fun a p ha => by
    dsimp only
    split
    · exact ha
    · exact memsOk_readLoc _ _ _ ha) _ h
  have hs₁ : s₁.memsOk = true := memsOk_ite hgo ((memsOk_emit _ _).trans hgo)
  exact (memsOk_endRecord _ _ _ _ _ _).trans hs₁

theorem memsOk_copyFromHost (n q num : Nat) (data : Bytes) (dst : Loc) (len : Nat) {s : State} (h : s.memsOk = true) :
    (copyFromHost n q num data dst len s).memsOk = true := by
  unfold copyFromHost
  extract_lets w
  have hw : w.2.memsOk = true := memsOk_writeLoc _ _ _ h
  exact (memsOk_endRecord _ _ _ _ _ _).trans hw

theorem memsOk_copyWork (data : Bytes) (n q num : Nat) (b : Bytes) {s : State} (h : s.memsOk = true) :
    (copyWork data n q num b s).memsOk = true := by
  unfold copyWork
  extract_lets _ _ _
  refine memsOk_ite ?_ (memsOk_ite ((memsOk_endRecord _ _ _ _ _ _).trans ((memsOk_emit _ _).trans h))
      (memsOk_ite (memsOk_copyFromHost _ _ _ _ _ _ h) (memsOk_ite (memsOk_copyToHost _ _ _ _ _ _ h)
      (memsOk_copyLocalEnds _ _ _ _ _ _ h))))
  split
  · exact memsOk_finishBulk _ _ _ (memsOk_pump (memsOk_issueChunk _ _ _ _ h))
  · exact h

theorem memsOk_copyBody (data : Bytes) (n q num : Nat) (b : Bytes) {s : State} (h : s.memsOk = true) :
    (copyBody data n q num b s).memsOk = true :=
  memsOk_checkedRecord (fun _ _ _ _ _ hs => memsOk_copyWork _ _ _ _ _ hs) _ _ _ _ h

theorem memsOk_fillWork (n q num : Nat) (b : Bytes) {s : State} (h : s.memsOk = true) :
    (fillWork n q num b s).memsOk = true := by
  unfold fillWork
  extract_lets _ w
  have hw : w.2.memsOk = true := memsOk_writeLoc _ _ _ h
  exact (memsOk_endRecord _ _ _ _ _ _).trans hw

theorem memsOk_fillBody (n q num : Nat) (b : Bytes) {s : State} (h : s.memsOk = true) :
    (fillBody n q num b s).memsOk = true := by
  unfold fillBody
  extract_lets _
  exact memsOk_checkedRecord (fun _ _ _ _ _ hs => memsOk_fillWork _ _ _ _ hs) _ _ _ _ h

theorem memsOk_remoteOpWork (n q num : Nat) (b : Bytes) {s : State} (h : s.memsOk = true) :
    (remoteOpWork n q num b s).memsOk = true := by
  unfold remoteOpWork
  extract_lets _ _ _ _ d s₁
  have hd : d.2.2.memsOk = true := memsOk_readLoc _ _ _ h
  have hs₁ : s₁.memsOk = true := memsOk_ite (memsOk_poisonLoc _ _ _ hd) hd
  exact memsOk_ite (memsOk_pump (memsOk_issueTxn _ h)) (memsOk_ite (memsOk_pump (memsOk_issueTxn _ hd))
      ((memsOk_endRecord _ _ _ _ _ _).trans hs₁))

theorem memsOk_remoteOpBody (n q num : Nat) (b : Bytes) {s : State} (h : s.memsOk = true) :
    (remoteOpBody n q num b s).memsOk = true := by
  unfold remoteOpBody
  extract_lets _ _ _
  exact memsOk_ite ((memsOk_endRecord _ _ _ _ _ _).trans h) (memsOk_ite (memsOk_pump (memsOk_issueTxn _ h))
      (memsOk_checkedRecord (fun _ _ _ _ _ hs => memsOk_remoteOpWork _ _ _ _ hs) _ _ _ _ h))

theorem memsOk_prefetchWork (n q num : Nat) (b : Bytes) {s : State} (h : s.memsOk = true) :
    (prefetchWork n q num b s).memsOk = true := by
  unfold prefetchWork
  extract_lets _ _ _ _ s₁
  have hs₁ : s₁.memsOk = true := (memsOk_modRunning _ _ _ _ _).trans h
  exact memsOk_ite (memsOk_endRemote _ _ _ _ _ (memsOk_countSynth _ h))
      (memsOk_pump (memsOk_foldl (fun _ _ hs => memsOk_issueTxn _ hs) _ hs₁))

theorem memsOk_prefetchBody (n q num : Nat) (b : Bytes) {s : State} (h : s.memsOk = true) :
    (prefetchBody n q num b s).memsOk = true := by
  unfold prefetchBody
  extract_lets _
  exact memsOk_checkedRecord (fun _ _ _ _ _ hs => memsOk_prefetchWork _ _ _ _ hs) _ _ _ _ h

theorem memsOk_logHostFail (n q num what : Nat) (kind : HostFail) {s : State} (h : s.memsOk = true) :
    (logHostFail n q num what kind s).memsOk = true :=
  (memsOk_emit _ _).trans ((memsOk_logErr _ _ _ _).trans h)

theorem memsOk_fetchFault (n q : Nat) (x : Queue) (kind : HostFail) {s : State} (h : s.memsOk = true) :
    (fetchFault n q x kind s).memsOk = true := by
  unfold fetchFault
  extract_lets s₁
  have hs₁ : s₁.memsOk = true := (memsOk_modQueue _ _ _ _).trans h
  exact memsOk_logHostFail _ _ _ _ _ (memsOk_queueIrq _ _ hs₁)

theorem memsOk_copyHostFail (kind : HostFail) (data : Bytes) (n q num : Nat) (b : Bytes) {s : State}
    (h : s.memsOk = true) :
    (copyHostFail kind data n q num b s).memsOk = true := by
  unfold copyHostFail
  extract_lets len got ds f size s₁ dst s₂ s₃
  have hs₁ : s₁.memsOk = true := memsOk_drawNat h
  have hs₂ : s₂.memsOk = true := memsOk_ite (memsOk_ite hs₁ ((memsOk_emit _ _).trans hs₁))
      (memsOk_poisonLoc _ _ _ (memsOk_writeLoc _ _ _ hs₁))
  exact (memsOk_endRecord _ _ _ _ _ _).trans (memsOk_logHostFail _ _ _ _ _ hs₂)

theorem memsOk_copyFailBody (kind : HostFail) (data : Bytes) (n q num : Nat) (b : Bytes) {s : State}
    (h : s.memsOk = true) :
    (copyFailBody kind data n q num b s).memsOk = true :=
  memsOk_checkedRecord (fun _ _ _ _ _ hs => memsOk_copyHostFail _ _ _ _ _ _ hs) _ _ _ _ h

theorem memsOk_hostAccessFail (t : Nat) (n : Fin 128) (q : Fin 16) (kind : HostFail) (host data : Bytes) {s : State}
    (h : s.memsOk = true) :
    (hostAccessFail t n q kind host data s).memsOk = true := by
  unfold hostAccessFail
  split
  · exact h
  · refine memsOk_ite (memsOk_ite h (memsOk_fetchFault _ _ _ _ h)) (memsOk_ite ?_ h)
    exact memsOk_startRecord (fun _ _ _ _ _ hs => memsOk_copyFailBody _ _ _ _ _ _ hs) h

end Sys2Proof.Machine
end

section
/-! SUPPORT. The sparse memories stay canonical: registers. -/

namespace Sys2Proof.Machine

theorem memsOk_setLatch (r : Requester) (key v : Nat) {s : State} (h : s.memsOk = true) :
    (setLatch r key v s).memsOk = true :=
  memsOk_congr h rfl rfl rfl rfl rfl

theorem memsOk_beforeRead (r : Requester) (off : Nat) {s : State} (h : s.memsOk = true) :
    (beforeRead s r off).memsOk = true := by
  unfold beforeRead
  split
  · exact memsOk_ite (memsOk_growCounters _ h) h
  · exact h

theorem memsOk_readKeyed (r : Requester) (key off : Nat) {s : State} (h : s.memsOk = true) :
    (readKeyed r key off s).2.memsOk = true := by
  unfold readKeyed
  extract_lets s₁ _ _ _ st d
  have hs₁ : s₁.memsOk = true := memsOk_beforeRead _ _ h
  have hst : st.2.memsOk = true := memsOk_queueState _ _ hs₁
  have hd : d.2.memsOk = true := memsOk_drawNat hs₁
  split
  · dsimp only
    exact h
  · split
    · exact memsOk_dmRead _ _ hs₁
    · split
      · dsimp only
        exact hst
      · split
        · dsimp only
          exact hd
        · split
          · dsimp only
            exact memsOk_setLatch _ _ _ hs₁
          · dsimp only
            exact hs₁
          · split
            · dsimp only
              exact hs₁
            · dsimp only
              exact hs₁

theorem memsOk_readReg (r : Requester) (off : Nat) {s : State} (h : s.memsOk = true) :
    (readReg r off s).2.memsOk = true :=
  memsOk_readKeyed _ _ _ h

theorem memsOk_releaseAlert {s : State} (h : s.memsOk = true) : (releaseAlert s).memsOk = true := by
  unfold releaseAlert
  extract_lets _
  exact memsOk_congr h rfl rfl rfl rfl rfl

theorem memsOk_readWide (r : Requester) (off : Nat) {s : State} (h : s.memsOk = true) :
    (readWide r off s).2.memsOk = true := by
  unfold readWide
  extract_lets lo hi
  have hlo : lo.2.memsOk = true := memsOk_readReg _ _ h
  have hhi : hi.2.memsOk = true := memsOk_readReg _ _ hlo
  split
  · dsimp only
    exact memsOk_beforeRead _ _ h
  · dsimp only
    exact hhi

theorem memsOk_answerRead (r : Requester) (off : Nat) (wide : Bool) {s : State} (h : s.memsOk = true) :
    (answerRead r off wide s).memsOk = true := by
  unfold answerRead
  extract_lets x
  have hx : x.2.memsOk = true := by
    unfold x
    split
    · exact memsOk_readWide _ _ h
    · exact memsOk_readReg _ _ h
  exact (memsOk_emit _ _).trans (memsOk_ite (memsOk_releaseAlert hx) hx)

theorem memsOk_lowWordRead (t : Nat) (r : Requester) (off : Nat) (wide : Bool) {s : State} (h : s.memsOk = true) :
    (lowWordRead t r off wide s).memsOk = true := by
  unfold lowWordRead
  extract_lets s₁
  have hs₁ : s₁.memsOk = true := (memsOk_at _ _).trans h
  exact memsOk_ite hs₁ (memsOk_ite ((memsOk_modPwr _ _).trans hs₁) (memsOk_answerRead _ _ _ hs₁))

theorem memsOk_napExit (t : Nat) {s : State} (h : s.memsOk = true) : (napExit t s).memsOk = true := by
  unfold napExit
  extract_lets s₁ s₂ s₃ s₄
  have hs₁ : s₁.memsOk = true := (memsOk_at _ _).trans h
  have hs₂ : s₂.memsOk = true := memsOk_flushJournal hs₁
  have hs₃ : s₃.memsOk = true := memsOk_foldl (fun _ _ hs => memsOk_zeroScratch _ hs) _
      (memsOk_modObs_of_maps hs₂ fun _ => rfl)
  have hs₄ : s₄.memsOk = true := memsOk_backToRun _ (memsOk_wakeUp _ hs₃)
  exact memsOk_ite hs₁ (memsOk_foldl (fun _ _ hs => memsOk_answerRead _ _ _ hs) _ ((memsOk_modPwr _ _).trans hs₄))

theorem memsOk_storeRequest (ch : Fin 130) (o : Nat) (d : Bytes) {s : State} (h : s.memsOk = true) :
    (modChan ch (fun c => if c.st = .idle then { c with req := Mem.write 0 c.req o d } else { c with lockHit := true })
        s).memsOk = true := by
  refine memsOk_modChan h ?_
  split
  · exact Mem.wf_write _ _ (memsOk_chan h ch)
  · exact memsOk_chan h ch

theorem memsOk_writeChan (ch : Fin 130) (o v : Nat) {s : State} (h : s.memsOk = true) :
    (writeChan ch o v s).memsOk = true := by
  unfold writeChan
  dsimp only
  refine memsOk_ite (memsOk_storeRequest _ _ _ h) ?_
  split
  · exact memsOk_ite (memsOk_goRelease _ _ h) (memsOk_ite (memsOk_releaseChan _ h) h)
  · exact memsOk_modChan_of_req h fun _ => rfl
  · exact memsOk_moveTail _ _ h
  · exact memsOk_modChan_of_req h fun _ => rfl
  · exact h

theorem memsOk_writeRdbg (o v : Nat) {s : State} (h : s.memsOk = true) : (writeRdbg o v s).memsOk = true := by
  unfold writeRdbg
  extract_lets s₁
  have hs₁ : s₁.memsOk = true := (memsOk_modRdbg _ _).trans h
  refine memsOk_ite h ?_
  split
  · exact (memsOk_modRdbg _ _).trans h
  · exact (memsOk_modRdbg _ _).trans h
  · exact (memsOk_modRdbg _ _).trans h
  · exact memsOk_ite (memsOk_rdbgStart hs₁) hs₁
  · exact h

theorem memsOk_writeObs (o v : Nat) {s : State} (h : s.memsOk = true) : (writeObs o v s).memsOk = true := by
  have hobs : ∀ f : Obs → Obs, (∀ x, (f x).maps = x.maps) → (modObs f s).memsOk = true := fun f hf =>
      memsOk_modObs_of_maps h hf
  unfold writeObs
  refine memsOk_ite (memsOk_modObs h (Mem.wf_write _ _ (memsOk_maps h))) (memsOk_ite (memsOk_dmWrite _ _ _ h)
    (memsOk_ite (memsOk_dmWrite _ _ _ h) (memsOk_ite (memsOk_writeRdbg _ _ h) ?_)))
  split
  · have h1 := memsOk_ite (c := v.testBit 0 = true) (memsOk_armFreeze h) h
    have h2 := memsOk_ite (c := v.testBit 1 = true) (memsOk_nowFreeze h1) h1
    exact memsOk_ite (memsOk_armThaw h2) h2
  all_goals first
    | exact h
    | exact hobs _ fun _ => rfl
    | exact memsOk_ite (memsOk_fireHere ((memsOk_modCut _ _).trans h)) ((memsOk_modCut _ _).trans h)

theorem memsOk_ringDoorbell (n : Fin 128) (q : Fin 16) (v : BitVec 32) {s : State} (h : s.memsOk = true) :
    (ringDoorbell n q v s).memsOk = true := by
  unfold ringDoorbell
  extract_lets _ s₁
  have hs₁ : s₁.memsOk = true := memsOk_doorbell _ _ _ h
  exact memsOk_ite hs₁ (memsOk_ite hs₁ (memsOk_wakeDevice _ hs₁))

theorem memsOk_writeQueue (o v : Nat) {s : State} (h : s.memsOk = true) : (writeQueue o v s).memsOk = true := by
  unfold writeQueue
  extract_lets _ _
  split
  · exact memsOk_ringDoorbell _ _ _ h
  · exact memsOk_ite ((memsOk_modQueue _ _ _ _).trans h) h
  · exact h

theorem memsOk_writePf (off v : Nat) {s : State} (h : s.memsOk = true) : (writePf off v s).memsOk = true :=
  memsOk_ite (memsOk_writeObs _ _ h) (memsOk_ite (memsOk_writeQueue _ _ h) h)

theorem memsOk_writeReg (r : Requester) (off v : Nat) {s : State} (h : s.memsOk = true) :
    (writeReg r off v s).memsOk = true := by
  unfold writeReg
  refine memsOk_ite h (memsOk_ite (memsOk_writeChan _ _ _ h) ?_)
  split
  · exact memsOk_writePf _ _ h
  · exact memsOk_ite (memsOk_writeQueue _ _ h) h
  · exact h

theorem memsOk_registerWrite (t : Nat) (r : Requester) (off : Nat) (v : BitVec 32) {s : State} (h : s.memsOk = true) :
    (registerWrite t r off v s).memsOk = true := by
  unfold registerWrite
  extract_lets s₁
  have hs₁ : s₁.memsOk = true := (memsOk_at _ _).trans h
  exact memsOk_ite (memsOk_writeReg _ _ _ hs₁) hs₁

theorem memsOk_doorbellWrite (t : Nat) (r : Requester) (n : Fin 128) (q : Fin 16) (v : BitVec 32) {s : State}
    (h : s.memsOk = true) :
    (doorbellWrite t r n q v s).memsOk = true := by
  unfold doorbellWrite
  extract_lets s₁
  have hs₁ : s₁.memsOk = true := (memsOk_at _ _).trans h
  exact memsOk_ite (memsOk_ringDoorbell _ _ _ hs₁) hs₁

theorem memsOk_advanceWindow (n : Nat) {s : State} (h : s.memsOk = true) : (advanceWindow n s).memsOk = true := by
  unfold advanceWindow
  extract_lets _ _ d s₁ _
  have hd : d.2.memsOk = true := memsOk_drawNat h
  have hs₁ : s₁.memsOk = true := hd
  exact memsOk_ite (memsOk_congr h rfl rfl rfl rfl rfl) (memsOk_congr hd rfl rfl rfl rfl rfl)

theorem memsOk_smbWindow (t : Nat) (v : BitVec 16) (pec : BitVec 8) {s : State} (h : s.memsOk = true) :
    (smbWindow t v pec s).memsOk = true := by
  unfold smbWindow
  extract_lets s₁ _ _
  have hs₁ : s₁.memsOk = true := (memsOk_at _ _).trans h
  exact memsOk_ite (memsOk_congr hs₁ rfl rfl rfl rfl rfl) hs₁

theorem memsOk_smbStore (d : Bytes) {s : State} (h : s.memsOk = true) : (smbStore d s).memsOk = true :=
  memsOk_ite (memsOk_storeRequest _ _ _ h) (memsOk_ite (memsOk_writeChan _ _ _ h) h)

theorem memsOk_smbBlockWrite (t : Nat) (d : Bytes) (pec : BitVec 8) {s : State} (h : s.memsOk = true) :
    (smbBlockWrite t d pec s).memsOk = true := by
  unfold smbBlockWrite
  extract_lets s₁ _ _
  have hs₁ : s₁.memsOk = true := (memsOk_at _ _).trans h
  exact memsOk_ite (memsOk_advanceWindow _ (memsOk_smbStore _ hs₁)) hs₁

theorem memsOk_smbWords (l k : Nat) {s : State} (h : s.memsOk = true) : (smbWords l k s).2.memsOk = true := by
  induction l generalizing k s with
  | zero =>
    unfold smbWords
    dsimp only
    exact h
  | succ n ih =>
    unfold smbWords
    extract_lets r x rest
    have hr : r.2.memsOk = true := memsOk_readReg _ _ h
    have hx : x.2.memsOk = true := by
      unfold x
      split
      · dsimp only
        exact hr
      · exact memsOk_drawBytes _ h
    have hrest : rest.2.memsOk = true := ih _ hx
    dsimp only
    exact hrest

theorem memsOk_smbBlockRead (t : Nat) {s : State} (h : s.memsOk = true) : (smbBlockRead t s).memsOk = true := by
  unfold smbBlockRead
  extract_lets s₁ _ _ r s₂
  have hs₁ : s₁.memsOk = true := (memsOk_at _ _).trans h
  have hr : r.2.memsOk = true := memsOk_smbWords _ _ hs₁
  have hs₂ : s₂.memsOk = true := memsOk_ite (memsOk_releaseAlert hr) hr
  exact memsOk_ite hs₁ ((memsOk_emit _ _).trans (memsOk_advanceWindow _ hs₂))

theorem memsOk_bmcStatusRead (t : Nat) {s : State} (h : s.memsOk = true) : (bmcStatusRead t s).memsOk = true := by
  unfold bmcStatusRead
  extract_lets s₁
  have hs₁ : s₁.memsOk = true := (memsOk_at _ _).trans h
  exact memsOk_ite hs₁ ((memsOk_emit _ _).trans (memsOk_releaseAlert hs₁))

theorem memsOk_debugRequest (t : Nat) {s : State} (h : s.memsOk = true) : (debugRequest t s).memsOk = true := by
  unfold debugRequest
  extract_lets s₁
  have hs₁ : s₁.memsOk = true := h
  split
  · exact hs₁
  · rename_i m s₂ hm
    have hs₂ : s₂.memsOk = true := memsOk_takeMsg hm hs₁
    split
    · exact hs₂
    · rename_i p _
      extract_lets op off st x b
      have hx : x.2.memsOk = true := by
        unfold x
        split
        · exact hs₂
        · split
          · exact memsOk_readKeyed _ _ _ hs₂
          · exact memsOk_writePf _ _ hs₂
      have hlate : (queueMsg p 7 1 0 none b { s₂ with now := min s₂.now (m.at_ + 1050) }).memsOk = true :=
        (memsOk_queueMsg _ _ _ _ _ _ _).trans (memsOk_congr hs₂ rfl rfl rfl rfl rfl)
      exact memsOk_ite (memsOk_congr hlate rfl rfl rfl rfl rfl) ((memsOk_queueMsg _ _ _ _ _ _ _).trans hx)

end Sys2Proof.Machine
end

section
/-! SUPPORT. The sparse memories stay canonical: resets. -/

namespace Sys2Proof.Machine

theorem memsOk_rawCopy (src dst n : Nat) {s : State} (h : s.memsOk = true) : (rawCopy src dst n s).memsOk = true := by
  refine memsOk_modMm (f := fun m => { m with bytes := _ }) h (Mem.wf_foldl (fun m e hm => Mem.wf_write _ _ hm) _ ?_)
  exact Mem.wf_clear _ _ (memsOk_bytes h)

theorem memsOk_dumpJournal (dst : Nat) {s : State} (h : s.memsOk = true) : (dumpJournal dst s).memsOk = true := by
  unfold dumpJournal
  extract_lets _ _ _
  exact memsOk_ite (memsOk_rawCopy _ _ _ h) (memsOk_rawCopy _ _ _ (memsOk_rawCopy _ _ _ h))

theorem memsOk_crashDump {s : State} (h : s.memsOk = true) : (crashDump s).memsOk = true := by
  unfold crashDump
  extract_lets s₁ h₁ s₂ s₃ r s₄ s₅ s₆ s₇
  have hs₁ : s₁.memsOk = true := (memsOk_modCmb _ _).trans h
  have hh₁ : h₁.2.memsOk = true := memsOk_drawBytes _ hs₁
  have hs₂ : s₂.memsOk = true := memsOk_rawWrite _ _ hh₁
  have hs₃ : s₃.memsOk = true := memsOk_rawWrite _ _ (memsOk_congr hs₂ rfl rfl rfl rfl rfl)
  have hr : r.2.memsOk = true := memsOk_drawBytes _ hs₃
  have hs₄ : s₄.memsOk = true := memsOk_rawWrite _ _ hr
  have hs₅ : s₅.memsOk = true := memsOk_rawWrite _ _ hs₄
  have hs₆ : s₆.memsOk = true := memsOk_foldl (fun _ _ hs => memsOk_rawWrite _ _ hs) _ hs₅
  have hs₇ : s₇.memsOk = true := memsOk_foldl (fun _ _ hs => memsOk_rawWrite _ _ hs) _ hs₆
  exact memsOk_ite h (memsOk_dumpJournal _ hs₇)

theorem memsOk_deviceWarmReset (t : Nat) {s : State} (h : s.memsOk = true) : (deviceWarmReset t s).memsOk = true := by
  unfold deviceWarmReset
  extract_lets s₁
  have hs₁ : s₁.memsOk = true := h
  split
  · exact hs₁
  · extract_lets s₂ s₃ s₄ s₅ s₆ _ s₇
    have hs₂ : s₂.memsOk = true := memsOk_logReset _ _ _ _ _ hs₁
    have hs₃ : s₃.memsOk = true := memsOk_crashDump (memsOk_journalReset _ _ _ _ hs₂)
    have hs₄ : s₄.memsOk = true := memsOk_foldl (fun _ _ hs => memsOk_ite (memsOk_linkGoesDown _ _ _ hs) hs) _ hs₃
    have hs₅ : s₅.memsOk = true := memsOk_foldl (fun _ _ hs => (memsOk_traceRec _ _ _ _ _).trans hs) _ hs₄
    have hs₆ : s₆.memsOk = true := memsOk_islandsLost true hs₅
    clear_value s₆
    have hs₇ : s₇.memsOk = true := memsOk_congr hs₆ rfl rfl rfl rfl rfl
    exact (memsOk_modPwr _ _).trans ((memsOk_modCmb _ _).trans hs₇)

theorem memsOk_rootHang (t : Nat) {s : State} (h : s.memsOk = true) : (rootHang t s).memsOk = true := by
  unfold rootHang
  extract_lets s₁ _ _ s₂ s₃ s₄ s₅ s₆ s₇
  have hs₁ : s₁.memsOk = true := (memsOk_at _ _).trans h
  have hs₂ : s₂.memsOk = true := (memsOk_logErr _ _ _ _).trans (memsOk_rootStops hs₁)
  have hs₃ : s₃.memsOk = true := (memsOk_modCmb _ _).trans hs₂
  have hs₄ : s₄.memsOk = true := memsOk_countDevice _ hs₃
  have hs₅ : s₅.memsOk = true := memsOk_noteReset _ _ _ hs₄
  have hs₆ : s₆.memsOk = true := memsOk_crashDump (memsOk_journalReset _ _ _ _ hs₅)
  have hs₇ : s₇.memsOk = true := (memsOk_traceRec _ _ _ _ _).trans (memsOk_modObs_of_maps hs₆ fun _ => rfl)
  exact memsOk_ite hs₁ (memsOk_ite (memsOk_startDevice _ hs₃) (memsOk_ite (memsOk_startDevice _ hs₃)
      ((memsOk_modCmb _ _).trans hs₇)))

theorem memsOk_restartChan (ch : Fin 130) {s : State} (h : s.memsOk = true) : (restartChan s ch).memsOk = true := by
  unfold restartChan
  extract_lets _
  split
  · exact memsOk_finishChannel _ _ _ _ h
  · exact memsOk_setChan h (memsOk_chan h _)
  · exact h

theorem memsOk_restartTickets (ch : Fin 130) {s : State} (h : s.memsOk = true) : (restartTickets s ch).memsOk = true :=
  memsOk_foldl (fun _ _ hs => memsOk_finishTicket _ _ _ _ hs) _ h

theorem memsOk_endQuarantine (b : Fin 64) {s : State} (h : s.memsOk = true) : (endQuarantine b s).memsOk = true :=
  (memsOk_modBough _ _ _).trans (memsOk_zeroScratch _ ((memsOk_modCmb _ _).trans h))

theorem memsOk_rootRestart (t : Nat) {s : State} (h : s.memsOk = true) : (rootRestart t s).memsOk = true := by
  unfold rootRestart
  extract_lets s₁ _ s₂ s₃ s₄ s₅ s₆ _ s₇
  have hs₁ : s₁.memsOk = true := h
  have hs₂ : s₂.memsOk = true := memsOk_congr hs₁ rfl rfl rfl rfl rfl
  have hs₃ : s₃.memsOk = true := by
    unfold s₃
    split
    · exact memsOk_endQuarantine _ hs₂
    · exact hs₂
  have hs₄ : s₄.memsOk = true := memsOk_ite ((memsOk_modPwr _ _).trans hs₃) hs₃
  have hs₅ : s₅.memsOk = true := memsOk_foldl (fun _ _ hs => memsOk_restartChan _ hs) _ hs₄
  have hs₆ : s₆.memsOk = true := memsOk_foldl (fun _ _ hs => memsOk_restartTickets _ hs) _ hs₅
  clear_value s₆
  have hs₇ : s₇.memsOk = true := memsOk_congr hs₆ rfl rfl rfl rfl rfl
  exact memsOk_ite hs₁ (memsOk_ite hs₇ (memsOk_rootServes hs₇))

theorem memsOk_coreSampleRead (t : Nat) (ch : Fin 130) {s : State} (h : s.memsOk = true) :
    (coreSampleRead t ch s).memsOk = true := by
  unfold coreSampleRead
  refine memsOk_onCmd (fun r a s' hs => ?_) h
  extract_lets _ _
  exact memsOk_answer _ _ _ _ hs

theorem memsOk_replayCopy (n q mask : Nat) {s : State} (h : s.memsOk = true) :
    (replayCopy n q mask s).memsOk = true := by
  unfold replayCopy
  extract_lets _ _ s₁
  have hs₁ : s₁.memsOk = true := (memsOk_modPart _ _ _).trans (memsOk_congr h rfl rfl rfl rfl rfl)
  exact (memsOk_modQueue _ _ _ _).trans hs₁

theorem memsOk_replayVerdict (n q b : Nat) {s : State} (h : s.memsOk = true) :
    (replayVerdict n q b s).2.2.memsOk = true := by
  unfold replayVerdict
  extract_lets d e
  have hd : d.2.memsOk = true := memsOk_drawNat h
  have he : e.2.memsOk = true := memsOk_drawNat hd
  split
  · extract_lets _ _ _
    split
    · dsimp only
      exact hd
    · split
      · dsimp only
        exact he
      · dsimp only
        exact memsOk_congr h rfl rfl rfl rfl rfl
  · dsimp only
    exact hd

theorem memsOk_quarantineReplay (t : Nat) (ch : Fin 130) {s : State} (h : s.memsOk = true) :
    (quarantineReplay t ch s).memsOk = true := by
  unfold quarantineReplay
  refine memsOk_onCmd (fun r a s' hs => ?_) h
  extract_lets _ _ v s₁
  have hv : v.2.2.memsOk = true := memsOk_replayVerdict _ _ _ hs
  have hs₁ : s₁.memsOk = true := (memsOk_modCmb _ _).trans ((memsOk_modBough _ _ _).trans hv)
  exact memsOk_ite (memsOk_answer _ _ _ _ hs) (memsOk_acceptLong _ _ _ hs₁)

theorem memsOk_replayHung (b : Fin 64) (context reached : Nat) {s : State} (h : s.memsOk = true) :
    (replayHung b context reached s).memsOk = true := by
  unfold replayHung
  extract_lets d _
  have hd : d.2.memsOk = true := memsOk_drawNat h
  exact memsOk_logHang _ _ _ _ hd

theorem memsOk_finishReplay (ch : Fin 130) (num b verdict context reached : Nat) {s : State} (h : s.memsOk = true) :
    (finishReplay ch num b verdict context reached s).memsOk = true := by
  unfold finishReplay
  extract_lets s₁ s₂ s₃
  have hs₁ : s₁.memsOk = true := memsOk_ite (memsOk_replayHung _ _ _ h) h
  have hs₂ : s₂.memsOk = true := memsOk_endQuarantine _ hs₁
  have hs₃ : s₃.memsOk = true := (memsOk_logErr _ _ _ _).trans hs₂
  exact memsOk_ite (memsOk_finishTicket _ _ _ _ h) (memsOk_finishTicket _ _ _ _ hs₃)

theorem memsOk_endRequests (n : Nat) {s : State} (h : s.memsOk = true) : (endRequests n s).memsOk = true := by
  unfold endRequests
  refine memsOk_foldl (fun s' a hs => ?_) _ h
  split
  · split
    · exact memsOk_ite (memsOk_modChan_of_req hs fun _ => rfl) hs
    · exact hs
  · exact hs

theorem memsOk_finishDestroy (ch : Fin 130) (num : Nat) (n : Fin 128) {s : State} (h : s.memsOk = true) :
    (finishDestroy ch num n s).memsOk = true :=
  memsOk_finishTicket _ _ _ _ (memsOk_destroyPart _ (memsOk_endRequests _ h))

theorem memsOk_longCommandComplete (t : Nat) (ch : Fin 130) (num : Nat) (testPasses : Bool) {s : State}
    (h : s.memsOk = true) :
    (longCommandComplete t ch num testPasses s).memsOk = true := by
  unfold longCommandComplete
  extract_lets s₁
  have hs₁ : s₁.memsOk = true := (memsOk_at _ _).trans h
  split
  · exact hs₁
  · refine memsOk_ite hs₁ ?_
    split
    · exact hs₁
    · exact hs₁
    · exact memsOk_finishTicket _ _ _ _ hs₁
    · extract_lets r
      have hr : r.2.memsOk = true := memsOk_replaceKey _ _ hs₁
      exact memsOk_ite (memsOk_finishTicket _ _ _ _ hs₁) (memsOk_finishTicket _ _ _ _ hr)
    · exact memsOk_finishPower _ _ _ hs₁
    · exact memsOk_finishReplay _ _ _ _ _ _ hs₁
    · exact memsOk_activateNow _ _ _ hs₁
    · exact memsOk_finishDestroy _ _ _ hs₁

end Sys2Proof.Machine
end

section
/-! SUPPORT. Every step keeps the sparse memories canonical. -/

namespace Sys2Proof.Machine

theorem memsOk_next {x s' : State} (hs : (Host.Outcome.next x : Outcome) = .next s') (h : x.memsOk = true) : s'.memsOk =
    true := by
  cases hs
  exact h

/-- Every instruction keeps the sparse memories canonical. -/
theorem memsOk_exec (i : Instr) {s s' : State} (h : s.memsOk = true) (hs : exec i s = .next s') : s'.memsOk = true := by
  cases i with
  | getInfo => exact memsOk_next hs (memsOk_getInfo _ _ h)
  | getCommands => exact memsOk_next hs (memsOk_getCommands _ _ h)
  | ticketStatus => exact memsOk_next hs (memsOk_ticketStatus _ _ h)
  | ticketResult => exact memsOk_next hs (memsOk_ticketResult _ _ h)
  | timeGet => exact memsOk_next hs (memsOk_timeGet _ _ h)
  | echo => exact memsOk_next hs (memsOk_echo _ _ h)
  | partCreate => exact memsOk_next hs (memsOk_partCreate _ _ h)
  | partDestroy => exact memsOk_next hs (memsOk_partDestroy _ _ h)
  | partQuery => exact memsOk_next hs (memsOk_partQuery _ _ h)
  | memAlloc => exact memsOk_next hs (memsOk_memAlloc _ _ h)
  | memFree => exact memsOk_next hs (memsOk_memFree _ _ h)
  | windowExport => exact memsOk_next hs (memsOk_windowExport _ _ h)
  | windowImport => exact memsOk_next hs (memsOk_windowImport _ _ h)
  | windowRevoke => exact memsOk_next hs (memsOk_windowRevoke _ _ h)
  | lendOffer => exact memsOk_next hs (memsOk_lendOffer _ _ h)
  | residencyPlan => exact memsOk_next hs (memsOk_residencyPlan _ _ h)
  | memStatus => exact memsOk_next hs (memsOk_memStatus _ _ h)
  | windowUnimport => exact memsOk_next hs (memsOk_windowUnimport _ _ h)
  | queueCreate => exact memsOk_next hs (memsOk_queueCreate _ _ h)
  | queueDestroy => exact memsOk_next hs (memsOk_queueDestroy _ _ h)
  | queueQuery => exact memsOk_next hs (memsOk_queueQuery _ _ h)
  | keyLoad => exact memsOk_next hs (memsOk_keyLoad _ _ h)
  | keyReplace => exact memsOk_next hs (memsOk_keyReplace _ _ h)
  | keyDestroy => exact memsOk_next hs (memsOk_keyDestroy _ _ h)
  | keyQuery => exact memsOk_next hs (memsOk_keyQuery _ _ h)
  | mbxKeySet => exact memsOk_next hs (memsOk_mbxKeySet _ _ h)
  | linkTrain => exact memsOk_next hs (memsOk_linkTrain _ _ h)
  | linkRetrain => exact memsOk_next hs (memsOk_linkRetrain _ _ h)
  | linkDown => exact memsOk_next hs (memsOk_linkDown _ _ h)
  | linkStatus => exact memsOk_next hs (memsOk_linkStatus _ _ h)
  | linkSecuritySet => exact memsOk_next hs (memsOk_linkSecuritySet _ _ h)
  | linkRekey => exact memsOk_next hs (memsOk_linkRekey _ _ h)
  | routeSet => exact memsOk_next hs (memsOk_routeSet _ _ h)
  | bundleSet => exact memsOk_next hs (memsOk_bundleSet _ _ h)
  | groupCreate => exact memsOk_next hs (memsOk_groupCreate _ _ h)
  | groupDestroy => exact memsOk_next hs (memsOk_groupDestroy _ _ h)
  | groupQuery => exact memsOk_next hs (memsOk_groupQuery _ _ h)
  | vocabLoad => exact memsOk_next hs (memsOk_vocabLoad _ _ h)
  | grammarLoad => exact memsOk_next hs (memsOk_grammarLoad _ _ h)
  | grammarUnload => exact memsOk_next hs (memsOk_grammarUnload _ _ h)
  | streamOpen => exact memsOk_next hs (memsOk_streamOpen _ _ h)
  | streamClose => exact memsOk_next hs (memsOk_streamClose _ _ h)
  | groveJoin => exact memsOk_next hs (memsOk_groveJoin _ _ h)
  | groveLeave => exact memsOk_next hs (memsOk_groveLeave _ _ h)
  | peerNotify => exact memsOk_next hs (memsOk_peerNotify _ _ h)
  | twinPair => exact memsOk_next hs (memsOk_twinPair _ _ h)
  | mirrorSet => exact memsOk_next hs (memsOk_mirrorSet _ _ h)
  | twinFailover => exact memsOk_next hs (memsOk_twinFailover _ _ h)
  | counterConfig => exact memsOk_next hs (memsOk_counterConfig _ _ h)
  | traceConfig => exact memsOk_next hs (memsOk_traceConfig _ _ h)
  | cutArm => exact memsOk_next hs (memsOk_cutArm _ _ h)
  | cutRelease => exact memsOk_next hs (memsOk_cutRelease _ _ h)
  | ringRead => exact memsOk_next hs (memsOk_ringRead _ _ h)
  | journalConfig => exact memsOk_next hs (memsOk_journalConfig _ _ h)
  | resetBough => exact memsOk_next hs (memsOk_resetBough _ _ h)
  | resetCrown => exact memsOk_next hs (memsOk_resetCrown _ _ h)
  | resetDevice => exact memsOk_next hs (memsOk_resetDevice _ _ h)
  | escalationSet => exact memsOk_next hs (memsOk_escalationSet _ _ h)
  | errlogRead => exact memsOk_next hs (memsOk_errlogRead _ _ h)
  | coreSampleRead => exact memsOk_next hs (memsOk_coreSampleRead _ _ h)
  | quarantineReplay => exact memsOk_next hs (memsOk_quarantineReplay _ _ h)
  | returnToService => exact memsOk_next hs (memsOk_returnToService _ _ h)
  | powerLimitSet => exact memsOk_next hs (memsOk_powerLimitSet _ _ h)
  | powerStateSet => exact memsOk_next hs (memsOk_powerStateSet _ _ h)
  | thermalQuery => exact memsOk_next hs (memsOk_thermalQuery _ _ h)
  | fwStage => exact memsOk_next hs (memsOk_fwStage _ _ h)
  | fwActivate => exact memsOk_next hs (memsOk_fwActivate _ _ h)
  | rollbackAdvance => exact memsOk_next hs (memsOk_rollbackAdvance _ _ h)
  | refusalLogRead => exact memsOk_next hs (memsOk_refusalLogRead _ _ h)
  | go => exact memsOk_next hs (memsOk_go _ _ _ h)
  | release => exact memsOk_next hs (memsOk_release _ _ h)
  | evqTail => exact memsOk_next hs (memsOk_evqTail _ _ _ h)
  | registerWrite => exact memsOk_next hs (memsOk_registerWrite _ _ _ _ h)
  | lowWordRead => exact memsOk_next hs (memsOk_lowWordRead _ _ _ _ h)
  | bmcStatusRead => exact memsOk_next hs (memsOk_bmcStatusRead _ h)
  | refusalResponse => exact memsOk_next hs (memsOk_refusalResponse _ _ h)
  | longCommandComplete => exact memsOk_next hs (memsOk_longCommandComplete _ _ _ _ h)
  | smbusWindowOffset => exact memsOk_next hs (memsOk_smbWindow _ _ _ h)
  | smbusBlockWrite => exact memsOk_next hs (memsOk_smbBlockWrite _ _ _ h)
  | smbusBlockRead => exact memsOk_next hs (memsOk_smbBlockRead _ h)
  | wake => exact memsOk_next hs (memsOk_smbWake _ _ h)
  | powerStatus => exact memsOk_next hs (memsOk_powerStatus _ h)
  | doorbell => exact memsOk_next hs (memsOk_doorbellWrite _ _ _ _ _ h)
  | nop => exact memsOk_next hs (memsOk_startRecord (fun _ _ _ _ _ hs => memsOk_nopBody _ _ _ _ hs) h)
  | matmul => exact memsOk_next hs (memsOk_startOnSlot _ _ _ _ _ (fun _ _ _ _ _ hs => memsOk_matmulBody _ _ _ _ hs) h)
  | vec => exact memsOk_next hs (memsOk_startRecord (fun _ _ _ _ _ hs => memsOk_vecBody _ _ _ _ hs) h)
  | attend => exact memsOk_next hs (memsOk_startRecord (fun _ _ _ _ _ hs => memsOk_attendBody _ _ _ _ hs) h)
  | sample => exact memsOk_next hs (memsOk_startRecord (fun _ _ _ _ _ hs => memsOk_sampleBody _ _ _ _ hs) h)
  | convert => exact memsOk_next hs (memsOk_startRecord (fun _ _ _ _ _ hs => memsOk_convertBody _ _ _ _ hs) h)
  | copy => exact memsOk_next hs (memsOk_startRecord (fun _ _ _ _ _ hs => memsOk_copyBody _ _ _ _ _ hs) h)
  | fill => exact memsOk_next hs (memsOk_startRecord (fun _ _ _ _ _ hs => memsOk_fillBody _ _ _ _ hs) h)
  | remoteOp => exact memsOk_next hs (memsOk_startRecord (fun _ _ _ _ _ hs => memsOk_remoteOpBody _ _ _ _ hs) h)
  | prefetch => exact memsOk_next hs (memsOk_startRecord (fun _ _ _ _ _ hs => memsOk_prefetchBody _ _ _ _ hs) h)
  | collective => exact memsOk_next hs (memsOk_startOnSlot _ _ _ _ _ (fun _ _ _ _ _ hs => memsOk_collectiveBody _ _ _ _
      hs) h)
  | tokenize => exact memsOk_next hs (memsOk_startRecord (fun _ _ _ _ _ hs => memsOk_tokenizeBody _ _ _ _ hs) h)
  | step => exact memsOk_next hs (memsOk_startRecord (fun _ _ _ _ _ hs => memsOk_stepBody _ _ _ _ hs) h)
  | recordSkip => exact memsOk_next hs (memsOk_recordSkip _ _ _ _ h)
  | recordComplete => exact memsOk_next hs (memsOk_recordComplete _ _ _ _ h)
  | hostAccessFail => exact memsOk_next hs (memsOk_hostAccessFail _ _ _ _ _ _ h)
  | maskReady => exact memsOk_next hs (memsOk_maskReady _ _ h)
  | runaheadBuild => exact memsOk_next hs (memsOk_runaheadBuild _ _ h)
  | remoteRequest => exact memsOk_next hs (memsOk_remoteRequest _ h)
  | denialReady => exact memsOk_next hs (memsOk_denialReady _ h)
  | remoteResponse => exact memsOk_next hs (memsOk_remoteResponse _ h)
  | messageForward => exact memsOk_next hs (memsOk_messageForward _ h)
  | remoteTimeout => exact memsOk_next hs (memsOk_remoteTimeout _ _ h)
  | messageHoldExpire => exact memsOk_next hs (memsOk_messageHoldExpire _ h)
  | tagQuarantineExpire => exact memsOk_next hs (memsOk_tagQuarantineExpire _ _ h)
  | readAheadExpire => exact memsOk_next hs (memsOk_readAheadExpire _ h)
  | flitCompose => exact memsOk_next hs (memsOk_flitCompose _ _ h)
  | flitReceive => exact memsOk_next hs (memsOk_flitReceive _ _ _ _ h)
  | nakResend => exact memsOk_next hs (memsOk_nakResend _ _ h)
  | ackTimer => exact memsOk_next hs (memsOk_ackTimer _ _ h)
  | replayTimer => exact memsOk_next hs (memsOk_replayTimer _ _ h)
  | keepaliveNull => exact memsOk_next hs (memsOk_keepaliveNull _ _ h)
  | linkDownTimeout => exact memsOk_next hs (memsOk_linkDownTimeout _ _ h)
  | landingSpill => exact memsOk_next hs (memsOk_landingSpill _ _ _ h)
  | flitDeliver => exact memsOk_next hs (memsOk_flitDeliver _ _ _ h)
  | stallTakeEffect => exact memsOk_next hs (memsOk_stallTakeEffect _ _ _ h)
  | wedgeClear => exact memsOk_next hs (memsOk_wedgeClear _ _ _ h)
  | epochAdvance => exact memsOk_next hs (memsOk_epochAdvance _ _ h)
  | rekeyStart => exact memsOk_next hs (memsOk_rekeyStart _ _ h)
  | secHello => exact memsOk_next hs (memsOk_secHello _ _ h)
  | secProof => exact memsOk_next hs (memsOk_secProof _ _ h)
  | secFinish => exact memsOk_next hs (memsOk_secFinish _ _ h)
  | secAbort => exact memsOk_next hs (memsOk_secAbort _ _ h)
  | handshakeTimeout => exact memsOk_next hs (memsOk_handshakeTimeout _ _ h)
  | prevKeyZeroise => exact memsOk_next hs (memsOk_prevKeyZeroise _ _ h)
  | energyDetect => exact memsOk_next hs (memsOk_energyDetect _ _ _ h)
  | laneQualify => exact memsOk_next hs (memsOk_laneQualify _ _ _ _ _ _ _ h)
  | falseWake => exact memsOk_next hs (memsOk_falseWake _ _ _ h)
  | hello => exact memsOk_next hs (memsOk_onFrame _ _ _ (fun _ hs => memsOk_takeHelloMsg _ _ _ hs) h)
  | phase => exact memsOk_next hs (memsOk_onFrame _ _ _ (fun _ hs => memsOk_phaseMsg _ _ _ _ hs) h)
  | bitTable => exact memsOk_next hs (memsOk_onFrame _ _ _ (fun _ hs => memsOk_bitTable _ _ _ hs) h)
  | tableAck => exact memsOk_next hs (memsOk_onFrame _ _ _ (fun _ hs => memsOk_tableAck _ _ _ _ _ hs) h)
  | spareSwap => exact memsOk_next hs (memsOk_onFrame _ _ _ (fun _ hs => memsOk_spareSwap _ _ _ hs) h)
  | retrain => exact memsOk_next hs (memsOk_onFrame _ _ _ (fun _ hs => memsOk_retrainMsg _ _ _ hs) h)
  | lowEnter => exact memsOk_next hs (memsOk_onFrame _ _ _ (fun _ hs => memsOk_lowEnter _ _ hs) h)
  | lowAck => exact memsOk_next hs (memsOk_onFrame _ _ _ (fun _ hs => memsOk_lowAck _ _ hs) h)
  | down => exact memsOk_next hs (memsOk_onFrame _ _ _ (fun _ hs => memsOk_downMsg _ _ hs) h)
  | verifyResult => exact memsOk_next hs (memsOk_onFrame _ _ _ (fun _ hs => memsOk_verifyResult _ _ _ hs) h)
  | trainingTimeout => exact memsOk_next hs (memsOk_trainingTimeout _ _ h)
  | quietComplete => exact memsOk_next hs (memsOk_quietComplete _ _ _ h)
  | probeComplete => exact memsOk_next hs (memsOk_probeComplete _ _ _ h)
  | listenPilot => exact memsOk_next hs (memsOk_listenPilot _ _ h)
  | snrWindowEnd => exact memsOk_next hs (memsOk_snrWindowEnd _ _ _ _ h)
  | tableSwap => exact memsOk_next hs (memsOk_tableSwap _ _ _ _ h)
  | tableAdopt => exact memsOk_next hs (memsOk_tableAdopt _ _ _ _ _ h)
  | tableSwapLapse => exact memsOk_next hs (memsOk_tableSwapLapse _ _ _ _ h)
  | laneRetire => exact memsOk_next hs (memsOk_laneRetire _ _ _ h)
  | spareTakeover => exact memsOk_next hs (memsOk_spareTakeover _ _ _ h)
  | laneRetrainDone => exact memsOk_next hs (memsOk_laneRetrainDone _ _ _ _ h)
  | laneRetrainRetry => exact memsOk_next hs (memsOk_laneRetrainRetry _ _ _ h)
  | beaconSend => exact memsOk_next hs (memsOk_beaconSend _ _ h)
  | beaconLoss => exact memsOk_next hs (memsOk_beaconLoss _ _ h)
  | linkEnergyWake => exact memsOk_next hs (memsOk_linkEnergyWake _ _ _ _ h)
  | autoRetrain => exact memsOk_next hs (memsOk_autoRetrain _ _ h)
  | seg => exact memsOk_next hs (memsOk_seg _ h)
  | counts => exact memsOk_next hs (memsOk_countsMsg _ h)
  | abort => exact memsOk_next hs (memsOk_abortMsg _ h)
  | colTimeout => exact memsOk_next hs (memsOk_colTimeout _ _ h)
  | parkExpire => exact memsOk_next hs (memsOk_parkExpire _ h)
  | grvId => exact memsOk_next hs (memsOk_grvId _ h)
  | grvJoin => exact memsOk_next hs (memsOk_grvJoin _ h)
  | grvJoinAck => exact memsOk_next hs (memsOk_grvJoinAck _ h)
  | joinTimeout => exact memsOk_next hs (memsOk_joinTimeout _ h)
  | grvBeat => exact memsOk_next hs (memsOk_grvBeat _ h)
  | grvBeatTimer => exact memsOk_next hs (memsOk_grvBeatTimer _ h)
  | grvMemberSilent => exact memsOk_next hs (memsOk_grvMemberSilent _ _ h)
  | grvLeave => exact memsOk_next hs (memsOk_grvLeave _ h)
  | grvNotify => exact memsOk_next hs (memsOk_grvNotify _ h)
  | twinHello => exact memsOk_next hs (memsOk_withdraw (memsOk_twinHello _ h))
  | twinProof => exact memsOk_next hs (memsOk_withdraw (memsOk_twinProof _ h))
  | pairTimeout => exact memsOk_next hs (memsOk_pairTimeout _ h)
  | graftBeat => exact memsOk_next hs (memsOk_graftBeat _ h)
  | graftBeatTimer => exact memsOk_next hs (memsOk_graftBeatTimer _ h)
  | graftBeatLoss => exact memsOk_next hs (memsOk_graftBeatLoss _ h)
  | twinProbe => exact memsOk_next hs (memsOk_twinProbe _ h)
  | twinProbeAck => exact memsOk_next hs (memsOk_twinProbeAck _ h)
  | probeTimeout => exact memsOk_next hs (memsOk_probeTimeout _ h)
  | twinYield => exact memsOk_next hs (memsOk_twinYield _ h)
  | twinYieldAck => exact memsOk_next hs (memsOk_twinYieldAck _ h)
  | yieldTimeout => exact memsOk_next hs (memsOk_yieldTimeout _ h)
  | twinStale => exact memsOk_next hs (memsOk_twinStale _ h)
  | twinUnpair => exact memsOk_next hs (memsOk_twinUnpair _ h)
  | mirrorOpen => exact memsOk_next hs (memsOk_mirrorOpen _ h)
  | mirrorReply => exact memsOk_next hs (memsOk_mirrorReply _ h)
  | mirrorClose => exact memsOk_next hs (memsOk_mirrorClose _ h)
  | mirrorWrite => exact memsOk_next hs (memsOk_mirrorWrite _ h)
  | mirrorWriteAnswer => exact memsOk_next hs (memsOk_mirrorWriteAnswer _ h)
  | mirrorSyncDone => exact memsOk_next hs (memsOk_mirrorSyncDone _ _ h)
  | twigBeat => exact memsOk_next hs (memsOk_twigBeat _ _ _ _ _ h)
  | beatCheck => exact memsOk_next hs (memsOk_beatCheck _ h)
  | rootBeat => exact memsOk_next hs (memsOk_rootBeat _ h)
  | rootHang => exact memsOk_next hs (memsOk_rootHang _ h)
  | rootRestart => exact memsOk_next hs (memsOk_rootRestart _ h)
  | bootTimeout => exact memsOk_next hs (memsOk_bootTimeout _ h)
  | boughReset => exact memsOk_next hs (memsOk_boughReset _ _ _ h)
  | crownReset => exact memsOk_next hs (memsOk_crownReset _ h)
  | islandStall => exact memsOk_next hs (memsOk_islandStall _ _ _ h)
  | islandStallEscalate => exact memsOk_next hs (memsOk_islandStallEscalate _ _ _ h)
  | deviceWarmReset => exact memsOk_next hs (memsOk_deviceWarmReset _ h)
  | resetDelayExpire => exact memsOk_next hs (memsOk_resetDelayExpire _ h)
  | journalGap => exact memsOk_next hs (memsOk_journalGap _ h)
  | traceDrain => exact memsOk_next hs (memsOk_traceDrain _ _ h)
  | traceExport => exact memsOk_next hs (memsOk_traceExport _ h)
  | pcSample => exact memsOk_next hs (memsOk_pcSample _ _ _ _ h)
  | syncTx => exact memsOk_next hs (memsOk_syncTx _ _ h)
  | syncRx => exact memsOk_next hs (memsOk_syncRx _ h)
  | freezeArm => exact memsOk_next hs (memsOk_armFreeze h)
  | freezeNow => exact memsOk_next hs (memsOk_nowFreeze h)
  | thaw => exact memsOk_next hs (memsOk_armThaw h)
  | freezeTimeReached => exact memsOk_next hs (memsOk_freezeTimeReached _ _ h)
  | fire => exact memsOk_next hs (memsOk_fire _ h)
  | marker => exact memsOk_next hs (memsOk_marker _ h)
  | cutTaken => exact memsOk_next hs (memsOk_cutTaken _ h)
  | triggerFire => exact memsOk_next hs (memsOk_triggerFire _ _ _ h)
  | haltRequest => exact memsOk_next hs (memsOk_haltRequest _ _ _ h)
  | resumeRequest => exact memsOk_next hs (memsOk_resumeRequest _ _ h)
  | debugModuleAccess => exact memsOk_next hs (memsOk_debugModuleAccess _ _ _ _ h)
  | rdbgGo => exact memsOk_next hs (memsOk_rdbgGo _ h)
  | debugRequest => exact memsOk_next hs (memsOk_debugRequest _ h)
  | debugAnswer => exact memsOk_next hs (memsOk_debugAnswer _ h)
  | rdbgTimeout => exact memsOk_next hs (memsOk_rdbgTimeout _ h)
  | powerMeasure => exact memsOk_next hs (memsOk_powerMeasure _ _ h)
  | brdThrotN => exact memsOk_next hs (memsOk_brdThrotN _ _ h)
  | tempSample => exact memsOk_next hs (memsOk_tempSample _ _ h)
  | tripRecovery => exact memsOk_next hs (memsOk_tripRecovery _ h)
  | supplyWarn => exact memsOk_next hs (memsOk_supplyWarn _ _ _ h)
  | supplyFault => exact memsOk_next hs (memsOk_supplyFault _ _ _ h)
  | supplyGlitch => exact memsOk_next hs (memsOk_supplyGlitch _ _ h)
  | clockFault => exact memsOk_next hs (memsOk_clockFault _ _ _ h)
  | xtalFallback => exact memsOk_next hs (memsOk_xtalFallback _ _ h)
  | pcieRefclkLoss => exact memsOk_next hs (memsOk_pcieRefclkLoss _ h)
  | powerUp => exact memsOk_next hs (memsOk_powerUp _ _ h)
  | railGroupInRange => exact memsOk_next hs (memsOk_railGroupInRange _ _ h)
  | seqFail => exact memsOk_next hs (memsOk_seqFail _ _ h)
  | perstFall => exact memsOk_next hs (memsOk_perstFall _ h)
  | perstRise => exact memsOk_next hs (memsOk_perstRise _ h)
  | pfFlr => exact memsOk_next hs (memsOk_pfFlr _ h)
  | vfFlr => exact memsOk_next hs (memsOk_vfFlr _ _ h)
  | napExit => exact memsOk_next hs (memsOk_napExit _ h)
  | quietExit => exact memsOk_next hs (memsOk_quietExit _ h)
  | bootRom => exact memsOk_next hs (memsOk_bootRom _ _ h)
  | bootReady => exact memsOk_next hs (memsOk_bootReady _ h)
  | trialConfirm => exact memsOk_next hs (memsOk_trialConfirm _ h)
  | activateReset => exact memsOk_next hs (memsOk_activateReset _ h)
  | granuleZeroised => exact memsOk_next hs (memsOk_granuleZeroised _ _ h)
  | scrubPass => exact memsOk_next hs (memsOk_scrubPass _ _ h)
  | rowRetire => exact memsOk_next hs (memsOk_rowRetire _ _ _ h)
  | sweepDone => exact memsOk_next hs (memsOk_sweepDone _ _ _ h)
  | bankEraseDone => exact memsOk_next hs (memsOk_bankEraseDone _ _ h)
  | exportQuery => exact memsOk_next hs (memsOk_exportQuery _ _ _ _ h)
  | exportQueryAnswer => exact memsOk_next hs (memsOk_exportQueryAnswer _ _ _ h)
  | mirrorOpenTimeout => exact memsOk_next hs (memsOk_mirrorOpenTimeout _ h)
  | coldPowerLoss => exact memsOk_next hs (memsOk_coldPowerLoss h)
  | pcieWakeRelease => exact memsOk_next hs (memsOk_pcieWakeRelease _ h)
  | smbusClockLowTimeout => exact memsOk_next hs ((memsOk_at _ _).trans h)

/-- Settles O4: the memories of the reset state are empty, but for the flash, which is erased. -/
theorem resetMemoriesAreCanonical : Obligations.ResetMemoriesAreCanonical := memsOk_State_reset

/-- Settles O5: every instruction keeps the memories canonical, and the queue of commands is no memory. -/
theorem stepKeepsMemoriesCanonical : Obligations.StepKeepsMemoriesCanonical := by
  unfold Obligations.StepKeepsMemoriesCanonical
  intro s s' h hs
  unfold step at hs
  split at hs
  · exact memsOk_next hs h
  · refine memsOk_exec _ ?_ hs
    exact memsOk_congr h rfl rfl rfl rfl rfl

end Sys2Proof.Machine
end

section
/-! SUPPORT. Every command of the catalogue runs in the frame `onCmd`. -/

namespace Sys2Proof.Machine

/-- A command of the catalogue is an `onCmd` of its code; MIRROR_SET alone is idle while its channel waits for the twin's reply. -/
theorem commandOf_onCmd {t code : Nat} {ch : Fin 130} {i : Instr} (h : commandOf t ch code = some i) (s : State) :
    (openingOf s ch = true ∧ exec i s = .next (s.at t))
      ∨ ∃ (α : Type) (parse : Bytes → Option α) (ok : State → α → Bool) (run : Request → α → State → State),
          exec i s = .next (onCmd code t ch parse ok run s) := by
  by_cases hm : code = 0x0704
  · subst hm
    cases h
    by_cases ho : openingOf s ch = true
    · exact .inl ⟨ho, congrArg Host.Outcome.next (if_pos ho)⟩
    · exact .inr ⟨_, _, _, _, congrArg Host.Outcome.next (if_neg ho)⟩
  · right
    unfold commandOf at h
    split at h <;> first | exact absurd rfl hm | (cases h; exact ⟨_, _, _, _, rfl⟩) | cases h

/-- Settles O18: each command is an `onCmd`, which does nothing without an accepted request of its code in time. -/
theorem commandsNeedAcceptedRequests : Obligations.CommandsNeedAcceptedRequests := by
  unfold Obligations.CommandsNeedAcceptedRequests
  intro t code ch i s hi hr
  obtain ⟨-, he⟩ | ⟨α, parse, ok, run, he⟩ := commandOf_onCmd hi s
  · exact he
  · rw [he, onCmd_idle hr]

/-- An accepted command whose units sleep wakes the device and does nothing else yet. -/
theorem onCmd_wakes {α : Type} {code t : Nat} {ch : Fin 130} {r : Request} {row : CmdRow} {s : State} {parse : Bytes → Option α}
    {ok : State → α → Bool} {run : Request → α → State → State} (hrow : cmdRow code = some row)
    (hacc : acceptedReq (s.at t) ch = some r) (hcmd : r.cmd = code) (hserved : served (s.at t) ch = true)
    (hlimit : withinLimit (s.at t) r = true) (hturn : waitsFor (s.at t) ch r row = false) (hneeds : row.needs = true)
    (hasleep : unitsAsleep (s.at t) = true) : onCmd code t ch parse ok run s = wakeDevice 8 (s.at t) := by
  unfold onCmd
  simp [hrow, hacc, hcmd, hserved, hlimit, hturn, hneeds, hasleep]

/-- Settles O20: the wait for the units comes before the arguments are looked at. -/
theorem commandsWakeTheDevice : Obligations.CommandsWakeTheDevice := by
  unfold Obligations.CommandsWakeTheDevice
  intro t code ch r row i s₀ s hs hi hrow hacc hcmd hserved hlimit hturn hneeds hasleep hopen
  subst hs
  obtain ⟨ho, -⟩ | ⟨α, parse, ok, run, he⟩ := commandOf_onCmd hi s₀
  · exact absurd (ho.symm.trans hopen) (by decide)
  · rw [he, onCmd_wakes hrow hacc hcmd hserved hlimit hturn hneeds hasleep]

end Sys2Proof.Machine
end

section
/-! SUPPORT. Writes of a channel's window by the function that maps it. -/

namespace Sys2Proof.Machine

theorem partChan_of_chanRequester {ch : Fin 130} (h : 2 ≤ ch.val) : partChan (finOf 128 (ch.val - 2)) = ch := by
  refine Fin.ext ?_
  simp only [partChan, finOf, Fin.val_ofNat]
  omega

theorem writeReg_misaligned (r : Requester) {off : Nat} (v : Nat) (s : State) (ha : off % 4 ≠ 0) : writeReg r off v s = s := by
  unfold writeReg
  exact if_pos ha

/-- A channel's own function writes that channel's window. -/
theorem writeReg_window {ch : Fin 130} {off : Nat} (v : Nat) (s : State) (ha : off % 4 = 0) (ho : off < 0x4000) :
    writeReg (chanRequester ch) off v s = writeChan ch off v s := by
  have hchan : (match chanRequester ch with
      | .pf => 0
      | .smb => 1
      | .vf n => partChan n) = ch := by
    unfold chanRequester
    by_cases h0 : ch.val = 0
    · rw [if_pos h0]
      exact Fin.ext h0.symm
    · by_cases h1 : ch.val = 1
      · rw [if_neg h0, if_pos h1]
        exact Fin.ext h1.symm
      · rw [if_neg h0, if_neg h1]
        exact partChan_of_chanRequester (by omega)
  unfold writeReg
  rw [if_neg (by omega), if_pos ho]
  exact congrArg (fun c => writeChan c off v s) hchan

theorem exec_registerWrite_reaches {t off : Nat} {r : Requester} {v : BitVec 32} {s₀ s : State} (hs : s = s₀.at t)
    (hr : reaches s r = true) : exec (.registerWrite t r off v) s₀ = .next (writeReg r off v.toNat s) := by
  subst hs
  exact congrArg Host.Outcome.next (if_pos hr)

theorem writeChan_request (ch : Fin 130) {off : Nat} (v : Nat) (s : State) (ho : off < 0x1000) :
    writeChan ch off v s = modChan ch (fun c =>
      if c.st = .idle then { c with req := Mem.write 0 c.req off (leBytes 4 v) } else { c with lockHit := true }) s := by
  unfold writeChan
  exact if_pos ho

/-- The response page is read-only. -/
theorem writeChan_response (ch : Fin 130) {off : Nat} (v : Nat) (s : State) (hlo : 0x1000 ≤ off) (hhi : off < 0x2000) :
    writeChan ch off v s = s := by
  unfold writeChan
  dsimp only
  rw [if_neg (by omega)]
  split <;> first | omega | rfl

/-- Settles O23: a write of the page of a channel that is not idle sets LOCK_HIT and no more. -/
theorem requestPageTakesWritesWhileIdle : Obligations.RequestPageTakesWritesWhileIdle := by
  unfold Obligations.RequestPageTakesWritesWhileIdle
  intro t off ch v s₀ s hs hr ho ha
  rw [exec_registerWrite_reaches hs hr, writeReg_window _ _ ha (by omega), writeChan_request _ _ _ ho]
  refine ⟨fun hidle => ?_, fun hbusy => ?_⟩
  · rw [modChan, if_pos hidle]
  · rw [modChan, if_neg hbusy]

/-- Settles O60: such a write sets LOCK_HIT in the request page and changes nothing in the response page. -/
theorem theRequestIsTheContentAtCapture : Obligations.TheRequestIsTheContentAtCapture := by
  unfold Obligations.TheRequestIsTheContentAtCapture
  intro t off ch v r s₀ s hs hr hbusy hcur ho
  refine ⟨_, exec_registerWrite_reaches hs hr, ?_⟩
  by_cases ha : off % 4 = 0
  · rw [writeReg_window _ _ ha (by omega)]
    by_cases hp : off < 0x1000
    · rw [writeChan_request _ _ _ hp, chan_modChan_self, if_neg hbusy]
      exact ⟨hcur, rfl, rfl⟩
    · rw [writeChan_response _ _ _ (by omega) ho]
      exact ⟨hcur, rfl, rfl⟩
  · rw [writeReg_misaligned _ _ _ ha]
    exact ⟨hcur, rfl, rfl⟩

end Sys2Proof.Machine
end

section
/-! SUPPORT. What a byte of a sparse memory reads as after a store and after a clearing, and a range as its bytes. -/

namespace Sys2Proof.Machine

section
variable {d : BitVec 8} {x : Nat}

theorem Mem.get_unlisted {m : Mem} (h : ∀ e ∈ m, e.1 ≠ x) : Mem.get d m x = d := by
  induction m with
  | nil => rfl
  | cons e t ih =>
    rw [Mem.get, if_neg (h e List.mem_cons_self), ih fun e he => h e (List.mem_cons_of_mem _ he)]

theorem Mem.get_append_of_unlisted_left {m m' : Mem} (h : ∀ e ∈ m, e.1 ≠ x) : Mem.get d (m ++ m') x = Mem.get d m' x := by
  induction m with
  | nil => rfl
  | cons e t ih =>
    rw [List.cons_append, Mem.get, if_neg (h e List.mem_cons_self), ih fun e he => h e (List.mem_cons_of_mem _ he)]

theorem Mem.get_append_of_unlisted_right {m m' : Mem} (h : ∀ e ∈ m', e.1 ≠ x) : Mem.get d (m ++ m') x = Mem.get d m x := by
  induction m with
  | nil => exact Mem.get_unlisted h
  | cons e t ih => rw [List.cons_append, Mem.get, Mem.get, ih]

/-- A byte whose address a filter keeps reads as before. -/
theorem Mem.get_filter_of_kept {p : Nat × BitVec 8 → Bool} (h : ∀ v, p (x, v) = true) (m : Mem) :
    Mem.get d (m.filter p) x = Mem.get d m x := by
  induction m with
  | nil => rfl
  | cons e t ih =>
    obtain ⟨k, v⟩ := e
    by_cases hp : p (k, v) = true
    · rw [List.filter_cons_of_pos hp, Mem.get, Mem.get, ih]
    · have hk : k ≠ x := by
        rintro rfl
        exact hp (h v)
      rw [List.filter_cons_of_neg hp, ih, Mem.get, if_neg hk]

/-- A byte whose address a filter drops reads as an unlisted one. -/
theorem Mem.get_filter_of_dropped {p : Nat × BitVec 8 → Bool} (h : ∀ v, p (x, v) = false) (m : Mem) :
    Mem.get d (m.filter p) x = d := by
  refine Mem.get_unlisted ?_
  rintro ⟨k, v⟩ he rfl
  exact absurd (List.mem_filter.1 he).2 (by simp [h])

/-- The entries of stored bytes hold them. -/
theorem Mem.get_entries {a : Nat} (b : Bytes) (h : a ≤ x) : Mem.get d (Mem.entries d a b) x = b.getD (x - a) d := by
  induction b generalizing a with
  | nil => rfl
  | cons v b ih =>
    obtain rfl | hlt := h.eq_or_lt
    · simp only [Mem.entries, Nat.sub_self, List.getD_cons_zero]
      split
      · next hv =>
        rw [hv]
        refine Mem.get_unlisted fun e he => ?_
        have := Mem.entries_mem he
        omega
      · rw [Mem.get, if_pos rfl]
    · have hsucc : x - a = x - (a + 1) + 1 := by omega
      rw [hsucc, List.getD_cons_succ, ← ih hlt, Mem.entries]
      split
      · rfl
      · rw [Mem.get, if_neg (by omega)]

theorem Mem.get_write_inside {m : Mem} {a : Nat} {b : Bytes} (hlo : a ≤ x) (hhi : x < a + b.length) :
    Mem.get d (Mem.write d m a b) x = b.getD (x - a) d := by
  rw [Mem.write, Mem.get_append_of_unlisted_right, Mem.get_append_of_unlisted_left, Mem.get_entries b hlo]
  all_goals
    intro e he
    have := (List.mem_filter.1 he).2
    simp only [decide_eq_true_eq] at this
    omega

theorem Mem.get_write_outside {m : Mem} {a : Nat} {b : Bytes} (h : x < a ∨ a + b.length ≤ x) :
    Mem.get d (Mem.write d m a b) x = Mem.get d m x := by
  have hentries : ∀ e ∈ Mem.entries d a b, e.1 ≠ x := fun e he => by
    have := Mem.entries_mem he
    omega
  rw [Mem.write]
  obtain hlo | hhi := h
  · rw [Mem.get_append_of_unlisted_right, Mem.get_append_of_unlisted_right hentries,
      Mem.get_filter_of_kept fun _ => decide_eq_true hlo]
    intro e he
    have := (List.mem_filter.1 he).2
    simp only [decide_eq_true_eq] at this
    omega
  · rw [List.append_assoc, Mem.get_append_of_unlisted_left, Mem.get_append_of_unlisted_left hentries,
      Mem.get_filter_of_kept fun _ => decide_eq_true hhi]
    intro e he
    have := (List.mem_filter.1 he).2
    simp only [decide_eq_true_eq] at this
    omega

/-- Rising entries, none of them below `a`, expanded: each byte reads as the memory says. -/
theorem Mem.expand_eq {m : Mem} {a n : Nat} (hp : m.Pairwise fun e f => e.1 < f.1) (ha : ∀ e ∈ m, a ≤ e.1) :
    Mem.expand d a n m = (List.range n).map fun i => Mem.get d m (a + i) := by
  induction n generalizing a m with
  | zero => rw [Mem.expand, List.range_zero, List.map_nil]
  | succ n ih =>
    have hshift : ∀ i, a + 1 + i = a + (i + 1) := fun i => by omega
    rw [List.range_succ_eq_map, List.map_cons, List.map_map]
    cases m with
    | nil =>
      rw [Mem.expand, ih List.Pairwise.nil (by simp)]
      rfl
    | cons e t =>
      obtain ⟨k, v⟩ := e
      obtain ⟨hk, ht⟩ := List.pairwise_cons.1 hp
      have hka : a ≤ k := ha (k, v) List.mem_cons_self
      rw [Mem.expand]
      by_cases h : k = a
      · subst h
        rw [if_pos rfl, ih ht fun e he => hk e he]
        simp only [Nat.add_zero, Mem.get, if_true, List.cons.injEq, true_and]
        refine List.map_congr_left fun i _ => ?_
        rw [hshift]
        simp
      · rw [if_neg h, ih hp fun e he => ?_]
        · simp only [Nat.add_zero, List.cons.injEq]
          refine ⟨(Mem.get_unlisted fun e he => ?_).symm, List.map_congr_left fun i _ => ?_⟩
          · rcases List.mem_cons.1 he with rfl | he
            · exact h
            · have := hk e he
              simp only at this
              omega
          · rw [hshift]
            rfl
        · rcases List.mem_cons.1 he with rfl | he
          · show a + 1 ≤ k
            omega
          · have := hk e he
            simp only at this
            omega

/-- A read answers each of its bytes. -/
theorem Mem.read_eq {m : Mem} (h : Mem.wf d m = true) (a n : Nat) :
    Mem.read d m a n = (List.range n).map fun i => Mem.get d m (a + i) := by
  unfold Mem.read
  rw [Mem.expand_eq (((Mem.wf_iff d m).1 h).1.filter _)]
  · refine List.map_congr_left fun i hi => ?_
    have := List.mem_range.1 hi
    exact Mem.get_filter_of_kept (fun _ => by simp [this]) m
  · intro e he
    have := (List.mem_filter.1 he).2
    simp only [Bool.and_eq_true, decide_eq_true_eq] at this
    exact this.1

end

/-- Settles O52: the entries of a store lie between those that it keeps below and above its range. -/
theorem memoryReadsBackWhatWasStored : Obligations.MemoryReadsBackWhatWasStored := by
  unfold Obligations.MemoryReadsBackWhatWasStored
  intro d m a b h
  refine ⟨Mem.wf_write a b h, ?_, fun x hx => Mem.get_write_outside hx,
    fun n => ⟨Mem.wf_clear a n h, fun x hlo hhi => ?_, fun x hx => ?_⟩⟩
  · rw [Mem.read_eq (Mem.wf_write a b h)]
    refine List.ext_getElem (by simp) fun i hi hb => ?_
    rw [List.getElem_map, List.getElem_range, Mem.get_write_inside (by omega) (by omega)]
    simp [hb]
  · exact Mem.get_filter_of_dropped (fun _ => by simp [hlo, hhi]) m
  · exact Mem.get_filter_of_kept (fun _ => by simpa using hx) m

end Sys2Proof.Machine
end

section
/-! SUPPORT. Operations that change nothing but the observed state and the free values drawn. -/

namespace Sys2Proof.Machine

/-- `s'` differs from `s` in the observed state and in the free values drawn at most. -/
def ObsOnly (s s' : State) : Prop := s' = { s with obs := s'.obs, free := s'.free }

theorem ObsOnly.refl (s : State) : ObsOnly s s := rfl

theorem ObsOnly.trans {a b c : State} (h : ObsOnly a b) (h' : ObsOnly b c) : ObsOnly a c := by
  unfold ObsOnly at h h' ⊢
  rw [h', h]

theorem ObsOnly.latch {a b : State} (h : ObsOnly a b) : b.latch = a.latch := by
  rw [h]

theorem ObsOnly.foldl {α : Type} {f : State → α → State} (hf : ∀ s a, ObsOnly s (f s a)) (l : List α) (s : State) :
    ObsOnly s (l.foldl f s) := by
  induction l generalizing s with
  | nil => exact .refl s
  | cons a l ih => exact (hf s a).trans (ih _)

theorem ObsOnly.ite {c : Prop} [Decidable c] {s a b : State} (ha : ObsOnly s a) (hb : ObsOnly s b) :
    ObsOnly s (if c then a else b) := by
  split
  · exact ha
  · exact hb

theorem obsOnly_modObs (f : Obs → Obs) (s : State) : ObsOnly s (modObs f s) := rfl

theorem obsOnly_drawNat (s : State) : ObsOnly s (drawNat s).2 := rfl

theorem obsOnly_drawBytes (n : Nat) (s : State) : ObsOnly s (drawBytes n s).2 := rfl

theorem obsOnly_modBoughCtr (b : Nat) (f : BoughCtr → BoughCtr) (s : State) : ObsOnly s (modBoughCtr b f s) := rfl

theorem obsOnly_traceRec (u ty aux data : Nat) (s : State) : ObsOnly s (traceRec u ty aux data s) := rfl

theorem obsOnly_modHart (h : Hart) (f : HartState → HartState) (s : State) : ObsOnly s (modHart h f s) := by
  cases h <;> rfl

theorem obsOnly_modDm (root : Bool) (f : DebugModule → DebugModule) (s : State) : ObsOnly s (modDm root f s) :=
  .ite rfl rfl

theorem obsOnly_growCounters (b : Nat) (s : State) : ObsOnly s (growCounters b s) := by
  unfold growCounters
  refine (obsOnly_modBoughCtr _ _ _).trans (ObsOnly.foldl (fun s j => ?_) _ _)
  exact .ite ((obsOnly_drawNat s).trans (obsOnly_modBoughCtr _ _ _)) (.refl s)

theorem obsOnly_beforeRead (r : Requester) (off : Nat) (s : State) : ObsOnly s (beforeRead s r off) := by
  unfold beforeRead
  split
  · exact .ite (obsOnly_growCounters _ _) (.refl s)
  · exact .refl s

theorem obsOnly_queueState (n q : Nat) (s : State) : ObsOnly s (queueState s n q).2 := by
  unfold queueState
  repeat' split
  all_goals exact rfl

theorem obsOnly_runBuffer (root : Bool) (h : Hart) (s : State) : ObsOnly s (runBuffer root h s) := by
  unfold runBuffer
  exact ((obsOnly_drawBytes 128 s).trans (obsOnly_drawNat _)).trans ((obsOnly_modHart _ _ _).trans (obsOnly_modDm _ _ _))

theorem obsOnly_dmTransfer (root : Bool) (h : Hart) (cmd : Nat) (s : State) : ObsOnly s (dmTransfer root h cmd s) := by
  unfold dmTransfer
  refine .ite (.refl s) ?_
  split
  · exact .ite (obsOnly_modHart _ _ s) (obsOnly_modDm _ _ s)
  · have hdrawn : ObsOnly s (drawNat (drawNat s).2).2 := (obsOnly_drawNat s).trans (obsOnly_drawNat _)
    exact .ite (obsOnly_modDm _ _ s) (.ite (.ite hdrawn (hdrawn.trans (obsOnly_modDm _ _ _))) (hdrawn.trans (obsOnly_modDm _ _ _)))

theorem obsOnly_dmExecute (root : Bool) (s : State) : ObsOnly s (dmExecute root s) := by
  unfold dmExecute
  extract_lets d cmd err
  have herr : ∀ e, ObsOnly s (err e) := fun e => obsOnly_modDm _ _ s
  refine .ite (.refl s) (.ite (herr 2) ?_)
  split
  · exact herr 4
  · next h _ =>
    refine .ite (herr 4) (.ite (herr 2) ?_)
    extract_lets s₁ s₂
    have h₁ : ObsOnly s s₁ := obsOnly_dmTransfer _ _ _ s
    have h₂ : ObsOnly s s₂ := .ite (h₁.trans (obsOnly_modDm _ _ _)) h₁
    exact .ite (h₂.trans (obsOnly_runBuffer _ _ _)) h₂

theorem obsOnly_dmAuto (root : Bool) (a : Nat) (s : State) : ObsOnly s (dmAuto root a s) :=
  .ite (obsOnly_dmExecute root s) (.refl s)

end Sys2Proof.Machine
end

section
/-! SUPPORT. The latches of the register pairs under a read. -/

namespace Sys2Proof.Machine

theorem latched_of_latch {s s' : State} (h : s'.latch = s.latch) (r : Requester) (k : Nat) : latched s' r k = latched s r k := by
  unfold latched
  rw [h]

/-- A latch that is set changes no other. -/
theorem latched_setLatch_of_ne {r r' : Requester} {key k : Nat} (v : Nat) (s : State) (h : r' ≠ r ∨ k ≠ key) :
    latched (setLatch r key v s) r' k = latched s r' k := by
  have hself : ((r == r') && (key == k)) = false := by
    rcases h with h | h
    · simp [Ne.symm h]
    · simp [Ne.symm h]
  have hother : ∀ e : Requester × Nat × Nat,
      decide ((!(e.1 == r && e.2.1 == key)) = true ∧ (e.1 == r' && e.2.1 == k) = true) = (e.1 == r' && e.2.1 == k) := by
    intro e
    by_cases he : (e.1 == r' && e.2.1 == k) = true
    · simp only [Bool.and_eq_true, beq_iff_eq] at he
      rcases h with h | h
      · simp [he, h]
      · simp [he, h]
    · simp [he]
  unfold latched setLatch
  simp only [List.find?_cons, hself, List.find?_filter, hother]

/-- A read changes no latch but the one of its own key. -/
theorem latched_readKeyed (r r' : Requester) (key off k : Nat) (s : State) (h : r' ≠ r ∨ k ≠ key) :
    latched (readKeyed r key off s).2 r' k = latched s r' k := by
  have hb := obsOnly_beforeRead r off s
  unfold readKeyed
  dsimp only
  split
  · rfl
  · split
    · exact latched_of_latch (hb.trans (obsOnly_dmAuto _ _ _)).latch _ _
    · split
      · exact latched_of_latch (hb.trans (obsOnly_queueState _ _ _)).latch _ _
      · split
        · exact latched_of_latch (hb.trans (obsOnly_drawNat _)).latch _ _
        · split
          · exact (latched_setLatch_of_ne _ _ h).trans (latched_of_latch hb.latch _ _)
          · exact latched_of_latch hb.latch _ _
          · split
            · exact latched_of_latch hb.latch _ _
            · exact latched_of_latch hb.latch _ _

/-- A 64-bit read changes no latch but those of its two words. -/
theorem latched_readWide (r r' : Requester) (off k : Nat) (s : State) (h : r' ≠ r ∨ (k ≠ off ∧ k ≠ off + 4)) :
    latched (readWide r off s).2 r' k = latched s r' k := by
  unfold readWide
  split
  · exact latched_of_latch (obsOnly_beforeRead r off s).latch _ _
  · exact (latched_readKeyed _ _ _ _ _ _ (h.imp_right And.right)).trans (latched_readKeyed _ _ _ _ _ _ (h.imp_right And.left))

theorem latched_answerRead (r r' : Requester) (off k : Nat) (wide : Bool) (s : State)
    (h : r' ≠ r ∨ (k ≠ off ∧ (wide = false ∨ k ≠ off + 4))) : latched (answerRead r off wide s) r' k = latched s r' k := by
  have hread : latched (if wide then readWide r off s else readReg r off s).2 r' k = latched s r' k := by
    cases wide with
    | false => exact latched_readKeyed _ _ _ _ _ _ (h.imp_right And.left)
    | true => exact latched_readWide _ _ _ _ _ (h.imp_right fun h => ⟨h.1, h.2.resolve_left (by decide)⟩)
  unfold answerRead
  extract_lets x
  have hx : (if r = .smb ∧ off = 0x2004 then releaseAlert x.2 else x.2).latch = x.2.latch := by
    split <;> rfl
  exact (latched_of_latch hx _ _).trans hread

/-- Settles O54: a read sets the latches of its own words at most, and a held read sets none. -/
theorem latchesStandApart : Obligations.LatchesStandApart := by
  unfold Obligations.LatchesStandApart
  refine ⟨fun r k => rfl, fun t off r wide s₀ s hs => ⟨_, rfl, fun r' k h => ?_⟩⟩
  subst hs
  unfold lowWordRead
  dsimp only
  split
  · rfl
  · split
    · rfl
    · exact latched_answerRead _ _ _ _ _ _ h

end Sys2Proof.Machine
end

section
/-! SUPPORT. What the registers beyond the mailbox windows leave alone. -/

namespace Sys2Proof.Machine

/-- `s'` has the state of `s` that only commands change (02 R30). -/
structure SameCommandState (s s' : State) : Prop where
  parts : s'.mm.parts = s.mm.parts
  exports : s'.txn.exports = s.txn.exports
  imports : s'.txn.imports = s.txn.imports
  routes : s'.txn.routes = s.txn.routes
  bundles : s'.txn.bundles = s.txn.bundles
  hwd : s'.hwd = s.hwd
  col : s'.col = s.col
  tke : s'.tke = s.tke
  grv : s'.grv = s.grv
  twn : s'.twn = s.twn
  limitMw : s'.pwr.limitMw = s.pwr.limitMw
  security : ∀ p : Fin 8, (port s' p).link.mode = (port s p).link.mode ∧ (port s' p).link.txKey = (port s p).link.txKey

theorem SameCommandState.refl (s : State) : SameCommandState s s :=
  ⟨rfl, rfl, rfl, rfl, rfl, rfl, rfl, rfl, rfl, rfl, rfl, fun _ => ⟨rfl, rfl⟩⟩

theorem SameCommandState.trans {a b c : State} (h : SameCommandState a b) (h' : SameCommandState b c) : SameCommandState a c where
  parts := h'.parts.trans h.parts
  exports := h'.exports.trans h.exports
  imports := h'.imports.trans h.imports
  routes := h'.routes.trans h.routes
  bundles := h'.bundles.trans h.bundles
  hwd := h'.hwd.trans h.hwd
  col := h'.col.trans h.col
  tke := h'.tke.trans h.tke
  grv := h'.grv.trans h.grv
  twn := h'.twn.trans h.twn
  limitMw := h'.limitMw.trans h.limitMw
  security p := ⟨(h'.security p).1.trans (h.security p).1, (h'.security p).2.trans (h.security p).2⟩

theorem SameCommandState.foldl {α : Type} {f : State → α → State} (hf : ∀ s a, SameCommandState s (f s a)) (l : List α) (s : State) :
    SameCommandState s (l.foldl f s) := by
  induction l generalizing s with
  | nil => exact .refl s
  | cons a l ih => exact (hf s a).trans (ih _)

theorem SameCommandState.ite {c : Prop} [Decidable c] {s a b : State} (ha : SameCommandState s a) (hb : SameCommandState s b) :
    SameCommandState s (if c then a else b) := by
  split
  · exact ha
  · exact hb

/-- The parts of the state that hold no command state. -/
theorem sameCommandState_of_eq {s s' : State} (hm : s'.mm.parts = s.mm.parts) (ht : s'.txn = s.txn) (hh : s'.hwd = s.hwd)
    (hc : s'.col = s.col) (hk : s'.tke = s.tke) (hg : s'.grv = s.grv) (hw : s'.twn = s.twn) (hp : s'.pwr = s.pwr)
    (hl : s'.ports = s.ports) : SameCommandState s s' := by
  refine ⟨hm, ?_, ?_, ?_, ?_, hh, hc, hk, hg, hw, by rw [hp], fun p => ?_⟩
  all_goals simp [ht, port, hl]

theorem port_modPort_self (p : Fin 8) (f : Port → Port) (s : State) : port (modPort p f s) p = f (port s p) := by
  simp [port, modPort, setPort]

theorem port_modPort_of_ne {p p' : Fin 8} (f : Port → Port) (s : State) (h : p' ≠ p) : port (modPort p f s) p' = port s p' := by
  simp [port, modPort, setPort, vget_vset_of_ne _ _ h]

theorem ObsOnly.sameCommandState {s s' : State} (h : ObsOnly s s') : SameCommandState s s' := by
  rw [h]
  exact sameCommandState_of_eq rfl rfl rfl rfl rfl rfl rfl rfl rfl

theorem sameCommandState_modPort (p : Fin 8) (f : Port → Port) (s : State)
    (hf : ∀ x, (f x).link.mode = x.link.mode ∧ (f x).link.txKey = x.link.txKey) : SameCommandState s (modPort p f s) where
  parts := rfl
  exports := rfl
  imports := rfl
  routes := rfl
  bundles := rfl
  hwd := rfl
  col := rfl
  tke := rfl
  grv := rfl
  twn := rfl
  limitMw := rfl
  security p' := by
    by_cases h : p' = p
    · rw [h, port_modPort_self]
      exact hf _
    · rw [port_modPort_of_ne _ _ h]
      exact ⟨rfl, rfl⟩

theorem sameCommandState_modPhys (p : Fin 8) (f : Phys → Phys) (s : State) : SameCommandState s (modPhys p f s) :=
  sameCommandState_modPort p _ s fun _ => ⟨rfl, rfl⟩

theorem sameCommandState_queueMsg (p vc : Fin 8) (typ part : Nat) (tag : Option Nat) (b : Bytes) (s : State) :
    SameCommandState s (queueMsg p vc typ part tag b s) := by
  unfold queueMsg modLink
  exact sameCommandState_modPort p _ s fun _ => ⟨rfl, rfl⟩

theorem sameCommandState_modPwr (f : Pwr → Pwr) (s : State) (hf : ∀ x, (f x).limitMw = x.limitMw) :
    SameCommandState s (modPwr f s) :=
  { SameCommandState.refl s with limitMw := hf _ }

theorem sameCommandState_emit (e : Emit) (s : State) : SameCommandState s (emit e s) :=
  sameCommandState_of_eq rfl rfl rfl rfl rfl rfl rfl rfl rfl

theorem sameCommandState_setChan (ch : Fin 130) (c : Chan) (s : State) : SameCommandState s (setChan ch c s) :=
  sameCommandState_of_eq rfl rfl rfl rfl rfl rfl rfl rfl rfl

theorem sameCommandState_modQueue (n q : Nat) (f : Queue → Queue) (s : State) : SameCommandState s (modQueue n q f s) :=
  sameCommandState_of_eq rfl rfl rfl rfl rfl rfl rfl rfl rfl

theorem sameCommandState_journal (ty island : Nat) (body : Bytes) (s : State) : SameCommandState s (journal ty island body s) := by
  have hparts : (journal ty island body s).mm.parts = s.mm.parts := by
    unfold journal journalAt
    dsimp only
    repeat' split
    all_goals rfl
  exact sameCommandState_of_eq hparts (by simp) (by simp) (by simp) (by simp) (by simp) (by simp) (by simp) (by simp)

theorem sameCommandState_channelIrq (ch : Fin 130) (s : State) : SameCommandState s (channelIrq ch s) :=
  .ite (sameCommandState_of_eq rfl rfl rfl rfl rfl rfl rfl rfl rfl) (sameCommandState_emit _ _)

theorem sameCommandState_pushEvent (ch : Fin 130) (b : Bytes) (s : State) : SameCommandState s (pushEvent ch b s) :=
  .ite (sameCommandState_setChan _ _ _)
    (.ite ((sameCommandState_setChan _ _ _).trans (sameCommandState_channelIrq _ _)) (sameCommandState_setChan _ _ _))

theorem sameCommandState_finishTicket (ch : Fin 130) (num status : Nat) (result : Bytes) (s : State) :
    SameCommandState s (finishTicket ch num status result s) := by
  unfold finishTicket
  split
  · exact .ite ((sameCommandState_setChan _ _ _).trans (sameCommandState_pushEvent _ _ _)) (.refl s)
  · exact .refl s

theorem sameCommandState_enterPhys (p : Fin 8) (st data : Nat) (s : State) : SameCommandState s (enterPhys p st data s) :=
  (sameCommandState_modPhys p _ s).trans (obsOnly_traceRec _ _ _ _ _).sameCommandState

theorem sameCommandState_drawNonce (p : Fin 8) (s : State) : SameCommandState s (drawNonce p s) := by
  unfold drawNonce
  exact (obsOnly_drawNat s).sameCommandState.trans (sameCommandState_modPhys _ _ _)

theorem sameCommandState_sendFrames (p : Fin 8) (ls : List (Fin 9)) (typ : Nat) (payload : Fin 9 → Bytes) (s : State) :
    SameCommandState s (sendFrames p ls typ payload s) := by
  unfold sendFrames
  exact (sameCommandState_modPhys p _ s).trans (.foldl (fun _ _ => sameCommandState_emit _ _) _ _)

theorem sameCommandState_sendPortHello (p : Fin 8) (s : State) : SameCommandState s (sendPortHello p s) := by
  unfold sendPortHello
  exact (sameCommandState_modPhys p _ s).trans (sameCommandState_sendFrames _ _ _ _ _)

theorem sameCommandState_enterResume (p : Fin 8) (s : State) : SameCommandState s (enterResume p s) := by
  unfold enterResume
  refine .ite ?_ (.refl s)
  exact (sameCommandState_modPhys p _ s).trans ((sameCommandState_enterPhys _ _ _ _).trans
    ((sameCommandState_drawNonce _ _).trans (sameCommandState_sendPortHello _ _)))

theorem sameCommandState_wakeDevice (src : Nat) (s : State) : SameCommandState s (wakeDevice src s) := by
  unfold wakeDevice
  split
  · exact sameCommandState_modPwr _ s fun _ => rfl
  · exact sameCommandState_modPwr _ s fun _ => rfl
  · refine .ite ?_ (.refl s)
    extract_lets s₁ s₂
    have h₁ : SameCommandState s s₁ := sameCommandState_modPwr _ s fun _ => rfl
    have h₂ : SameCommandState s₁ s₂ :=
      .foldl (fun _ _ => (sameCommandState_modPhys _ _ _).trans (sameCommandState_enterResume _ _)) _ _
    exact (h₁.trans h₂).trans (.foldl (fun _ _ => sameCommandState_finishTicket _ _ _ _ _) _ _)
  · exact .refl s

theorem sameCommandState_doorbell (n : Fin 128) (q : Fin 16) (v : BitVec 32) (s : State) : SameCommandState s (doorbell n q v s) := by
  unfold doorbell
  split
  · exact .refl s
  · exact .ite (.refl s) (.ite ((sameCommandState_modQueue _ _ _ _).trans (sameCommandState_journal _ _ _ _))
      (sameCommandState_modQueue _ _ _ _))

theorem sameCommandState_ringDoorbell (n : Fin 128) (q : Fin 16) (v : BitVec 32) (s : State) :
    SameCommandState s (ringDoorbell n q v s) :=
  .ite (sameCommandState_doorbell _ _ _ _) (.ite (sameCommandState_doorbell _ _ _ _)
    ((sameCommandState_doorbell _ _ _ _).trans (sameCommandState_wakeDevice _ _)))

theorem sameCommandState_writeQueue (o v : Nat) (s : State) : SameCommandState s (writeQueue o v s) := by
  unfold writeQueue
  dsimp only
  split
  · exact sameCommandState_ringDoorbell _ _ _ _
  · exact .ite (sameCommandState_modQueue _ _ _ _) (.refl s)
  · exact .refl s

/-! The Observation window. -/

/-- A hart's resume, but that of a halted Root. -/
theorem sameCommandState_resumeHart (h : Hart) (s : State) (hroot : s.obs.rootHart.halted = false) :
    SameCommandState s (resumeHart h s) := by
  unfold resumeHart
  cases h with
  | root =>
    have hx : hartState s .root = s.obs.rootHart := rfl
    simp only [hx, hroot, Bool.not_false, if_true]
    exact .refl s
  | twig b =>
    extract_lets x s₁ s₂ _ s₃
    have h₁ : ObsOnly s s₁ := obsOnly_modHart _ _ s
    have h₂ : ObsOnly s s₂ := h₁.trans (obsOnly_traceRec _ _ _ _ _)
    have h₃ : SameCommandState s s₃ :=
      h₂.sameCommandState.trans (sameCommandState_of_eq rfl rfl rfl rfl rfl rfl rfl rfl rfl)
    rw [if_neg (c := Hart.twig b = .root ∧ _) fun h => nomatch h.1]
    exact .ite (.refl s) h₃

theorem modDm_rootHart (root : Bool) (f : DebugModule → DebugModule) (s : State) :
    (modDm root f s).obs.rootHart = s.obs.rootHart := by
  unfold modDm
  split <;> rfl

theorem modHart_rootHalted (h : Hart) (f : HartState → HartState) (s : State) (hf : ∀ x, (f x).halted = x.halted) :
    (modHart h f s).obs.rootHart.halted = s.obs.rootHart.halted := by
  cases h with
  | root => exact hf _
  | twig b => rfl

theorem sameCommandState_dmControl (root : Bool) (v : Nat) (s : State) (hroot : s.obs.rootHart.halted = false) :
    SameCommandState s (dmControl root v s) := by
  unfold dmControl
  refine .ite (obsOnly_modDm _ _ s).sameCommandState ?_
  extract_lets sel s₁
  have h₁ : SameCommandState s s₁ := (obsOnly_modDm _ _ s).sameCommandState
  have hroot₁ : s₁.obs.rootHart.halted = false := by rw [modDm_rootHart, hroot]
  split
  · next h _ =>
    have hroot₂ : ∀ f : HartState → HartState, (∀ x, (f x).halted = x.halted) → (modHart h f s₁).obs.rootHart.halted = false :=
      fun f hf => (modHart_rootHalted h f s₁ hf).trans hroot₁
    exact .ite (h₁.trans ((obsOnly_modHart _ _ s₁).sameCommandState.trans (sameCommandState_resumeHart _ _ (hroot₂ _ fun _ => rfl)))) h₁
  · exact h₁

theorem sameCommandState_dmWrite (root : Bool) (a v : Nat) (s : State) (hroot : s.obs.rootHart.halted = false) :
    SameCommandState s (dmWrite root a v s) := by
  unfold dmWrite
  refine .ite (.refl s) (.ite (sameCommandState_dmControl _ _ _ hroot) (.ite (.refl s) ?_))
  extract_lets s₁
  have h₁ : ObsOnly s s₁ := by
    unfold s₁
    refine .ite (obsOnly_modDm _ _ s) ?_
    split
    · exact obsOnly_modDm _ _ s
    · exact obsOnly_modDm _ _ s
    · exact .ite ((obsOnly_modDm _ _ s).trans (obsOnly_dmExecute _ _)) (.refl s)
    · exact obsOnly_modDm _ _ s
    · exact .refl s
  exact (h₁.trans (obsOnly_dmAuto _ _ _)).sameCommandState

theorem sameCommandState_rdbgStart (s : State) : SameCommandState s (rdbgStart s) := by
  unfold rdbgStart
  refine .ite (.refl s) ?_
  extract_lets s₁ p
  have h₁ : SameCommandState s s₁ := (obsOnly_modObs _ s).sameCommandState
  exact .ite (h₁.trans (sameCommandState_queueMsg _ _ _ _ _ _ _)) h₁

theorem sameCommandState_writeRdbg (o v : Nat) (s : State) : SameCommandState s (writeRdbg o v s) := by
  have hmod : ∀ f, SameCommandState s (modRdbg f s) := fun f => (obsOnly_modObs _ s).sameCommandState
  unfold writeRdbg
  refine .ite (.refl s) ?_
  split
  · exact hmod _
  · exact hmod _
  · exact hmod _
  · exact .ite ((hmod _).trans (sameCommandState_rdbgStart _)) (hmod _)
  · exact .refl s

theorem obsOnly_nowFreeze (s : State) : ObsOnly s (nowFreeze s) := by
  unfold nowFreeze armFreeze
  exact (obsOnly_modObs _ s).trans (obsOnly_modObs _ _)

theorem obsOnly_fireCut (origin hops : Nat) (s : State) : ObsOnly s (fireCut origin hops s) := by
  unfold fireCut
  refine .ite (.refl s) ?_
  exact ((obsOnly_drawNat s).trans (obsOnly_modObs _ _)).trans (.foldl (fun _ _ => obsOnly_traceRec _ _ _ _ _) _ _)

theorem sameCommandState_writeObs (o v : Nat) (s : State) (hroot : s.obs.rootHart.halted = false) :
    SameCommandState s (writeObs o v s) := by
  have hmod : ∀ f, SameCommandState s (modObs f s) := fun f => (obsOnly_modObs f s).sameCommandState
  unfold writeObs
  refine .ite (hmod _) (.ite (sameCommandState_dmWrite _ _ _ _ hroot) (.ite (sameCommandState_dmWrite _ _ _ _ hroot)
    (.ite (sameCommandState_writeRdbg _ _ _) ?_)))
  split
  · extract_lets s₁ s₂
    have h₁ : ObsOnly s s₁ := .ite (obsOnly_modObs _ s) (.refl s)
    have h₂ : ObsOnly s s₂ := .ite (h₁.trans (obsOnly_nowFreeze _)) h₁
    exact (ObsOnly.ite (h₂.trans (obsOnly_modObs _ _)) h₂).sameCommandState
  · exact hmod _
  · exact hmod _
  · exact hmod _
  · exact hmod _
  · exact hmod _
  · exact hmod _
  · exact hmod _
  · exact hmod _
  · exact .ite ((hmod _).trans (obsOnly_fireCut _ _ _).sameCommandState) (hmod _)
  · exact .refl s

theorem sameCommandState_writePf (off v : Nat) (s : State) (hroot : s.obs.rootHart.halted = false) :
    SameCommandState s (writePf off v s) :=
  .ite (sameCommandState_writeObs _ _ _ hroot) (.ite (sameCommandState_writeQueue _ _ _) (.refl s))

theorem sameCommandState_writeReg (r : Requester) {off : Nat} (v : Nat) (s : State) (ho : 0x4000 ≤ off)
    (hroot : s.obs.rootHart.halted = false) : SameCommandState s (writeReg r off v s) := by
  unfold writeReg
  rw [if_neg (c := off < 0x4000) (by omega)]
  refine .ite (.refl s) ?_
  split
  · exact sameCommandState_writePf _ _ _ hroot
  · exact .ite (sameCommandState_writeQueue _ _ _) (.refl s)
  · exact .refl s

/-- Settles O59: what a register write beyond the windows reaches is the Observation window and the queues' doorbells. -/
theorem registersChangeNoCommandState : Obligations.RegistersChangeNoCommandState := by
  unfold Obligations.RegistersChangeNoCommandState
  intro t off r v s₀ s s' hs ho hroot he
  subst hs
  cases he
  have h : SameCommandState (s₀.at t) (registerWrite t r off v s₀) := by
    unfold registerWrite
    exact .ite (sameCommandState_writeReg r _ _ ho hroot) (.refl _)
  obtain ⟨hparts, hexports, himports, hroutes, hbundles, hhwd, hcol, htke, hgrv, htwn, hlimit, hsec⟩ := h
  exact ⟨hparts, hexports, himports, hroutes, hbundles, hhwd, hcol, htke, hgrv, htwn, hlimit, hsec⟩

end Sys2Proof.Machine
end

section
/-! SUPPORT. A bough that is declared hung leaves the beats of the other boughs as they were. -/

namespace Sys2Proof.Machine

/-- What Root looks at to count the misses of the boughs: the boughs, the one in quarantine, the beats and the debugged harts. -/
def beatView (s : State) : Vector Bough 64 × Option Nat × Vector Beats 64 × Tab HartState :=
  (s.crn.boughs, s.cmb.quarantine, s.cmb.beats, s.obs.harts)

theorem beatView_foldl {α : Type} {f : State → α → State} (hf : ∀ s a, beatView (f s a) = beatView s) (l : List α) (s : State) :
    beatView (l.foldl f s) = beatView s := by
  induction l generalizing s with
  | nil => rfl
  | cons a l ih => exact (ih _).trans (hf s a)

theorem beatView_ite {c : Prop} [Decidable c] {s a b : State} (ha : beatView a = beatView s) (hb : beatView b = beatView s) :
    beatView (if c then a else b) = beatView s := by
  split
  · exact ha
  · exact hb

@[simp] theorem beatView_modTxn (f : TxnState → TxnState) (s : State) : beatView (modTxn f s) = beatView s := rfl

@[simp] theorem beatView_modCol (f : Col → Col) (s : State) : beatView (modCol f s) = beatView s := rfl

@[simp] theorem beatView_modSlot (k : Nat) (f : Group → Group) (s : State) : beatView (modSlot k f s) = beatView s := rfl

@[simp] theorem beatView_modQueue (n q : Nat) (f : Queue → Queue) (s : State) : beatView (modQueue n q f s) = beatView s := rfl

@[simp] theorem beatView_modRunning (n q num : Nat) (f : Running → Running) (s : State) :
    beatView (modRunning n q num f s) = beatView s := rfl

@[simp] theorem beatView_modLink (p : Fin 8) (f : Link → Link) (s : State) : beatView (modLink p f s) = beatView s := rfl

@[simp] theorem beatView_setRegion (k : Nat) (r : Region) (s : State) : beatView (setRegion k r s) = beatView s := rfl

@[simp] theorem beatView_logErr (code island : Nat) (data : Bytes) (s : State) : beatView (logErr code island data s) = beatView s := by
  simp only [beatView, logErr]

@[simp] theorem beatView_traceRec (u ty aux data : Nat) (s : State) : beatView (traceRec u ty aux data s) = beatView s := by
  simp [beatView, traceRec, apply_ite Obs.harts]

@[simp] theorem beatView_journal (ty island : Nat) (body : Bytes) (s : State) : beatView (journal ty island body s) = beatView s := by
  simp [beatView]

@[simp] theorem beatView_queueMsg (p vc : Fin 8) (typ part : Nat) (tag : Option Nat) (b : Bytes) (s : State) :
    beatView (queueMsg p vc typ part tag b s) = beatView s := rfl

/-! Poison. -/

@[simp] theorem beatView_faultLine (who : Nat × Nat) (n o cause : Nat) (s : State) :
    beatView (faultLine who n o cause s) = beatView s := by
  unfold faultLine
  split
  · rfl
  · split
    · rfl
    · exact beatView_ite rfl (beatView_logErr _ _ _ _)

@[simp] theorem beatView_faultScratch (who : Nat × Nat) (cause l : Nat) (s : State) :
    beatView (faultScratch who cause l s) = beatView s := by
  unfold faultScratch
  exact beatView_ite rfl (beatView_logErr _ _ _ _)

@[simp] theorem beatView_captureRun (n : Nat) (run : List Nat) (s : State) : beatView (captureRun n run s) = beatView s := by
  unfold captureRun
  split
  · extract_lets below above s₁ r₁ s₂
    have h₁ : beatView s₁ = beatView s := beatView_ite rfl rfl
    have h₂ : beatView s₂ = beatView s := beatView_ite h₁ h₁
    exact beatView_ite rfl (beatView_ite h₂ h₂)
  · rfl

@[simp] theorem beatView_captureLines (n : Nat) (lines : List Nat) (s : State) : beatView (captureLines n lines s) = beatView s :=
  beatView_ite rfl (beatView_foldl (fun s run => beatView_captureRun n run s) _ _)

@[simp] theorem beatView_poisonRange (who : Nat × Nat) (n o len : Nat) (s : State) :
    beatView (poisonRange who n o len s) = beatView s :=
  (beatView_captureLines _ _ _).trans (beatView_foldl (fun s l => beatView_faultLine who n l 3 s) _ _)

@[simp] theorem beatView_poisonLoc (n : Nat) (l : Loc) (len : Nat) (s : State) : beatView (poisonLoc n l len s) = beatView s := by
  cases l with
  | part o => exact beatView_poisonRange _ _ _ _ _
  | scratch a => exact beatView_foldl (fun _ _ => beatView_foldl (fun s l => beatView_faultScratch _ 3 l s) _ _) _ _

@[simp] theorem beatView_poisonRest (n : Nat) (l : Loc) (len : Nat) (done : List (Nat × Nat)) (s : State) :
    beatView (poisonRest n l len done s) = beatView s :=
  beatView_foldl (fun s _ => beatView_ite (s := s) rfl (beatView_poisonLoc _ _ _ _)) _ _

/-! What ends with a generation of a partition. -/

@[simp] theorem beatView_endRecord (n q num status : Nat) (result : Bytes) (s : State) :
    beatView (endRecord n q num status result s) = beatView s := rfl

@[simp] theorem beatView_colStopSending (tag : Nat) (s : State) : beatView (colStopSending tag s) = beatView s :=
  beatView_foldl (fun _ _ => beatView_modLink _ _ _) _ _

@[simp] theorem beatView_colPoison (g : Group) (o : ColOp) (s : State) : beatView (colPoison g o s) = beatView s := by
  unfold colPoison
  exact beatView_ite rfl (beatView_poisonRest _ _ _ _ _)

@[simp] theorem beatView_colRelease (k : Nat) (o : ColOp) (s : State) : beatView (colRelease k o s) = beatView s := rfl

@[simp] theorem beatView_colEndRecord (g : Group) (o : ColOp) (status : Nat) (synth : Bool) (responder : Nat) (s : State) :
    beatView (colEndRecord g o status synth responder s) = beatView s := rfl

@[simp] theorem beatView_colFailOp (k : Nat) (g : Group) (o : ColOp) (status responder : Nat) (s : State) :
    beatView (colFailOp k g o status responder s) = beatView s := by
  unfold colFailOp
  extract_lets s₁ s₂ s₃
  have h₁ : beatView s₁ = beatView s := beatView_colStopSending _ _
  have h₂ : beatView s₂ = beatView s := beatView_ite ((beatView_colPoison _ _ _).trans h₁) h₁
  have h₃ : beatView s₃ = beatView s := (beatView_colRelease _ _ _).trans h₂
  exact (beatView_colEndRecord _ _ _ _ _ _).trans h₃

@[simp] theorem beatView_breakGroup (k status : Nat) (s : State) : beatView (breakGroup k status s) = beatView s := by
  unfold breakGroup
  split
  · rfl
  · refine beatView_ite rfl ?_
    extract_lets s₁ s₂ opseq s₃ data mode fmt lagM lagN s₄
    have h₃ : beatView s₃ = beatView s := by
      unfold s₃
      split
      · exact beatView_colStopSending _ _
      · rfl
    have h₄ : beatView s₄ = beatView s := by
      refine (beatView_foldl (fun s j => ?_) _ _).trans h₃
      dsimp only
      split
      · exact beatView_queueMsg _ _ _ _ _ _ _
      · rfl
    split
    · exact (beatView_colFailOp _ _ _ _ _ _).trans h₄
    · exact h₄

@[simp] theorem beatView_endWaiting (n : Nat) (s : State) : beatView (endWaiting n s) = beatView s := by
  refine beatView_foldl (fun s e => beatView_foldl (fun s r => ?_) _ _) _ _
  exact beatView_ite (beatView_endRecord _ _ _ _ _ _) rfl

@[simp] theorem beatView_genChange (n : Nat) (s : State) : beatView (genChange n s) = beatView s := by
  unfold genChange
  exact (beatView_endWaiting _ _).trans ((beatView_foldl (fun s k => beatView_breakGroup k _ s) _ _).trans rfl)

@[simp] theorem beatView_holdQueues (n : Nat) (held : Bool) (s : State) : beatView (holdQueues n held s) = beatView s :=
  beatView_foldl (fun _ _ => beatView_modQueue _ _ _ _) _ _

/-! The hang. -/

@[simp] theorem beatView_journalReset (scope cause bough : Nat) (n : Option Nat) (s : State) :
    beatView (journalReset scope cause bough n s) = beatView s :=
  (beatView_journal _ _ _ _).trans (beatView_ite rfl rfl)

@[simp] theorem beatView_noteReset (scope cause bough : Nat) (s : State) : beatView (noteReset scope cause bough s) = beatView s :=
  beatView_ite rfl rfl

@[simp] theorem beatView_logReset (island scope cause bough count : Nat) (s : State) :
    beatView (logReset island scope cause bough count s) = beatView s := beatView_logErr _ _ _ _

@[simp] theorem beatView_logHang (b : Fin 64) (cause record q : Nat) (s : State) : beatView (logHang b cause record q s) = beatView s :=
  (beatView_traceRec _ _ _ _ _).trans (beatView_logErr _ _ _ _)

theorem beatView_startBough (b : Fin 64) (cause : Nat) (s : State) :
    ∃ s₁, beatView s₁ = beatView s ∧ startBough b cause s = modBough b (fun x => { x with st := .inReset }) s₁ := by
  unfold startBough
  extract_lets n joined s₁ s₂ s₃ s₄ s₅ s₆
  have h₂ : beatView s₂ = beatView s := beatView_ite rfl rfl
  have h₃ : beatView s₃ = beatView s := (beatView_noteReset _ _ _ _).trans h₂
  have h₄ : beatView s₄ = beatView s := (beatView_logReset _ _ _ _ _ _).trans h₃
  have h₅ : beatView s₅ = beatView s := (beatView_journalReset _ _ _ _ _).trans h₄
  have h₆ : beatView s₆ = beatView s := by
    clear_value n
    cases n with
    | none => exact h₅
    | some n => exact (beatView_holdQueues _ _ _).trans (beatView_ite h₅ ((beatView_genChange _ _).trans h₅))
  exact ⟨s₆, h₆, rfl⟩

/-- Root counts misses by what it looks at. -/
theorem countsMisses_of_beatView {s s' : State} (h : beatView s' = beatView s) (c : Fin 64) : countsMisses s' c = countsMisses s c := by
  obtain ⟨hboughs, hquarantine, hbeats, hharts⟩ : s'.crn.boughs = s.crn.boughs ∧ s'.cmb.quarantine = s.cmb.quarantine
      ∧ s'.cmb.beats = s.cmb.beats ∧ s'.obs.harts = s.obs.harts := by simpa [beatView] using h
  simp [countsMisses, bough, hartState, hboughs, hquarantine, hbeats, hharts]

theorem countsMisses_modBough_of_ne {b c : Fin 64} (f : Bough → Bough) (s : State) (h : c ≠ b) :
    countsMisses (modBough b f s) c = countsMisses s c := by
  have hbough : bough (modBough b f s) c = bough s c := vget_vmod_of_ne _ _ h
  simp [countsMisses, hbough, hartState]

/-- A hang of one bough makes Root count no other. -/
theorem countsMisses_declareHung {b c : Fin 64} (cause : Nat) (s : State) (h : c ≠ b) :
    countsMisses (declareHung b cause s) c = countsMisses s c := by
  obtain ⟨s₁, h₁, he⟩ := beatView_startBough b cause (logHang b cause (boughRecord s b).1 (boughRecord s b).2 s)
  unfold declareHung
  rw [he, countsMisses_modBough_of_ne _ _ h]
  exact countsMisses_of_beatView (h₁.trans (beatView_logHang _ _ _ _ _)) c

/-- A fold over the numbers below `n` that does something at one of them only. -/
theorem foldl_fins_single {α : Type} {n : Nat} (b : Fin n) (f : α → Fin n → α) (x y : α) (hx : ∀ c, c ≠ b → f x c = x)
    (hb : f x b = y) (hy : ∀ c, c ≠ b → f y c = y) : (fins n).foldl f x = y := by
  have hidle : ∀ z : α, (∀ c, c ≠ b → f z c = z) → ∀ l : List (Fin n), b ∉ l → l.foldl f z = z := by
    intro z hz l hl
    induction l with
    | nil => rfl
    | cons c l ih =>
      obtain ⟨hc, hl⟩ := not_or.1 fun h => hl (List.mem_cons.2 h)
      rw [List.foldl_cons, hz c (Ne.symm hc), ih hl]
  obtain ⟨l₁, l₂, hl⟩ := List.append_of_mem (List.mem_finRange b)
  have hnodup := List.nodup_finRange n
  rw [hl, List.nodup_middle, List.nodup_cons, List.mem_append, not_or] at hnodup
  obtain ⟨⟨h₁, h₂⟩, -⟩ := hnodup
  rw [fins, hl, List.foldl_append, hidle x hx l₁ h₁, List.foldl_cons, hb, hidle y hy l₂ h₂]

/-- Settles O43: the check runs over all boughs, of which Root counts this one alone, before and after it is declared hung. -/
theorem missedBeatsResetTheBough : Obligations.MissedBeatsResetTheBough := by
  unfold Obligations.MissedBeatsResetTheBough
  intro t b s₀ s hs halive hawake hcut hcrown hdevice hcounts hsilent hothers
  refine congrArg Host.Outcome.next ?_
  unfold beatCheck
  rw [← hs]
  dsimp only
  rw [if_neg (by simp [halive, hawake, hcut, hcrown, hdevice])]
  refine foldl_fins_single b _ _ _ (fun c hc => ?_) ?_ fun c hc => ?_
  · simp [hothers c hc]
  · rw [if_neg (by simp [hcounts]), if_pos hsilent]
  · rw [if_pos]
    simp [countsMisses_declareHung 1 _ hc, hothers c hc]

end Sys2Proof.Machine
end

section
/-! SUPPORT. Records while a cut holds the data plane, and those whose write has to wait for the twin. -/

namespace Sys2Proof.Machine

theorem planeRuns_of_cutStopped {s : State} (h : cutStopped s = true) : planeRuns s = false := by
  simp [planeRuns, h]

theorem startMet_of_cutStopped {s : State} (h : cutStopped s = true) (n q : Nat) (x : Queue) (b : Bytes) :
    startMet s n q x b = false := by
  simp [startMet, planeRuns_of_cutStopped h]

theorem startRecord_of_cutStopped {t : Nat} {s₀ s : State} (hs : s = s₀.at t) (h : cutStopped s = true) (op : Nat) (body : RecBody)
    (n : Fin 128) (q : Fin 16) (host : Bytes) : startRecord op body t n q host s₀ = s := by
  unfold startRecord
  rw [← hs]
  dsimp only
  split
  · rfl
  · split
    · rfl
    · rw [if_pos (by simp [startMet_of_cutStopped h])]

theorem startOnSlot_of_cutStopped {t : Nat} {s₀ s : State} (hs : s = s₀.at t) (h : cutStopped s = true) (op : Nat) (body : RecBody)
    (n : Fin 128) (q : Fin 16) (host : Bytes) : startOnSlot op body t n q host s₀ = s := by
  unfold startOnSlot
  rw [← hs, startRecord_of_cutStopped hs h]
  split
  · rfl
  · split <;> rfl

theorem recordSkip_of_cutStopped {t : Nat} {s₀ s : State} (hs : s = s₀.at t) (h : cutStopped s = true)
    (n : Fin 128) (q : Fin 16) (host : Bytes) : recordSkip t n q host s₀ = s := by
  unfold recordSkip
  rw [← hs]
  dsimp only
  split
  · rfl
  · split
    · rfl
    · split
      · rw [if_neg (by simp [startMet_of_cutStopped h])]
      · rfl

theorem recordComplete_of_cutStopped {t : Nat} {s₀ s : State} (hs : s = s₀.at t) (h : cutStopped s = true)
    (n : Fin 128) (q : Fin 16) (num : BitVec 32) : recordComplete t n q num s₀ = s := by
  unfold recordComplete
  rw [← hs]
  dsimp only
  split
  · rfl
  · rw [if_pos (by simp [planeRuns_of_cutStopped h])]

theorem hostAccessFail_of_cutStopped {t : Nat} {s₀ s : State} (hs : s = s₀.at t) (h : cutStopped s = true)
    (n : Fin 128) (q : Fin 16) (kind : HostFail) (host data : Bytes) : hostAccessFail t n q kind host data s₀ = s := by
  unfold hostAccessFail
  rw [← hs, startRecord_of_cutStopped hs h]
  dsimp only
  split
  · rfl
  · split
    · rw [if_pos (by simp [planeRuns_of_cutStopped h])]
    · split <;> rfl

/-- Settles O58: no record starts, is skipped or completes while the data plane does not run. -/
theorem cutsStopRecords : Obligations.CutsStopRecords := by
  unfold Obligations.CutsStopRecords
  intro t n q host data number kind s₀ s hs h
  have hstart : ∀ op body, Host.Outcome.next (startRecord op body t n q host s₀) = (.next s : Outcome) :=
    fun op body => congrArg _ (startRecord_of_cutStopped hs h op body n q host)
  have hslot : ∀ op body, Host.Outcome.next (startOnSlot op body t n q host s₀) = (.next s : Outcome) :=
    fun op body => congrArg _ (startOnSlot_of_cutStopped hs h op body n q host)
  exact ⟨hstart _ _, hslot _ _, hstart _ _, hstart _ _, hstart _ _, hstart _ _, hstart _ _, hstart _ _, hstart _ _, hstart _ _,
    hslot _ _, hstart _ _, hstart _ _, congrArg _ (recordSkip_of_cutStopped hs h n q host),
    congrArg _ (recordComplete_of_cutStopped hs h n q number), congrArg _ (hostAccessFail_of_cutStopped hs h n q kind host data)⟩

/-! A record whose write has to wait (11 R339). -/

/-- A record that would write into a region at its bound does not start. -/
theorem startRecord_waits {op t : Nat} {body : RecBody} {n : Fin 128} {q : Fin 16} {host b : Bytes} {x : Queue} {s₀ s s' : State}
    (hs : s = s₀.at t) (hq : queue s n q = some x) (hne : x.started ≠ x.tail) (hf : fetchRec n x host s = (stOk, b, s'))
    (hm : startMet s n q x b = true) (hc : chainSkips x b = none) (hop : u8At b 0 = op) (hk : opcodeOk (q / 4) (u8At b 0) = true)
    (hh : headerOk (q / 4) b = true)
    (hlag : lagBlocks s (tallyHbm n q x.started.toNat (beginRecord n q x b s')
      (body n q x.started.toNat b (beginRecord n q x b s'))) = true) :
    startRecord op body t n q host s₀ = s := by
  have hm' := hm
  simp only [startMet, Bool.and_eq_true, Bool.not_eq_true'] at hm'
  obtain ⟨⟨⟨⟨⟨⟨⟨⟨⟨-, -⟩, hheld⟩, hfaulted⟩, -⟩, -⟩, -⟩, -⟩, -⟩, -⟩ := hm'
  unfold startRecord
  rw [← hs]
  subst hop
  simp [hq, hne, hheld, hfaulted, hf, hm, hc, rowOf, hk, hh, awaitLag, hlag]

theorem startOnSlot_waits {op t : Nat} {body : RecBody} {n : Fin 128} {q : Fin 16} {host b : Bytes} {x : Queue} {s₀ s s' : State}
    (hs : s = s₀.at t) (hq : queue s n q = some x) (hf : fetchRec n x host s = (stOk, b, s')) (hslot : slotFree s b = true)
    (hwaits : startRecord op body t n q host s₀ = s) : startOnSlot op body t n q host s₀ = s := by
  unfold startOnSlot
  rw [← hs]
  simp [hq, hf, hslot, hwaits]

/-- Where nothing waits, no region at its bound has had a line written. -/
theorem regionLag_lt_of_written {s s' : State} {a : Nat × Region} {r : Region} (hlag : lagBlocks s s' = false)
    (hchanged : s'.twn.regions ≠ s.twn.regions) (ha : a ∈ s.twn.regions) (hasync : a.2.async = true) (hlive : a.2.live = true)
    (hr : tget a.1 s'.twn.regions = some r) (hwritten : a.2.captured + a.2.late < r.captured + r.late) :
    regionLag s a.2 < a.2.maxLag := by
  by_contra hbound
  have hmax : a.2.maxLag ≤ regionLag s a.2 := Nat.le_of_not_lt hbound
  have hblocks : lagBlocks s s' = true := by
    simp only [lagBlocks, Bool.and_eq_true, bne_iff_ne, List.any_eq_true]
    exact ⟨hchanged, a, ha, by simp [hasync, hlive, hmax, hr, hwritten]⟩
  exact absurd (hlag.symm.trans hblocks) (by decide)

/-- Settles O29: the frame that starts a record puts the whole record off when a write of it has to wait. -/
theorem writesAtTheBoundWait : Obligations.WritesAtTheBoundWait := by
  unfold Obligations.WritesAtTheBoundWait
  refine ⟨?_, fun s s' a r hlag hchanged ha hasync hlive hr hwritten =>
    regionLag_lt_of_written hlag hchanged ha hasync hlive hr hwritten⟩
  intro t num n q host data b x s₀ s s' s₁ hs hq hne hf hm hc hk hh hs₁ hnum
  subst hs₁ hnum
  have hstart : ∀ op body, u8At b 0 = op → lagBlocks s (tallyHbm n q x.started.toNat (beginRecord n q x b s')
      (body n q x.started.toNat b (beginRecord n q x b s'))) = true →
      Host.Outcome.next (startRecord op body t n q host s₀) = (.next s : Outcome) :=
    fun op body hop hlag => congrArg _ (startRecord_waits hs hq hne hf hm hc hop hk hh hlag)
  have hslot : slotFree s b = true → ∀ op body, u8At b 0 = op → lagBlocks s (tallyHbm n q x.started.toNat (beginRecord n q x b s')
      (body n q x.started.toNat b (beginRecord n q x b s'))) = true →
      Host.Outcome.next (startOnSlot op body t n q host s₀) = (.next s : Outcome) :=
    fun hfree op body hop hlag =>
      congrArg _ (startOnSlot_waits hs hq hf hfree (startRecord_waits hs hq hne hf hm hc hop hk hh hlag))
  exact ⟨hstart _ _, hstart _ _, hstart _ _, hstart _ _, hstart _ _, hstart _ _, hstart _ _, hstart _ _,
    fun hfree => ⟨hslot hfree _ _, hslot hfree _ _⟩⟩

end Sys2Proof.Machine
end

section
/-! SUPPORT. Being out of service or not, and the forms that a change of the state takes. -/

namespace Sys2Proof.Machine

variable {oos : Bool}

/-- The device is out of service or not, as `oos` says. -/
def ServiceIs (oos : Bool) (s : State) : Prop := s.cmb.outOfService = oos

theorem serviceIs_congr {s s' : State} (h : ServiceIs oos s) (hc : s'.cmb.outOfService = s.cmb.outOfService) :
    ServiceIs oos s' := hc.trans h

theorem serviceIs_ite {c : Prop} [Decidable c] {a b : State} (ha : ServiceIs oos a) (hb : ServiceIs oos b) :
    ServiceIs oos (if c then a else b) := by
  split
  · exact ha
  · exact hb

theorem serviceIs_foldl {α : Type} {f : State → α → State} (hf : ∀ s a, ServiceIs oos s → ServiceIs oos (f s a))
    (l : List α) {s : State} (h : ServiceIs oos s) : ServiceIs oos (l.foldl f s) := by
  induction l generalizing s with
  | nil => exact h
  | cons a l ih => exact ih (hf s a h)

theorem serviceIs_modCmb {f : Cmb → Cmb} {s : State} (h : ServiceIs oos s)
    (hf : ∀ c, (f c).outOfService = c.outOfService) : ServiceIs oos (modCmb f s) := (hf _).trans h

theorem serviceIs_of_snd {α : Type} {x : α × State} {a : α} {s : State} (hx : x = (a, s)) (h : ServiceIs oos x.2) :
    ServiceIs oos s := by
  subst hx
  exact h

theorem serviceIs_takeMsg {p : InMsg → Bool} {m : InMsg} {s s' : State} (hs : takeMsg p s = some (m, s'))
    (h : ServiceIs oos s) : ServiceIs oos s' := by
  unfold takeMsg at hs
  split at hs
  · cases hs
    exact h
  · cases hs

end Sys2Proof.Machine
end

section
/-! SUPPORT. Links that go down, and the log entry and the crash dump of a reset, leave the device in or out of service as it was. -/

namespace Sys2Proof.Machine

variable {oos : Bool}

theorem serviceIs_emit (e : Emit) {s : State} (h : ServiceIs oos s) : ServiceIs oos (emit e s) :=
  serviceIs_congr h rfl

theorem serviceIs_drawNat {s : State} (h : ServiceIs oos s) : ServiceIs oos (drawNat s).2 := by
  unfold drawNat
  dsimp only
  exact serviceIs_congr h rfl

theorem serviceIs_drawBytes (n : Nat) {s : State} (h : ServiceIs oos s) : ServiceIs oos (drawBytes n s).2 := by
  unfold drawBytes
  dsimp only
  exact serviceIs_congr h rfl

theorem serviceIs_logErr (code island : Nat) (data : Bytes) {s : State} (h : ServiceIs oos s) :
    ServiceIs oos (logErr code island data s) := by
  unfold logErr
  extract_lets _ _ _ _ _
  exact serviceIs_congr h rfl

theorem serviceIs_traceRec (u ty aux data : Nat) {s : State} (h : ServiceIs oos s) :
    ServiceIs oos (traceRec u ty aux data s) := by
  unfold traceRec
  extract_lets _ _ _ _ _
  exact serviceIs_congr h rfl

theorem serviceIs_rawWrite (a : Nat) (b : Bytes) {s : State} (h : ServiceIs oos s) :
    ServiceIs oos (rawWrite a b s) := by
  unfold rawWrite
  extract_lets _
  exact serviceIs_congr h rfl

theorem serviceIs_journalPlace (b : Bytes) {s : State} (h : ServiceIs oos s) : ServiceIs oos (journalPlace b s) := by
  unfold journalPlace
  extract_lets _ _ _ s₁ _
  have hs₁ : ServiceIs oos s₁ := serviceIs_rawWrite _ _ h
  exact serviceIs_congr hs₁ rfl

theorem serviceIs_journalAt (time ty island : Nat) (body : Bytes) {s : State} (h : ServiceIs oos s) :
    ServiceIs oos (journalAt time ty island body s) := by
  unfold journalAt
  extract_lets _ _ s₁ _
  have hs₁ : ServiceIs oos s₁ := serviceIs_congr h rfl
  exact serviceIs_ite h (serviceIs_ite (serviceIs_congr h rfl) (serviceIs_ite (serviceIs_congr hs₁ rfl)
      (serviceIs_journalPlace _ hs₁)))

theorem serviceIs_journal (ty island : Nat) (body : Bytes) {s : State} (h : ServiceIs oos s) :
    ServiceIs oos (journal ty island body s) :=
  serviceIs_journalAt _ _ _ _ h

theorem serviceIs_setChan (ch : Fin 130) (c : Chan) {s : State} (h : ServiceIs oos s) :
    ServiceIs oos (setChan ch c s) := by
  unfold setChan
  extract_lets _
  exact serviceIs_congr h rfl

theorem serviceIs_modChan (ch : Fin 130) (f : Chan → Chan) {s : State} (h : ServiceIs oos s) :
    ServiceIs oos (modChan ch f s) :=
  serviceIs_setChan _ _ h

theorem serviceIs_channelIrq (ch : Fin 130) {s : State} (h : ServiceIs oos s) : ServiceIs oos (channelIrq ch s) := by
  unfold channelIrq
  extract_lets _
  exact serviceIs_ite (serviceIs_emit _ (serviceIs_congr h rfl)) (serviceIs_emit _ h)

theorem serviceIs_pushEvent (ch : Fin 130) (b : Bytes) {s : State} (h : ServiceIs oos s) :
    ServiceIs oos (pushEvent ch b s) := by
  unfold pushEvent
  extract_lets _ s₁
  have hs₁ : ServiceIs oos s₁ := serviceIs_setChan _ _ h
  exact serviceIs_ite (serviceIs_setChan _ _ h) (serviceIs_ite (serviceIs_channelIrq _ hs₁) hs₁)

theorem serviceIs_finishTicket (ch : Fin 130) (num status : Nat) (result : Bytes) {s : State} (h : ServiceIs oos s) :
    ServiceIs oos (finishTicket ch num status result s) := by
  unfold finishTicket
  split
  · extract_lets _ s₁
    have hs₁ : ServiceIs oos s₁ := serviceIs_modChan _ _ h
    exact serviceIs_ite (serviceIs_pushEvent _ _ hs₁) h
  · exact h

theorem serviceIs_finishRef (ref : Option TicketRef) (status : Nat) (result : Bytes) {s : State} (h : ServiceIs oos s) :
    ServiceIs oos (finishRef ref status result s) := by
  unfold finishRef
  split
  · exact serviceIs_finishTicket _ _ _ _ h
  · exact h

theorem serviceIs_setPort (p : Fin 8) (x : Port) {s : State} (h : ServiceIs oos s) : ServiceIs oos (setPort p x s) :=
  serviceIs_congr h rfl

theorem serviceIs_modPort (p : Fin 8) (f : Port → Port) {s : State} (h : ServiceIs oos s) :
    ServiceIs oos (modPort p f s) :=
  serviceIs_setPort _ _ h

theorem serviceIs_modLink (p : Fin 8) (f : Link → Link) {s : State} (h : ServiceIs oos s) :
    ServiceIs oos (modLink p f s) :=
  serviceIs_modPort _ _ h

theorem serviceIs_modPhys (p : Fin 8) (f : Phys → Phys) {s : State} (h : ServiceIs oos s) :
    ServiceIs oos (modPhys p f s) :=
  serviceIs_modPort _ _ h

theorem serviceIs_queueMsg (p vc : Fin 8) (typ part : Nat) (tag : Option Nat) (b : Bytes) {s : State}
    (h : ServiceIs oos s) :
    ServiceIs oos (queueMsg p vc typ part tag b s) :=
  serviceIs_modLink _ _ h

theorem serviceIs_modRx (p v : Fin 8) (f : VcRx → VcRx) {s : State} (h : ServiceIs oos s) :
    ServiceIs oos (modRx p v f s) :=
  serviceIs_modLink _ _ h

theorem serviceIs_afterTake (p v : Fin 8) {s : State} (h : ServiceIs oos s) : ServiceIs oos (afterTake p v s) := by
  unfold afterTake
  extract_lets _ _
  exact serviceIs_modRx _ _ _ h

theorem serviceIs_modPart (n : Nat) (f : Partition → Partition) {s : State} (h : ServiceIs oos s) :
    ServiceIs oos (modPart n f s) := by
  unfold modPart
  extract_lets _
  exact serviceIs_congr h rfl

theorem serviceIs_countRow (row k : Nat) {s : State} (h : ServiceIs oos s) : ServiceIs oos (countRow row k s) := by
  unfold countRow
  extract_lets _ _
  exact serviceIs_congr h rfl

theorem serviceIs_correctLine (dl : Nat) {s : State} (h : ServiceIs oos s) : ServiceIs oos (correctLine dl s) := by
  unfold correctLine
  extract_lets _
  exact serviceIs_countRow _ _ (serviceIs_congr h rfl)

theorem serviceIs_noteBadLine (dl part : Nat) (line : Bytes) {s : State} (h : ServiceIs oos s) :
    ServiceIs oos (noteBadLine dl part line s) := by
  unfold noteBadLine
  extract_lets _ s₁
  have hs₁ : ServiceIs oos s₁ := serviceIs_congr h rfl
  exact serviceIs_countRow _ _ (serviceIs_logErr _ _ _ hs₁)

theorem serviceIs_loseTags (dl part : Nat) {s : State} (h : ServiceIs oos s) : ServiceIs oos (loseTags dl part s) := by
  unfold loseTags
  extract_lets s₁ _
  have hs₁ : ServiceIs oos s₁ := serviceIs_noteBadLine _ _ _ h
  exact serviceIs_congr hs₁ rfl

theorem serviceIs_evictTag (dl : Nat) {s : State} (h : ServiceIs oos s) : ServiceIs oos (evictTag dl s) := by
  unfold evictTag
  split
  · extract_lets s₁ _
    have hs₁ : ServiceIs oos s₁ := serviceIs_ite (serviceIs_rawWrite _ _ h) h
    exact serviceIs_congr hs₁ rfl
  · exact h

theorem serviceIs_loadTag (part ta : Nat) {s : State} (h : ServiceIs oos s) : ServiceIs oos (loadTag part ta s) := by
  unfold loadTag
  extract_lets _ s₁ s₂ _ d s₃ _
  have hs₁ : ServiceIs oos s₁ := serviceIs_ite (serviceIs_correctLine _ h) h
  have hs₂ : ServiceIs oos s₂ := serviceIs_ite (serviceIs_loseTags _ _ hs₁) hs₁
  have hd : ServiceIs oos d.2 := serviceIs_drawNat hs₂
  have hs₃ : ServiceIs oos s₃ := serviceIs_ite hs₂ (serviceIs_ite hs₂ (serviceIs_evictTag _ hd))
  exact serviceIs_ite h (serviceIs_congr hs₃ rfl)

theorem serviceIs_writeTag (part ta : Nat) (tag : Bytes) {s : State} (h : ServiceIs oos s) :
    ServiceIs oos (writeTag part ta tag s) := by
  unfold writeTag
  extract_lets s₁ _
  have hs₁ : ServiceIs oos s₁ := serviceIs_loadTag _ _ h
  exact serviceIs_congr hs₁ rfl

theorem serviceIs_faultLine (who : Nat × Nat) (n o cause : Nat) {s : State} (h : ServiceIs oos s) :
    ServiceIs oos (faultLine who n o cause s) := by
  unfold faultLine
  extract_lets _
  split
  · exact h
  · split
    · exact h
    · extract_lets s₁
      have hs₁ : ServiceIs oos s₁ := serviceIs_congr h rfl
      exact serviceIs_ite h (serviceIs_logErr _ _ _ hs₁)

theorem serviceIs_failLine (who : Nat × Nat) (n o : Nat) (st : LineState) {s : State} (h : ServiceIs oos s) :
    ServiceIs oos (failLine who n o st s).2 := by
  unfold failLine
  extract_lets _
  split
  · dsimp only
    exact h
  · dsimp only
    exact serviceIs_faultLine _ _ _ _ h
  · dsimp only
    exact serviceIs_faultLine _ _ _ _ (serviceIs_noteBadLine _ _ _ h)
  · dsimp only
    exact serviceIs_modPart _ _ h

theorem serviceIs_touchLine (n o : Nat) (st : LineState) {s : State} (h : ServiceIs oos s) :
    ServiceIs oos (touchLine n o st s) := by
  unfold touchLine
  split
  · exact h
  · exact h
  · exact h
  · extract_lets _ s₁
    have hs₁ : ServiceIs oos s₁ := serviceIs_ite (serviceIs_correctLine _ h) h
    split
    · exact serviceIs_ite (serviceIs_loadTag _ _ hs₁) hs₁
    · exact hs₁

theorem serviceIs_readLine (who : Nat × Nat) (n o : Nat) {s : State} (h : ServiceIs oos s) :
    ServiceIs oos (readLine who n o s).2.2 := by
  unfold readLine
  split
  · dsimp only
    exact h
  · dsimp only
    exact serviceIs_touchLine _ _ _ h
  · extract_lets r
    have hr : ServiceIs oos r.2 := serviceIs_failLine _ _ _ _ (serviceIs_touchLine _ _ _ h)
    dsimp only
    exact hr

theorem serviceIs_storeLine (n o : Nat) (d : Bytes) {s : State} (h : ServiceIs oos s) :
    ServiceIs oos (storeLine n o d s) := by
  unfold storeLine
  extract_lets _
  split
  · exact h
  · split
    · exact h
    · extract_lets _ _ _ s₁
      have hs₁ : ServiceIs oos s₁ := serviceIs_congr h rfl
      refine serviceIs_ite ?_ (serviceIs_ite (serviceIs_rawWrite _ _ hs₁) (serviceIs_rawWrite _ _ hs₁))
      split
      · extract_lets _
        exact serviceIs_writeTag _ _ _ (serviceIs_rawWrite _ _ hs₁)
      · exact hs₁

theorem serviceIs_writeLine (who : Nat × Nat) (mirror : Bool) (n o off : Nat) (d : Bytes) {s : State}
    (h : ServiceIs oos s) :
    ServiceIs oos (writeLine who mirror n o off d s).2 := by
  unfold writeLine
  split
  · dsimp only
    exact h
  · split
    · dsimp only
      exact serviceIs_storeLine _ _ _ h
    · split
      · dsimp only
        exact serviceIs_storeLine _ _ _ (serviceIs_touchLine _ _ _ h)
      · exact serviceIs_failLine _ _ _ _ (serviceIs_touchLine _ _ _ h)
      · dsimp only
        exact h

theorem serviceIs_readCuts (who : Nat × Nat) (n : Nat) (l : List (Nat × Nat × Nat)) {s : State} (h : ServiceIs oos s) :
    ServiceIs oos (readCuts who n l s).2.2 := by
  induction l generalizing s with
  | nil =>
    unfold readCuts
    dsimp only
    exact h
  | cons a l ih =>
    unfold readCuts
    extract_lets r rest
    have hr : ServiceIs oos r.2.2 := serviceIs_readLine _ _ _ h
    have hrest : ServiceIs oos rest.2.2 := ih hr
    dsimp only
    exact hrest

theorem serviceIs_readRange (who : Nat × Nat) (n o len : Nat) {s : State} (h : ServiceIs oos s) :
    ServiceIs oos (readRange who n o len s).2.2 := by
  unfold readRange
  extract_lets r
  have hr : ServiceIs oos r.2.2 := serviceIs_readCuts _ _ _ h
  dsimp only
  exact hr

theorem serviceIs_writeCuts (who : Nat × Nat) (mirror : Bool) (n : Nat) (l : List (Nat × Nat × Nat)) (k : Bytes)
    {s : State} (h : ServiceIs oos s) :
    ServiceIs oos (writeCuts who mirror n l k s).2.2 := by
  induction l generalizing oos who mirror n k s with
  | nil =>
    unfold writeCuts
    dsimp only
    exact h
  | cons a l ih =>
    unfold writeCuts
    extract_lets r rest
    have hr : ServiceIs oos r.2 := serviceIs_writeLine _ _ _ _ _ _ h
    have hrest : ServiceIs oos rest.2.2 := ih _ _ _ _ hr
    dsimp only
    exact hrest

theorem serviceIs_setRegion (k : Nat) (r : Region) {s : State} (h : ServiceIs oos s) :
    ServiceIs oos (setRegion k r s) := by
  unfold setRegion
  extract_lets _
  exact serviceIs_congr h rfl

theorem serviceIs_sendMirror (copy : Bool) (k : Nat) (r : Region) (lines : List Nat) {s : State} (h : ServiceIs oos s) :
    ServiceIs oos (sendMirror copy k r lines s) := by
  unfold sendMirror
  extract_lets s₁
  have hs₁ : ServiceIs oos s₁ := serviceIs_queueMsg _ _ _ _ _ _ h
  exact serviceIs_setRegion _ _ hs₁

theorem serviceIs_markRegion (id lines upTo : Nat) {s : State} (h : ServiceIs oos s) :
    ServiceIs oos (markRegion id lines upTo s) := by
  unfold markRegion
  extract_lets _
  exact serviceIs_congr h rfl

theorem serviceIs_takeMarks {s : State} (h : ServiceIs oos s) : ServiceIs oos (takeMarks s).2 := by
  unfold takeMarks
  extract_lets _
  dsimp only
  exact serviceIs_congr h rfl

theorem serviceIs_captureRun (n : Nat) (run : List Nat) {s : State} (h : ServiceIs oos s) :
    ServiceIs oos (captureRun n run s) := by
  unfold captureRun
  split
  · extract_lets _ _ s₁ _ s₂
    have hs₁ : ServiceIs oos s₁ := serviceIs_ite h (serviceIs_setRegion _ _ h)
    have hs₂ : ServiceIs oos s₂ := serviceIs_ite hs₁ (serviceIs_sendMirror _ _ _ _ hs₁)
    exact serviceIs_ite h (serviceIs_ite hs₂ (serviceIs_markRegion _ _ _ hs₂))
  · exact h

theorem serviceIs_captureLines (n : Nat) (lines : List Nat) {s : State} (h : ServiceIs oos s) :
    ServiceIs oos (captureLines n lines s) :=
  serviceIs_ite h (serviceIs_foldl (fun _ _ hs => serviceIs_captureRun _ _ hs) _ h)

theorem serviceIs_writeRange (who : Nat × Nat) (mirror : Bool) (n o : Nat) (d : Bytes) {s : State} (h : ServiceIs oos s)
    :
    ServiceIs oos (writeRange who mirror n o d s).2 := by
  unfold writeRange
  extract_lets r
  have hr : ServiceIs oos r.2.2 := serviceIs_writeCuts _ _ _ _ _ h
  dsimp only
  exact serviceIs_captureLines _ _ hr

theorem serviceIs_poisonRange (who : Nat × Nat) (n o len : Nat) {s : State} (h : ServiceIs oos s) :
    ServiceIs oos (poisonRange who n o len s) := by
  unfold poisonRange
  extract_lets _ _ s₁
  have hs₁ : ServiceIs oos s₁ := serviceIs_foldl (fun _ _ hs => serviceIs_faultLine _ _ _ _ hs) _ h
  exact serviceIs_captureLines _ _ hs₁

theorem serviceIs_faultScratch (who : Nat × Nat) (cause l : Nat) {s : State} (h : ServiceIs oos s) :
    ServiceIs oos (faultScratch who cause l s) := by
  unfold faultScratch
  extract_lets _ s₁
  have hs₁ : ServiceIs oos s₁ := serviceIs_congr h rfl
  exact serviceIs_ite h (serviceIs_logErr _ _ _ hs₁)

theorem serviceIs_findScratch (who : Nat × Nat) (ls : List Nat) {s : State} (h : ServiceIs oos s) :
    ServiceIs oos (findScratch who ls s) :=
  serviceIs_foldl (fun _ _ hs => serviceIs_faultScratch _ _ _ hs) _ h

theorem serviceIs_readScratch (who : Nat × Nat) (a len : Nat) {s : State} (h : ServiceIs oos s) :
    ServiceIs oos (readScratch who a len s).2.2 := by
  unfold readScratch
  extract_lets _ s₁
  have hs₁ : ServiceIs oos s₁ := serviceIs_findScratch _ _ h
  split
  · dsimp only
    exact hs₁
  · dsimp only
    exact hs₁

theorem serviceIs_writeScratchCuts (who : Nat × Nat) (l : List (Nat × Nat × Nat)) (k : Bytes) {s : State}
    (h : ServiceIs oos s) :
    ServiceIs oos (writeScratchCuts who l k s).2 := by
  induction l generalizing oos who k s with
  | nil =>
    unfold writeScratchCuts
    dsimp only
    exact h
  | cons a l ih =>
    unfold writeScratchCuts
    extract_lets _ s₁ _ _ _ s₂ rest
    have hs₁ : ServiceIs oos s₁ := serviceIs_ite h (serviceIs_findScratch _ _ h)
    have hs₂ : ServiceIs oos s₂ := serviceIs_ite hs₁ (serviceIs_congr hs₁ rfl)
    have hrest : ServiceIs oos rest.2 := ih _ _ hs₂
    dsimp only
    exact hrest

theorem serviceIs_writeScratch (who : Nat × Nat) (a : Nat) (d : Bytes) {s : State} (h : ServiceIs oos s) :
    ServiceIs oos (writeScratch who a d s).2 :=
  serviceIs_writeScratchCuts _ _ _ h

theorem serviceIs_poisonScratch (who : Nat × Nat) (a len : Nat) {s : State} (h : ServiceIs oos s) :
    ServiceIs oos (poisonScratch who a len s) :=
  serviceIs_foldl (fun _ _ hs => serviceIs_faultScratch _ _ _ hs) _ h

theorem serviceIs_modPartCtr (n : Nat) (f : PartCtr → PartCtr) {s : State} (h : ServiceIs oos s) :
    ServiceIs oos (modPartCtr n f s) := by
  unfold modPartCtr
  extract_lets _
  exact serviceIs_congr h rfl

theorem serviceIs_readPieces (who : Nat × Nat) (l : List (Nat × Nat)) {s : State} (h : ServiceIs oos s) :
    ServiceIs oos (readPieces who l s).2.2 := by
  induction l generalizing s with
  | nil =>
    unfold readPieces
    dsimp only
    exact h
  | cons a l ih =>
    unfold readPieces
    extract_lets r rest
    have hr : ServiceIs oos r.2.2 := serviceIs_readScratch _ _ _ h
    have hrest : ServiceIs oos rest.2.2 := ih hr
    dsimp only
    exact hrest

theorem serviceIs_readLoc (n : Nat) (l : Loc) (len : Nat) {s : State} (h : ServiceIs oos s) :
    ServiceIs oos (readLoc n l len s).2.2 := by
  unfold readLoc
  split
  · exact serviceIs_readRange _ _ _ _ (serviceIs_modPartCtr _ _ h)
  · split
    · extract_lets r
      have hr : ServiceIs oos r.2.2 := serviceIs_readPieces _ _ h
      dsimp only
      exact hr
    · dsimp only
      exact h

theorem serviceIs_writePieces (who : Nat × Nat) (l : List (Nat × Nat)) (k : Bytes) {s : State} (h : ServiceIs oos s) :
    ServiceIs oos (writePieces who l k s).2 := by
  induction l generalizing oos who k s with
  | nil =>
    unfold writePieces
    dsimp only
    exact h
  | cons a l ih =>
    unfold writePieces
    extract_lets r rest
    have hr : ServiceIs oos r.2 := serviceIs_writeScratch _ _ _ h
    have hrest : ServiceIs oos rest.2 := ih _ _ hr
    dsimp only
    exact hrest

theorem serviceIs_writeLoc (n : Nat) (l : Loc) (d : Bytes) {s : State} (h : ServiceIs oos s) :
    ServiceIs oos (writeLoc n l d s).2 := by
  unfold writeLoc
  split
  · exact serviceIs_writeRange _ _ _ _ _ (serviceIs_modPartCtr _ _ h)
  · split
    · exact serviceIs_writePieces _ _ _ h
    · dsimp only
      exact h

theorem serviceIs_poisonLoc (n : Nat) (l : Loc) (len : Nat) {s : State} (h : ServiceIs oos s) :
    ServiceIs oos (poisonLoc n l len s) := by
  unfold poisonLoc
  split
  · exact serviceIs_poisonRange _ _ _ _ h
  · exact serviceIs_foldl (fun _ _ hs => serviceIs_poisonScratch _ _ _ hs) _ h

theorem serviceIs_poisonRest (n : Nat) (l : Loc) (len : Nat) (done : List (Nat × Nat)) {s : State} (h : ServiceIs oos s)
    :
    ServiceIs oos (poisonRest n l len done s) := by
  unfold poisonRest
  extract_lets _
  exact serviceIs_foldl (fun _ _ hs => serviceIs_ite hs (serviceIs_poisonLoc _ _ _ hs)) _ h

theorem serviceIs_modQueue (n q : Nat) (f : Queue → Queue) {s : State} (h : ServiceIs oos s) :
    ServiceIs oos (modQueue n q f s) := by
  unfold modQueue
  extract_lets _
  exact serviceIs_congr h rfl

theorem serviceIs_modRunning (n q num : Nat) (f : Running → Running) {s : State} (h : ServiceIs oos s) :
    ServiceIs oos (modRunning n q num f s) :=
  serviceIs_modQueue _ _ _ h

theorem serviceIs_noteMirrors (n q num : Nat) {s : State} (h : ServiceIs oos s) :
    ServiceIs oos (noteMirrors n q num s) := by
  unfold noteMirrors
  extract_lets m
  have hm : ServiceIs oos m.2 := serviceIs_takeMarks h
  exact serviceIs_modRunning _ _ _ _ hm

theorem serviceIs_endRecord (n q num status : Nat) (result : Bytes) {s : State} (h : ServiceIs oos s) :
    ServiceIs oos (endRecord n q num status result s) :=
  serviceIs_modRunning _ _ _ _ (serviceIs_noteMirrors _ _ _ h)

theorem serviceIs_modTxn (f : TxnState → TxnState) {s : State} (h : ServiceIs oos s) : ServiceIs oos (modTxn f s) :=
  serviceIs_congr h rfl

theorem serviceIs_sendTo {chip sel vc prt : Nat} {tag : Option Nat} {b : Bytes} {s s' : State}
    (hs : sendTo chip sel vc prt tag b s = some s')
    (h : ServiceIs oos s) : ServiceIs oos s' := by
  unfold sendTo at hs
  split at hs
  · cases hs
    exact serviceIs_modTxn _ h
  · obtain ⟨p, -, rfl⟩ := Option.map_eq_some_iff.1 hs
    exact serviceIs_queueMsg _ _ _ _ _ _ h

theorem serviceIs_dropHeld {s : State} (h : ServiceIs oos s) : ServiceIs oos (dropHeld s) :=
  serviceIs_modTxn _ h

theorem serviceIs_sendResponse (hd : TxnHdr) (vc : Nat) (data : Bytes) {s : State} (h : ServiceIs oos s) :
    ServiceIs oos (sendResponse hd vc data s) := by
  unfold sendResponse
  split
  · exact serviceIs_sendTo ‹_› h
  · exact serviceIs_dropHeld h

theorem serviceIs_countSynth (status : Nat) {s : State} (h : ServiceIs oos s) :
    ServiceIs oos (countSynth status s) := by
  unfold countSynth
  extract_lets i
  clear_value i
  split
  · exact serviceIs_modTxn _ h
  · exact h

theorem serviceIs_forwardCompletion (hd : TxnHdr) (status : Nat) {s : State} (h : ServiceIs oos s) :
    ServiceIs oos (forwardCompletion hd status s) := by
  unfold forwardCompletion
  extract_lets s₁
  have hs₁ : ServiceIs oos s₁ := serviceIs_countSynth _ h
  exact serviceIs_sendResponse _ _ _ hs₁

theorem serviceIs_endRemote (n q num word : Nat) (result : Bytes) {s : State} (h : ServiceIs oos s) :
    ServiceIs oos (endRemote n q num word result s) :=
  serviceIs_modRunning _ _ _ _ (serviceIs_noteMirrors _ _ _ h)

theorem serviceIs_poisonPull (n : Nat) (b : Bytes) (r : Running) (word : Nat) {s : State} (h : ServiceIs oos s) :
    ServiceIs oos (poisonPull n b r word s) :=
  serviceIs_ite (serviceIs_poisonRest _ _ _ _ h) h

theorem serviceIs_finishBulk (n q num : Nat) {s : State} (h : ServiceIs oos s) :
    ServiceIs oos (finishBulk n q num s) := by
  unfold finishBulk
  split
  · extract_lets _
    refine serviceIs_ite h ?_
    split
    · exact serviceIs_endRemote _ _ _ _ _ (serviceIs_poisonPull _ _ _ _ h)
    · refine serviceIs_ite h ?_
      split
      · exact serviceIs_endRecord _ _ _ _ _ h
      · exact serviceIs_endRemote _ _ _ _ _ h
  · exact h

theorem serviceIs_cancelChunks (n q num : Nat) {s : State} (h : ServiceIs oos s) :
    ServiceIs oos (cancelChunks n q num s) := by
  unfold cancelChunks
  extract_lets _ _
  exact serviceIs_modRunning _ _ _ _ (serviceIs_modTxn _ h)

theorem serviceIs_chunkDone (n q num k word : Nat) (data : Bytes) {s : State} (h : ServiceIs oos s) :
    ServiceIs oos (chunkDone n q num k word data s) := by
  unfold chunkDone
  extract_lets s₁ s₂
  have hs₁ : ServiceIs oos s₁ := serviceIs_modRunning _ _ _ _ h
  have hs₂ : ServiceIs oos s₂ := serviceIs_modRunning _ _ _ _ hs₁
  split
  · extract_lets _ _ w s₃
    have hw : ServiceIs oos w.2 := by
      unfold w
      split
      · exact serviceIs_writeLoc _ _ _ hs₂
      · dsimp only
        exact hs₂
    have hs₃ : ServiceIs oos s₃ := serviceIs_ite hw (serviceIs_modRunning _ _ _ _ hw)
    exact serviceIs_ite (serviceIs_finishBulk _ _ _ (serviceIs_noteMirrors _ _ _ hs₃))
        (serviceIs_finishBulk _ _ _ (serviceIs_cancelChunks _ _ _ (serviceIs_modRunning _ _ _ _ hs₁)))
  · exact h

theorem serviceIs_remoteOpDone (n q num word : Nat) (data : Bytes) {s : State} (h : ServiceIs oos s) :
    ServiceIs oos (remoteOpDone n q num word data s) := by
  unfold remoteOpDone
  extract_lets s₁
  have hs₁ : ServiceIs oos s₁ := serviceIs_modRunning _ _ _ _ h
  split
  · extract_lets _ _ _ w
    have hw : ServiceIs oos w.2 := serviceIs_writeLoc _ _ _ hs₁
    exact serviceIs_ite (serviceIs_endRemote _ _ _ _ _ (serviceIs_poisonLoc _ _ _ h))
        (serviceIs_ite (serviceIs_ite (serviceIs_endRemote _ _ _ _ _ hw) (serviceIs_endRecord _ _ _ _ _ hw))
        (serviceIs_endRemote _ _ _ _ _ h))
  · exact h

theorem serviceIs_tailDone (n q num k word : Nat) (data : Bytes) {s : State} (h : ServiceIs oos s) :
    ServiceIs oos (tailDone n q num k word data s) :=
  serviceIs_modRunning _ _ _ _ h

theorem serviceIs_raIssued (o : RaOwner) {s : State} (h : ServiceIs oos s) : ServiceIs oos (raIssued o s) := by
  unfold raIssued
  split
  · extract_lets _ _ s₁
    have hs₁ : ServiceIs oos s₁ := serviceIs_modRunning _ _ _ _ h
    split
    · exact serviceIs_ite (serviceIs_ite (serviceIs_endRecord _ _ _ _ _ hs₁) hs₁) h
    · exact h
  · exact h

theorem serviceIs_settle (t : Txn) (word : Nat) (data : Bytes) {s : State} (h : ServiceIs oos s) :
    ServiceIs oos (settle t word data s) := by
  unfold settle
  split
  · exact serviceIs_remoteOpDone _ _ _ _ _ h
  · exact serviceIs_chunkDone _ _ _ _ _ _ h
  · exact serviceIs_tailDone _ _ _ _ _ _ h
  · extract_lets _
    exact serviceIs_ite (serviceIs_ite (serviceIs_modTxn _ h) h) h

theorem serviceIs_atIssue (t : Txn) (status : Nat) {s : State} (h : ServiceIs oos s) :
    ServiceIs oos (atIssue t status s) :=
  serviceIs_settle _ _ _ (serviceIs_countSynth _ h)

theorem serviceIs_launch (t : Txn) (tag : Nat) (p : Option (Fin 8)) {s : State} (h : ServiceIs oos s) :
    ServiceIs oos (launch t tag p s) := by
  unfold launch
  extract_lets _ _ s₁ _ s₂ s₃
  have hs₁ : ServiceIs oos s₁ := serviceIs_modTxn _ h
  have hs₂ : ServiceIs oos s₂ := serviceIs_modPartCtr _ _ hs₁
  have hs₃ : ServiceIs oos s₃ := by
    unfold s₃
    split
    · exact serviceIs_queueMsg _ _ _ _ _ _ hs₂
    · exact serviceIs_modTxn _ hs₁
  split
  · exact serviceIs_raIssued _ hs₃
  · exact hs₃

theorem serviceIs_tryIssue {t : Txn} {s s' : State} (hs : tryIssue t s = some s') (h : ServiceIs oos s) :
    ServiceIs oos s' := by
  unfold tryIssue at hs
  extract_lets t₁ fail at hs
  have hfail : ∀ {st : Nat} {s s' : State}, fail st s = some s' → ServiceIs oos s → ServiceIs oos s' := by
    intro st s s' hs h
    cases hs
    refine serviceIs_atIssue _ _ ?_
    split
    · exact serviceIs_raIssued _ h
    · exact h
  have hlaunch : ∀ {o : Option Nat} {f : Nat → Txn} {p : Option (Fin 8)}, o.map (fun g => launch (f g) g p s) = some s'
      → ServiceIs oos s' := by
    intro o f p ho
    obtain ⟨g, -, rfl⟩ := Option.map_eq_some_iff.1 ho
    exact serviceIs_launch _ _ _ h
  clear_value fail
  dsimp only at hs
  split at hs
  · exact hfail hs h
  split at hs
  · exact hfail hs h
  split at hs
  · exact hfail hs h
  split at hs
  · exact hfail hs h
  split at hs
  · exact hfail hs h
  split at hs
  · exact hfail hs h
  split at hs
  · cases hs
    exact serviceIs_settle _ _ _ (serviceIs_modTxn _ h)
  split at hs
  · exact hlaunch hs
  split at hs
  · exact hfail hs h
  · cases hs
  split at hs
  · cases hs
    exact serviceIs_launch _ _ _ h
  · cases hs

theorem serviceIs_issueTxn (t : Txn) {s : State} (h : ServiceIs oos s) : ServiceIs oos (issueTxn t s) := by
  unfold issueTxn
  extract_lets _
  refine serviceIs_ite (serviceIs_modTxn _ h) ?_
  split
  · exact serviceIs_tryIssue ‹_› h
  · exact serviceIs_modTxn _ h

theorem serviceIs_pumpWaiting {l k : List Txn} {s s' : State} (hs : pumpWaiting s l k = some s') (h : ServiceIs oos s) :
    ServiceIs oos s' := by
  induction k generalizing l with
  | nil => cases hs
  | cons t rest ih =>
    unfold pumpWaiting at hs
    dsimp only at hs
    split at hs
    · rename_i s₁ heq
      cases hs
      split at heq
      · cases heq
      · exact serviceIs_tryIssue heq (serviceIs_modTxn _ h)
    · exact ih hs

theorem serviceIs_issueChunk (n q num : Nat) (r : Running) {s : State} (h : ServiceIs oos s) :
    ServiceIs oos (issueChunk n q num r s) := by
  unfold issueChunk
  extract_lets _ _ _ _ _ s₁ _ s₂ _ d
  have hs₁ : ServiceIs oos s₁ := serviceIs_modRunning _ _ _ _ h
  have hs₂ : ServiceIs oos s₂ := serviceIs_ite (serviceIs_issueTxn _ hs₁) hs₁
  have hd : ServiceIs oos d.2.2 := serviceIs_readLoc _ _ _ hs₂
  exact serviceIs_ite (serviceIs_issueTxn _ hs₂) (serviceIs_ite (serviceIs_issueTxn _ hd)
      (serviceIs_chunkDone _ _ _ _ _ _ hd))

theorem serviceIs_pumpLoop (fuel : Nat) {s : State} (h : ServiceIs oos s) : ServiceIs oos (pumpLoop fuel s) := by
  induction fuel generalizing s with
  | zero => exact h
  | succ fuel ih =>
    unfold pumpLoop
    split
    · exact ih (serviceIs_pumpWaiting ‹_› h)
    · split
      · exact ih (serviceIs_issueChunk _ _ _ _ h)
      · exact h

theorem serviceIs_pump {s : State} (h : ServiceIs oos s) : ServiceIs oos (pump s) :=
  serviceIs_pumpLoop _ h

theorem serviceIs_retire (tag : Nat) (synth : Bool) {s : State} (h : ServiceIs oos s) :
    ServiceIs oos (retire tag synth s) :=
  serviceIs_modTxn _ h

theorem serviceIs_synthesise (status tag : Nat) {s : State} (h : ServiceIs oos s) :
    ServiceIs oos (synthesise status tag s) := by
  unfold synthesise
  split
  · exact serviceIs_settle _ _ _ (serviceIs_countSynth _ (serviceIs_retire _ _ h))
  · exact h

theorem serviceIs_synthesiseAll (status : Nat) (p : Txn → Bool) {s : State} (h : ServiceIs oos s) :
    ServiceIs oos (synthesiseAll status p s) :=
  serviceIs_foldl (fun _ _ hs => serviceIs_synthesise _ _ hs) _ h

theorem serviceIs_staleSlot (k : Nat) {s : State} (h : ServiceIs oos s) : ServiceIs oos (staleSlot k s) := by
  unfold staleSlot
  extract_lets s₁
  have hs₁ : ServiceIs oos s₁ := serviceIs_modTxn _ h
  exact serviceIs_synthesiseAll _ _ hs₁

theorem serviceIs_linkDownTxns (p : Fin 8) {s : State} (h : ServiceIs oos s) : ServiceIs oos (linkDownTxns p s) := by
  unfold linkDownTxns
  extract_lets s₁ _ s₂
  have hs₁ : ServiceIs oos s₁ := serviceIs_synthesiseAll _ _ h
  have hs₂ : ServiceIs oos s₂ := serviceIs_modTxn _ hs₁
  exact serviceIs_foldl (fun _ _ hs => serviceIs_forwardCompletion _ _ hs) _ hs₂

theorem serviceIs_acceptResponse (m : InMsg) {s : State} (h : ServiceIs oos s) :
    ServiceIs oos (acceptResponse m s) := by
  unfold acceptResponse
  extract_lets _ _ _
  split
  · exact serviceIs_modTxn _ h
  · extract_lets s₁
    have hs₁ : ServiceIs oos s₁ := serviceIs_ite (serviceIs_modPartCtr _ _ h) h
    exact serviceIs_ite (serviceIs_modTxn _ h)
        (serviceIs_ite (serviceIs_ite (serviceIs_staleSlot _ hs₁) (serviceIs_settle _ _ _ (serviceIs_retire _ _ hs₁)))
        (serviceIs_settle _ _ _ (serviceIs_retire _ _ hs₁)))

theorem serviceIs_releaseHeld {s : State} (h : ServiceIs oos s) : ServiceIs oos (releaseHeld s) := by
  unfold releaseHeld
  extract_lets _ s₁
  have hs₁ : ServiceIs oos s₁ := serviceIs_modTxn _ h
  refine serviceIs_foldl (fun s' a hs => ?_) _ hs₁
  extract_lets _ _
  exact serviceIs_sendResponse _ _ _ hs

theorem serviceIs_dropGrove {s : State} (h : ServiceIs oos s) : ServiceIs oos (dropGrove s) := by
  unfold dropGrove
  extract_lets _
  exact serviceIs_congr h rfl

theorem serviceIs_modCol (f : Col → Col) {s : State} (h : ServiceIs oos s) : ServiceIs oos (modCol f s) :=
  serviceIs_congr h rfl

theorem serviceIs_modSlot (k : Nat) (f : Group → Group) {s : State} (h : ServiceIs oos s) :
    ServiceIs oos (modSlot k f s) :=
  serviceIs_modCol _ h

theorem serviceIs_restage {s : State} (h : ServiceIs oos s) : ServiceIs oos (restage s) := by
  unfold restage
  extract_lets _
  exact serviceIs_modCol _ h

theorem serviceIs_colEndRecord (g : Group) (o : ColOp) (status : Nat) (synth : Bool) (responder : Nat) {s : State}
    (h : ServiceIs oos s) :
    ServiceIs oos (colEndRecord g o status synth responder s) := by
  unfold colEndRecord
  extract_lets s₁
  have hs₁ : ServiceIs oos s₁ := serviceIs_endRecord _ _ _ _ _ h
  exact serviceIs_modRunning _ _ _ _ hs₁

theorem serviceIs_colPoison (g : Group) (o : ColOp) {s : State} (h : ServiceIs oos s) :
    ServiceIs oos (colPoison g o s) := by
  unfold colPoison
  extract_lets _
  exact serviceIs_ite h (serviceIs_poisonRest _ _ _ _ h)

theorem serviceIs_colStopSending (tag : Nat) {s : State} (h : ServiceIs oos s) : ServiceIs oos (colStopSending tag s) :=
  serviceIs_foldl (fun _ _ hs => serviceIs_modLink _ _ hs) _ h

theorem serviceIs_colRelease (k : Nat) (o : ColOp) {s : State} (h : ServiceIs oos s) :
    ServiceIs oos (colRelease k o s) :=
  serviceIs_restage (serviceIs_modSlot _ _ h)

theorem serviceIs_colFailOp (k : Nat) (g : Group) (o : ColOp) (status responder : Nat) {s : State} (h : ServiceIs oos s)
    :
    ServiceIs oos (colFailOp k g o status responder s) := by
  unfold colFailOp
  extract_lets s₁ s₂ s₃
  have hs₁ : ServiceIs oos s₁ := serviceIs_colStopSending _ h
  have hs₂ : ServiceIs oos s₂ := serviceIs_ite (serviceIs_colPoison _ _ hs₁) hs₁
  have hs₃ : ServiceIs oos s₃ := serviceIs_colRelease _ _ hs₂
  exact serviceIs_colEndRecord _ _ _ _ _ hs₃

theorem serviceIs_breakGroup (k status : Nat) {s : State} (h : ServiceIs oos s) :
    ServiceIs oos (breakGroup k status s) := by
  unfold breakGroup
  extract_lets s₁ s₂
  have hs₁ : ServiceIs oos s₁ := serviceIs_modSlot _ _ h
  have hs₂ : ServiceIs oos s₂ := serviceIs_modCol _ hs₁
  split
  · exact h
  · extract_lets _ s₃ _ _ _ _ _ s₄
    have hs₃ : ServiceIs oos s₃ := by
      unfold s₃
      split
      · exact serviceIs_colStopSending _ hs₂
      · exact hs₂
    have hs₄ : ServiceIs oos s₄ := by
      unfold s₄
      refine serviceIs_foldl (fun s' a hs => ?_) _ hs₃
      extract_lets _
      split
      · exact serviceIs_queueMsg _ _ _ _ _ _ hs
      · exact hs
    refine serviceIs_ite h ?_
    split
    · exact serviceIs_colFailOp _ _ _ _ _ hs₄
    · exact hs₄

theorem serviceIs_colLinkLost (p : Fin 8) {s : State} (h : ServiceIs oos s) : ServiceIs oos (colLinkLost p s) := by
  unfold colLinkLost
  extract_lets _ _
  exact serviceIs_foldl (fun _ _ hs => serviceIs_breakGroup _ _ hs) _ h

theorem serviceIs_modTwn (f : Twin → Twin) {s : State} (h : ServiceIs oos s) : ServiceIs oos (modTwn f s) :=
  serviceIs_congr h rfl

theorem serviceIs_modRegions (p : Region → Bool) (f : Region → Region) {s : State} (h : ServiceIs oos s) :
    ServiceIs oos (modRegions p f s) :=
  serviceIs_modTwn _ h

theorem serviceIs_sendProbeKind (code path : Nat) (fields : Bytes) {s : State} (h : ServiceIs oos s) :
    ServiceIs oos (sendProbeKind code path fields s) := by
  unfold sendProbeKind
  split
  · extract_lets _
    split
    · exact serviceIs_queueMsg _ _ _ _ _ _ h
    · exact serviceIs_dropGrove h
  · exact h

theorem serviceIs_mirrorResume {s : State} (h : ServiceIs oos s) : ServiceIs oos (mirrorResume s) :=
  serviceIs_pump (serviceIs_releaseHeld h)

theorem serviceIs_detachAll {s : State} (h : ServiceIs oos s) : ServiceIs oos (detachAll s) :=
  serviceIs_modRegions _ _ h

theorem serviceIs_declareLost {s : State} (h : ServiceIs oos s) : ServiceIs oos (declareLost s) := by
  unfold declareLost
  extract_lets s₁ n s₂
  have hs₁ : ServiceIs oos s₁ := serviceIs_detachAll h
  have hn : ServiceIs oos n.2 := serviceIs_drawBytes _ hs₁
  have hs₂ : ServiceIs oos s₂ := serviceIs_modTwn _ hn
  exact serviceIs_ite h (serviceIs_mirrorResume (serviceIs_sendProbeKind _ _ _ hs₂))

theorem serviceIs_twinLinkDown {s : State} (h : ServiceIs oos s) : ServiceIs oos (twinLinkDown s) :=
  serviceIs_declareLost (serviceIs_modTwn _ h)

theorem serviceIs_sendFrames (p : Fin 8) (ls : List (Fin 9)) (typ : Nat) (payload : Fin 9 → Bytes) {s : State}
    (h : ServiceIs oos s) :
    ServiceIs oos (sendFrames p ls typ payload s) := by
  unfold sendFrames
  extract_lets _
  exact serviceIs_foldl (fun _ _ hs => serviceIs_emit _ hs) _ (serviceIs_modPhys _ _ h)

theorem serviceIs_sendMgmt (p : Fin 8) (typ : Nat) (payload : Bytes) {s : State} (h : ServiceIs oos s) :
    ServiceIs oos (sendMgmt p typ payload s) :=
  serviceIs_sendFrames _ _ _ _ h

theorem serviceIs_linkTrace (p : Fin 8) (st data : Nat) {s : State} (h : ServiceIs oos s) :
    ServiceIs oos (linkTrace p st data s) :=
  serviceIs_traceRec _ _ _ _ h

theorem serviceIs_physDown (p : Fin 8) (reason : Nat) {s : State} (h : ServiceIs oos s) :
    ServiceIs oos (physDown p reason s) := by
  unfold physDown
  extract_lets _ _ s₁ s₂ s₃
  have hs₁ : ServiceIs oos s₁ := serviceIs_modPhys _ _ h
  have hs₂ : ServiceIs oos s₂ := serviceIs_finishRef _ _ _ hs₁
  have hs₃ : ServiceIs oos s₃ := serviceIs_finishRef _ _ _ hs₂
  exact serviceIs_linkTrace _ _ _ hs₃

theorem serviceIs_pushInbox (m : InMsg) {s : State} (h : ServiceIs oos s) : ServiceIs oos (pushInbox m s) :=
  serviceIs_modTxn _ h

theorem serviceIs_deliverFlit (p v : Fin 8) {s : State} (h : ServiceIs oos s) :
    ServiceIs oos (deliverFlit p v s).2 := by
  unfold deliverFlit
  extract_lets _
  split
  · dsimp only
    exact h
  · extract_lets s₁ _ s₂ s₃
    have hs₁ : ServiceIs oos s₁ := serviceIs_modRx _ _ _ h
    have hs₂ : ServiceIs oos s₂ := serviceIs_modRx _ _ _ h
    have hs₃ : ServiceIs oos s₃ := serviceIs_afterTake _ _ hs₂
    split
    · split
      · dsimp only
        exact serviceIs_afterTake _ _ hs₁
      · extract_lets s₄
        have hs₄ : ServiceIs oos s₄ := serviceIs_afterTake _ _ (serviceIs_modLink _ _ hs₁)
        split
        · dsimp only
          exact serviceIs_pushInbox _ hs₄
        · dsimp only
          exact hs₄
    · dsimp only
      exact serviceIs_ite (serviceIs_pushInbox _ hs₃) hs₃

theorem serviceIs_deliverAll (p v : Fin 8) (l : Nat) {s : State} (h : ServiceIs oos s) :
    ServiceIs oos (deliverAll p v l s) := by
  induction l generalizing s with
  | zero => exact h
  | succ n ih =>
    unfold deliverAll
    exact ih (serviceIs_deliverFlit _ _ h)

theorem serviceIs_takeResponses (p : Fin 8) (n : Nat) {s : State} (h : ServiceIs oos s) :
    ServiceIs oos (takeResponses p n s) := by
  induction n generalizing s with
  | zero => exact h
  | succ n ih =>
    unfold takeResponses
    split
    · exact ih (serviceIs_acceptResponse _ (serviceIs_takeMsg ‹_› h))
    · exact h

theorem serviceIs_settlePort (p : Fin 8) {s : State} (h : ServiceIs oos s) : ServiceIs oos (settlePort p s) := by
  unfold settlePort
  extract_lets s₁
  have hs₁ : ServiceIs oos s₁ := serviceIs_foldl (fun _ _ hs => serviceIs_deliverAll _ _ _ hs) _ h
  exact serviceIs_pump (serviceIs_linkDownTxns _ (serviceIs_takeResponses _ _ hs₁))

theorem serviceIs_settleDown (p : Fin 8) {s : State} (h : ServiceIs oos s) : ServiceIs oos (settleDown p s) := by
  unfold settleDown
  extract_lets _ _
  exact serviceIs_ite (serviceIs_congr h rfl) (serviceIs_settlePort _ h)

theorem serviceIs_endLink (p : Fin 8) {s : State} (h : ServiceIs oos s) : ServiceIs oos (endLink p s) := by
  unfold endLink
  extract_lets s₁ wait s₂ s₃ s₄ s₅
  have hs₁ : ServiceIs oos s₁ := serviceIs_colLinkLost _ h
  have hs₂ : ServiceIs oos s₂ := serviceIs_modLink _ _ hs₁
  have hs₃ : ServiceIs oos s₃ := by
    unfold s₃
    clear_value wait
    split
    · exact serviceIs_finishTicket _ _ _ _ hs₂
    · exact hs₂
  have hs₄ : ServiceIs oos s₄ := serviceIs_settleDown _ hs₃
  have hs₅ : ServiceIs oos s₅ := serviceIs_modLink _ _ hs₄
  exact serviceIs_ite (serviceIs_twinLinkDown hs₅) hs₅

theorem serviceIs_linkGoesDown (p : Fin 8) (reason : Nat) (sent : Bool) {s : State} (h : ServiceIs oos s) :
    ServiceIs oos (linkGoesDown p reason sent s) := by
  unfold linkGoesDown
  extract_lets _ s₁ s₂ s₃
  have hs₁ : ServiceIs oos s₁ := serviceIs_ite (serviceIs_sendMgmt _ _ _ h) h
  have hs₂ : ServiceIs oos s₂ := serviceIs_physDown _ _ hs₁
  have hs₃ : ServiceIs oos s₃ := serviceIs_modLink _ _ hs₂
  exact serviceIs_ite hs₃ (serviceIs_logErr _ _ _ (serviceIs_endLink _ hs₃))

theorem serviceIs_logReset (island scope cause bough count : Nat) {s : State} (h : ServiceIs oos s) :
    ServiceIs oos (logReset island scope cause bough count s) :=
  serviceIs_logErr _ _ _ h

theorem serviceIs_journalReset (scope cause bough : Nat) (n : Option Nat) {s : State} (h : ServiceIs oos s) :
    ServiceIs oos (journalReset scope cause bough n s) := by
  unfold journalReset
  extract_lets d _ _
  have hd : ServiceIs oos d.2 := serviceIs_drawBytes _ h
  exact serviceIs_journal _ _ _ (serviceIs_ite h hd)

theorem serviceIs_rawCopy (src dst n : Nat) {s : State} (h : ServiceIs oos s) : ServiceIs oos (rawCopy src dst n s) :=
  serviceIs_congr h rfl

theorem serviceIs_dumpJournal (dst : Nat) {s : State} (h : ServiceIs oos s) : ServiceIs oos (dumpJournal dst s) := by
  unfold dumpJournal
  extract_lets _ _ _
  exact serviceIs_ite (serviceIs_rawCopy _ _ _ h) (serviceIs_rawCopy _ _ _ (serviceIs_rawCopy _ _ _ h))

theorem serviceIs_crashDump {s : State} (h : ServiceIs oos s) : ServiceIs oos (crashDump s) := by
  unfold crashDump
  extract_lets s₁ h₁ s₂ s₃ r s₄ s₅ s₆ s₇
  have hs₁ : ServiceIs oos s₁ := serviceIs_modCmb h fun _ => rfl
  have hh₁ : ServiceIs oos h₁.2 := serviceIs_drawBytes _ hs₁
  have hs₂ : ServiceIs oos s₂ := serviceIs_rawWrite _ _ hh₁
  have hs₃ : ServiceIs oos s₃ := serviceIs_rawWrite _ _ (serviceIs_congr hs₂ rfl)
  have hr : ServiceIs oos r.2 := serviceIs_drawBytes _ hs₃
  have hs₄ : ServiceIs oos s₄ := serviceIs_rawWrite _ _ hr
  have hs₅ : ServiceIs oos s₅ := serviceIs_rawWrite _ _ hs₄
  have hs₆ : ServiceIs oos s₆ := serviceIs_foldl (fun _ _ hs => serviceIs_rawWrite _ _ hs) _ hs₅
  have hs₇ : ServiceIs oos s₇ := serviceIs_foldl (fun _ _ hs => serviceIs_rawWrite _ _ hs) _ hs₆
  exact serviceIs_ite h (serviceIs_dumpJournal _ hs₇)

end Sys2Proof.Machine
end

section
/-! SUPPORT. RETURN_TO_SERVICE and the device warm reset after it. -/

namespace Sys2Proof.Machine

/-- The reset histories and the retirements forgotten. -/
def clearHistories (s : State) : State :=
  modCmb (fun c => { c with deviceHist := [], boughHist := Vector.replicate 64 [], retired := 0 }) s

/-- A retired bough freed, and taken out of the partitions' masks. -/
def freeRetired (s : State) (b : Fin 64) : State :=
  if (bough s b).st = .retired then
    modBough b (fun _ => { st := .free, owner := 0 })
      (modMm (fun x => { x with parts := x.parts.map fun e =>
        (e.1, { e.2 with boughMask := e.2.boughMask ^^^ (e.2.boughMask &&& 2 ^ b.val) }) }) s)
  else s

/-- `s'` differs from `s` in the boughs and the partitions at most. -/
def BoughsOnly (s s' : State) : Prop :=
  s' = { s with crn := { s.crn with boughs := s'.crn.boughs }, mm := { s.mm with parts := s'.mm.parts } }

theorem boughsOnly_freeRetired (s : State) (b : Fin 64) : BoughsOnly s (freeRetired s b) := by
  unfold freeRetired
  split <;> rfl

theorem boughsOnly_foldl_freeRetired (l : List (Fin 64)) (s : State) : BoughsOnly s (l.foldl freeRetired s) := by
  induction l generalizing s with
  | nil => rfl
  | cons b l ih =>
    have h₁ := boughsOnly_freeRetired s b
    have h₂ := ih (freeRetired s b)
    unfold BoughsOnly at h₁ h₂ ⊢
    rw [List.foldl_cons, h₂, h₁]

theorem bough_freeRetired_self (s : State) (b : Fin 64) :
    bough (freeRetired s b) b = if (bough s b).st = .retired then { st := .free, owner := 0 } else bough s b := by
  unfold freeRetired
  split
  · exact vget_vmod_self _ _ _
  · rfl

theorem bough_freeRetired_of_ne {b c : Fin 64} (s : State) (h : c ≠ b) : bough (freeRetired s b) c = bough s c := by
  unfold freeRetired
  split
  · exact vget_vmod_of_ne _ _ h
  · rfl

/-- The boughs after all the retired ones of a list have been freed. -/
theorem bough_foldl_freeRetired (l : List (Fin 64)) (s : State) (c : Fin 64) :
    bough (l.foldl freeRetired s) c
      = if c ∈ l ∧ (bough s c).st = .retired then { st := .free, owner := 0 } else bough s c := by
  induction l generalizing s with
  | nil => simp
  | cons b l ih =>
    rw [List.foldl_cons, ih]
    by_cases hc : c = b
    · subst hc
      rw [bough_freeRetired_self]
      by_cases hr : (bough s c).st = .retired <;> simp [hr]
    · rw [bough_freeRetired_of_ne s hc]
      simp [hc]

theorem returnToService_runs {t : Nat} {ch : Fin 130} {r : Request} {s₀ s s₁ s₂ : State} (h : Ready 0x0907 t ch r s₀ s)
    (hargs : noArgs r.args = some ())
    (hs₁ : s₁ = (fins 64).foldl freeRetired (clearHistories s))
    (hs₂ : s₂ = respond ch r stOk 0 [] (logErr 0x0007 30 [] s₁)) :
    returnToService t ch s₀
      = if s₂.cmb.outOfService then startDevice 0 (modCmb (fun c => { c with outOfService := false }) s₂) else s₂ := by
  unfold returnToService
  rw [onCmd_runs h hargs rfl]
  extract_lets a b c
  have hb : b = s₁ := by
    rw [hs₁]
    rfl
  have hc : c = s₂ := by
    rw [hs₂, ← hb]
    rfl
  clear_value c
  rw [hc]

/-- An entry of the error log changes no history and nothing that is pending. -/
theorem logErr_keeps (code island : Nat) (data : Bytes) (s : State) :
    (logErr code island data s).cmb.outOfService = s.cmb.outOfService
      ∧ (logErr code island data s).cmb.devicePending = s.cmb.devicePending
      ∧ (logErr code island data s).cmb.deviceHist = s.cmb.deviceHist
      ∧ (logErr code island data s).cmb.retired = s.cmb.retired := by
  obtain ⟨bytes, lost, hcmb⟩ := logErr_cmb code island data s
  rw [hcmb]
  exact ⟨rfl, rfl, rfl, rfl⟩

/-- A reset that a command causes keeps the device in or out of service, and its histories. -/
theorem startDevice_command_keeps {s : State} (h : s.cmb.devicePending = none) :
    (startDevice 0 s).cmb.outOfService = s.cmb.outOfService ∧ (startDevice 0 s).cmb.deviceHist = s.cmb.deviceHist
      ∧ (startDevice 0 s).cmb.retired = s.cmb.retired ∧ ∀ ch, chan (startDevice 0 s) ch = chan s ch := by
  simp [startDevice, h, countDevice, noteReset, chan]

/-- A device warm reset that the history did not cause leaves the device in service. -/
theorem deviceWarmReset_serves {t cause : Nat} {s : State} (hp : s.cmb.devicePending = some cause) (hcause : cause ≠ 7)
    (h : ServiceIs false s) :
    (deviceWarmReset t s).cmb.outOfService = false ∧ (deviceWarmReset t s).cmb.devicePending = none := by
  unfold deviceWarmReset
  extract_lets s₁
  have hp₁ : s₁.cmb.devicePending = some cause := hp
  have h₁ : ServiceIs false s₁ := h
  split
  · next hnone => exact nomatch hnone.symm.trans hp₁
  next c hc =>
  obtain rfl : cause = c := Option.some.inj (hp₁.symm.trans hc)
  extract_lets s₂ s₃ s₄ s₅ s₆ _ s₇
  have h₂ : ServiceIs false s₂ := serviceIs_logReset _ _ _ _ _ h₁
  have h₃ : ServiceIs false s₃ := serviceIs_crashDump (serviceIs_journalReset _ _ _ _ h₂)
  have h₄ : ServiceIs false s₄ := serviceIs_foldl (fun _ _ hs => serviceIs_ite (serviceIs_linkGoesDown _ _ _ hs) hs) _ h₃
  have h₅ : ServiceIs false s₅ := serviceIs_foldl (fun _ _ hs => serviceIs_traceRec _ _ _ _ hs) _ h₄
  clear_value s₅
  refine ⟨?_, rfl⟩
  show (s₅.cmb.outOfService || cause == 7) = false
  rw [h₅]
  simpa using hcause

/-- Settles O56: the retired boughs are freed one by one, and out of service the reset begins in the same step. -/
theorem returnToServiceClearsHistories : Obligations.ReturnToServiceClearsHistories := by
  unfold Obligations.ReturnToServiceClearsHistories
  intro t ch r s₀ s h hargs
  obtain ⟨s₁, hs₁⟩ : ∃ s₁, s₁ = (fins 64).foldl freeRetired (clearHistories s) := ⟨_, rfl⟩
  have hrun := returnToService_runs h hargs hs₁ rfl
  have honly := boughsOnly_foldl_freeRetired (fins 64) (clearHistories s)
  rw [← hs₁] at honly
  have hcmb : s₁.cmb = { s.cmb with deviceHist := [], boughHist := Vector.replicate 64 [], retired := 0 } := by
    rw [honly]
    rfl
  obtain ⟨hout, hpending, hhist, hretired⟩ := logErr_keeps 0x0007 30 [] s₁
  refine ⟨fun hin => ⟨s₁, ?_, hcmb, fun b => ?_, ?_⟩, fun hgone hnone => ?_, fun u₀ u hu hpending hserves => ?_⟩
  · refine congrArg Host.Outcome.next (hrun.trans (if_neg ?_))
    rw [respond_cmb, hout, hcmb]
    simp [hin]
  · have hb := bough_foldl_freeRetired (fins 64) (clearHistories s) b
    rw [← hs₁, show bough (clearHistories s) b = bough s b from rfl] at hb
    refine ⟨fun hr => ?_, fun hr => ?_⟩
    · rw [hb, if_pos ⟨List.mem_finRange b, hr⟩]
    · rw [hb, if_neg fun h => hr h.2]
  · rw [hcmb]
    conv_lhs => rw [honly]
    rfl
  · have hreset : (respond ch r stOk 0 [] (logErr 0x0007 30 [] s₁)).cmb.outOfService = true := by
      rw [respond_cmb, hout, hcmb]
      exact hgone
    have hpending₂ : (modCmb (fun c => { c with outOfService := false })
        (respond ch r stOk 0 [] (logErr 0x0007 30 [] s₁))).cmb.devicePending = none := by
      rw [modCmb_cmb, respond_cmb, hpending, hcmb]
      exact hnone
    obtain ⟨hserves, hhist₂, hretired₂, hchan⟩ := startDevice_command_keeps hpending₂
    refine ⟨_, congrArg Host.Outcome.next (hrun.trans (if_pos hreset)), ?_, startDevice_command hpending₂, hserves, ?_, ?_⟩
    · rw [hchan, show ∀ f x, chan (modCmb f x) ch = chan x ch from fun _ _ => rfl, chan_respond_self]
    · rw [hhist₂, modCmb_cmb, respond_cmb, hhist, hcmb]
    · rw [hretired₂, modCmb_cmb, respond_cmb, hretired, hcmb]
  · subst hu
    exact ⟨_, rfl, deviceWarmReset_serves (s := u₀) hpending (by decide) hserves⟩

end Sys2Proof.Machine
end

section
/-! SUPPORT. What each command of Tables 2-10 and 2-11 answers once Root runs it. -/

namespace Sys2Proof.Machine

/-- A mailbox command that Root may run, with arguments in order, steps to what its own work leaves. -/
theorem exec_runs {α : Type} {i : Instr} {code t : Nat} {ch : Fin 130} {r : Request} {s₀ s : State} {parse : Bytes → Option α}
    {ok : State → α → Bool} {run : Request → α → State → State} {a : α}
    (he : exec i s₀ = .next (onCmd code t ch parse ok run s₀)) (h : Ready code t ch r s₀ s) (hp : parse r.args = some a)
    (ho : ok s a = true) : exec i s₀ = .next (run r a s) :=
  he.trans (congrArg _ (onCmd_runs h hp ho))

/-- Settles O6: each general command answers from the state it finds. -/
theorem generalCommandsAnswer : Obligations.GeneralCommandsAnswer := by
  unfold Obligations.GeneralCommandsAnswer
  intro t ch r s₀ s
  refine ⟨fun h hp => ?getInfo, fun h hp => ?getCommands, fun num k h hp hk => ?status, fun num st k h hp hk hst => ?result,
    fun h hp => ?time, fun h => ?echo⟩
  case getInfo => exact (exec_runs (i := .getInfo t ch) rfl h hp rfl :)
  case getCommands => exact (exec_runs (i := .getCommands t ch) rfl h hp rfl :)
  case status =>
    rw [exec_runs rfl h hp (by simp [ticketArg, hk])]
    simp [hk, answer]
  case result =>
    rw [exec_runs rfl h hp (by simp [ticketArg, hk])]
    simp [hk, hst, answer]
  case time => exact (exec_runs (i := .timeGet t ch) rfl h hp rfl :)
  case echo => exact (exec_runs (i := .echo t ch) rfl h rfl rfl :)

/-- Settles O7, by the commands of Table 2-11 on partitions, each run from the guard that its clause meets. -/
theorem partitionCommandsComplete : Obligations.PartitionCommandsComplete := by
  unfold Obligations.PartitionCommandsComplete
  intro t ch r s₀ s
  refine ⟨fun n k quota mask cmd floor h hp hok hnew hroom => ?plain,
    fun n k quota mask cmd seal_ floor e xts s' h hp hok hnew he huse hroom hkey => ?sealed,
    fun n h hp hok => ?destroy, fun n p h hp hpart => ?query, fun n k o s' h hp hown hk halloc => ?alloc,
    fun n o k p h hp hown hpart hrun hmir => ?free, fun h hp => ?status⟩
  case plain =>
    rw [exec_runs rfl h hp hok]
    simp [hnew, Nat.not_lt.2 hroom]
  case sealed =>
    rw [exec_runs rfl h hp hok]
    simp [hnew, he, huse, Nat.not_lt.2 hroom, hkey]
  case destroy => exact (exec_runs (i := .partDestroy t ch) rfl h hp hok :)
  case query =>
    rw [exec_runs rfl h hp (congrArg Option.isSome hpart)]
    simp [hpart, answer]
  case alloc =>
    rw [exec_runs rfl h hp (by simp [hown, hk])]
    simp [halloc, answer, granuleBytes]
  case free =>
    have hdiv : o * 0x200000 / granuleBytes = o := Nat.mul_div_cancel _ (by decide)
    have hmod : o * 0x200000 % granuleBytes = 0 := Nat.mul_mod_left _ _
    rw [exec_runs rfl h hp (by simp [hown, hpart, hdiv, hmod, hrun])]
    simp [hdiv, hmir, answer]
  case status => exact (exec_runs (i := .memStatus t ch) rfl h hp rfl :)

end Sys2Proof.Machine
end

section
/-! SUPPORT. What each command of windows, queues and keys answers once Root runs it. -/

namespace Sys2Proof.Machine

/-- Settles O8, command by command: the windows, then the offers and plans. -/
theorem windowCommandsComplete : Obligations.WindowCommandsComplete := by
  unfold Obligations.WindowCommandsComplete
  intro t ch r s₀ s
  refine ⟨fun n o len rights chip imp id s' h hp hok hadd => ?exports,
    fun n chip remote id h hp hown hchip hremote hopen hother hpath => ?imports,
    fun n id e h hp he hpart hlend => ?revoke,
    fun chip imp k n id p s' h hp hchip himp hk hlend hpart hpages hfree hexp hadd => ?lend,
    fun n k table lender id b s' ts h hp hown hk1 hk2 hend halloc hread hts => ?plan,
    fun n k i h hp hi hpart hplan => ?unimport⟩
  case exports =>
    rw [exec_runs rfl h hp hok]
    simp [hadd, answer]
  case imports =>
    rw [exec_runs rfl h hp (by simp [hown, hchip, hremote])]
    simp [hopen, hpath, hother]
  case revoke =>
    rw [exec_runs rfl h hp (by simp [he, hpart])]
    simp [he, answer, hpart, hlend]
  case lend =>
    rw [exec_runs rfl h hp (by simp [hchip, himp, hk])]
    simp [hlend, hpart, hpages, Nat.not_lt.2 hfree, Nat.not_le.2 hexp, hadd, answer]
  case plan =>
    have hin : decide (table + 48 * k ≤ 2 ^ 47) = true := decide_eq_true hend
    rw [exec_runs rfl h hp (by simp [-Nat.reducePow, hown, hk1, hk2, hin, halloc])]
    simp [hread, hts]
  case unimport =>
    rw [exec_runs rfl h hp (by simp [hi, hpart])]
    simp [hi, hplan, answer]

/-- Settles O9, by the three queue commands. -/
theorem queueCommandsComplete : Obligations.QueueCommandsComplete := by
  unfold Obligations.QueueCommandsComplete
  intro t ch r s₀ s n cls idx
  refine ⟨fun k base vec s' h hp hok hnew hz => ?host, fun k base vec s' h hp hok hnew hz hend halloc => ?local_,
    fun h hp hok => ?destroy, fun x h hp hok hx => ?query⟩
  case host =>
    rw [exec_runs rfl h hp hok, ← hz]
    simp [queueNo, hnew, Queue.fresh, answer]
  case local_ =>
    rw [exec_runs rfl h hp hok, ← hz]
    simp [-Nat.reducePow, queueNo, hnew, Queue.fresh, answer, hend, halloc]
  case destroy => exact (exec_runs (i := .queueDestroy t ch) rfl h hp hok :)
  case query =>
    rw [exec_runs rfl h hp hok]
    simp [queueNo, hx, answer]

/-- Settles O10, by the key commands, and the state of the slot that each finds. -/
theorem keyCommandsComplete : Obligations.KeyCommandsComplete := by
  unfold Obligations.KeyCommandsComplete
  intro t ch r s₀ s st
  refine ⟨fun i h hp hst hlive hnew hfree hfits => ?load, fun h hp hok hst hsw hfits => ?replace,
    fun k e h hp hmay he => ⟨fun hsw => ?busy, fun s₁ hsw hs₁ => ?destroy⟩,
    fun k e h hp hmay he => ⟨fun hunc => ?uses, fun c hc hcnt => ?count⟩,
    fun c h hp hc hst hdead hgen hslots => ?keySet⟩
  case load =>
    rw [exec_runs rfl h hp rfl]
    simp [hst, hlive, hnew, hfree, hfits, answer]
  case replace =>
    rw [exec_runs rfl h hp hok]
    simp [hst, hsw, hfits]
  case busy =>
    rw [exec_runs rfl h hp hmay]
    simp [he, hsw, answer]
  case destroy =>
    rw [exec_runs rfl h hp hmay, hs₁]
    simp [he, hsw, answer]
  case uses =>
    rw [exec_runs rfl h hp hmay]
    obtain hu | hu := hunc
    · simp [he, hu, answer]
    · simp [he, hu, answer]
  case count =>
    rw [exec_runs rfl h hp hmay]
    simp [he, hc, hcnt, answer]
  case keySet =>
    refine ⟨_, exec_runs rfl h hp (by simp [hc]; omega), ?_⟩
    simp only [hst, hc]
    rw [if_neg (by simp [hdead, hgen]), if_neg (by omega)]
    exact ⟨_, rfl, by simp⟩

end Sys2Proof.Machine
end

section
/-! SUPPORT. What each command of Tables 2-14 to 2-18 answers once Root runs it. -/

namespace Sys2Proof.Machine

@[simp] theorem finOf_val {n : Nat} [NeZero n] (i : Fin n) : finOf n i.val = i := Fin.ofNat_val_eq_self i

@[simp] theorem portArg_cons (p : Fin 8) (a : List Nat) : portArg (p.val :: a) = p := finOf_val p

@[simp] theorem port_respond (ch : Fin 130) (r : Request) (st tk : Nat) (b : Bytes) (s : State) (p : Fin 8) :
    port (respond ch r st tk b s) p = port s p := by
  simp [port, respond]

@[simp] theorem port_modLink_self (p : Fin 8) (f : Link → Link) (s : State) :
    port (modLink p f s) p = { port s p with link := f (port s p).link } :=
  port_modPort_self p _ s

@[simp] theorem mem_fins {n : Nat} (i : Fin n) : i ∈ fins n := by
  simp [fins]

/-- LINK_DOWN on a port from LINKED on tells the partner. -/
theorem commandDown_linked {p : Fin 8} {s : State} (h : 8 ≤ (port s p).phys.st ∧ (port s p).phys.st ≤ 10) :
    commandDown p s = linkGoesDown p 0 true s := by
  unfold commandDown
  rw [if_neg (by omega), decide_eq_true (by omega)]

/-- Settles O11: each clause is one branch of its command. -/
theorem linkCommandsComplete : Obligations.LinkCommandsComplete := by
  unfold Obligations.LinkCommandsComplete
  intro t ch r s₀ s p
  refine ⟨fun g sf grade s₁ h hp hg hsf hs₁ => ?train, fun l h hp => ?retrain, fun h hp => ?down, fun h hp => ?status,
    fun mode peer key s₁ h hp hok hs₁ => ?security, fun h hp => ?rekey, fun g es h hp => ?route, fun b mask h hp => ?bundle⟩
  case train =>
    have e := exec_runs (i := .linkTrain t ch) rfl h hp (by simpa [hg] using hsf)
    have hs₁' : s₁ = if 8 ≤ (port s p).phys.st ∧ (port s p).phys.st ≤ 10 then commandDown p s else s := by
      rw [hs₁]
      split
      · rename_i hst
        exact (commandDown_linked hst).symm
      · rfl
    refine ⟨fun hid hgr => ?_, fun hid hgr => ?_, fun hid => ?_⟩
    · rw [e]
      simp [hid, ← hs₁', hgr, nextTicketOf]
    · rw [e]
      simp [hid, ← hs₁', hgr, answer]
    · rw [e]
      simp [hid, answer]
  case retrain =>
    have e := exec_runs (i := .linkRetrain t ch) rfl h hp (by simp)
    refine ⟨fun hst hrole hleave hnone hpart s₁ hs₁ => ⟨fun hd => ?_, fun hd hsp => ?_⟩, fun hst hb => ?_,
      fun hst hrole hleave hnone hno => ?_, fun hst => ?_⟩
    · rw [e, hs₁]
      simp [hst, hrole, hleave, hnone, hpart, hd, nextTicketOf]
    · have hsp' : rxSpare s p ≠ none := Option.isSome_iff_ne_none.1 hsp
      rw [e, hs₁]
      simp [hst, hleave, hnone, hpart, hd, hsp', nextTicketOf]
    · rw [e]
      simp [hst, hb, answer]
    · rw [e]
      simp [hst, hrole, hleave, hnone, hno, answer]
    · rw [e]
      simp [hst, answer]
  case down =>
    rw [exec_runs (i := .linkDown t ch) rfl h hp (by simp)]
    simp [answer, commandDown]
  case status =>
    rw [exec_runs (i := .linkStatus t ch) rfl h hp (by simp)]
    simp [answer]
  case security =>
    have e := exec_runs (i := .linkSecuritySet t ch) rfl h hp hok
    refine ⟨fun hst => ?_, fun h0 h1 h11 => ?_⟩
    · have hport : port s₁ p = { port s p with link := { (port s p).link with mode := mode, peerExpect := peer, identity := key } } := by
        simp [hs₁]
      refine ⟨by rw [hport], by rw [hport], by rw [hport], ?_⟩
      rw [e]
      simp [answer, ← hs₁, hport]
      intro h0 h1 h11
      omega
    · rw [e]
      simp [h0, h1, h11, answer]
  case rekey =>
    have e := exec_runs (i := .linkRekey t ch) rfl h hp (by simp)
    refine ⟨fun hm hk hd hs => ?_, fun hno => ?_⟩
    · rw [e]
      have hk' : ((port s p).link.txKey.isNone) = false := by simpa using hk
      cases hshake : (port s p).link.shake with
      | none => simp [hm, hk', hd, hs, hshake, nextTicketOf]
      | some x => simp [hm, hk', hd, hs, hshake, nextTicketOf]
    · rw [e]
      simp [hno, answer]
  case route =>
    refine ⟨fun hg hes => ?_, fun hbad => ?_⟩
    · rw [exec_runs (i := .routeSet t ch) rfl h hp (by simp [hg, hes])]
      rfl
    · refine congrArg Host.Outcome.next (onCmd_badArg h fun a ha => ?_)
      obtain rfl : (g, es) = a := Option.some.inj (hp.symm.trans ha)
      obtain hg | hes := hbad
      · simp [Nat.not_lt.2 hg]
      · simp [hes]
  case bundle =>
    refine ⟨fun hok => ?_, fun hbad => ?_⟩
    · rw [exec_runs (i := .bundleSet t ch) rfl h hp hok]
      simp [answer]
    · refine congrArg Host.Outcome.next (onCmd_badArg h fun a ha => ?_)
      rw [hp] at ha
      cases ha
      exact hbad

/-- Settles O12, by the three group commands. -/
theorem groupCommandsComplete : Obligations.GroupCommandsComplete := by
  unfold Obligations.GroupCommandsComplete
  intro t ch r s₀ s
  refine ⟨fun n alg m table b s' h hp hown halg h2 hm halloc hread => ?create, fun k g h hp hok hg hop => ?destroy,
    fun k g h hp hok hg => ?query, fun n alg m k b g hok hchip hself hfree hnew hg => ?make⟩
  case create =>
    rw [exec_runs (i := .groupCreate t ch) rfl h hp (by simp [hown, halg, h2, hm, halloc])]
    simp [hread]
  case destroy =>
    rw [exec_runs (i := .groupDestroy t ch) rfl h hp hok]
    simp [hg, hop, answer]
  case query =>
    rw [exec_runs (i := .groupQuery t ch) rfl h hp hok]
    simp [hg, answer]
  case make =>
    unfold makeGroup
    have hin : decide (m ≤ ((List.range m).map (memberAt b)).findIdx fun e => s.txn.chip == some e.1 && e.2 == n) = false :=
      decide_eq_false (Nat.not_le.2 hself)
    rw [if_neg (by simp [-List.findIdx_map, hok, hin]), if_neg (by simpa using Option.isSome_iff_ne_none.1 hchip)]
    simp [hfree, hnew, hg, answer]

/-- Settles O13, by the objects of the token engine. -/
theorem tokenCommandsComplete : Obligations.TokenCommandsComplete := by
  unfold Obligations.TokenCommandsComplete
  intro t ch r s₀ s
  refine ⟨fun n o len b s' i h hp hown hlen halloc hread hi hvoc hper hall => ?vocab,
    fun v kind o len x y i b s₁ s' h hp hv hkind hlen halloc hhdr hread hgr hi hall => ?grammar,
    fun g x h hp hx hmay hfree => ?unload, fun v g mode k o seed x b s' h hp hv hg hk hread hnone => ?opens,
    fun id x h hp hx hmay hfree => ?close⟩
  case vocab =>
    rw [exec_runs (i := .vocabLoad t ch) rfl h hp (by simp [hown, hlen, halloc])]
    simp [hread, loadVocab, hvoc, Nat.not_le.2 hper, Nat.not_le.2 hall, hi]
  case grammar =>
    rw [exec_runs (i := .grammarLoad t ch) rfl h hp (by simp [hv, hkind, hlen, halloc])]
    simp [hv, hhdr, hread, firstFail, loadGrammar, hgr, Nat.not_le.2 hall, hi]
  case unload =>
    rw [exec_runs (i := .grammarUnload t ch) rfl h hp (by simp [hx, hmay])]
    simp [hfree, answer]
  case opens =>
    have hgrammar : (g = 0 ∨ (grammarOf s g).any (fun y => y.vocab == v) = true) ∧ (g = 0 ∨ mode ≤ 1) := by
      by_cases hg0 : g = 0
      · simp [hg0]
      · obtain ⟨hmode, y, hy, hyv⟩ := hg hg0
        simp [hy, hyv, hmode]
    by_cases hk0 : k = 0
    · obtain ⟨rfl, rfl⟩ := hnone hk0
      rw [exec_runs (i := .streamOpen t ch) rfl h hp (by simp [hv, hgrammar, hk0])]
      simp [hv, hk0]
    · obtain ⟨halloc, hread⟩ := hread hk0
      rw [exec_runs (i := .streamOpen t ch) rfl h hp (by simp [hv, hgrammar, hk, halloc])]
      simp [hv, hk0, hread]
  case close =>
    rw [exec_runs (i := .streamClose t ch) rfl h hp (by simp [hx, hmay])]
    simp [hfree, answer]


@[simp] theorem part_modTwn (f : Twin → Twin) (s : State) (n : Nat) : part (modTwn f s) n = part s n := rfl

/-- Settles O14, by the commands of the grove, then those of the pair. -/
theorem groveAndTwinCommandsComplete : Obligations.GroveAndTwinCommandsComplete := by
  unfold Obligations.GroveAndTwinCommandsComplete
  intro t ch r s₀ s
  refine ⟨fun c trunk s₁ h hp hc htr hchip hs₁ => ?join, fun s₁ s₂ s₃ h hp hs₁ hs₂ hs₃ => ?leave,
    fun c st g h hp hc hst hchip => ?notice, fun c key h hp => ?pair, fun n mode lag o len h hp hok hopen => ?mirror,
    fun h hp => ?failover⟩
  case join =>
    have e := exec_runs (i := .groveJoin t ch) rfl h hp (by simpa [hc, htr] using hchip)
    refine ⟨fun ht => ?_, fun ht => ?_⟩
    · rw [e]
      simp [← hs₁, ht, nextTicketOf]
    · rw [e]
      simp [← hs₁, ht]
  case leave =>
    rw [exec_runs (i := .groveLeave t ch) rfl h hp rfl, hs₃, hs₂, hs₁]
  case notice =>
    exact (exec_runs (i := .peerNotify t ch) rfl h hp (by simp [hc, hst, hchip]) :)
  case pair =>
    refine ⟨fun hc hok hst => ?_, fun hc => ?_⟩
    · rw [exec_runs (i := .twinPair t ch) rfl h hp (by simp [hok])]
      have hst' : (s.twn.st == .none || s.twn.st == .promoted) = true := by simpa using hst
      simp [-Bool.not_or, hc, hst', nextTicketOf]
    · rw [exec_runs (i := .twinPair t ch) rfl h hp (by simp [hc])]
      simp [hc]
  case mirror =>
    have hopen₀ : ¬ openingOf s₀ ch = true := by
      rw [h.1] at hopen
      exact fun ho => absurd (ho.symm.trans hopen) (by decide)
    have e := exec_runs (i := .mirrorSet t ch) (congrArg Host.Outcome.next (if_neg hopen₀)) h hp hok
    refine ⟨fun x hlen hsum hfew hx => ?_, fun hlen => ?_⟩
    · rw [e]
      simp [hlen, Nat.not_lt.2 hsum, Nat.not_le.2 hfew, hx]
    · rw [e]
      simp [hlen]
  case failover =>
    refine ⟨fun hst => ?_, fun s₁ hst hs₁ => ?_⟩
    · rw [exec_runs (i := .twinFailover t ch) rfl h hp (by simp [hst])]
      simp [hst, nextTicketOf]
    · have hnot : s.twn.st ≠ .paired := by
        rintro hp
        simp [hp] at hst
      rw [exec_runs (i := .twinFailover t ch) rfl h hp (by simpa [hnot] using hst.symm)]
      simp [hnot, hs₁]

/-- Settles O15, by the observation commands. -/
theorem observationCommandsComplete : Obligations.ObservationCommandsComplete := by
  unfold Obligations.ObservationCommandsComplete
  intro t ch r s₀ s
  refine ⟨fun b mode mask sel h hp hb hmode hsel => ?counters, fun i on k rest h hp hi hk8 hk16 hrest => ?trace,
    fun id scope map h hp hok hst => ?arm, fun id h hp hst hid => ?releases, fun id h hp hst hid => ?disarm,
    fun u first count h hp hu h1 hcount hend => ?ring, fun mib h hp hlo hhi => ?journals⟩
  case counters => exact (exec_runs (i := .counterConfig t ch) rfl h hp (by simpa [hb, hmode] using hsel) :)
  case trace =>
    rw [exec_runs (i := .traceConfig t ch) rfl h hp (by simp [hi, hk8, hk16])]
    simp [answer, hrest, bit]
  case arm =>
    rw [exec_runs (i := .cutArm t ch) rfl h hp hok]
    simp [hst, answer]
  case releases =>
    have harmed : s.obs.cut.st ≠ .idle ∧ s.obs.cut.st ≠ .armed := by
      obtain hst | hst := hst <;> simp [hst]
    rw [exec_runs (i := .cutRelease t ch) rfl h hp (by simp [harmed, hid])]
    simp [harmed, answer]
  case disarm =>
    rw [exec_runs (i := .cutRelease t ch) rfl h hp (by simp [hst, hid])]
    simp [hst, answer]
  case ring => exact (exec_runs (i := .ringRead t ch) rfl h hp (by simp [hu, h1, hcount, hend]) :)
  case journals => exact (exec_runs (i := .journalConfig t ch) rfl h hp (by simp [hlo, hhi]) :)

end Sys2Proof.Machine
end

section
/-! SUPPORT. What each command of Tables 2-19 to 2-21 answers once Root runs it. -/

namespace Sys2Proof.Machine

@[simp] theorem respond_resetAt (ch : Fin 130) (r : Request) (status ticket : Nat) (result : Bytes) (s : State) :
    (respond ch r status ticket result s).root.resetAt = s.root.resetAt := by
  unfold respond finishChannel channelIrq
  dsimp only
  split
  · split <;> simp [setChan]
  · simp [setChan]

@[simp] theorem acceptLong_boot (ch : Fin 130) (r : Request) (work : Work) (s : State) :
    (acceptLong ch r work s).boot = s.boot := by
  simp [acceptLong]

@[simp] theorem acceptLong_flash (ch : Fin 130) (r : Request) (work : Work) (s : State) :
    (acceptLong ch r work s).flash = s.flash := by
  simp [acceptLong]

/-- Settles O16, by the reset and diagnosis commands. -/
theorem faultCommandsComplete : Obligations.FaultCommandsComplete := by
  unfold Obligations.FaultCommandsComplete
  intro t ch r s₀ s
  refine ⟨fun b h hp hst hb hc hd => ?bough, fun h hp hc hd => ?crown, fun ms h hp hms => ?device,
    fun crown bough_ window h hp hcr hbo hlo hhi => ?escalation, fun first count h hp h1 hcount => ?errlog,
    fun b off len base size h hp hobj hlen hend hsize => ?sample, fun b n q h hp hfree hpart hqueue hquar => ?replay,
    fun h hp hin hnone => ?service⟩
  case bough =>
    rw [exec_runs (i := .resetBough t ch) rfl h hp (by simp [hst])]
    simp [hst, hb, hc, hd]
  case crown =>
    rw [exec_runs (i := .resetCrown t ch) rfl h hp rfl]
    simp [hc, hd]
  case device =>
    refine ⟨_, exec_runs (i := .resetDevice t ch) rfl h hp (by simp [hms]), ?_, ?_⟩
    · simp [answer]
    · exact (congrArg Chan.st (chan_respond_self ch r stOk 0 [] s)).trans rfl
  case escalation =>
    exact (exec_runs (i := .escalationSet t ch) rfl h hp (by simp [hcr, hbo, hlo, hhi]) :)
  case errlog => exact (exec_runs (i := .errlogRead t ch) rfl h hp (by simp [h1, hcount]) :)
  case sample =>
    have hfit : off + len ≤ 2 ^ 32 := hend.trans hsize
    rw [exec_runs (i := .coreSampleRead t ch) rfl h hp (by simp [-Nat.reducePow, hobj, hlen, hfit])]
    simp [hobj, answer, show min len (size - off) = len by omega]
  case replay =>
    have hmod : (128 * q.val + n.val) % 128 = n.val := by omega
    have hdiv : (128 * q.val + n.val) / 128 = q.val := by omega
    have hlt : 128 * q.val + n.val < 512 := by omega
    rw [exec_runs (i := .quarantineReplay t ch) rfl h hp (by simp [hfree, hmod, hdiv, hlt, hpart, hqueue])]
    simp [hquar, hmod, hdiv]
  case service =>
    have hs₁ : clearHistories s = (fins 64).foldl freeRetired (clearHistories s) :=
      (List.foldl_fixed' (fun b => if_neg (hnone b)) (fins 64)).symm
    refine congrArg Host.Outcome.next ((returnToService_runs h hp hs₁ rfl).trans (if_neg ?_))
    rw [respond_cmb, (logErr_keeps 0x0007 30 [] _).1]
    simp [clearHistories, hin]

/-- Settles O17, by the commands of Tables 2-20 and 2-21. -/
theorem powerAndFirmwareCommandsComplete : Obligations.PowerAndFirmwareCommandsComplete := by
  unfold Obligations.PowerAndFirmwareCommandsComplete
  intro t ch r s₀ s
  refine ⟨fun mw h hp hlo hhi => ?limit, fun target h hp hlo hhi hrun hnap hdeep => ?enter, fun target h hp htarget hhi => ?there,
    fun h hp hst => ?wakes, fun h hp => ?thermal, fun off d h hp hend hoff hany hnext => ?stage, fun d h hp hend => ?first,
    fun h hp hslot => ?activate, fun v h hp hlo hhi htrial => ?rollback,
    fun first count oldest d skip h hp h1 hcount hold hd hskip => ?refusals⟩
  case limit => exact (exec_runs (i := .powerLimitSet t ch) rfl h hp (by simp [hlo, hhi]) :)
  case enter =>
    rw [exec_runs (i := .powerStateSet t ch) rfl h hp (by simp [hhi])]
    have hbusy : ¬((target = 2 ∧ s.pwr.st = .run ∧ napBusy s = true) ∨ (target = 3 ∧ s.mm.parts.isEmpty = false)) := by
      rintro (⟨h2, -, hb⟩ | ⟨h3, hb⟩)
      · simp [hnap h2] at hb
      · simp [hdeep h3] at hb
    have hcode : powerCode s.pwr.st ≠ target := by
      rw [hrun]
      exact Nat.ne_of_lt hlo
    exact congrArg Host.Outcome.next ((if_neg hcode).trans ((if_neg hbusy).trans (if_pos (.inl hrun))))
  case there =>
    rw [exec_runs (i := .powerStateSet t ch) rfl h hp (by simp [hhi])]
    simp [htarget]
  case wakes =>
    rw [exec_runs (i := .powerStateSet t ch) rfl h hp (by simp)]
    obtain hst | hst := hst <;> simp [hst, powerCode]
  case thermal => exact (exec_runs (i := .thermalQuery t ch) rfl h hp rfl :)
  case stage =>
    refine ⟨_, exec_runs (i := .fwStage t ch) rfl h hp (by simp [hend, hany, ← hnext]), ?_, ?_⟩
    · simp [hoff]
    · simp [hoff, flashWrite]
  case first =>
    refine ⟨_, exec_runs (i := .fwStage t ch) rfl h hp (by simpa using hend), ?_, ?_⟩
    · simp
    · simp [flashWrite, flashErase]
  case activate =>
    rw [exec_runs (i := .fwActivate t ch) rfl h hp rfl]
    simp [hslot]
  case rollback => exact (exec_runs (i := .rollbackAdvance t ch) rfl h hp (by simp [hlo, hhi, htrial]) :)
  case refusals =>
    rw [exec_runs (i := .refusalLogRead t ch) rfl h hp (by simp [h1, hcount]), hskip, hd, hold]
    simp [answer]

end Sys2Proof.Machine
end

section
/-! SUPPORT. The writes of a channel's control registers, the ends of a channel's requests, and the accesses of the registers. -/

namespace Sys2Proof.Machine

/-- Where the ticket runs and the channel is served in time, a long command does what its work says. -/
theorem longCommandComplete_runs {t num : Nat} {ch : Fin 130} {passes : Bool} {k : Ticket} {s₀ s : State} (hs : s = s₀.at t)
    (hk : findTicket s ch num = some k) (hfinal : k.final = none) (hserved : served s ch = true)
    (hlimit : s.now ≤ k.since + longLimitUs k.cmd * 1000) :
    longCommandComplete t ch num passes s₀ = match k.work with
      | .event => s
      | .plan .. => s
      | .planned st res => finishTicket ch num st res s
      | .keyReplace h x =>
        if !passes then finishTicket ch num stBadArg [] s
        else
          let r := replaceKey h x s
          finishTicket ch num r.1 [] r.2
      | .power target => finishPower ch num target s
      | .replay b v c m => finishReplay ch num b v c m s
      | .activate build => activateNow ch num build s
      | .destroy n => finishDestroy ch num n s := by
  unfold longCommandComplete
  rw [← hs]
  dsimp only
  rw [hk]
  simp only [hfinal, hserved, decide_eq_false (Nat.not_lt.2 hlimit)]
  rfl

/-- A function that reaches the device posts and releases on its channel. -/
theorem exec_go {t : Nat} {ch : Fin 130} {both : Bool} {s₀ s : State} (hs : s = s₀.at t)
    (hr : reaches s (chanRequester ch) = true) : exec (.go t ch both) s₀ = .next (goRelease ch both s) := by
  subst hs
  exact congrArg Host.Outcome.next (if_pos hr)

theorem exec_release {t : Nat} {ch : Fin 130} {s₀ s : State} (hs : s = s₀.at t)
    (hr : reaches s (chanRequester ch) = true) : exec (.release t ch) s₀ = .next (releaseChan ch s) := by
  subst hs
  exact congrArg Host.Outcome.next (if_pos hr)

theorem exec_evqTail {t : Nat} {ch : Fin 130} {v : BitVec 32} {s₀ s : State} (hs : s = s₀.at t)
    (hr : reaches s (chanRequester ch) = true) : exec (.evqTail t ch v) s₀ = .next (moveTail ch v.toNat s) := by
  subst hs
  exact congrArg Host.Outcome.next (if_pos hr)

theorem setChan_chan (ch : Fin 130) (s : State) : setChan ch (chan s ch) s = s := by
  simp [setChan, chan]

theorem setChan_setChan (ch : Fin 130) (c c' : Chan) (s : State) : setChan ch c' (setChan ch c s) = setChan ch c' s := by
  simp [setChan, vset]

/-- GO on a channel in use is an overrun. -/
theorem postChan_overrun {ch : Fin 130} {s : State} (h : (chan s ch).st ≠ .idle) :
    postChan ch s = setChan ch { chan s ch with overrun := true } s := by
  unfold postChan
  exact if_pos h

/-- RELEASE frees a channel that is DONE. -/
theorem releaseChan_done {ch : Fin 130} {s : State} (h : (chan s ch).st = .done) :
    releaseChan ch s = setChan ch { chan s ch with st := .idle, rsp := [], cur := none } s := by
  exact congrArg (setChan ch · s) (if_pos h)

/-- On any other channel it changes nothing. -/
theorem releaseChan_of_ne {ch : Fin 130} {s : State} (h : (chan s ch).st ≠ .done) : releaseChan ch s = s := by
  exact (congrArg (setChan ch · s) (if_neg h)).trans (setChan_chan ch s)

/-- Settles O21, by the writes of the control registers, then what Root does on a channel of itself. -/
theorem channelEventsComplete : Obligations.ChannelEventsComplete := by
  unfold Obligations.ChannelEventsComplete
  intro t ch s₀ s hs
  refine ⟨fun both s₁ hr hst hs₁ => ?posts, fun both hr hst hboth => ?overrun, fun hr hst => ⟨?goReleases, ?frees⟩,
    fun hr hst => ?keeps, fun v hr hv hheld hroom => ?tail, fun v hr hbad => ?rejects, fun r hcur hst href halive hlo hhi => ?refusal,
    fun num k passes hk hfinal hserved hlimit => ?long⟩
  case posts =>
    rw [exec_go hs hr, hs₁]
    simp [goRelease, postChan, hst]
  case overrun =>
    rw [exec_go hs hr]
    unfold goRelease
    split
    · next h =>
      have hdone : (chan s ch).st ≠ .done := hboth.resolve_left (by simp_all)
      rw [postChan_overrun hst, releaseChan_of_ne (by simpa using hdone)]
    · rw [postChan_overrun hst]
  case goReleases =>
    have hidle : (chan s ch).st ≠ .idle := by simp [hst]
    rw [exec_go hs hr]
    simp [goRelease, postChan_overrun hidle, releaseChan_done, hst, setChan_setChan]
  case frees => rw [exec_release hs hr, releaseChan_done hst]
  case keeps => rw [exec_release hs hr, releaseChan_of_ne hst]
  case tail =>
    rw [exec_evqTail hs hr]
    simp [moveTail, hv, hroom, hheld, flushHeld]
  case rejects =>
    rw [exec_evqTail hs hr]
    exact congrArg Host.Outcome.next (if_neg (by omega))
  case refusal =>
    show Host.Outcome.next (refusalResponse t ch s₀) = _
    unfold refusalResponse
    rw [← hs]
    simp [hcur, hst, href, halive, hlo, hhi]
  case long =>
    have e : ∀ passes, exec (.longCommandComplete t ch num passes) s₀ = _ :=
      fun passes => congrArg Host.Outcome.next (longCommandComplete_runs (passes := passes) hs hk hfinal hserved hlimit)
    refine ⟨fun status result hw => ?_, fun h st hw => ⟨?_, ?_⟩, fun n hw => ?_, fun target hw => ?_, fun b v c m hw => ?_,
      fun build hw => ?_⟩
    all_goals
      rw [e]
      simp [hw, finishDestroy]

/-- A read of a requester that reaches the device answers the register, or is held where the token engine sleeps. -/
theorem exec_lowWordRead {t off : Nat} {r : Requester} {wide : Bool} {s₀ s : State} (hs : s = s₀.at t) (hr : reaches s r = true) :
    exec (.lowWordRead t r ⟨off, wide⟩) s₀ = .next (if readHeld s r off = true then
      modPwr (fun p => { p with heldReads := p.heldReads ++ [(r, off, wide)] }) s else answerRead r off wide s) := by
  subst hs
  exact congrArg Host.Outcome.next (if_neg (by simp [hr]))

/-- Settles O22, by the kinds of accesses, for a requester that reaches the device and one that does not. -/
theorem registerAccessesComplete : Obligations.RegisterAccessesComplete := by
  unfold Obligations.RegisterAccessesComplete
  intro t r off v s₀ s hs
  refine ⟨fun hr => exec_registerWrite_reaches hs hr, fun wide x hr hheld hx => ?reads, fun wide hr hheld => ?held,
    fun wide hr => ⟨?noWrite, ?noRead⟩, fun hr => ?status⟩
  case reads =>
    rw [exec_lowWordRead hs hr, hheld, hx]
    rfl
  case held => rw [exec_lowWordRead hs hr, if_pos hheld]
  case noWrite =>
    subst hs
    exact congrArg Host.Outcome.next (if_neg (by simp [hr]))
  case noRead =>
    subst hs
    exact congrArg Host.Outcome.next (if_pos (by simp [hr]))
  case status =>
    subst hs
    exact congrArg Host.Outcome.next (if_neg (by simp [hr]))

/-- A block of the SMBus target with the right PEC is stored and the window moves on. -/
theorem exec_smbusBlockWrite {t : Nat} {d : List (BitVec 8)} {s₀ s : State} (hs : s = s₀.at t) (hr : reaches s .smb = true)
    (h4 : 4 ≤ d.length) (h32 : d.length ≤ 32) (hd : d.length % 4 = 0) :
    exec (.smbusBlockWrite t d (pecOf (leBytes 1 (smbAddress s) ++ leBytes 1 0xA1 ++ leBytes 1 d.length ++ d))) s₀
      = .next (advanceWindow d.length (smbStore d s)) := by
  subst hs
  exact congrArg Host.Outcome.next (if_pos (by simp [hr, h4, h32, hd]))

/-- While channel 1 is idle a block within the request page is stored there. -/
theorem smbStore_request {d : Bytes} {s : State} (hidle : (chan s 1).st = .idle) (h : s.root.smbOffset + d.length ≤ 0x1000)
    (hd : 0 < d.length) :
    smbStore d s = setChan 1 { chan s 1 with req := Mem.write 0 (chan s 1).req s.root.smbOffset d } s := by
  unfold smbStore
  dsimp only
  rw [if_pos (by omega), min_eq_left (by omega), List.take_length]
  exact congrArg (setChan 1 · s) (if_pos hidle)

theorem advanceWindow_inside {n : Nat} {s : State} (h : s.root.smbOffset + n < 0x4000) :
    advanceWindow n s = { s with root := { s.root with smbOffset := s.root.smbOffset + n } } :=
  if_pos h

/-- WAKE with the right PEC. -/
theorem exec_wake {t : Nat} {s₀ s : State} (hs : s = s₀.at t) :
    exec (.wake t (pecOf (leBytes 1 (smbAddress s) ++ leBytes 1 0xA3))) s₀ = .next (match s.pwr.st with
      | .quiet | .nap => wakeDevice 4 s
      | .entering => wakeDevice 4 s
      | _ => wakePowered 4 s) := by
  subst hs
  exact congrArg Host.Outcome.next (if_neg (by simp))

/-- Settles O24, by the commands of the SMBus target. -/
theorem smbusCommandsComplete : Obligations.SmbusCommandsComplete := by
  unfold Obligations.SmbusCommandsComplete
  intro t s₀ s hs
  refine ⟨fun v hr hv => ?offset, fun d hr hidle h4 h32 hd hin => ?page, fun d hr h4 h32 hd => exec_smbusBlockWrite hs hr h4 h32 hd,
    fun pec o base x hr ho hbase hx => ?reads, fun hst => ?sleeps, fun hst => ?powered, fun pec => ?word, fun us => ?lowClock⟩
  case offset =>
    subst hs
    exact congrArg Host.Outcome.next (if_pos (by simp [hr, hv]))
  case page =>
    rw [exec_smbusBlockWrite hs hr h4 h32 hd, smbStore_request hidle hin (by omega), advanceWindow_inside (by simp; omega)]
    rfl
  case reads =>
    rw [hx, hbase, ho]
    subst hs
    exact congrArg Host.Outcome.next (if_neg (by simp [hr]))
  case sleeps =>
    rw [exec_wake hs]
    obtain hst | hst := hst <;> simp [hst, wakeDevice]
  case powered =>
    rw [exec_wake hs]
    obtain hst | hst := hst <;> simp [hst, wakePowered]
  case word =>
    subst hs
    rfl
  case lowClock =>
    subst hs
    rfl

end Sys2Proof.Machine
end

section
/-! SUPPORT. MATH and COLLECTIVE records: what each opcode's body does once the record's checks have passed. -/

namespace Sys2Proof.Machine

/-- A record that starts leaves what its body makes of the state in which it stands in progress. -/
theorem startRecord_body {op t num : Nat} {body : RecBody} {n : Fin 128} {q : Fin 16} {host b : Bytes} {x : Queue}
    {s₀ s s' s₁ u : State} (hs : s = s₀.at t) (hs₁ : s₁ = beginRecord n q x b s') (hnum : num = x.started.toNat)
    (h : RecordStarts op n q host b x s s') (hb : body n q num b s₁ = u) :
    startRecord op body t n q host s₀ = tallyHbm n q num s₁ u := by
  subst hs₁ hnum hb
  exact startRecord_starts hs h

/-- So does one that names a collective group, where the group is free. -/
theorem startOnSlot_body {op t num : Nat} {body : RecBody} {n : Fin 128} {q : Fin 16} {host b : Bytes} {x : Queue}
    {s₀ s s' s₁ u : State} (hs : s = s₀.at t) (hs₁ : s₁ = beginRecord n q x b s') (hnum : num = x.started.toNat)
    (h : RecordStarts op n q host b x s s') (hfree : slotFree s b = true) (hb : body n q num b s₁ = u) :
    startOnSlot op body t n q host s₀ = tallyHbm n q num s₁ u := by
  subst hs₁ hnum hb
  exact startOnSlot_starts hs h hfree

/-- A record whose checks pass does its work. -/
theorem checkedRecord_passes {reserved ranges operands math : Bool} {work : RecBody} {n q num : Nat} {b : Bytes} {s : State}
    (hres : reserved = true) (hran : ranges = true) (hop : operands = true) (hm : math = true → (activeBoughs s n).isEmpty = false) :
    checkedRecord reserved ranges operands math work n q num b s = work n q num b s := by
  have hmath : (math && (activeBoughs s n).isEmpty) = false := by
    cases math with
    | false => rfl
    | true => simpa using hm rfl
  unfold checkedRecord
  simp only [hres, hran, hop, hmath]
  rfl

@[simp] theorem endRecord_obs (n q num status : Nat) (result : Bytes) (s : State) :
    (endRecord n q num status result s).obs = s.obs := rfl

/-- A MATMUL without a suffix names no group. -/
theorem slotFree_plain {s : State} {b : Bytes} (hop : u8At b 0 = 0x10) (hf : recFlag b 4 = false) : slotFree s b = true := by
  simp [slotFree, recordSlot, hop, hf]

/-- COLLECTIVE's work where the kind is not all-to-all-v. -/
theorem collectiveBody_uniform {c : Collective} {g : Group} {n q num : Nat} {b : Bytes} {s : State} (hc : c = Collective.of b)
    (h21 : zeroAt b 21 1 = true) (h56 : zeroAt b 56 8 = true) (hg : slotOf s c.slot = some g) (hpart : g.part = n)
    (hfields : collectiveFields c g = true) (hk : c.kind ≠ 4) (hsizes : collectiveSizes c g [] = true)
    (hdst : locOk s n (locAt c.dst) (c.dstElems g.size * fmtBytes c.fmt) = true)
    (hsrc : usesSrc c g = true → locOk s n (locAt c.src) (c.srcElems g.size [] * fmtBytes c.fmt) = true)
    (hb : c.kind ≤ 1 → (activeBoughs s n).isEmpty = false) :
    collectiveBody n q num b s = collectiveStart c.slot g c [] n q num b s := by
  have hsrc' : (!usesSrc c g || locOk s n (locAt c.src) (c.srcElems g.size [] * fmtBytes c.fmt)) = true := by
    by_cases hu : usesSrc c g = true
    · simp [hsrc hu]
    · simp [hu]
  have hmath : (decide (c.kind ≤ 1) && (activeBoughs s n).isEmpty) = false := by
    by_cases hu : c.kind ≤ 1
    · simp [hb hu]
    · simp [hu]
  unfold collectiveBody
  rw [← hc]
  simp only [h21, h56, hg, hpart, hfields, hk, hsizes, hdst, hsrc', hmath]
  simp

/-- An all-to-all-v checks its send counts' place before it reads them. -/
theorem collectiveBody_varied {c : Collective} {g : Group} {n q num : Nat} {b : Bytes} {s : State} (hc : c = Collective.of b)
    (h21 : zeroAt b 21 1 = true) (h56 : zeroAt b 56 8 = true) (hg : slotOf s c.slot = some g) (hpart : g.part = n)
    (hfields : collectiveFields c g = true) (hk : c.kind = 4) (hlim : c.dstElems g.size * fmtBytes c.fmt ≤ 64 * 2 ^ 30)
    (hcounts : locOk s n (locAt c.counts) (8 * g.size) = true) :
    (∀ st, g.broken = some st → collectiveBody n q num b s = endBroken n q num st s)
    ∧ ∀ (k : Nat × Bytes × State) (sends : List Nat), g.broken = none → k = readLoc n (locAt c.counts) (4 * g.size) s →
      (k.1 = stOk → sends = (List.range g.size).map (fun j => u32At k.2.1 (4 * j)) → collectiveSizes c g sends = true →
        locOk k.2.2 n (locAt c.dst) (c.dstElems g.size * fmtBytes c.fmt) = true →
        locOk k.2.2 n (locAt c.src) (c.srcElems g.size sends * fmtBytes c.fmt) = true →
        collectiveBody n q num b s = collectiveStart c.slot g c sends n q num b k.2.2)
      ∧ (k.1 ≠ stOk → collectiveBody n q num b s
        = breakGroup c.slot k.1 (colEnter c.slot g (Collective.op c n q num []) k.2.2)) := by
  have hlim' : ¬ 64 * 2 ^ 30 < c.dstElems g.size * fmtBytes c.fmt := Nat.not_lt.2 hlim
  unfold collectiveBody
  rw [← hc]
  simp only [h21, h56, hg, hpart, hfields, hk, hcounts, if_neg hlim']
  refine ⟨fun st hbroken => ?_, fun k sends hbroken hread => ⟨fun hok hsends hsizes hdst hsrc => ?_, fun hfail => ?_⟩⟩
  · simp [hbroken]
  · simp [hbroken, ← hread, hok, ← hsends, hsizes, hdst, hsrc]
  · simp [hbroken, ← hread, hfail]

/-- Settles O26: each record passes the common checks, then does the work of its opcode. -/
theorem mathAndCollectiveRecordsStart : Obligations.MathAndCollectiveRecordsStart := by
  unfold Obligations.MathAndCollectiveRecordsStart
  intro t num n q host b x s₀ s s' s₁ hs hx hs₁ hnum
  refine ⟨fun h hres hact => ?nop, fun h hflag hres hran hop hact => ?matmul,
    fun g h hflag hfree hg hpart hsuf hres hran hop hact => ?suffix, fun h h18 h60 hran hop hact => ?vec,
    fun h h49 h50 h60 hran hop hact => ?attend, fun h h47 h60 hran hop hact => ?sample, fun h h41 h48 hran hop hact => ?convert,
    fun c g h hc h21 h56 hfree hg hpart hfields => ⟨fun hk hsizes hdst hsrc hact => ?uniform, fun hk hlim hcounts => ?varied⟩⟩
  case nop =>
    have hwork : nopBody n q num b s₁ = endRecord n q num stOk [] s₁ :=
      checkedRecord_passes hres rfl rfl fun hq => hact (of_decide_eq_true hq)
    show Host.Outcome.next (startRecord 0 nopBody t n q host s₀) = _
    rw [startRecord_body hs hs₁ hnum h hwork, tallyHbm_same (congrArg Obs.parts (endRecord_obs _ _ _ _ _ _))]
  case matmul =>
    obtain ⟨_, _, _, _, _, hcode, _⟩ := id h
    refine congrArg Host.Outcome.next (startOnSlot_body hs hs₁ hnum h (slotFree_plain hcode hflag) ?_)
    unfold matmulBody
    rw [if_pos (by simp [hflag])]
    exact checkedRecord_passes hres hran hop fun _ => hact
  case suffix =>
    refine congrArg Host.Outcome.next (startOnSlot_body hs hs₁ hnum h hfree ?_)
    unfold matmulBody
    rw [if_neg (by simp [hflag])]
    simp only [hg]
    exact checkedRecord_passes hres (by simp [hran, hpart, hsuf]) hop fun _ => hact
  case vec =>
    exact congrArg Host.Outcome.next (startRecord_body hs hs₁ hnum h
      (checkedRecord_passes (by simp [h18, h60]) hran hop fun _ => hact))
  case attend =>
    exact congrArg Host.Outcome.next (startRecord_body hs hs₁ hnum h
      (checkedRecord_passes (by simp [h49, h50, h60]) hran hop fun _ => hact))
  case sample =>
    exact congrArg Host.Outcome.next (startRecord_body hs hs₁ hnum h
      (checkedRecord_passes (by simp [h47, h60]) hran hop fun _ => hact))
  case convert =>
    exact congrArg Host.Outcome.next (startRecord_body hs hs₁ hnum h
      (checkedRecord_passes (by simp [h41, h48]) hran hop fun _ => hact))
  case uniform =>
    exact congrArg Host.Outcome.next (startOnSlot_body hs hs₁ hnum h hfree
      (collectiveBody_uniform hc h21 h56 hg hpart hfields hk hsizes hdst hsrc hact))
  case varied =>
    have hvaried := collectiveBody_varied (q := q.val) (num := num) hc h21 h56 hg hpart hfields hk hlim hcounts
    refine ⟨fun st hbroken => ?broken, fun k sends hbroken hread => ⟨fun hok hsends hsizes hdst hsrc => ?starts, fun hfail => ?fails⟩⟩
    case broken =>
      exact congrArg Host.Outcome.next (startOnSlot_body hs hs₁ hnum h hfree (hvaried.1 st hbroken))
    case starts =>
      exact congrArg Host.Outcome.next (startOnSlot_body hs hs₁ hnum h hfree
        ((hvaried.2 k sends hbroken hread).1 hok hsends hsizes hdst hsrc))
    case fails =>
      exact congrArg Host.Outcome.next (startOnSlot_body hs hs₁ hnum h hfree ((hvaried.2 k sends hbroken hread).2 hfail))

end Sys2Proof.Machine
end

section
/-! SUPPORT. MOVE and TOKEN records, and the other events of a record. -/

namespace Sys2Proof.Machine

/-- Settles O27, by the opcodes of a move and where its two ends lie. -/
theorem moveRecordsStart : Obligations.MoveRecordsStart := by
  unfold Obligations.MoveRecordsStart
  intro t num n q host data b x s₀ s s' s₁ hs hs₁ hnum
  refine ⟨fun h hres hran hop => ?copy, fun w h h25 h36 hsp h4 hmax hmod hal hloc hw => ?fill,
    fun op len h hop hlen hcode hsp h18 h48 h40 hsize hlocs => ?remote, fun h h28 hal h4 hmax hmod => ⟨fun sl i hgov hgrant => ?ahead,
      fun hno => ?denied⟩⟩
  case copy =>
    have hwork : copyBody data n q num b s₁ = copyWork data n q num b s₁ :=
      checkedRecord_passes hres hran hop (by simp)
    have e : exec (.copy t n q host data) s₀ = .next (tallyHbm n q num s₁ (copyWork data n q num b s₁)) :=
      congrArg Host.Outcome.next (startRecord_body hs hs₁ hnum h hwork)
    refine ⟨fun r hbulk hrun => ?_, fun hbulk hss hds => ?_, fun w hbulk hss hds hw => ?_, fun hbulk hss hds => ?_,
      fun hbulk hss hds => ?_⟩
    · rw [e]
      simp [copyWork, hbulk, hrun]
    · rw [e]
      simp only [copyWork, hbulk, hss, hds]
      exact congrArg Host.Outcome.next (tallyHbm_same rfl)
    · rw [e, hw]
      simp [copyWork, hbulk, hss, hds, copyFromHost]
    · rw [e]
      simp [copyWork, hbulk, hss, hds]
    · rw [e]
      simp [copyWork, hbulk, hss, hds]
  case fill =>
    rw [hw]
    exact congrArg Host.Outcome.next (startRecord_body hs hs₁ hnum h
      (checkedRecord_passes (by simp [h25, h36]) (by simp [-Nat.reducePow, hsp, h4, hmax, hmod, hal]) hloc (by simp)))
  case remote =>
    have hgate : remoteOpBody n q num b s₁ = remoteOpWork n q num b s₁ := by
      unfold remoteOpBody
      rw [← hop, ← hlen]
      dsimp only
      rw [if_neg, if_neg (by simp [hsize])]
      · exact checkedRecord_passes rfl rfl hlocs (by simp)
      · have hknown : (op == 1 || op == 2 || isAtomic op) = true := by simpa [or_assoc] using hcode
        have hspare : (!isAtomic op && rec64 b 40 != 0) = false := by
          cases hatomic : isAtomic op with
          | true => rfl
          | false => simp [h40 hatomic]
        simp only [h18, h48, hknown, hsp, hspare]
        decide
    have e : exec (.remoteOp t n q host) s₀ = .next (tallyHbm n q num s₁ (remoteOpWork n q num b s₁)) :=
      congrArg Host.Outcome.next (startRecord_body hs hs₁ hnum h hgate)
    refine ⟨fun h1 => ?_, fun d h1 hd => ⟨fun hok => ?_, fun hfail => ?_⟩⟩
    · rw [e]
      simp [remoteOpWork, ← hop, ← hlen, h1]
    · rw [e]
      simp [remoteOpWork, ← hop, ← hlen, h1, ← hd, hok]
    · rw [e]
      simp [remoteOpWork, ← hop, ← hlen, h1, ← hd, hfail]
  case ahead =>
    refine congrArg Host.Outcome.next (startRecord_body hs hs₁ hnum h
      ((checkedRecord_passes h28 (by simp [hal, h4, hmax, hmod]) rfl (by simp)).trans ?_))
    simp [prefetchWork, hgov, hgrant]
  case denied =>
    refine congrArg Host.Outcome.next (startRecord_body hs hs₁ hnum h
      ((checkedRecord_passes h28 (by simp [hal, h4, hmax, hmod]) rfl (by simp)).trans ?_))
    unfold prefetchWork
    cases hgov : governing s₁ n (rec64 b 16) with
    | none => simp [hgov]
    | some e => simp [hgov, hno e hgov]

/-- Settles O28, by the two opcodes of the token engine. -/
theorem tokenRecordsStart : Obligations.TokenRecordsStart := by
  unfold Obligations.TokenRecordsStart
  intro t num n q host b x s₀ s s' s₁ hs hs₁ hnum
  refine ⟨fun k v h hk h36 h48 hran htext hout hv => ?tokenize, fun k r es f h hk h18 h44 h56 h1 hcount hlo hhi hinp htxt hout
    hlinp hltext hlout hr => ?step⟩
  case tokenize =>
    have hwork : tokenizeBody n q num b s₁ = tokenizeWork n q num b s₁ :=
      checkedRecord_passes (by simp [h36, h48]) hran (by simp [← hk, htext, hout]) (by simp)
    have e : exec (.tokenize t n q host) s₀ = .next (tallyHbm n q num s₁ (tokenizeWork n q num b s₁)) :=
      congrArg Host.Outcome.next (startRecord_body hs hs₁ hnum h hwork)
    refine ⟨fun hlen => ?_, fun hlen => e⟩
    have hempty : tokenizeWork n q num b s₁ = endRecord n q num stOk (zeros 8) s₁ := by
      simp [tokenizeWork, ← hk, hv, hlen]
    rw [e, hempty, tallyHbm_same (congrArg Obs.parts (endRecord_obs _ _ _ _ _ _))]
  case step =>
    have hwork : stepBody n q num b s₁ = stepWork n q num b s₁ :=
      checkedRecord_passes (by simp [h18, h44, h56]) (by simp [← hk, h1, hcount, hlo, hhi, hinp, htxt, hout])
        (by simp [← hk, hlinp, hltext, hlout]) (by simp)
    have e : exec (.step t n q host) s₀ = .next (tallyHbm n q num s₁ (stepWork n q num b s₁)) :=
      congrArg Host.Outcome.next (startRecord_body hs hs₁ hnum h hwork)
    refine ⟨fun hok hes hzero hparts hf => ?_, fun hfail => ?_⟩
    · have hall : ∀ a ∈ es, (strm r.2.2 a.2.1).map (·.part) = some n.val := by simpa using hparts
      rw [e, hf]
      unfold stepWork
      rw [← hk]
      dsimp only
      rw [← hr, if_neg (by simp [hok]), ← hes, if_neg]
      simp only [hzero, Bool.true_and, Bool.not_eq_true', Bool.not_eq_false, List.all_eq_true]
      intro a ha
      obtain ⟨st, hst, hpart⟩ := Option.map_eq_some_iff.1 (hall a ha)
      simp [hst, hpart]
    · rw [e]
      simp [stepWork, ← hk, ← hr, hfail]

/-- Settles O30, by the ways a record ends without being carried out, and its completion. -/
theorem recordEventsComplete : Obligations.RecordEventsComplete := by
  unfold Obligations.RecordEventsComplete
  intro t n q host b x s₀ s hs hx
  have hx₀ : queue s₀ n q = some x := by
    rw [hs] at hx
    exact hx
  refine ⟨fun word s' hne hf hm hw => ?skip, fun num r hheld hplane hhalt hrun hdone hmir hlag => ?completes,
    fun kind data hhost hne hfault hplane => ?fetch, fun kind data num s' s₁ h hhost hnum hs₁ hres hran hop h36 => ?source⟩
  case skip =>
    obtain ⟨hfault, hheld⟩ : x.faulted = false ∧ x.held = false := by
      simp only [startMet, Bool.and_eq_true, Bool.not_eq_true'] at hm
      obtain ⟨⟨⟨⟨⟨⟨⟨⟨⟨_, _⟩, h3⟩, h4⟩, _⟩, _⟩, _⟩, _⟩, _⟩, _⟩ := hm
      exact ⟨h4, h3⟩
    show Host.Outcome.next (recordSkip t n q host s₀) = _
    unfold recordSkip
    rw [← hs]
    simp [hx, hne, hfault, hheld, hf, hw, hm]
  case completes =>
    have hsettle : settleRecord n q num.toNat s = s := by simp [settleRecord, hrun, hdone]
    show Host.Outcome.next (recordComplete t n q num s₀) = _
    unfold recordComplete
    rw [← hs]
    simp [hx, hheld, hplane, hhalt, hsettle, tallyHbm_same, hrun, hdone, hmir, awaitLag_clear hlag]
  case fetch =>
    show Host.Outcome.next (hostAccessFail t n q kind [] data s₀) = _
    unfold hostAccessFail
    rw [← hs]
    simp [hx₀, hhost, hne, hfault, hplane]
  case source =>
    obtain ⟨hq, _, hf, _⟩ := id h
    have hbody : copyFailBody kind data n q num b s₁ = copyHostFail kind data n q num b s₁ :=
      checkedRecord_passes hres hran hop (by simp)
    show Host.Outcome.next (hostAccessFail t n q kind host data s₀) = _
    unfold hostAccessFail
    rw [← hs]
    have hring : ¬(x.host = true ∧ host = []) := fun hh => hhost hh.1 hh.2
    simp only [hx₀, if_neg hring, hf, h36, if_true]
    exact congrArg Host.Outcome.next (startRecord_body hs hs₁ hnum h hbody)

end Sys2Proof.Machine
end

section
/-! SUPPORT. The events of the token engine and of remote transactions; the messages that have waited too long. -/

namespace Sys2Proof.Machine

/-- Settles O31, by the mask that is due and the masks that are built ahead. -/
theorem maskEventsComplete : Obligations.MaskEventsComplete := by
  unfold Obligations.MaskEventsComplete
  intro t id x g v m s₀ s hs hx htab hplane
  refine ⟨fun s₁ hdue hm hs₁ => ?due, fun c s' hra hready hhalt hoff hidle hsucc hbuilt hm hok => ?ahead⟩
  case due =>
    have e : exec (.maskReady t id) s₀ = .next (sampleAll (buildMask id s)) := by
      subst hs
      exact congrArg Host.Outcome.next (if_pos (by simp [hdue, hplane]))
    have hbuild : buildMask id s
        = if m.1 = stOk then modStrm id (fun y => { y with mask := m.2.1, maskReady := true }) s₁ else stopStream id 8 0 s₁ := by
      unfold buildMask
      rw [hx]
      simp only [htab, ← hm, hs₁]
      simp
    refine ⟨fun hok => ?_, fun hfail => ?_⟩
    · rw [e, hbuild, if_pos hok]
    · rw [e, hbuild, if_neg hfail]
  case ahead =>
    show Host.Outcome.next (runaheadBuild t id s₀) = _
    unfold runaheadBuild
    rw [← hs]
    simp [hx, hra, hready, hhalt, hoff, hplane, hidle, htab, hsucc, hbuilt, ← hm, hok]

/-! ### One VC of one port -/

@[simp] theorem vcTx_modRx (p v q w : Fin 8) (f : VcRx → VcRx) (s : State) : vcTx (modRx p v f s) q w = vcTx s q w := by
  unfold vcTx modRx modLink
  by_cases h : q = p
  · subst h
    rw [port_modPort_self]
  · rw [port_modPort_of_ne _ _ h]

@[simp] theorem vcRx_modTx (p v q w : Fin 8) (f : VcTx → VcTx) (s : State) : vcRx (modTx p v f s) q w = vcRx s q w := by
  unfold vcRx modTx modLink
  by_cases h : q = p
  · subst h
    rw [port_modPort_self]
  · rw [port_modPort_of_ne _ _ h]

@[simp] theorem vcTx_modTx_self (p v : Fin 8) (f : VcTx → VcTx) (s : State) : vcTx (modTx p v f s) p v = f (vcTx s p v) := by
  unfold vcTx modTx modLink
  rw [port_modPort_self]
  exact vget_vmod_self _ _ _

@[simp] theorem vcRx_modRx_self (p v : Fin 8) (f : VcRx → VcRx) (s : State) : vcRx (modRx p v f s) p v = f (vcRx s p v) := by
  unfold vcRx modRx modLink
  rw [port_modPort_self]
  exact vget_vmod_self _ _ _

theorem vcTx_modTx_of_ne {p v q w : Fin 8} (f : VcTx → VcTx) (s : State) (h : q ≠ p ∨ w ≠ v) :
    vcTx (modTx p v f s) q w = vcTx s q w := by
  unfold vcTx modTx modLink
  by_cases hq : q = p
  · subst hq
    rw [port_modPort_self]
    exact vget_vmod_of_ne _ _ (h.resolve_left (by simp))
  · rw [port_modPort_of_ne _ _ hq]

theorem vcRx_modRx_of_ne {p v q w : Fin 8} (f : VcRx → VcRx) (s : State) (h : q ≠ p ∨ w ≠ v) :
    vcRx (modRx p v f s) q w = vcRx s q w := by
  unfold vcRx modRx modLink
  by_cases hq : q = p
  · subst hq
    rw [port_modPort_self]
    exact vget_vmod_of_ne _ _ (h.resolve_left (by simp))
  · rw [port_modPort_of_ne _ _ hq]

/-- What a VC of a port holds: the messages that wait to be sent, and the flits that have landed. -/
def vcHeld (s : State) (p v : Fin 8) : List TxMsg × List LandFlit := ((vcTx s p v).queue, (vcRx s p v).flits)

theorem vcHeld_of_ports {s s' : State} (h : s'.ports = s.ports) : vcHeld s' = vcHeld s := by
  funext p v
  simp only [vcHeld, vcTx, vcRx, port, h]

theorem vcHeld_ctrlAsm (p q w : Fin 8) (s : State) : vcHeld (modLink p (fun l => { l with ctrlAsm := none }) s) q w = vcHeld s q w := by
  unfold vcHeld vcTx vcRx modLink
  by_cases h : q = p
  · subst h
    rw [port_modPort_self]
  · rw [port_modPort_of_ne _ _ h]

/-- After a VC's flits were taken its stall bit follows, and no flit changes. -/
theorem vcHeld_afterTake (p v q w : Fin 8) (s : State) : vcHeld (afterTake p v s) q w = vcHeld s q w := by
  unfold vcHeld afterTake
  rw [vcTx_modRx]
  by_cases h : q = p ∧ w = v
  · obtain ⟨rfl, rfl⟩ := h
    rw [vcRx_modRx_self]
  · rw [vcRx_modRx_of_ne _ _ (not_and_or.1 h)]

theorem foldl_dropHeld {α : Type} (l : List α) (s : State) :
    (l.foldl (fun s _ => dropHeld s) s).ports = s.ports ∧ (l.foldl (fun s _ => dropHeld s) s).txn.inbox = s.txn.inbox := by
  induction l generalizing s with
  | nil => exact ⟨rfl, rfl⟩
  | cons a l ih => exact ih (dropHeld s)

/-! ### The messages that have waited too long -/

/-- A message that waits to be sent, has no tag of its own and no flit sent, and has waited since before `lim`. -/
def txGone (lim : Nat) (m : TxMsg) : Bool := m.tag.isNone && m.sent == 0 && decide (m.since < lim)

/-- A control message under assembly given up with the old message at the head of VC4. -/
def dropOldAsm (lim : Nat) (p v : Fin 8) (l : List LandFlit) (s : State) : State :=
  if v = 4 ∧ headOld lim l = true then modLink p (fun l => { l with ctrlAsm := none }) s else s

/-- The whole messages at the head of a VC's landed flits that have waited since before `lim` discarded. -/
def holdRx (lim : Nat) (p v : Fin 8) (s : State) : State :=
  let l := (vcRx s p v).flits
  let r := holdLanded l.length lim l
  if r.1 = 0 then s
  else
    afterTake p v (modRx p v (fun x => { x with flits := r.2, asm := if headOld lim l then [] else x.asm }) (dropOldAsm lim p v l s))

/-- One VC of a port rid of the messages that have waited since before `lim`. -/
def holdVc (lim : Nat) (p : Fin 8) (s : State) (v : Fin 8) : State :=
  let n := ((vcTx s p v).queue.filter (txGone lim)).length
  let s := modTx p v (fun q => { q with queue := q.queue.filter fun m => !txGone lim m }) s
  let l := (vcRx s p v).flits
  (List.range (n + (holdLanded l.length lim l).1)).foldl (fun s _ => dropHeld s) (holdRx lim p v s)

theorem messageHoldExpire_eq {t lim : Nat} {old : List InMsg} {s₀ s : State} (hs : s = s₀.at t) (hcut : cutStopped s = false)
    (hlim : lim = s.now - remoteT s) (hold : old = s.txn.inbox.filter fun m => m.port.isSome && decide (m.at_ < lim)) :
    messageHoldExpire t s₀ = (fins 8).foldl (fun s p => (fins 8).foldl (fun s v => holdVc lim p s v) s)
      (old.foldl (fun s _ => dropHeld s) (modTxn (fun x => { x with inbox := x.inbox.filter fun m => !old.contains m }) s)) := by
  unfold messageHoldExpire
  rw [← hs]
  dsimp only
  rw [if_neg (by simp [hcut]), ← hlim, ← hold]
  unfold holdVc holdRx dropOldAsm txGone
  rfl

/-- Where no whole message is old the landed flits stay as they are. -/
theorem holdLanded_none (fuel lim : Nat) (l : List LandFlit) (h : (holdLanded fuel lim l).1 = 0) : (holdLanded fuel lim l).2 = l := by
  induction fuel generalizing l with
  | zero => rfl
  | succ fuel ih =>
    unfold holdLanded at h ⊢
    dsimp only at h ⊢
    split
    · next f rest hl =>
      rw [hl] at h
      dsimp only at h
      split at h
      · exact absurd h (Nat.succ_ne_zero _)
      · next hnew =>
        rw [if_neg hnew]
        dsimp only
        rw [ih rest h, ← hl]
        exact List.prefix_iff_eq_append.1 (List.takeWhile_prefix _)
    · rfl

theorem vcHeld_modRx_of_ne {p v q w : Fin 8} (f : VcRx → VcRx) (s : State) (h : q ≠ p ∨ w ≠ v) :
    vcHeld (modRx p v f s) q w = vcHeld s q w := by
  unfold vcHeld
  rw [vcTx_modRx, vcRx_modRx_of_ne _ _ h]

theorem vcHeld_modRx_self (p v : Fin 8) (f : VcRx → VcRx) (s : State) :
    vcHeld (modRx p v f s) p v = ((vcHeld s p v).1, (f (vcRx s p v)).flits) := by
  unfold vcHeld
  rw [vcTx_modRx, vcRx_modRx_self]

theorem dropOldAsm_txn (lim : Nat) (p v : Fin 8) (l : List LandFlit) (s : State) : (dropOldAsm lim p v l s).txn = s.txn := by
  unfold dropOldAsm
  split <;> rfl

theorem vcHeld_dropOldAsm (lim : Nat) (p v q w : Fin 8) (l : List LandFlit) (s : State) :
    vcHeld (dropOldAsm lim p v l s) q w = vcHeld s q w := by
  unfold dropOldAsm
  split
  · exact vcHeld_ctrlAsm p q w s
  · rfl

theorem vcHeld_holdRx_self (lim : Nat) (p v : Fin 8) (s : State) : vcHeld (holdRx lim p v s) p v
    = ((vcHeld s p v).1, (holdLanded (vcHeld s p v).2.length lim (vcHeld s p v).2).2) := by
  unfold holdRx
  dsimp only
  split
  · next h => exact Prod.ext rfl (holdLanded_none _ _ _ h).symm
  · rw [vcHeld_afterTake, vcHeld_modRx_self, vcHeld_dropOldAsm]
    rfl

theorem vcHeld_holdRx_of_ne {lim : Nat} {p v q w : Fin 8} (s : State) (h : q ≠ p ∨ w ≠ v) :
    vcHeld (holdRx lim p v s) q w = vcHeld s q w := by
  unfold holdRx
  dsimp only
  split
  · rfl
  · rw [vcHeld_afterTake, vcHeld_modRx_of_ne _ _ h, vcHeld_dropOldAsm]

theorem vcHeld_holdVc_self (lim : Nat) (p v : Fin 8) (s : State) : vcHeld (holdVc lim p s v) p v
    = ((vcHeld s p v).1.filter fun m => !txGone lim m, (holdLanded (vcHeld s p v).2.length lim (vcHeld s p v).2).2) := by
  unfold holdVc
  dsimp only
  rw [vcHeld_of_ports (foldl_dropHeld _ _).1, vcHeld_holdRx_self]
  simp only [vcHeld, vcTx_modTx_self, vcRx_modTx]

theorem vcHeld_holdVc_of_ne {lim : Nat} {p v q w : Fin 8} (s : State) (h : q ≠ p ∨ w ≠ v) :
    vcHeld (holdVc lim p s v) q w = vcHeld s q w := by
  unfold holdVc
  dsimp only
  rw [vcHeld_of_ports (foldl_dropHeld _ _).1, vcHeld_holdRx_of_ne _ h]
  unfold vcHeld
  rw [vcTx_modTx_of_ne _ _ h, vcRx_modTx]

theorem inbox_holdVc (lim : Nat) (p v : Fin 8) (s : State) : (holdVc lim p s v).txn.inbox = s.txn.inbox := by
  unfold holdVc
  dsimp only
  rw [(foldl_dropHeld _ _).2]
  unfold holdRx
  dsimp only
  split
  · rfl
  · simp [afterTake, dropOldAsm_txn]

/-- A change of a VC's transmitter that leaves it as it is leaves the state as it is. -/
theorem modTx_same {p v : Fin 8} {f : VcTx → VcTx} {s : State} (h : f (vcTx s p v) = vcTx s p v) : modTx p v f s = s := by
  have htx : vmod (port s p).link.tx v f = (port s p).link.tx := by
    unfold vmod
    rw [show f (vget (port s p).link.tx v) = vget (port s p).link.tx v from h, vset_vget]
  have hport : vset s.ports p (port s p) = s.ports := vset_vget _ _
  have hsame : { port s p with link := { (port s p).link with tx := vmod (port s p).link.tx v f } } = port s p :=
    congrArg (fun x => { port s p with link := { (port s p).link with tx := x } }) htx
  exact (congrArg (setPort p · s) hsame).trans (congrArg (fun x => { s with ports := x }) hport)

/-- A VC that holds nothing stays as it is. -/
theorem holdVc_empty {lim : Nat} {p v : Fin 8} {s : State} (h : vcHeld s p v = ([], [])) : holdVc lim p s v = s := by
  obtain ⟨hq, hf⟩ := Prod.mk.inj h
  have hsame : modTx p v (fun q => { q with queue := q.queue.filter fun m => !txGone lim m }) s = s := by
    refine modTx_same ?_
    rw [hq]
    exact congrArg (fun x => { vcTx s p v with queue := x }) hq.symm
  unfold holdVc
  dsimp only
  rw [hsame, hq, hf]
  unfold holdRx
  dsimp only
  rw [hf]
  rfl

/-- A fold over the numbers below `n`, each of which changes its own part of the view, changes every part once. -/
theorem foldl_fins_each {α β : Type} {n : Nat} (f : α → Fin n → α) (view : α → Fin n → β) (g : β → β)
    (hself : ∀ x i, view (f x i) i = g (view x i)) (hother : ∀ x i j, j ≠ i → view (f x i) j = view x j) (x : α) (j : Fin n) :
    view ((fins n).foldl f x) j = g (view x j) := by
  have hidle : ∀ (l : List (Fin n)) (y : α), j ∉ l → view (l.foldl f y) j = view y j := by
    intro l
    induction l with
    | nil => exact fun _ _ => rfl
    | cons c l ih =>
      intro y hl
      obtain ⟨hc, hl⟩ := not_or.1 fun h => hl (List.mem_cons.2 h)
      rw [List.foldl_cons, ih _ hl, hother y c j hc]
  obtain ⟨l₁, l₂, hl⟩ := List.append_of_mem (List.mem_finRange j)
  have hnodup := List.nodup_finRange n
  rw [hl, List.nodup_middle, List.nodup_cons, List.mem_append, not_or] at hnodup
  obtain ⟨⟨h₁, h₂⟩, -⟩ := hnodup
  rw [fins, hl, List.foldl_append, List.foldl_cons, hidle l₂ _ h₂, hself, hidle l₁ x h₁]

/-- Every VC of every port rid of its old messages. -/
theorem vcHeld_holdAll (lim : Nat) (s : State) (p v : Fin 8) :
    vcHeld ((fins 8).foldl (fun s p => (fins 8).foldl (holdVc lim p) s) s) p v
      = ((vcHeld s p v).1.filter fun m => !txGone lim m, (holdLanded (vcHeld s p v).2.length lim (vcHeld s p v).2).2) := by
  have hport : ∀ (s : State) (p : Fin 8), vcHeld ((fins 8).foldl (holdVc lim p) s) p = fun v => ((vcHeld s p v).1.filter
      (fun m => !txGone lim m), (holdLanded (vcHeld s p v).2.length lim (vcHeld s p v).2).2) := by
    intro s p
    funext v
    exact foldl_fins_each (holdVc lim p) (fun s v => vcHeld s p v)
      (fun x => (x.1.filter (fun m => !txGone lim m), (holdLanded x.2.length lim x.2).2))
      (fun s v => vcHeld_holdVc_self lim p v s) (fun s v w h => vcHeld_holdVc_of_ne s (.inr h)) s v
  have hother : ∀ (l : List (Fin 8)) (s : State) (p q : Fin 8), q ≠ p → vcHeld (l.foldl (holdVc lim p) s) q = vcHeld s q := by
    intro l s p q h
    induction l generalizing s with
    | nil => rfl
    | cons v l ih =>
      rw [List.foldl_cons, ih]
      funext w
      exact vcHeld_holdVc_of_ne s (.inl h)
  exact congrFun (foldl_fins_each (fun s p => (fins 8).foldl (holdVc lim p) s) vcHeld
    (fun x v => ((x v).1.filter (fun m => !txGone lim m), (holdLanded (x v).2.length lim (x v).2).2))
    hport (fun s p q h => hother _ s p q h) s p) v

theorem inbox_holdAll (lim : Nat) (s : State) :
    ((fins 8).foldl (fun s p => (fins 8).foldl (holdVc lim p) s) s).txn.inbox = s.txn.inbox :=
  foldl_keeps (fun s => s.txn.inbox) (fun s p => foldl_keeps (fun s => s.txn.inbox) (fun s v => inbox_holdVc lim p v s) _ s) _ s

/-- Settles O32, by the messages at the head of the inbox, then the timers. -/
theorem transactionEventsComplete : Obligations.TransactionEventsComplete := by
  unfold Obligations.TransactionEventsComplete
  intro t s₀ s hs
  refine ⟨fun m s' hcut hm => ⟨fun hchip hlag => ?serves, fun hchip => ?dropReq⟩, fun h s₁ hh hs₁ => ?denial,
    fun m s' hcut hm => ⟨fun hchip hlag => ?accepts, fun hchip => ?dropRsp⟩,
    fun m s' c hm => ⟨fun hbad => ?bad, fun hbad htyp => ?grove, fun hbad htyp hdest => ?data⟩,
    fun tag t0 x hx hsent hlate hcut => ?timeout, fun lim hlim hcut => ?hold, fun m hcut hin hport hold hempty => ?holdOne,
    fun hcut => ?suspended, fun tag t0 hq hlate => ?quarantine, ?readAhead⟩
  case serves =>
    show Host.Outcome.next (remoteRequest t s₀) = _
    unfold remoteRequest
    rw [← hs]
    simp [hcut, hm, Option.isSome_iff_ne_none.1 hchip, awaitLag_clear hlag]
  case dropReq =>
    show Host.Outcome.next (remoteRequest t s₀) = _
    unfold remoteRequest
    rw [← hs]
    simp [hcut, hm, hchip]
  case denial =>
    show Host.Outcome.next (denialReady t s₀) = _
    unfold denialReady
    rw [← hs, hs₁]
    simp only [hh]
  case accepts =>
    show Host.Outcome.next (remoteResponse t s₀) = _
    unfold remoteResponse
    rw [← hs]
    simp [hcut, hm, Option.isSome_iff_ne_none.1 hchip, awaitLag_clear hlag]
  case dropRsp =>
    show Host.Outcome.next (remoteResponse t s₀) = _
    unfold remoteResponse
    rw [← hs]
    simp [hcut, hm, hchip]
  case bad =>
    show Host.Outcome.next (messageForward t s₀) = _
    unfold messageForward
    rw [← hs]
    simp [hm, hbad]
  case grove =>
    show Host.Outcome.next (messageForward t s₀) = _
    unfold messageForward
    rw [← hs]
    simp [hm, hbad, htyp]
  case data =>
    show Host.Outcome.next (messageForward t s₀) = _
    unfold messageForward
    rw [← hs]
    simp [hm, hbad, htyp, hdest]
  case timeout =>
    show Host.Outcome.next (remoteTimeout t tag s₀) = _
    unfold remoteTimeout
    rw [← hs]
    simp [hx, hsent, hlate, hcut, synthesise]
  case hold =>
    refine ⟨_, congrArg Host.Outcome.next (messageHoldExpire_eq hs hcut hlim rfl), ?_, fun p v => ?_⟩
    · rw [inbox_holdAll, (foldl_dropHeld _ _).2]
      refine List.filter_congr fun m hm => ?_
      simp [hm]
    · have hheld := vcHeld_holdAll lim (((s.txn.inbox.filter fun m => m.port.isSome && decide (m.at_ < lim)).foldl
        (fun s _ => dropHeld s) (modTxn (fun x => { x with inbox := x.inbox.filter fun m => !(s.txn.inbox.filter
          fun m => m.port.isSome && decide (m.at_ < lim)).contains m }) s))) p v
      rw [vcHeld_of_ports (foldl_dropHeld _ _).1] at hheld
      exact Prod.mk.inj hheld
  case holdOne =>
    have hempty₁ : ∀ p v, vcHeld (dropHeld (modTxn (fun x => { x with inbox := [] }) s)) p v = ([], []) :=
      fun p v => Prod.ext (hempty p v).1 (hempty p v).2
    have hold₁ : [m] = s.txn.inbox.filter fun m => m.port.isSome && decide (m.at_ < s.now - remoteT s) := by
      simp [hin, hport, hold]
    have hkept : modTxn (fun x => { x with inbox := x.inbox.filter fun n => !([m].contains n) }) s
        = modTxn (fun x => { x with inbox := [] }) s := by
      simp [modTxn, hin]
    refine congrArg Host.Outcome.next ((messageHoldExpire_eq hs hcut rfl hold₁).trans ?_)
    rw [hkept]
    exact List.foldl_fixed' (fun p => List.foldl_fixed' (fun v => holdVc_empty (hempty₁ p v)) _) _
  case suspended =>
    subst hs
    exact congrArg Host.Outcome.next (if_pos hcut)
  case quarantine =>
    show Host.Outcome.next (tagQuarantineExpire t tag s₀) = _
    unfold tagQuarantineExpire
    rw [← hs]
    simp [hq, hlate]
  case readAhead =>
    subst hs
    rfl

end Sys2Proof.Machine
end

section
/-! SUPPORT. The link layer: flits and the handshake. -/

namespace Sys2Proof.Machine

/-- A flit of a probe whose bytes the port may have taken twice: it was accepted within 10 µs of a NAK (12 R365). -/
def suspectFlit : LandFlit :=
  { typ := 1, hdr := zeros 16, payload := zeros 240, at_ := 0, last := true, ring := false, entry := 0, sealed_ := false,
    suspect := true }

/-- The state after reset, but for `suspectFlit` on VC 7 of port 7. -/
def suspectLanded : State := modRx 7 7 (fun r => { r with flits := [suspectFlit] }) State.reset

/-- The marks of the messages that wait for their consumers. -/
def inboxMarks : Outcome → List Bool
  | .next s => s.txn.inbox.map (·.suspect)
  | _ => []

/-- The delivered message keeps the mark of its last flit. -/
theorem suspectLanded_delivers : inboxMarks (exec (.flitDeliver 0 7 7) suspectLanded) = [true] := by
  decide +kernel

/-- Refutes O33: FLIT_DELIVER hands on the mark of a flit taken just after a NAK (`suspect`), which the message of the statement does not
bear. -/
theorem not_flitEventsComplete : ¬ Obligations.FlitEventsComplete := by
  unfold Obligations.FlitEventsComplete
  intro h
  obtain ⟨-, -, -, -, -, -, -, -, -, -, -, hdeliver, -⟩ := h 0 7 7 _ suspectLanded _ rfl rfl
  have hnext := (hdeliver suspectFlit [] _ (by decide +kernel) (by decide) rfl (Or.inl rfl)).1 rfl
  have hmarks : inboxMarks (exec (.flitDeliver 0 7 7) suspectLanded) = [false] := by
    rw [hnext]
    decide +kernel
  rw [suspectLanded_delivers] at hmarks
  exact absurd hmarks (by decide)

/-! ### The handshake -/

/-- The handshake that a port starts awaits its peer's hello. -/
theorem startShake_peer {e : Nat} {p : Fin 8} {s : State} {h : Handshake} (hs : (port (startShake e p s) p).link.shake = some h) :
    h.peer = none := by
  unfold startShake sendCtrl queueMsg at hs
  simp only [port_modLink_self, Option.some.injEq] at hs
  rw [← hs]

/-- Settles O34, message by message along the handshake's order of checks. -/
theorem handshakeEventsComplete : Obligations.HandshakeEventsComplete := by
  unfold Obligations.HandshakeEventsComplete
  intro t p l b s₀ s s' hs hl
  refine ⟨fun hc ha hm hk hsh he hdue => ?rekey, fun ht hc hmay => ?hello, fun h ht hc hh => ?proof, fun h ht hc hh => ?finish,
    fun ht => ?abort, fun h hh hlate => ?timeout, fun z hz hlate => ?zeroise⟩
  case rekey =>
    show Host.Outcome.next (rekeyStart t p s₀) = _
    unfold rekeyStart
    rw [← hs]
    simp only [← hl]
    refine congrArg Host.Outcome.next (if_pos ?_)
    obtain h | h | h | ⟨k, c, h, hk', hc'⟩ | h := hdue
    · simp [hc, ha, hm, hk, hsh, he, h]
    · simp [hc, ha, hm, hk, hsh, he, h]
    · simp [hc, ha, hm, hk, hsh, he, h]
    · simp [hc, ha, hm, hk, hsh, he, h, hk', hc']
    · simp [hc, ha, hm, hk, hsh, he, h, rekeyPeriod]
  case hello =>
    have hwait : (l.shake.isNone && l.txKey.isSome && (!s.root.alive || decide (s.now < l.epochAt + 1000000))) = false := by
      obtain h | h | ⟨ha, he⟩ := hmay
      · simp [Option.isSome_iff_ne_none.1 h]
      · simp [h]
      · simp [ha, Nat.not_lt.2 he]
    refine ⟨fun hlen hz hm => ⟨fun h hsome hh hp => ?_, fun h e hnone he hb hh => ?_⟩, fun hbad => ?_, fun hlen hz hm => ?_⟩
    all_goals
      show Host.Outcome.next (secHello t p s₀) = _
      unfold secHello
      rw [← hs]
      simp only [← hl, hwait, ht, hc]
    · simp [hlen, hz, hm, Option.isSome_iff_ne_none.1 hsome, hh, hp]
    · simp [hlen, hz, hm, hnone, ← he, hb, hh, startShake_peer hh]
    · simp [hbad]
    · simp [hlen, hz, hm]
  case proof =>
    refine ⟨fun hp hnok hlen => ⟨fun q hq => ⟨fun hv => ?_, fun hv => ?_⟩, fun hq => ?_⟩, fun hbad => ?_⟩
    all_goals
      show Host.Outcome.next (secProof t p s₀) = _
      unfold secProof
      rw [← hs]
      simp only [ht, hc, hh]
    · simp [Option.isSome_iff_ne_none.1 hp, hnok, hlen, hq, hv, -List.append_assoc]
    · simp [Option.isSome_iff_ne_none.1 hp, hnok, hlen, hq, hv, -List.append_assoc]
    · simp [Option.isSome_iff_ne_none.1 hp, hnok, hlen, hq]
    · simp [hbad]
  case finish =>
    refine ⟨fun hlen he => ?_, fun hlen he => ?_, fun hlen => ?_⟩
    all_goals
      show Host.Outcome.next (secFinish t p s₀) = _
      unfold secFinish
      rw [← hs]
      simp only [ht, hc, hh]
    · simp [hlen, he]
    · simp [hlen, he]
    · simp [hlen]
  case abort =>
    show Host.Outcome.next (secAbort t p s₀) = _
    unfold secAbort
    rw [← hs]
    simp only [ht]
  case timeout =>
    show Host.Outcome.next (handshakeTimeout t p s₀) = _
    unfold handshakeTimeout
    rw [← hs]
    simp [← hl, hh, hlate]
  case zeroise =>
    show Host.Outcome.next (prevKeyZeroise t p s₀) = _
    unfold prevKeyZeroise
    rw [← hs]
    simp [← hl, hz, hlate]

end Sys2Proof.Machine
end

section
/-! SUPPORT. The lanes: training, tables, the spare, and low power. -/

namespace Sys2Proof.Machine

/-! ### A management frame that is acted on -/

@[simp] theorem port_modPhys_self (p : Fin 8) (f : Phys → Phys) (s : State) :
    port (modPhys p f s) p = { port s p with phys := f (port s p).phys } := port_modPort_self p _ s

@[simp] theorem phys_noteFrame (p : Fin 8) (f : Frame) (s : State) :
    (port (noteFrame p f s) p).phys
      = { (port s p).phys with heard := keepLast 128 ((port s p).phys.heard ++ [f.seq.val]) } := by
  simp [noteFrame]

@[simp] theorem noteFrame_now (p : Fin 8) (f : Frame) (s : State) : (noteFrame p f s).now = s.now := rfl

@[simp] theorem rxLane_noteFrame (p : Fin 8) (f : Frame) (s : State) (l : Fin 9) : rxLane (noteFrame p f s) p l = rxLane s p l := by
  simp [rxLane]

@[simp] theorem txLane_noteFrame (p : Fin 8) (f : Frame) (s : State) (l : Fin 9) : txLane (noteFrame p f s) p l = txLane s p l := by
  simp [txLane]

@[simp] theorem hearing_noteFrame (p : Fin 8) (f : Frame) (s : State) (k : Nat) : hearing (noteFrame p f s) p k = hearing s p k := by
  simp [hearing]

@[simp] theorem txSpare_noteFrame (p : Fin 8) (f : Frame) (s : State) : txSpare (noteFrame p f s) p = txSpare s p := by
  simp [txSpare]

@[simp] theorem enterPhys_now (p : Fin 8) (st data : Nat) (s : State) : (enterPhys p st data s).now = s.now := by
  simp [enterPhys, linkTrace]

theorem onFrame_new {t : Nat} {p : Fin 8} {f : Frame} {k : State → State} {s₀ a : State} (ha : a = atPort t p s₀)
    (h : frameNew a p f = true) : onFrame t p f k s₀ = k (noteFrame p f a) := by
  subst ha
  exact if_pos h

theorem onFrame_old {t : Nat} {p : Fin 8} {f : Frame} {k : State → State} {s₀ a : State} (ha : a = atPort t p s₀)
    (h : frameNew a p f = false) : onFrame t p f k s₀ = a := by
  subst ha
  exact if_neg (by simp [h])

/-! ### Training -/

/-- Settles O35, by the kinds of the training events. -/
theorem trainingEventsComplete : Obligations.TrainingEventsComplete := by
  unfold Obligations.TrainingEventsComplete
  intro t p ln f ph s₀ s s₁ hs hph hs₁
  refine ⟨fun h0 h11 s₂ hs₂ => ?energy, fun partner pat inv timing mark hmark => ?qualify, fun t0 h0 hlate => ?falseWake,
    fun m keep hnew hkeep => ?hello, fun grade symbol hnew hst hini hpeer hq => ?phase4, fun grade symbol hnew hst => ?phase6,
    fun own peer s₂ hnew hs₂ => ?verify, fun hst hl hlate => ?detect, fun hst => ?qualifying, fun h3 h7 hlate => ?training,
    fun hst hlate => ?resume, fun noise => ?quiet, fun snr s₂ g hs₂ hg => ?probe, fun s₂ hs₂ hst hl hlate => ?listen,
    fun s₂ s₃ g sf g' hs₂ hst hauto hra hlast hs₃ => ?auto⟩
  case energy =>
    show Host.Outcome.next (energyDetect t p ln s₀) = _
    unfold energyDetect
    rw [← hs]
    simp [← hph, h0, h11, hs₂]
  case qualify =>
    have e : exec (.laneQualify t p ln partner pat ⟨inv, timing⟩) s₀
        = .next (laneQualify t p ln partner pat inv timing s₀) := rfl
    refine ⟨fun h1 h3 hmay s₂ hs₂ => ?_, fun g sf g' hst hl hp hlast hg => ?_, fun hst hp => ?_, fun hst hp => ?_⟩
    all_goals
      rw [e]
      unfold laneQualify
      rw [← hs]
      simp only [← hph]
    · have h0 : ¬ (ph.st = 0 ∨ ph.st = 11) := by omega
      have h9 : ph.st ≠ 9 := by omega
      have htrain : ¬ (pat = .train ∧ ph.st = 1 ∧ ph.listening = true) := fun ⟨h, hst, hl⟩ => hmay hst hl h
      rw [hs₂, hmark, if_neg h0, if_neg h9, if_neg htrain, if_pos h3]
      by_cases hst : ph.st = 1 <;> simp [hst]
    · simp [hst, hl, hp, hlast, hg]
    · simp [hst, hp]
    · cases pat with
      | beacon => exact absurd rfl hp
      | train => simp [hst]
      | wake => simp [hst]
  case falseWake =>
    show Host.Outcome.next (falseWake t p ln s₀) = _
    unfold falseWake
    simp only [h0, if_pos hlate]
  case hello => 
    have e : exec (.hello t ⟨p, f⟩ m) s₀ = .next (takeHelloMsg p f m s₁) := by
      rw [hs₁]
      exact congrArg Host.Outcome.next (onFrame_new hs hnew)
    refine ⟨fun hst => ?_, fun hst => ?_, fun hst => ?_⟩
    all_goals
      rw [e, takeHelloMsg, hkeep]
      simp [hs₁, ← hph, hst]
  case phase4 => 
    have e : exec (.phase t ⟨p, f⟩ 4 grade symbol) s₀ = .next (phaseMsg p 4 grade symbol s₁) := by
      rw [hs₁]
      exact congrArg Host.Outcome.next (onFrame_new hs hnew)
    rw [e, phaseMsg]
    simp [hs₁, ← hph, hst, hini, hpeer, hq]
  case phase6 => 
    have e : exec (.phase t ⟨p, f⟩ 6 grade symbol) s₀ = .next (phaseMsg p 6 grade symbol s₁) := by
      rw [hs₁]
      exact congrArg Host.Outcome.next (onFrame_new hs hnew)
    rw [e, phaseMsg]
    simp [hs₁, ← hph, hst]
  case verify => 
    have e : exec (.verifyResult t ⟨p, f⟩ own peer) s₀ = .next (verifyResult p own peer s₁) := by
      rw [hs₁]
      exact congrArg Host.Outcome.next (onFrame_new hs hnew)
    have hst₁ : (port s₁ p).phys.st = ph.st := by simp [hs₁, hph]
    refine ⟨fun ho hp => ⟨fun hst => ?_, fun hst => ?_⟩, fun hfew => ⟨fun hst => ?_, fun hst => ?_⟩⟩
    all_goals
      rw [e, verifyResult, ← hs₂]
      simp only [hst₁, hst]
    · simp [ho, hp]
    · simp [ho, hp]
    all_goals
      have hno : ¬ (8 ≤ ((List.range 9).filter fun i => own.getLsbD i).length
          ∧ 8 ≤ ((List.range 9).filter fun i => peer.getLsbD i).length) := by omega
      simp only [hno]
      simp
  case detect => 
    show Host.Outcome.next (trainingTimeout t p s₀) = _
    unfold trainingTimeout
    rw [← hs]
    simp [← hph, hst, hl, hlate, trainLimit]
  case qualifying => 
    refine ⟨fun h8 hlate => ?_, fun h8 hlate => ?_⟩
    all_goals
      show Host.Outcome.next (trainingTimeout t p s₀) = _
      unfold trainingTimeout
      rw [← hs]
      simp only [← hph, hst]
    · simp [h8, hlate]
    · simp [Nat.not_le.2 h8, hlate, trainLimit]
  case training => 
    show Host.Outcome.next (trainingTimeout t p s₀) = _
    unfold trainingTimeout
    rw [← hs]
    have h1 : ph.st ≠ 1 := by omega
    have h2 : ph.st ≠ 2 := by omega
    simp [← hph, h1, h2, h3, h7, hlate]
  case resume => 
    show Host.Outcome.next (trainingTimeout t p s₀) = _
    unfold trainingTimeout
    rw [← hs]
    simp [← hph, hst, hlate, trainLimit]
  case quiet => 
    refine ⟨fun hst => ?_, fun hst s₂ hs₂ => ?_⟩
    all_goals
      show Host.Outcome.next (quietComplete t p noise s₀) = _
      unfold quietComplete
      rw [← hs]
      simp [← hph, hst]
    rw [hs₂]
  case probe => 
    refine ⟨fun s₃ hst hown hs₃ => ?_, fun hst => ?_⟩
    all_goals
      show Host.Outcome.next (probeComplete t p snr s₀) = _
      unfold probeComplete
      rw [← hs]
      simp only [← hph, hst]
    · cases hhello : ph.peerHello with
      | none => simp_all
      | some x => simp_all
    · simp
  case listen => 
    show Host.Outcome.next (listenPilot t p s₀) = _
    unfold listenPilot
    rw [← hs₂]
    simp [hst, hl, hlate]
  case auto => 
    refine ⟨fun hg => ?_, fun hg => ?_⟩
    all_goals
      show Host.Outcome.next (autoRetrain t p s₀) = _
      unfold autoRetrain
      rw [← hs₂]
      simp [hst, hauto, hra, hlast, ← hs₃, hg]

/-! ### Tables, retirement and retraining in service -/

/-- Settles O36, by the kinds of the lanes' events. -/
theorem laneUpkeepEventsComplete : Obligations.LaneUpkeepEventsComplete := by
  unfold Obligations.LaneUpkeepEventsComplete
  intro t p ln f s₀ s a a₁ hs ha ha₁
  refine ⟨fun m ackEnd x reply hnew hlive hx hreply => ?table, fun l q hnew hl hq => ?ack,
    fun position m hnew hm hst hrole hpos => ?swap, fun symbol hnew hst => ?retrain, fun snr s₂ margin hst hrole hmar hs₂ => ?snr,
    fun q symbol hq hlater => ?tableSwap, fun q symbol hq hd => ?adopt, fun q symbol hq hlater => ?lapse,
    fun hst hlv hthr => ?retire, fun position m l hm hl => ?takeover,
    fun passed peerPassed x y partner s₂ hst hx hrole hp hy hs₂ => ?done, fun d hd hdue hst hrole hra => ?retry⟩
  case table =>
    have e : exec (.bitTable t ⟨p, f⟩ m ackEnd) s₀ = .next (bitTable p m ackEnd a₁) := by
      rw [ha₁]
      exact congrArg Host.Outcome.next (onFrame_new ha hnew)
    refine ⟨fun hv hpend hlast => ⟨fun hlater hfar => ?_, fun hlate => ?_⟩, fun hv hbusy => ?_, fun recent hv hrec hlen => ?_⟩
    all_goals
      rw [e, bitTable, hreply]
      simp only [ha₁, phys_noteFrame, txLane_noteFrame, ← hx, hlive, hv]
    · cases hla : x.lastAccepted with
      | none => simp [hpend, hlater, hfar]
      | some n => simp [hpend, hlater, hfar, Nat.not_lt.2 (hlast n hla)]
    · have hno : (symLater ackEnd m.swapSymbol && decide (256 ≤ symDist ackEnd m.swapSymbol)) = false := by
        obtain h | h := hlate
        · simp [h]
        · simp [Nat.not_le.2 h]
      cases hla : x.lastAccepted with
      | none => simp [hpend, hno]
      | some n => simp [hpend, hno, Nat.not_lt.2 (hlast n hla)]
    · obtain h | ⟨n, hla, hn⟩ := hbusy
      · simp [h]
      · simp [hla, hn]
    · rw [noteFrame_now, ← hrec]
      simp [Nat.not_le.2 hlen]
  case ack =>
    have e (r : TableResult) : exec (.tableAck t ⟨p, f⟩ ln q.id r q.swapSymbol) s₀
        = .next (tableAck p ln q.id r q.swapSymbol a₁) := by
      rw [ha₁]
      exact congrArg Host.Outcome.next (onFrame_new ha hnew)
    refine ⟨?_, ?_, fun r hack hlate => ?_⟩
    all_goals
      rw [e, tableAck, ha₁]
      simp only [hearing_noteFrame, hl, rxLane_noteFrame, hq]
      simp
  case swap => 
    have e : exec (.spareSwap t ⟨p, f⟩ position ln) s₀ = .next (spareSwap p position ln a₁) := by
      rw [ha₁]
      exact congrArg Host.Outcome.next (onFrame_new ha hnew)
    rw [e, spareSwap, ha₁]
    simp [hm, hst, hrole, hpos]
  case retrain => 
    have e (step : Nat) : exec (.retrain t ⟨p, f⟩ ln step symbol) s₀ = .next (retrainMsg p ln step a₁) := by
      rw [ha₁]
      exact congrArg Host.Outcome.next (onFrame_new ha hnew)
    have hst₁ : (port a₁ p).phys.st = 8 := by simp [ha₁, hst]
    refine ⟨?_, fun s₂ hs₂ => ?_⟩
    all_goals
      rw [e, retrainMsg]
      simp [-Nat.reducePow, hst₁]
    rw [hs₂]
  case snr => 
    refine ⟨fun hc => ?_, fun c hc => ⟨fun hgo => ?_, fun hold hwide hgain => ?_⟩⟩
    all_goals
      show Host.Outcome.next (snrWindowEnd t p ln snr s₀) = _
      unfold snrWindowEnd
      rw [← hs]
      simp only
      rw [if_pos ⟨hst, hrole⟩, ← hmar, ← hs₂, hc]
    · have hgrade : (port s₂ p).phys.grade = (port s p).phys.grade := by
        rw [hs₂, modRxLane, port_modPhys_self]
      simp only [hgrade]
      exact congrArg Host.Outcome.next (if_pos hgo)
    · refine congrArg Host.Outcome.next (if_neg ?_)
      simp [hold, Int.not_lt.2 hwide, Int.not_le.2 hgain]
  case tableSwap => 
    show Host.Outcome.next (tableSwap t p ln symbol s₀) = _
    unfold tableSwap
    rw [← hs]
    simp [hq, hlater]
  case adopt => 
    show Host.Outcome.next (tableAdopt t p ln q.id symbol s₀) = _
    unfold tableAdopt
    rw [← hs]
    simp [hq, hd]
  case lapse => 
    show Host.Outcome.next (tableSwapLapse t p ln symbol s₀) = _
    unfold tableSwapLapse
    rw [← hs]
    simp [hq, hlater]
  case retire => 
    refine ⟨fun hrole hsp => ?_, fun hrole hsp => ?_, fun hrole hra => ?_⟩
    all_goals
      show Host.Outcome.next (laneRetire t p ln s₀) = _
      unfold laneRetire
      rw [← hs]
      simp only [hrole]
      rw [if_neg (by simp [hst, hlv, Nat.not_lt.2 hthr])]
    · simp [hsp]
    · simp [hsp]
    · simp [hra]
  case takeover => 
    show Host.Outcome.next (spareTakeover t p position s₀) = _
    unfold spareTakeover
    rw [← hs]
    simp [hm, hl]
  case done => 
    refine ⟨fun hw => ?_, fun w hw hlane => ?_⟩
    all_goals
      show Host.Outcome.next (laneRetrainDone t p ln (passed && peerPassed) s₀) = _
      unfold laneRetrainDone
      rw [← hs]
      simp only [← hx, ← hp]
      rw [if_neg (by simp [hst, hrole])]
    · cases hw' : (port s p).phys.retrain with
      | none => simp [hs₂, and_assoc]
      | some w => simp [hs₂, and_assoc, hw w hw']
    · simp [hw, hlane, hs₂, and_assoc]
  case retry => 
    show Host.Outcome.next (laneRetrainRetry t p ln s₀) = _
    unfold laneRetrainRetry
    rw [← hs]
    simp [hd, hdue, hst, hrole, hra]

/-! ### Low power -/

/-- Settles O37: what each event of LOW and a partner's DOWN do to the port, and the wake from DEEP. -/
theorem lanePowerEventsComplete : Obligations.LanePowerEventsComplete := by
  unfold Obligations.LanePowerEventsComplete
  intro t p f ph s₀ s a a₁ hs hph ha ha₁
  refine ⟨fun ms hnew hst => ?enter, fun ms hnew hst hasked => ?ack, fun reason hnew hmay => ?down,
    fun hold => ⟨fun ms => ⟨?_, ?_⟩, fun reason => ?_⟩, fun hst hdue => ?beacon, fun hst hlate => ?loss,
    fun lanes since hdeep hcfg hlanes hlong => ?energy⟩
  case enter =>
    refine congrArg Host.Outcome.next ((onFrame_new ha hnew).trans ?_)
    rw [← ha₁, lowEnter]
    exact if_pos (by simp [ha₁, hst])
  case ack =>
    refine congrArg Host.Outcome.next ((onFrame_new ha hnew).trans ?_)
    rw [← ha₁, lowAck]
    exact if_pos (by simp [ha₁, hst, hasked])
  case down =>
    refine congrArg Host.Outcome.next ((onFrame_new ha hnew).trans ?_)
    have h2 : 2 ≤ (port a p).phys.st := by
      simp only [frameNew, Bool.and_eq_true, decide_eq_true_eq] at hnew
      exact hnew.1.1
    rw [← ha₁, downMsg]
    refine if_neg ?_
    simp only [ha₁, phys_noteFrame]
    omega
  case beacon =>
    show Host.Outcome.next (beaconSend t p s₀) = _
    unfold beaconSend
    rw [← hs]
    simp [← hph, hst, hdue]
  case loss =>
    show Host.Outcome.next (beaconLoss t p s₀) = _
    unfold beaconLoss
    rw [← hs]
    simp [← hph, hst, hlate]
  case energy =>
    show Host.Outcome.next (linkEnergyWake t p lanes since s₀) = _
    unfold linkEnergyWake wakePowered
    rw [← hs]
    simp [hdeep, hcfg, hlanes, hlong]
  all_goals exact congrArg Host.Outcome.next (onFrame_old ha hold)

end Sys2Proof.Machine
end

section
/-! SUPPORT. The messages and timers of collectives, of the grove and of the twin. -/

namespace Sys2Proof.Machine

/-- Settles O38, by the kinds of the collective messages and timers. -/
theorem collectiveEventsComplete : Obligations.CollectiveEventsComplete := by
  unfold Obligations.CollectiveEventsComplete
  intro t m s₀ s s' hs hcut
  refine ⟨fun ht hlag => ?seg, fun ht hlag => ?counts, fun ht => ⟨fun hk => ?_, fun k g s₁ hk hs₁ => ⟨fun hb => ?_, fun hb ho => ?_,
    fun o hb ho => ?_⟩⟩, fun k g o hg ho hready hwaits hsent hfin hlate => ?timeout, ?park⟩
  case seg =>
    show Host.Outcome.next (seg t s₀) = _
    unfold seg
    rw [← hs]
    simp [hcut, ht, awaitLag_clear hlag]
  case counts =>
    show Host.Outcome.next (countsMsg t s₀) = _
    unfold countsMsg
    rw [← hs]
    simp [hcut, ht, awaitLag_clear hlag]
  case timeout =>
    show Host.Outcome.next (colTimeout t k s₀) = _
    unfold colTimeout
    rw [← hs]
    simp only [hg, ho]
    rw [if_pos]
    obtain h | ⟨hkind, hrc⟩ := hwaits
    · simp [hready, h, hsent, hfin, hcut, hlate]
    · simp [hready, hkind, hrc, hsent, hfin, hcut, hlate]
  case park =>
    show Host.Outcome.next (parkExpire t s₀) = _
    unfold parkExpire
    rw [← hs]
    simp [hcut]
  all_goals
    show Host.Outcome.next (abortMsg t s₀) = _
    unfold abortMsg colAbort
    rw [← hs]
    simp only [hcut, ht, hk]
  · simp
  · simp [hb]
  · simp [hb, ho, hs₁]
  · simp [hb, ho, hs₁]

/-- Settles O39: the grove's messages, each acted on once it has come whole, and its timers. -/
theorem groveEventsComplete : Obligations.GroveEventsComplete := by
  unfold Obligations.GroveEventsComplete
  intro t m s₀ s s' hs
  refine ⟨fun p hm hp => ⟨fun hc => ?_, fun hc => ?_⟩, fun hm => ⟨fun htr hreg => ?_, fun e htr hreg hst hser => ?_, fun htr => ?_⟩,
    fun hm hsrc hnr => ⟨fun j hj => ⟨fun hok => ?_, fun hok => ?_⟩, fun hj hok => ?_⟩, fun j hj hlate => ?joinTimeout,
    fun hm htr hser => ?beat, fun s₁ hchip hdue hs₁ => ?beatTimer, fun c e he htr hst hlate => ?silent,
    fun e hm he htr hser => ?leave, fun p hm hp => ⟨fun hmode hchip htr hsrc hc hst hown => ?_, fun hbad => ?_⟩⟩
  case joinTimeout =>
    show Host.Outcome.next (joinTimeout t s₀) = _
    unfold joinTimeout
    rw [← hs]
    simp [hj, hlate]
  case beat =>
    refine congrArg Host.Outcome.next ((onCtrl_arrives hs hm).trans ?_)
    cases he : tget (ctrlSrc m) s'.grv.reg with
    | none => simp [htr, he]
    | some e => simp [htr, he, hser e he]
  case beatTimer =>
    show Host.Outcome.next (grvBeatTimer t s₀) = _
    unfold grvBeatTimer
    rw [← hs]
    simp only
    rw [if_neg (by simp [Option.isSome_iff_ne_none.1 hchip, Nat.not_lt.2 hdue])]
    rw [hs₁]
    rfl
  case silent =>
    show Host.Outcome.next (grvMemberSilent t c s₀) = _
    unfold grvMemberSilent
    rw [← hs]
    simp [he, htr, hst, hlate]
  case leave =>
    refine congrArg Host.Outcome.next ((onCtrl_arrives hs hm).trans ?_)
    simp [he, htr, hser]
  all_goals
    refine congrArg Host.Outcome.next ((onCtrl_arrives hs hm).trans ?_)
  · simp [hp, hc]
  · simp [hp, Nat.not_lt.2 hc]
  · simp [htr, hreg]
  · simp [htr, hreg, hst, hser]
  · simp [htr]
  · simp [hsrc, hnr, hj, hok]
  · simp [hsrc, hnr, hj, hok]
  · simp [hsrc, hnr, hj, hok]
  · simp [hp, hmode, Option.isSome_iff_ne_none.1 hchip, htr, hsrc, Nat.not_lt.2 hc, Nat.not_lt.2 hst, hown]
  · obtain h | h | h := hbad
    · simp [hp, h]
    · simp [hp, h]
    · simp [hp, h]

/-! ### The twin -/

@[simp] theorem genLater_self (g : BitVec 8) : genLater g g = false := by simp [genLater]

theorem ne_of_genLater {g g' : BitVec 8} (h : genLater g g' = true) : g' ≠ g := by
  rintro rfl
  simp at h

theorem withGen_same {g : Nat} {act : State → State} {s : State} (h : BitVec.ofNat 8 g = s.twn.gen) : withGen g act s = act s :=
  if_pos h

theorem withGen_later {g : Nat} {act : State → State} {s : State} (h : genLater s.twn.gen (BitVec.ofNat 8 g) = true) :
    withGen g act s = declareLost s := by
  simp [withGen, ne_of_genLater h, h]

theorem withGen_earlier {g : Nat} {act : State → State} {s : State} (hne : BitVec.ofNat 8 g ≠ s.twn.gen)
    (h : genLater s.twn.gen (BitVec.ofNat 8 g) = false) : withGen g act s = answerStale s := by
  simp [withGen, hne, h]

/-- Settles O40: the session's messages, the tagged ones by their generation, and the pair's timers. -/
theorem twinEventsComplete : Obligations.TwinEventsComplete := by
  unfold Obligations.TwinEventsComplete
  intro t m s₀ s s' hs
  refine ⟨fun k e s₁ s₂ hm hp hsrc hn hpro hpairing hs₁ hs₂ he hk => ?hello, fun hm hp hsrc hsent hnok => ?proof,
    fun w hw hlate => ?pairTimeout, fun g hm hg => ?beat, fun k hst hdue hk => ?beatTimer, fun hst hlate => ?beatLoss,
    fun g s₁ hm hg hs₁ hgen => ?probe, fun w g hm hg => ?probeAck, fun w s₁ hw hlate hs₁ => ?probeTimeout,
    fun hm hg hst => ?yield, fun hm hg hy => ?yieldAck, fun w hw hlate => ?yieldTimeout, fun g hm hg => ?stale, fun hm => ?unpair⟩
  case hello =>
    have hfirst : ¬ (m.port ≠ some 7 ∨ ctrlSrc m ≠ s'.twn.chip ∨ (s'.twn.st = .none ∨ s'.twn.st = .promoted)) := by
      simp [hp, hsrc, hn, hpro]
    have hmay : (s'.twn.st == .pairing && !(u8At (ctrlFields m) 13).testBit 0) = false := by
      by_cases h : s'.twn.st = .pairing
      · simp [h, hpairing h]
      · simp [h]
    have hsend : (if (s'.twn.peerNonce.isNone && s₁.twn.ownNonce != []) = true then sendHello (s'.twn.st == .pairing) s₁ else s₁)
        = s₂ := by
      rw [hs₂]
      by_cases h : s'.twn.peerNonce = none <;> simp [h]
    refine ⟨fun hid hgen => ?_, fun hbad => ?_⟩
    all_goals
      refine congrArg (fun x => Host.Outcome.next (withdraw x)) ((onCtrl_arrives hs hm).trans ((if_neg hfirst).trans ?_))
      rw [if_neg (ne_true_of_eq_false hmay)]
      simp only [← hs₁, hsend, he, hk]
    · simp [hid, hgen]
    · simp [hbad]
  case proof =>
    have harr : twinProof t s₀ = (let b := pairBranch s'
        match b.1 with
        | some k => if ctrlFields m = twinProofOf b.2 k (if twinLow b.2 then 1 else 0) then
            sessionDone k (modTwn (fun w => { w with proofOk := true }) b.2) else sessionFails b.2
        | none => sessionFails b.2) := by
      refine (onCtrl_arrives hs hm).trans (if_neg ?_)
      simp [hp, hsrc, hsent, hnok]
    refine ⟨fun k hk => ⟨fun hf => ?_, fun hf => ?_⟩, fun hk => ?_⟩
    all_goals
      show Host.Outcome.next (withdraw (twinProof t s₀)) = _
      rw [harr]
      simp only [hk]
    · rw [if_pos hf]
    · rw [if_neg hf]
  case pairTimeout =>
    show Host.Outcome.next (pairTimeout t s₀) = _
    unfold pairTimeout
    rw [← hs]
    simp [hw, hlate]
  case beat =>
    subst hg
    have e : exec (.graftBeat t) s₀ = .next (withGen (u8At ((ctrlFields m).take 16) 0)
        (fun s => modTwn (fun w => { w with lastBeat := s.now }) s) s') := congrArg Host.Outcome.next (onTagged_arrives hs hm)
    exact ⟨fun h => by rw [e, withGen_same h], fun h => by rw [e, withGen_later h], fun h h' => by rw [e, withGen_earlier h h']⟩
  case beatTimer =>
    show Host.Outcome.next (graftBeatTimer t s₀) = _
    unfold graftBeatTimer
    rw [← hs]
    exact congrArg Host.Outcome.next (if_pos (by simp [hst, hdue, hk]))
  case beatLoss =>
    show Host.Outcome.next (graftBeatLoss t s₀) = _
    unfold graftBeatLoss
    rw [← hs]
    exact congrArg Host.Outcome.next (if_pos ⟨hst, hlate⟩)
  case probe =>
    subst hg
    refine ⟨fun h => ?_, fun h => ?_, fun h h' => ?_⟩
    all_goals
      refine congrArg Host.Outcome.next ((onProbe_arrives hs hm).trans ?_)
      simp only [← hs₁, hgen]
    · simp [h]
    · simp [h]
    · simp [h, h']
  case probeAck =>
    subst hg
    refine ⟨fun h hw hnonce => ?_, fun h h' => ?_⟩
    all_goals
      refine congrArg Host.Outcome.next ((onProbe_arrives hs hm).trans ?_)
    · obtain h | h := h
      · simp [h, hw, hnonce]
      · simp [h, hw, hnonce]
    · simp [h, h']
  case probeTimeout =>
    show Host.Outcome.next (probeTimeout t s₀) = _
    unfold probeTimeout
    rw [← hs]
    simp only [hw]
    rw [if_pos hlate, hs₁]
    simp
  case yield =>
    refine ⟨fun hy => ?_, fun hy hlow => ?_⟩
    all_goals
      refine congrArg Host.Outcome.next ((onTagged_arrives hs hm).trans ((withGen_same hg).trans ?_))
      simp only [hst]
    · obtain h | h := hy
      · simp [h]
      · simp [h]
    · simp [hy, hlow]
  case yieldAck =>
    refine congrArg Host.Outcome.next ((onTagged_arrives hs hm).trans ((withGen_same hg).trans ?_))
    simp [Option.isSome_iff_ne_none.1 hy]
  case yieldTimeout =>
    show Host.Outcome.next (yieldTimeout t s₀) = _
    unfold yieldTimeout
    rw [← hs]
    simp [hw, hlate]
  case stale =>
    subst hg
    refine ⟨fun h => ?_, fun h h' => ?_, fun h h' => ?_⟩
    all_goals
      refine congrArg Host.Outcome.next ((onProbe_arrives hs hm).trans ?_)
    · simp [h]
    · simp [h, h']
    · simp [h, h']
  case unpair => exact congrArg Host.Outcome.next (onTagged_arrives hs hm)

end Sys2Proof.Machine
end

section
/-! SUPPORT. The mirrored regions of a pair. -/

namespace Sys2Proof.Machine

theorem badArg_ne_ok : stBadArg ≠ stOk := by decide

theorem denied_ne_ok : stAccessDenied ≠ stOk := by decide

theorem peerReset_ne_ok : stPeerReset ≠ stOk := by decide

/-- The region's test of a write's range, as the model writes it. -/
theorem refuses_false {r : Region} {off n : Nat} (hst : r.st = .syncing ∨ r.st = .inSync) (hlo : r.offset ≤ off)
    (hhi : off + 64 * n ≤ r.offset + r.length) :
    (!(r.st == .syncing || r.st == .inSync) || !decide (r.offset ≤ off ∧ off + 64 * n ≤ r.offset + r.length)) = false := by
  obtain h | h := hst <;> simp [h, hlo, hhi]

theorem refuses_true {r : Region} {off n : Nat}
    (h : ¬ ((r.st = .syncing ∨ r.st = .inSync) ∧ r.offset ≤ off ∧ off + 64 * n ≤ r.offset + r.length)) :
    (!(r.st == .syncing || r.st == .inSync) || !decide (r.offset ≤ off ∧ off + 64 * n ≤ r.offset + r.length)) = true := by
  by_contra hno
  simp only [not_or, Bool.not_eq_true, Bool.not_eq_false', Bool.or_eq_true, beq_iff_eq, decide_eq_true_eq] at hno
  exact h hno

/-- Settles O41, by the messages of a mirrored region. -/
theorem mirrorEventsComplete : Obligations.MirrorEventsComplete := by
  unfold Obligations.MirrorEventsComplete
  intro t m f s₀ s s' hs
  refine ⟨fun st hm hf hst => ⟨fun hno => ?_, fun k s₁ hok hadd => ?_⟩,
    fun e hm hf he => ⟨fun k s₁ hok hadd => ?_, fun hfail => ?_⟩, fun hm hf => ?close,
    fun b n off lines answer hcut ht hb hn hoff h1 h64 hvc hal hpage hlines hlen hans => ?write,
    fun g hcut ht hg => ?answer, fun k r hr hst hcar => ?sync⟩
  case close =>
    subst hf
    exact congrArg Host.Outcome.next (onTagged_arrives hs hm)
  case sync =>
    show Host.Outcome.next (mirrorSyncDone t k s₀) = _
    unfold mirrorSyncDone
    rw [← hs]
    simp [hr, hst, hcar]
  case answer =>
    subst hg
    have e : exec (.mirrorWriteAnswer t) s₀ = .next (withGen (u8At m.bytes 1) (fun s =>
        match s.twn.regions.find? fun e => !e.2.target && e.2.id == u32At m.bytes 4 with
        | none => s
        | some (k, r) =>
          match r.sent with
          | e :: rest => if e.seq ≠ u64At m.bytes 8 then s else mirrorAnswered k r e rest (u16At m.bytes 2) s
          | [] => s) s') := by
      show Host.Outcome.next (mirrorWriteAnswer t s₀) = _
      unfold mirrorWriteAnswer
      rw [← hs]
      simp only [hcut, ht]
      rfl
    refine ⟨fun k r x rest hgen hr hsent hseq => ⟨fun hok => ?_, fun hfail => ?_⟩, fun hne hlate => ?_, fun hne hearly => ?_⟩
    · rw [e, withGen_same hgen]
      simp [hr, hsent, hseq, mirrorAnswered, hok]
    · rw [e, withGen_same hgen]
      simp [hr, hsent, hseq, mirrorAnswered, hfail]
    · rw [e, withGen_later hlate]
    · rw [e, withGen_earlier hne hearly]
  case write =>
    have hwhole : (decide (1 ≤ n ∧ n ≤ 64) && m.vc == 5 && off % 64 == 0 && decide (off % 4096 + 64 * n ≤ 4096)
        && b.length == 32 + 64 * (lines.filter fun l => !l.2).length) = true := by
      simp [h1, h64, hvc, hal, hpage, hlen]
    refine ⟨fun k r hr => ⟨fun hgen hst hlo hhi => ⟨fun hseq => ?_, fun hseq => ?_⟩, fun hgen hbad => ?_, fun hgen => ?_⟩,
      fun hr hgen => ?_⟩
    all_goals
      show Host.Outcome.next (mirrorWrite t s₀) = _
      unfold mirrorWrite
      rw [← hs]
      simp only [hcut, ht, ← hb, ← hn, ← hoff, ← hlines, hwhole, hr, hans]
    · simp only [refuses_false hst hlo hhi]
      simp [hgen, hseq]
    · simp only [refuses_false hst hlo hhi]
      simp [hgen, hseq, badArg_ne_ok]
    · simp only [refuses_true hbad]
      simp [hgen, denied_ne_ok]
    · simp [hgen, peerReset_ne_ok]
    · simp [hgen, denied_ne_ok]
  all_goals
    refine congrArg Host.Outcome.next ((onTagged_arrives hs hm).trans ?_)
    rw [← hf]
  · simp [← hst, hno]
  · simp [← hst, hok, hadd]
  · simp [he, hok, hadd]
  · simp [he, hfail]

end Sys2Proof.Machine
end

section
/-! SUPPORT. Heartbeats, and the resets of boughs, of Crown, of Root and of the device. -/

namespace Sys2Proof.Machine

/-! ### Heartbeats -/

/-- A fold over the numbers below `n` that does nothing at any of them. -/
theorem foldl_fins_idle {α : Type} {n : Nat} (f : α → Fin n → α) (x : α) (h : ∀ c, f x c = x) : (fins n).foldl f x = x := by
  induction fins n with
  | nil => rfl
  | cons c l ih => rw [List.foldl_cons, h c, ih]

/-- BEAT_CHECK leaves the device as it was where no bough has missed its beats or its progress. -/
theorem beatCheck_idle {t : Nat} {s₀ s : State} (hs : s = s₀.at t)
    (h : ∀ b : Fin 64, countsMisses s b = true → s.now < (vget s.cmb.beats b).lastBeat + 300000
      ∧ s.now < (vget s.cmb.beats b).tilesAt + s.cfg.progressMs * 1000000) : beatCheck t s₀ = s := by
  unfold beatCheck
  rw [← hs]
  dsimp only
  split
  · rfl
  · refine foldl_fins_idle _ _ fun b => ?_
    by_cases hb : countsMisses s b = true
    · obtain ⟨hbeat, htiles⟩ := h b hb
      rw [if_neg (by simp [hb]), if_neg (Nat.not_le.2 hbeat), if_neg fun hp => Nat.not_le.2 htiles hp.2]
    · rw [if_pos (by simp [hb])]

/-- BEAT_CHECK declares the one bough hung that makes no progress. -/
theorem beatCheck_noProgress {t : Nat} {b : Fin 64} {s₀ s : State} (hs : s = s₀.at t) (halive : s.root.alive = true)
    (hawake : crownAwake s = true) (hcut : s.obs.cut.st ≠ .taken) (hcrown : s.cmb.crownPending = none)
    (hdevice : s.cmb.devicePending = none) (hcounts : countsMisses s b = true)
    (hbeat : s.now < (vget s.cmb.beats b).lastBeat + 300000) (hrec : (boughRecord s b).1 ≠ 0xFFFFFFFF)
    (htiles : (vget s.cmb.beats b).tilesAt + s.cfg.progressMs * 1000000 ≤ s.now)
    (hothers : ∀ c : Fin 64, c ≠ b → countsMisses s c = false) : beatCheck t s₀ = declareHung b 2 s := by
  unfold beatCheck
  rw [← hs]
  dsimp only
  rw [if_neg (by simp [halive, hawake, hcut, hcrown, hdevice])]
  refine foldl_fins_single b _ _ _ (fun c hc => ?_) ?_ fun c hc => ?_
  · simp [hothers c hc]
  · rw [if_neg (by simp [hcounts]), if_neg (Nat.not_le.2 hbeat), if_pos ⟨hrec, htiles⟩]
  · rw [if_pos]
    simp [countsMisses_declareHung 2 _ hc, hothers c hc]

/-- Settles O42, by the kinds of beats and of checks. -/
theorem beatEventsComplete : Obligations.BeatEventsComplete := by
  unfold Obligations.BeatEventsComplete
  intro t s₀ s hs
  refine ⟨fun b seq tiles stall hst hawake hhalt halive => ?beat, fun h => congrArg Host.Outcome.next (beatCheck_idle hs h),
    fun b halive hawake hcut hcrown hdevice hcounts hbeat hrec htiles hothers => congrArg Host.Outcome.next
      (beatCheck_noProgress hs halive hawake hcut hcrown hdevice hcounts hbeat hrec htiles hothers),
    fun n s₁ hst hhalt hdevice hn hs₁ => ?rootBeat,
    fun e s₁ hwdt hlate hhalt hdevice hs₁ => ⟨fun he hsoon => ?_, fun he hreached => ?_, fun he hreached => ?_⟩,
    fun sa sb sc s₂ s₃ hres hdevice hsa hnoq hq hsc hs₂ hs₃ => ?restart,
    fun r hr hlate hwdt hst hhalt => ?timeoutRoot, fun hr harm hlate hwdt h0 h7 hhalt => ?timeoutDevice⟩
  case beat =>
    show Host.Outcome.next (twigBeat t b seq tiles stall s₀) = _
    unfold twigBeat
    rw [← hs]
    simp [hst, hawake, hhalt, halive]
  case rootBeat =>
    show Host.Outcome.next (rootBeat t s₀) = _
    unfold rootBeat
    rw [← hs]
    simp only [← hn, ← hs₁]
    rw [if_neg (by simp [Nat.not_lt.2 hst, hhalt, hdevice])]
    have hnow : s₁.now = s.now := by
      rw [hs₁]
      rfl
    by_cases h3 : 3 ≤ n
    · by_cases hw : s.cmb.wdt = .armed
      · simp [h3, hw]
      · simp [h3, hw, hnow]
    · simp [h3]
  case restart =>
    show Host.Outcome.next (rootRestart t s₀) = _
    unfold rootRestart
    rw [← hs]
    simp only [← hsa]
    rw [if_neg (by simp [hres, hdevice])]
    have hqa : sa.cmb.quarantine = s.cmb.quarantine := by
      rw [hsa]
      rfl
    cases hq' : s.cmb.quarantine with
    | none =>
      have hb := hnoq hq'
      subst hb
      simp only [hqa, hq', ← hsc, ← hs₂, ← hs₃]
    | some b =>
      have hb := hq b hq'
      simp only [hqa, hq', ← hb, ← hsc, ← hs₂, ← hs₃]
  case timeoutRoot =>
    show Host.Outcome.next (bootTimeout t s₀) = _
    unfold bootTimeout
    rw [← hs]
    simp [hr, hlate, hwdt, hst, hhalt]
  case timeoutDevice =>
    show Host.Outcome.next (bootTimeout t s₀) = _
    unfold bootTimeout
    rw [← hs]
    simp [hr, harm, hlate, hwdt, h0, h7, hhalt]
  all_goals
    show Host.Outcome.next (rootHang t s₀) = _
    unfold rootHang rootStops
    rw [← hs]
    simp only [← hs₁]
    rw [if_neg (by simp [hwdt, Nat.not_lt.2 hlate, hhalt, hdevice])]
  · simp [he, hsoon]
  · cases he' : s.cmb.restartEnd with
    | none => simp [hreached]
    | some e => simp [hreached, Nat.not_lt.2 (he e he')]
  · cases he' : s.cmb.restartEnd with
    | none => simp [hreached]
    | some e => simp [hreached, Nat.not_lt.2 (he e he')]

/-! ### Resets -/

/-- What a device warm reset leaves: the islands lost, the instant of the reset, the power state RUN; the history's own resets take the
device out of service. -/
theorem deviceWarmReset_leaves {t cause : Nat} {s₀ s : State} (hs : s = s₀.at t) (hp : s.cmb.devicePending = some cause) :
    (deviceWarmReset t s₀).cmb.deviceAt = s.now ∧ (deviceWarmReset t s₀).pwr.st = .run
      ∧ (cause = 7 → (deviceWarmReset t s₀).cmb.outOfService = true) := by
  unfold deviceWarmReset
  rw [← hs]
  extract_lets
  split
  · next hnone => exact nomatch hnone.symm.trans hp
  next c hc =>
  obtain rfl : cause = c := Option.some.inj (hp.symm.trans hc)
  extract_lets s₂ s₃ s₄ s₅ s₆ _ s₇
  have h₂ : s₂.now = s.now := (logReset_now_root _ _ _ _ _ _).1
  have h₃ : s₃.now = s.now := (crashDump_now_root _).1.trans ((journalReset_now_root _ _ _ _ _).1.trans h₂)
  have h₄ : s₄.now = s.now := (foldl_keeps (fun s : State => s.now) (fun s p => by split <;> simp) _ _).trans h₃
  have h₅ : s₅.now = s.now := (foldl_keeps (fun s : State => s.now) (fun s u => by simp) _ _).trans h₄
  clear_value s₅
  refine ⟨h₅, rfl, ?_⟩
  rintro rfl
  exact Bool.or_true _

/-- Settles O44, by the kinds of resets under way. -/
theorem resetEventsComplete : Obligations.ResetEventsComplete := by
  unfold Obligations.ResetEventsComplete
  intro t s₀ s hs
  refine ⟨fun b cause regs s₁ sr s₂ hp hs₁ hpart hfree hs₂ => ?bough, fun cause s₁ s₂ s₃ hp hs₁ hs₂ hs₃ => ?crown,
    fun sender receiver hg => ?gated, fun sender receiver hg => ⟨_, ?stall, rfl⟩, fun sender receiver hq hra hany => ?escalate,
    fun cause hp => ⟨_, exec_deviceWarmReset t s₀, deviceWarmReset_leaves hs hp⟩,
    fun x hx hle => congrArg Host.Outcome.next (resetDelayExpire_due hs hx hle), fun hlost hroom => ?gap⟩
  case bough =>
    show Host.Outcome.next (boughReset t b regs s₀) = _
    unfold boughReset
    rw [← hs]
    cases hn : boughPart s b with
    | none =>
      have hr := hfree hn
      simp only [hp, hn, ← hs₁, ← hr, ← hs₂]
    | some n =>
      have hr := hpart n hn
      simp only [hp, hn, ← hs₁, ← hr, ← hs₂]
  case crown =>
    show Host.Outcome.next (crownReset t s₀) = _
    unfold crownReset
    rw [← hs]
    simp only [hp, ← hs₁, ← hs₂, ← hs₃]
  case gated =>
    show Host.Outcome.next (islandStall t sender receiver s₀) = _
    unfold islandStall
    rw [← hs]
    simp [hg]
  case stall =>
    show Host.Outcome.next (islandStall t sender receiver s₀) = _
    unfold islandStall
    rw [← hs]
    simp [hg]
  case escalate =>
    show Host.Outcome.next (islandStallEscalate t sender receiver s₀) = _
    unfold islandStallEscalate
    rw [← hs]
    exact congrArg Host.Outcome.next (if_pos ⟨hq, hany, hra⟩)
  case gap =>
    show Host.Outcome.next (journalGap t s₀) = _
    unfold journalGap
    rw [← hs]
    refine congrArg Host.Outcome.next (if_neg ?_)
    rintro (h | ⟨hheld, hfull⟩)
    · omega
    · exact Nat.not_lt.2 (hroom hheld) hfull

end Sys2Proof.Machine
end

section
/-! SUPPORT. Observation, cuts and debug. -/

namespace Sys2Proof.Machine

/-- Settles O45, by the kinds of tracing and of freezing. -/
theorem observationEventsComplete : Obligations.ObservationEventsComplete := by
  unfold Obligations.ObservationEventsComplete
  intro t s₀ s hs
  refine ⟨fun u hopen hfull => ?full, fun u e rest hopen hbuf hold => ?old, fun hon hup => ?segments,
    fun u pc stall h hh hmask hawake hst hdue => ?sample, fun u pc stall x hx hearly => ?early, fun p hst hup hint hdue => ?syncTx,
    fun m p s' ht hp => ?syncRx, by subst hs; rfl, by subst hs; rfl, by subst hs; rfl, fun b hb => ?freeze⟩
  case full =>
    show Host.Outcome.next (traceDrain t u s₀) = _
    unfold traceDrain
    rw [← hs]
    simp [hopen, hfull]
  case old =>
    show Host.Outcome.next (traceDrain t u s₀) = _
    unfold traceDrain
    rw [← hs]
    simp [hopen, hbuf, hold]
  case segments =>
    show Host.Outcome.next (traceExport t s₀) = _
    unfold traceExport
    rw [← hs]
    simp [hon, hup]
  case sample =>
    have hsample : sampleDue s u.val = true := by
      unfold sampleDue
      split
      · next x hx => exact decide_eq_true (hdue x hx)
      · rfl
    have hhart : ((hartState s h).halted || stallOk u.val stall) = true := by simpa using hst
    show Host.Outcome.next (pcSample t u pc stall s₀) = _
    unfold pcSample
    rw [← hs]
    simp only [hh]
    rw [if_neg (by simp only [hmask, hawake, hhart, hsample]; decide)]
    rfl
  case early =>
    have hsample : sampleDue s u.val = false := by simp [sampleDue, hx, Nat.not_le.2 hearly]
    show Host.Outcome.next (pcSample t u pc stall s₀) = _
    unfold pcSample
    rw [← hs]
    cases unitHart u.val with
    | none => rfl
    | some h => simp [hsample]
  case syncTx =>
    show Host.Outcome.next (syncTx t p s₀) = _
    unfold syncTx
    rw [← hs]
    exact congrArg Host.Outcome.next (if_neg (by simp [hst, hup, hint, Nat.not_lt.2 hdue]))
  case syncRx =>
    show Host.Outcome.next (syncRx t s₀) = _
    unfold syncRx
    rw [← hs]
    simp only [ht, hp]
    rfl
  case freeze =>
    show Host.Outcome.next (freezeTimeReached t b s₀) = _
    unfold freezeTimeReached
    rw [← hs]
    exact congrArg Host.Outcome.next (if_neg hb)

/-- Settles O46: FIRE, the markers that close a channel of the cut and the others, and the cut that is taken. -/
theorem cutEventsComplete : Obligations.CutEventsComplete := by
  unfold Obligations.CutEventsComplete
  intro t m p s₀ s s' hs
  refine ⟨?fire, fun ht hp hst hid hpeer hnew hclosed => ?closes, fun ht hp hother => ?ignored, fun s₁ hst hs₁ => ?taken⟩
  case fire =>
    subst hs
    rfl
  case closes =>
    show Host.Outcome.next (marker t s₀) = _
    unfold marker
    rw [← hs]
    simp [ht, hp, hst, hid, hpeer, hnew, hclosed]
  case ignored =>
    have hnot : (s'.obs.cut.st != .idle && s'.obs.cut.id == u32At m.bytes 0 && peerInMap s' p && !vget s'.obs.cut.received p
        && channelClosed s' p) = false := by
      obtain h | h | h | h | h := hother <;> simp [h]
    show Host.Outcome.next (marker t s₀) = _
    unfold marker
    rw [← hs]
    simp only [ht, hp, hnot]
    rfl
  case taken =>
    show Host.Outcome.next (cutTaken t s₀) = _
    unfold cutTaken
    rw [← hs]
    simp only [← hs₁]
    exact congrArg Host.Outcome.next (if_neg (by simp [hst]))

/-- Settles O47, by the requests of a debugger, of a port and of the RDBG registers. -/
theorem debugEventsComplete : Obligations.DebugEventsComplete := by
  unfold Obligations.DebugEventsComplete
  intro t s₀ s hs
  refine ⟨fun h regs s₁ hmay hset hs₁ => ?trigger, fun h regs hno => ⟨?noTrigger, ?noHalt⟩,
    fun h regs hmay hstep => ?step, fun h regs hmay hstep => ?halt, fun h hon hopen => ?resume, fun root a v hr => ?write, fun root a hr => ?read,
    by subst hs; rfl, fun m p s' ht hp => ⟨fun hv => ?_, fun hv => ?_, fun hv hop => ?_, fun x hv hop hx => ?_⟩,
    fun m tag at_ s' ht hw htag hp => ?answer, fun tag since hw hlate => ?timeout⟩
  case trigger =>
    show Host.Outcome.next (triggerFire t h regs s₀) = _
    unfold triggerFire
    rw [← hs]
    simp [hmay, hset, ← hs₁]
  case noTrigger =>
    show Host.Outcome.next (triggerFire t h regs s₀) = _
    unfold triggerFire
    rw [← hs]
    simp [hno]
  case noHalt =>
    show Host.Outcome.next (haltRequest t h regs s₀) = _
    unfold haltRequest
    rw [← hs]
    simp [hno]
  case step =>
    show Host.Outcome.next (haltRequest t h regs s₀) = _
    unfold haltRequest
    rw [← hs]
    simp only [hmay, hstep]
    rfl
  case halt =>
    show Host.Outcome.next (haltRequest t h regs s₀) = _
    unfold haltRequest
    rw [← hs]
    simp only [hmay, hstep]
    rfl
  case resume =>
    show Host.Outcome.next (resumeRequest t h s₀) = _
    unfold resumeRequest
    rw [← hs]
    simp [hon, hopen]
  case write =>
    show Host.Outcome.next (debugModuleAccess t root a (some v) s₀) = _
    unfold debugModuleAccess
    rw [← hs]
    simp [hr]
  case read =>
    show Host.Outcome.next (debugModuleAccess t root a none s₀) = _
    unfold debugModuleAccess
    rw [← hs]
    simp [hr]
  case answer =>
    show Host.Outcome.next (debugAnswer t s₀) = _
    unfold debugAnswer
    rw [← hs]
    simp [ht, hw, ← htag, hp]
  case timeout =>
    show Host.Outcome.next (rdbgTimeout t s₀) = _
    unfold rdbgTimeout
    rw [← hs]
    simp [hw, hlate]
  all_goals
    show Host.Outcome.next (debugRequest t s₀) = _
    unfold debugRequest
    rw [← hs]
    simp only [ht, hp, hv]
  · rw [if_neg (by decide), if_pos (by decide)]
  · rw [if_pos trivial, if_pos (by decide)]
  · rw [if_neg (by decide)]
    simp [hop]
  · rw [if_neg (by decide)]
    simp [hop, ← hx]

end Sys2Proof.Machine
end

section
/-! SUPPORT. Power, the power-up sequence, boot, and the upkeep of memory. -/

namespace Sys2Proof.Machine

/-! ### A vector filled place by place -/

theorem vget_foldl_vset_of_notMem {α : Type} {n : Nat} (f : Fin n → α) (j : Fin n) (l : List (Fin n)) (a : Vector α n) (h : j ∉ l) :
    vget (l.foldl (fun a i => vset a i (f i)) a) j = vget a j := by
  induction l generalizing a with
  | nil => rfl
  | cons i l ih =>
    obtain ⟨hi, hl⟩ := not_or.1 fun hj => h (List.mem_cons.2 hj)
    rw [List.foldl_cons, ih _ hl, vget_vset_of_ne _ _ hi]

theorem vget_foldl_vset_of_mem {α : Type} {n : Nat} (f : Fin n → α) (j : Fin n) (l : List (Fin n)) (a : Vector α n) (h : j ∈ l) :
    vget (l.foldl (fun a i => vset a i (f i)) a) j = f j := by
  induction l generalizing a with
  | nil => exact absurd h List.not_mem_nil
  | cons i l ih =>
    rw [List.foldl_cons]
    by_cases hj : j ∈ l
    · exact ih _ hj
    · obtain rfl : j = i := (List.mem_cons.1 h).resolve_right hj
      rw [vget_foldl_vset_of_notMem f j l _ hj, vget_vset_self]

/-- A vector that takes a list's elements place by place holds the list. -/
theorem toList_foldl_vset {n : Nat} (v : List Int) (a : Vector Int n) (h : v.length = n) :
    ((fins n).foldl (fun a i => vset a i (v.getD i.val 0)) a).toList = v := by
  refine List.ext_getElem (by simp [h]) fun i h₁ h₂ => ?_
  have hi : i < n := h ▸ h₂
  have hget := vget_foldl_vset_of_mem (fun i : Fin n => v.getD i.val 0) ⟨i, hi⟩ (fins n) a (List.mem_finRange _)
  rw [List.getD_eq_getElem _ _ h₂] at hget
  exact hget

/-! ### Measurements and supplies -/

/-- TEMP_SAMPLE notes twelve readings before it looks for a trip. -/
theorem tempSample_notes {t : Nat} {v : List Int} {s₀ s : State} (hs : s = s₀.at t) (hlen : v.length = 12) :
    ∃ s' : State, tempSample t v s₀ = (match v.findIdx? fun x => decide (420 ≤ x) with
        | some i => if s'.pwr.st = .tripped then s' else thermalTrip i (v.getD i 0) s'
        | none => s')
      ∧ s'.pwr.temps.toList = v ∧ s'.pwr.coolSince = (if ∀ x ∈ v, x < 340 then some (s.pwr.coolSince.getD s.now) else none)
      ∧ s'.pwr.st = s.pwr.st := by
  unfold tempSample
  rw [← hs]
  dsimp only
  rw [if_neg (not_not.2 hlen)]
  refine ⟨_, rfl, toList_foldl_vset v _ hlen, ?_, rfl⟩
  show (if v.all (fun x => decide (x < 340)) = true then _ else _) = _
  simp only [List.all_eq_true, decide_eq_true_eq]

/-- Settles O48, by the kinds of measurements, of supplies and of clocks. -/
theorem powerEventsComplete : Obligations.PowerEventsComplete := by
  unfold Obligations.PowerEventsComplete
  intro t s₀ s hs
  refine ⟨fun mw l hra hlast hl => ?measure, fun mw x hx hearly => ?early, fun high => by subst hs; rfl,
    fun v hlen hcold => ?temps, fun v i hlen hi hst => ?trip, fun c hc hst hstuck hlate => ?recover,
    fun m mv hon hout hlast => ?warn, fun m mv hon hout => ?fault, fun m s₁ hm hs₁ => ?glitch,
    fun absent ppm limit hon hlimit hbad => ?clock, fun ppm limit hlimit hle hge => ?clockFine, fun ppm hx => ?xtal,
    by subst hs; rfl⟩
  case measure =>
    have hnot : ((s.pwr.samples.getLast?.map fun x => decide (s.now < x.1 + 100000)).getD false) = false := by
      cases hx : s.pwr.samples.getLast? with
      | none => rfl
      | some x => simp [Nat.not_lt.2 (hlast x hx)]
    show Host.Outcome.next (powerMeasure t mw s₀) = _
    unfold powerMeasure meanPower
    rw [← hs]
    simp only [hnot, ← hl]
    simp [hra]
  case early =>
    show Host.Outcome.next (powerMeasure t mw s₀) = _
    unfold powerMeasure
    rw [← hs]
    simp [hx, hearly]
  case temps =>
    obtain ⟨s', hrun, htemps, hcool, hst⟩ := tempSample_notes hs hlen
    refine ⟨s', congrArg Host.Outcome.next (hrun.trans ?_), htemps, hcool, hst⟩
    rw [List.findIdx?_eq_none_iff.2 fun x hx => by simpa using hcold x hx]
  case trip =>
    obtain ⟨s', hrun, htemps, -, hst'⟩ := tempSample_notes hs hlen
    refine ⟨s', congrArg Host.Outcome.next (hrun.trans ?_), htemps, hst'⟩
    rw [hi]
    exact if_neg (hst' ▸ hst)
  case recover =>
    show Host.Outcome.next (tripRecovery t s₀) = _
    unfold tripRecovery
    rw [← hs]
    simp [hc, hst, hstuck, hlate]
  case warn =>
    show Host.Outcome.next (supplyWarn t m mv s₀) = _
    unfold supplyWarn
    rw [← hs]
    cases hw : vget s.pwr.lastWarn m with
    | none => simp [hon, hout, hw]
    | some w => simp [hon, hout, hw, hlast w hw]
  case fault =>
    show Host.Outcome.next (supplyFault t m mv s₀) = _
    unfold supplyFault
    rw [← hs]
    simp [hon, hout]
  case glitch =>
    show Host.Outcome.next (supplyGlitch t m s₀) = _
    unfold supplyGlitch
    rw [← hs]
    have hpwr : s₁.pwr = s.pwr := by rw [hs₁, logErr_pwr]
    cases m with
    | none =>
      simp only [← hs₁, hpwr]
      rfl
    | some m =>
      obtain ⟨hle, hon⟩ := hm m rfl
      simp only [← hs₁, hpwr, hle, hon]
      rfl
  case clock =>
    show Host.Outcome.next (clockFault t absent ppm s₀) = _
    unfold clockFault
    rw [← hs]
    simp only [← hlimit]
    refine congrArg Host.Outcome.next (if_pos ?_)
    obtain h | h := hbad
    · simp [h, hon]
    · simp [h, hon]
  case clockFine =>
    show Host.Outcome.next (clockFault t false ppm s₀) = _
    unfold clockFault
    rw [← hs]
    simp only [← hlimit]
    refine congrArg Host.Outcome.next (if_neg ?_)
    simp [Int.not_lt.2 hle, Int.not_lt.2 hge]
  case xtal =>
    show Host.Outcome.next (xtalFallback t ppm s₀) = _
    unfold xtalFallback
    rw [← hs]
    simp [hx]

end Sys2Proof.Machine
end

section
/-! SUPPORT. The power-up sequence and the power states; the boot. -/

namespace Sys2Proof.Machine

/-- Settles O49, by the steps of the sequence, of the endpoint and of the sleeping states. -/
theorem sequenceEventsComplete : Obligations.SequenceEventsComplete := by
  unfold Obligations.SequenceEventsComplete
  intro t s₀ s hs
  refine ⟨fun x hst hph => ?up, fun g hst hph hg hen => ?rail, fun m hst hph hg hen hlate => ?fail,
    fun s' hs' hon => ?_, fun s' hs' hoff => ?_, fun s' hs' hon => ?_, fun s' hs' hoff => ?_, fun hup => ?pf, fun n hup => ?vf,
    fun s₁ hst hph hs₁ => ?nap, fun hst hph => ?quiet, fun w hw hhigh hlate => ?wake,
    ⟨_, rfl, rfl, rfl, rfl, rfl, rfl, rfl, rfl, rfl, ?floor0, ?floor1⟩⟩
  case up =>
    show Host.Outcome.next (powerUp t x s₀) = _
    unfold powerUp
    rw [← hs]
    simp [hst, hph]
  case rail =>
    have hgo : ¬ (s.pwr.st ≠ .leaving ∨ s.pwr.phase ≠ 3 ∨ s.pwr.groupsUp ≠ g.val ∨ vget s.pwr.enables g = false) := by
      simp [hst, hph, hg, hen]
    show ∃ s', Host.Outcome.next (railGroupInRange t g s₀) = _ ∧ _
    unfold railGroupInRange
    rw [← hs]
    simp only [if_neg hgo]
    by_cases hlast : g.val + 1 < 3
    · refine ⟨_, rfl, ?_⟩
      rw [dif_pos hlast]
      exact ⟨rfl, fun h2 => absurd hlast (by omega), fun h => vget_vset_self _ _ _⟩
    · refine ⟨_, rfl, ?_⟩
      rw [dif_neg hlast]
      exact ⟨rfl, fun _ => ⟨rfl, rfl, rfl⟩, fun h => absurd h hlast⟩
  case fail =>
    show Host.Outcome.next (seqFail t m s₀) = _
    unfold seqFail
    rw [← hs]
    simp [hst, hph, hg, hen, hlate]
  case pf =>
    show Host.Outcome.next (pfFlr t s₀) = _
    unfold pfFlr
    rw [← hs]
    simp [hup]
  case vf =>
    show Host.Outcome.next (vfFlr t n s₀) = _
    unfold vfFlr
    rw [← hs]
    simp only [hup]
    rfl
  case nap =>
    show Host.Outcome.next (napExit t s₀) = _
    unfold napExit
    rw [← hs]
    simp only [← hs₁]
    exact congrArg Host.Outcome.next (if_neg (by simp [hst, hph]))
  case quiet =>
    show Host.Outcome.next (quietExit t s₀) = _
    unfold quietExit
    rw [← hs]
    simp [hst, hph]
  case wake =>
    show Host.Outcome.next (pcieWakeRelease t s₀) = _
    unfold pcieWakeRelease
    rw [← hs]
    simp [hw, hhigh, hlate]
  case floor0 => rfl
  case floor1 => rfl
  · show Host.Outcome.next (perstFall t s₀) = _
    unfold perstFall
    rw [← hs]
    simp [← hs', hon]
  · show Host.Outcome.next (perstFall t s₀) = _
    unfold perstFall
    rw [← hs]
    simp [← hs', hoff]
  · show Host.Outcome.next (perstRise t s₀) = _
    unfold perstRise
    rw [← hs]
    simp [← hs', hon]
  · show Host.Outcome.next (perstRise t s₀) = _
    unfold perstRise
    rw [← hs]
    simp [← hs', hoff]

/-! ### Boot -/

/-- The directory prefers slot A or slot B. -/
theorem directory_slot (s : State) : (directory s).slot = 0 ∨ (directory s).slot = 1 := by
  have hcopy (k : Nat) (d : Directory) (h : directoryCopy s k = some d) : d.slot = 0 ∨ d.slot = 1 := by
    unfold directoryCopy at h
    dsimp only at h
    split at h
    · obtain rfl := Option.some.inj h
      exact Nat.mod_two_eq_zero_or_one _
    · exact nomatch h
  unfold directory governingCopy
  split
  · next k d h =>
    split at h
    · next a b ha hb =>
      dsimp only at h
      split at h
      · obtain ⟨-, rfl⟩ := Prod.mk.inj (Option.some.inj h)
        exact hcopy 1 _ hb
      · obtain ⟨-, rfl⟩ := Prod.mk.inj (Option.some.inj h)
        exact hcopy 0 _ ha
    · next a ha hb =>
      obtain ⟨-, rfl⟩ := Prod.mk.inj (Option.some.inj h)
      exact hcopy 0 _ ha
    · next b ha hb =>
      obtain ⟨-, rfl⟩ := Prod.mk.inj (Option.some.inj h)
      exact hcopy 1 _ hb
    · exact nomatch h
  · exact Or.inl rfl

/-- Why the ROM goes to recovery when neither slot's image passes: the results of the slots, and a fuse without the owner's hash. -/
def recoveryReason (a b : Nat) (s : State) : Nat := if s.fuse.ownerHash.all (· == 0) ∧ (a = 3 ∨ b = 3) then 4 else 1

theorem recoveryReason_eq (a b : Nat) (s : State) : recoveryReason a b s = 1 ∨ recoveryReason a b s = 4 := by
  unfold recoveryReason
  split
  · exact Or.inr rfl
  · exact Or.inl rfl

/-- What the ROM does with the slots: the preferred one first, the other where it does not pass. -/
def bootSlots (spiA spiB : Bool) (slot : Nat) (s : State) : State :=
  let spi := fun (k : Nat) => if k = 0 then spiA else spiB
  let first := slotResult s slot (spi slot)
  let other := if first = 1 then 0 else slotResult s (1 - slot) (spi (1 - slot))
  let a := if slot = 0 then first else other
  let b := if slot = 0 then other else first
  let s := { s with boot := { s.boot with slotA := a, slotB := b } }
  if first = 1 then startImage slot s
  else if other = 1 then startImage (1 - slot) s
  else enterRecovery (recoveryReason a b s) s

/-- The results of the slots noted. -/
def noteSlots (a b : Nat) (s : State) : State := { s with boot := { s.boot with slotA := a, slotB := b } }

theorem bootSlots_a (spiA spiB : Bool) (s : State) : bootSlots spiA spiB 0 s
    = if slotResult s 0 spiA = 1 then startImage 0 (noteSlots 1 0 s)
      else if slotResult s 1 spiB = 1 then startImage 1 (noteSlots (slotResult s 0 spiA) 1 s)
      else enterRecovery (recoveryReason (slotResult s 0 spiA) (slotResult s 1 spiB) s)
        (noteSlots (slotResult s 0 spiA) (slotResult s 1 spiB) s) := by
  unfold bootSlots noteSlots
  by_cases h : slotResult s 0 spiA = 1
  · simp [h]
  · by_cases h' : slotResult s 1 spiB = 1
    · simp [h, h']
    · simp [h, h', recoveryReason]

theorem bootSlots_b (spiA spiB : Bool) (s : State) : bootSlots spiA spiB 1 s
    = if slotResult s 1 spiB = 1 then startImage 1 (noteSlots 0 1 s)
      else if slotResult s 0 spiA = 1 then startImage 0 (noteSlots 1 (slotResult s 1 spiB) s)
      else enterRecovery (recoveryReason (slotResult s 0 spiA) (slotResult s 1 spiB) s)
        (noteSlots (slotResult s 0 spiA) (slotResult s 1 spiB) s) := by
  unfold bootSlots noteSlots
  by_cases h : slotResult s 1 spiB = 1
  · simp [h]
  · by_cases h' : slotResult s 0 spiA = 1
    · simp [h, h']
    · simp [h, h', recoveryReason]

/-- Settles O50: the ROM's choice by what the probe and the slots show, the end of the boot, and what follows it. -/
theorem bootEventsComplete : Obligations.BootEventsComplete := by
  unfold Obligations.BootEventsComplete
  intro t s₀ s hs
  refine ⟨fun x sh hst hrun hsh hbad => ?flash, fun x sh s₁ sd s₂ a b hst hrun hsfdp hquad hsh hs₁ hsd hs₂ ha hb => ?rom,
    fun d e s₁ s₂ s₃ s₄ hst hd he hs₁ hs₂ hs₃ hs₄ => ?ready, fun a harm hst htrial hnf hact hwdt hlate => ?confirm,
    fun a hact hdue => ?activate⟩
  case flash =>
    show Host.Outcome.next (bootRom t x s₀) = _
    unfold bootRom
    rw [← hs]
    simp only [← hsh]
    rw [if_neg (by simp [hst, hrun]), if_pos]
    obtain h | h := hbad
    · simp [h]
    · simp [h]
  case rom =>
    have e : exec (.bootRom t x) s₀
        = .next (if x.stacksFailed ≠ 0 then enterRecovery 3 s₂ else bootSlots x.spiErrorA x.spiErrorB (directory sd).slot s₂) := by
      show Host.Outcome.next (bootRom t x s₀) = _
      unfold bootRom
      rw [← hs]
      refine congrArg Host.Outcome.next ((if_neg (by simp [hst, hrun])).trans ((if_neg (by simp [hsfdp, hquad])).trans ?_))
      clear ha hb
      subst hs₂ hsd hs₁ hsh
      rfl
    refine ⟨fun hf => ?_, fun hf h0 h1 => ?_, fun hf h0 h1 h2 => ?_, fun hf h0 h1 => ?_, fun hf h0 h1 h2 => ?_, fun hf h1 h2 => ?_⟩
    all_goals
      rw [e]
    · rw [if_pos hf]
    all_goals rw [if_neg (not_not.2 hf)]
    · rw [h0, bootSlots_a, ← ha, if_pos h1]
      rfl
    · rw [h0, bootSlots_a, ← ha, ← hb, if_neg h1, if_pos h2]
      rfl
    · rw [h0, bootSlots_b, ← hb, if_pos h1]
      rfl
    · rw [h0, bootSlots_b, ← ha, ← hb, if_neg h1, if_pos h2]
      rfl
    · refine ⟨recoveryReason a b s₂, recoveryReason_eq a b s₂, ?_⟩
      obtain h0 | h0 := directory_slot sd
      · rw [h0, bootSlots_a, ← ha, ← hb, if_neg h1, if_neg h2]
        rfl
      · rw [h0, bootSlots_b, ← ha, ← hb, if_neg h2, if_neg h1]
        rfl
  case ready =>
    show Host.Outcome.next (bootReady t s₀) = _
    unfold bootReady
    rw [← hs]
    refine congrArg Host.Outcome.next ((if_neg (not_not.2 hst)).trans ?_)
    subst hd he hs₁ hs₂ hs₃ hs₄
    rfl
  case confirm =>
    have hrun : trialConfirm t s₀ = { updateDirectory (directory s).slot false s with
        boot := { (updateDirectory (directory s).slot false s).boot with trial := false } } := by
      unfold trialConfirm
      rw [← hs]
      simp only [harm]
      exact if_pos ⟨hst, htrial, hnf, hact, hwdt, hlate⟩
    exact ⟨_, congrArg Host.Outcome.next hrun, rfl, rfl⟩
  case activate =>
    show Host.Outcome.next (activateReset t s₀) = _
    unfold activateReset
    rw [← hs]
    simp [hact, hdue]

end Sys2Proof.Machine
end

section
/-! SUPPORT. The upkeep of memory, and the windows' queries. -/

namespace Sys2Proof.Machine

/-- Settles O51, by the kinds of upkeep and of queries. -/
theorem upkeepEventsComplete : Obligations.UpkeepEventsComplete := by
  unfold Obligations.UpkeepEventsComplete
  intro t s₀ s hs
  refine ⟨fun g hrun hg => ?zeroise, fun es bad soft s₁ hrun hbad hsoft hs₁ => ?scrub,
    fun row s₁ hrun hcount hs₁ => ?row,
    fun n p upTo lim s₁ hp hold hrun hlim hs₁ => ⟨fun hmore => ?_, fun hend => ?_⟩,
    fun c hera => ⟨_, rfl, ?bank⟩, fun chip n id hra => ?query, fun ch e p r hra hp htk hr hcmd => ?answer, fun e he => ?timeout⟩
  case zeroise =>
    show Host.Outcome.next (granuleZeroised t g s₀) = _
    unfold granuleZeroised
    rw [← hs]
    simp only [hrun, hg]
    rfl
  case scrub =>
    show Host.Outcome.next (scrubPass t es s₀) = _
    unfold scrubPass
    rw [← hs]
    simp only [← hbad, ← hsoft, ← hs₁, hrun]
    rfl
  case row =>
    have hdue : ¬ (!memoryRuns s || decide ((tgetD row [] (countRow row 0 s).mm.rowErrors).length < s.cfg.rowErrors)) = true := by
      simp [hrun, Nat.not_lt.2 hcount]
    refine ⟨?_, fun h hfree hfind => ?_, fun hnone => ?_⟩
    all_goals
      show Host.Outcome.next (rowRetire t row _ s₀) = _
      unfold rowRetire
      rw [← hs]
      simp only [← hs₁]
      refine congrArg Host.Outcome.next ((if_neg hdue).trans ?_)
    · exact if_pos trivial
    · simp [hfree, hfind]
    · simp [hnone]
  case bank =>
    have hc : vget (bankEraseDone t c s₀).hwd.counters c
        = if (vget s.hwd.counters c).high % 2 = 0 then { vget s.hwd.counters c with bankB := 0, erasing := false }
          else { vget s.hwd.counters c with bankA := 0, erasing := false } := by
      unfold bankEraseDone
      rw [← hs]
      refine (vget_vmod_self _ _ _).trans ?_
      rw [if_neg (by simp [hera])]
    show (vget (bankEraseDone t c s₀).hwd.counters c).erasing = false ∧ _
    rw [hc]
    by_cases h : (vget s.hwd.counters c).high % 2 = 0
    · rw [if_pos h]
      exact ⟨rfl, fun _ => rfl, fun hno => absurd h hno⟩
    · rw [if_neg h]
      exact ⟨rfl, fun hyes => absurd hyes h, fun _ => rfl⟩
  case query =>
    show Host.Outcome.next (exportQuery t chip n id s₀) = _
    unfold exportQuery
    rw [← hs]
    simp [hra]
  case answer =>
    show Host.Outcome.next (exportQueryAnswer t ch e s₀) = _
    unfold exportQueryAnswer
    rw [← hs]
    have hr' : acceptedReq (modTxn (fun x => { x with pendingImports := x.pendingImports.erase p }) s) ch = some r := hr
    simp [hra, hp, htk, hr', hcmd]
  case timeout =>
    show Host.Outcome.next (mirrorOpenTimeout t s₀) = _
    unfold mirrorOpenTimeout
    rw [← hs]
    simp only [he]
  all_goals
    show Host.Outcome.next (sweepDone t n upTo s₀) = _
    unfold sweepDone
    rw [← hs]
    simp only [hp, ← hlim, ← hs₁]
    rw [if_neg (by simp [Option.isSome_iff_ne_none.1 hold, hrun])]
  · rw [if_pos hmore]
  · rw [if_neg (by simp [hend])]

end Sys2Proof.Machine
end
